-- ==== Sys2Proof/Word.lean ====
section
/-!
DEFINITION. The byte and its plainest arithmetic.
-/

namespace Sys2Proof

/-- One byte of memory, of a packet or of a DOMAIN. -/
abbrev Byte := BitVec 8

end Sys2Proof
end

