-- ==== Sys2Proof/Syntax.lean ====
section
/-!
DEFINITION. The commands the block takes from outside, one constructor per row of spec/opcode_table.json, with the
operands each carries, and the forms of what reaches the block over its ports (Ethernet frames, samples, requests).
-/

namespace Sys2Proof

/-- Which byte memory an address lies in. -/
inductive Space where
  | host | pantry | dram | nv
deriving DecidableEq, Repr

/-- Who sends a register access: the host over PCIe, or a control core (R20, R407). -/
inductive Who where
  | host
  | core (k : Nat)
deriving DecidableEq, Repr

/-- A peer of the dictionary (R417): a CAN controller with a client node-ID, a MAC with source address and TRDP
sessionId, or a mailbox ring. -/
inductive Peer where
  | can (ctl node : Nat)
  | trdp (mac ip sid : Nat)
  | ring (r : Nat)
deriving DecidableEq, Repr

/-- What firmware hands to the time base (R33, R34, R35): its servo and master-selection results. -/
inductive Servo where
  /-- a master is selected -/
  | selected
  /-- no master is selected any more -/
  | lost
  /-- the grandmaster changed -/
  | grandmaster
  /-- a valid sync of the selected master gave this offset in ns (time base minus master) -/
  | sync (offset : Int)
  /-- a PTP message was rejected, malformed or of another domain -/
  | rejected
deriving DecidableEq, Repr

/-- One sample row data segment of RFC 4175: its row, its field bit, its pixel offset and the samples it carries.
`y2` is the second line of a 4:2:0 line pair. -/
structure Srd where
  row : Nat
  field : Bool
  offset : Nat
  y : List Nat
  y2 : List Nat
  c1 : List Nat
  c2 : List Nat
deriving DecidableEq, Repr

/-- The payload header of RFC 9134: transmission and packetisation mode, last packet of the frame, interlace, and the
frame, slice and packet counters. -/
structure XsHead where
  t : Bool
  k : Bool
  l : Bool
  i : Nat
  f : Nat
  sep : Nat
  p : Nat
deriving DecidableEq, Repr

/-- What a JPEG XS picture header says (R71, R195): size, sampling, depth, profile, slice height in lines and vertical
decomposition levels. -/
structure XsPicture where
  width : Nat
  height : Nat
  sampling : Nat
  depth : Nat
  profile : Nat
  sliceHeight : Nat
  nly : Nat
deriving DecidableEq, Repr

/-- What an RTP packet carries. -/
inductive RtpBody where
  /-- RFC 4175: up to 3 segments; `fieldId` whether field identification is present -/
  | raw (rows : List Srd) (fieldId : Bool)
  /-- RFC 9134: the payload header, the slice the codestream bytes belong to (`none`: the markers ahead of the first
  slice) and whether they complete the slice's first precinct, the picture header they hold, and the bytes -/
  | xs (head : XsHead) (slice : Option Nat) (precinct : Bool) (pic : Option XsPicture) (bytes : List Byte)
  /-- L16 or L24: samples, one list of channels per sample instant, as 32-bit words -/
  | pcm (samples : List (List Nat))
deriving DecidableEq, Repr

/-- An RTP packet over UDP and IPv4. `seq` is the extended sequence number for RFC 4175. -/
structure Rtp where
  srcIp : Nat
  dstIp : Nat
  port : Nat
  pt : Nat
  ssrc : Nat
  seq : Nat
  ts : Nat
  marker : Bool
  body : RtpBody
deriving DecidableEq, Repr

/-- What a received frame is, past any MACsec. -/
inductive EthBody where
  | eapol
  | ptp
  | rtp (r : Rtp) (headerOk : Bool)
  /-- ARP reply naming an address -/
  | arp (ip addr : Nat)
  | icmp
  /-- IGMP; an IGMPv3 query names the group it asks for, 0 for all -/
  | igmp (query : Option Nat)
  /-- TRDP process data (UDP 17224) -/
  | trdpPd
  /-- TRDP message data (UDP 17225): the sender's address and port, its sessionId, the ComId and the payload (R424) -/
  | trdpMd (ip port sid comId : Nat) (payload : List Byte)
  | other
deriving DecidableEq, Repr

/-- The SecTAG of a protected frame, and whether its ICV verifies under the association's key. -/
structure SecTag where
  sci : Option Nat
  an : Nat
  pn : Nat
  icvOk : Bool
deriving DecidableEq, Repr

/-- A frame as a MAC receives it. `toUs`: to `eth_addr`, broadcast or a joined group; `fecOk`: every RS-FEC codeword of it could
be corrected. [DESIGN CHOICE, log entry 126] -/
structure EthFrame where
  len : Nat
  fcsOk : Bool
  pause : Bool
  vid : Option Nat
  sec : Option SecTag
  toUs : Bool
  body : EthBody
  fecOk : Bool := true
deriving DecidableEq, Repr

/-- A frame the control cores hand to a MAC (R326): its length, sequenceId and messageType when it is a PTP event
message, and what it is; `resolved`: its next hop has an ARP entry; `group`: it goes to broadcast or to a group the part
has joined. -/
structure FwFrame where
  len : Nat
  event : Option (Nat × Nat)
  body : EthBody
  resolved : Bool
  group : Bool
deriving DecidableEq, Repr

/-- How the training of one link candidate ended (R218). -/
inductive TrainResult where
  | pass | clockRecovery | equalisation | auxSilent
deriving DecidableEq, Repr

/-- How programming of a firmware slot ended, for `FW_WRITE_DONE` (R511). -/
inductive FwResult where
  | ok | flashFailed
deriving DecidableEq, Repr

/-- The commands. The comment of each gives the rule its row names. -/
inductive Instr where
  -- time base and tick
  | tick
  | tickWrap
  | frameStart (g : Nat)
  | commitPoint (g : Nat)
  | outputLine (d y : Nat) (lateLayers : List Nat) (wbDrained capDrained : Nat)
  | writeBackComplete (d : Nat)
  | captureComplete (d : Nat)
  | ptpEnable (on : Bool)
  | holdoverTimeout
  | servoHandoff (r : Servo)
  | stepGo
  | tbAddend (v : Nat)
  | tickCapture
  | tickCaptureLatch
  | latchedRead (w : Who) (addr : Nat)
  -- arrivals and codec delivery
  | receiveFrame (m : Nat) (f : EthFrame)
  | frameCloseTimeout (a : Nat)
  | pathTimeout (a path : Nat)
  | sourceLoss (a : Nat)
  | injectionTake (a : Nat)
  | injectionCopyDone (a : Nat) (bytes audio : List Byte)
  | generatorFrameDone (a : Nat)
  /-- `lines` is the slice height of the codestream; a parse failure loses the slice from line `lost` of it on -/
  | sliceDecodeDone (a k lines : Nat) (lost : Option Nat) (parseErrors : Nat)
  | sliceEncodeDone (d k : Nat)
  -- staging, takes and salvos
  | stgOpen (s : Nat)
  | stgSeal (s : Nat)
  | stgSealHeld (s : Nat)
  | stgAbandon (s : Nat)
  | stg0Seal
  | stg0Hold
  | stg0Abandon
  | take (d : Nat)
  | takeCancel (d : Nat)
  | salvoCopy (d : Nat)
  | salvoGo (s : Nat)
  | salvoCancel (s : Nat)
  | salvoClear (s : Nat)
  -- engines and codec engines
  | engineHardFault (e : Nat)
  | lateResponse (m : Nat)
  | engineBistStart (e : Nat)
  | engineBistResult (e : Nat) (ok : Bool)
  | bistAbandon (codec : Bool) (e : Nat)
  | codecBistStart (c : Nat)
  | codecBistResult (c : Nat) (ok : Bool)
  | engReadmit (e : Nat)
  | engReadmitDone (e : Nat) (ok : Bool)
  | codecFault (c : Nat)
  | cdcReadmit (c : Nat)
  | cdcReadmitDone (c : Nat) (ok : Bool)
  | bistForceFault (v : Nat)
  -- departures and heads
  | packetDue (d : Nat)
  | latePacketHandover (d : Nat)
  | transmitFrame (m : Nat) (fw : Option FwFrame)
  /-- `status` is what DPCD 0x00200 to 0x00205 hold -/
  | irqHpd (h : Nat) (status : List Byte)
  | unplug (h : Nat)
  | plug (h : Nat) (caps edid : List Byte)
  | linkTrainingDone (h : Nat) (r : TrainResult)
  | headRetry (h : Nat)
  | headRetrain (h : Nat)
  | auxTimeout (h : Nat)
  | dpcdPoll (h : Nat) (answered : Bool)
  -- audio
  | frameSync (p : Nat) (wire : List Nat)
  | portLoss (p : Nat)
  | pllLock (k : Nat)
  | pllRefLoss (k : Nat)
  | trackerLock (t ratio : Nat)
  | mixSample (n : Nat)
  | duckBlock (n : Nat)
  | sampleMissing (ch : Nat)
  | flowLoss (f : Nat)
  -- Porter
  | porterNop (k : Nat)
  | porterCopy (k : Nat) (hostData : List Byte)
  | porterFill (k : Nat) (hostData : List Byte)
  | porterBlend (k : Nat) (hostData : List Byte)
  | porterCompletion (k : Nat) (poisoned : Bool)
  | porterAbort (k : Nat)
  | porterResume (k : Nat)
  -- lanes
  | laneAttempt (i : Nat)
  | laneUp (i : Nat)
  | signalLoss (i : Nat) (detect : Bool)
  | quadPllLoss (q : Nat)
  | quadPllLock (q : Nat)
  | eqFreeze (i : Nat)
  | eqResume (i : Nat)
  | readaptation (i : Nat)
  | laneRecal (i : Nat)
  | laneTest (i v : Nat)
  | laneLoop (i v : Nat)
  | laneInject (i : Nat)
  | checkerClear (i : Nat)
  -- Ethernet and MACsec
  | arpRefresh (m ip : Nat)
  | msTxAn (m an : Nat) (fw : Bool)
  | keyLoadComplete (m : Nat)
  | saRetire (ch an : Nat)
  | ethLoop (m v : Nat)
  | tsIdPop (m : Nat)
  -- PCIe and rings
  | pcieReset (kind : Nat)
  | pcieLoop (v : Nat)
  | pantryWindowWrite (offset : Nat) (bytes : List Byte)
  | ringEnable (r : Nat)
  | ringDisable (r : Nat)
  | ringReset (r : Nat)
  | ringClearError (r : Nat)
  | ringDescWrite (word v : Nat)
  | doorbell (w : Who) (r v be : Nat)
  | entryFetch (r : Nat) (bytes : List Byte) (ok : Bool)
  -- DRAM
  | dchEvacuate (c : Nat)
  | stripeMoved (c : Nat)
  | dchRetrain (c : Nat)
  | dchTrainingDone (c : Nat) (ok : Bool)
  | dchReadmit (c : Nat)
  | dchLoop (c v : Nat)
  | mr4Poll (c rate : Nat)
  -- Innkeeper
  | inkMaskSet (w bits : Nat)
  | inkMaskClr (w bits : Nat)
  | inkPendSet (w bits : Nat)
  | inkPendClr (w bits : Nat)
  | inkFire (s : Nat)
  | inkClaim (t : Nat)
  | inkComplete (t s : Nat)
  | holdRelease (g : Nat)
  | hqArm (bits : Nat)
  -- dictionary and sessions
  | objectRead (p : Peer) (index sub : Nat)
  | objectWrite (p : Peer) (index sub : Nat) (data : List Byte)
  | registerWrite (w : Who) (addr v be : Nat)
  | assistTimeout (p : Peer)
  | openGo (p : Peer)
  | openResp (p : Peer) (resp : List Byte)
  | openVerdict (p : Peer) (pass : Bool)
  | lockoutEnd (ch : Nat)
  | sesClose (s : Nat)
  | sesKill (by_ s : Nat)
  | sessionIdle (s : Nat)
  | busOff (k : Nat)
  | nmtResetNode (k : Nat)
  | nmtResetCommunication (k : Nat)
  | usdoSegment (p : Peer) (index sub : Nat) (data : List Byte) (last : Bool)
  | usdoAbort (p : Peer)
  | usdoTimeout (p : Peer)
  | heartbeat (k : Nat)
  | dmbChallenge
  | dmbRespond
  | dmbClose
  -- life cycle and Ledger
  | lcStep (s : Nat)
  | lcFuseBurnt
  | lcRecover
  | lcRecoverResult (pass : Bool)
  | ledgerAck (q : Nat)
  | ledgerTimeMark
  -- Keyring
  | krGenerate (s : Nat)
  | krImportComponents (s : Nat)
  | krImportTransport (s : Nat)
  | krExport (s : Nat)
  | krRevoke (s : Nat)
  | krLoad (s : Nat)
  | krQuery (s : Nat)
  | kcValue (s : Nat) (v : List Byte)
  | componentTimeout (s : Nat)
  | krSelftest
  | periodicSelftest
  | entropyTestFailure
  | krZeroiseAll (s : Nat)
  | drbgReseed
  | imgEnrol (s : Nat)
  | rbAdvance (s kind : Nat)
  | physicalTamper (det : Nat)
  | environmentalTamper (det : Nat)
  | tamperClear (det : Nat)
  | mbxStatusSnapshot
  | mbxMkaKeyDerivation
  | mbxIcvCompute
  | mbxIcvCheck
  | mbxSakUnwrapLoad
  | mbxSakGenerate
  | mbxLedgerSignature
  -- NV store
  | nvBurst
  | nvBurstDone
  | holdupTest
  | holdupTestDone (nf : Nat)
  | nvScrub (corrected : List Nat) (uncorrected : List Nat)
  | nvwpChange (low : Bool)
  -- start-up, power and firmware
  | powerOn
  | pinReset
  | powerFail
  | brownOut
  | startupStepEnd
  | startupStepExpiry
  | pwrOperate
  | pwrStandby
  | pwrSleep
  | sleepEntryDone
  | softwareReset
  | softwareResetRegister
  | coreRestart
  | wdtKick (k v : Nat)
  | watchdogExpiry (k : Nat)
  | wakePin
  | canWake
  | wakeTimer
  | fwWrite (v : Nat)
  | fwWriteDone (r : FwResult)
  | fwHandover (v : Nat)
  | fwConfirm (v : Nat)
  -- test and perturbation
  | ptArm (k : Nat)
  | ptStop (k : Nat)
  | ptExpiry (k : Nat)
  -- the rest of the table
  | pllLockLoss (k : Nat)
  | pllRefReturn (k : Nat)
  | dpAbsenceTimeout (h : Nat)
  | recalAttemptFailed (i : Nat)
  | checkerLock (i : Nat)
  | checkerLockLoss (i : Nat)
  | farEndSlip (i : Nat)
  | linkFaultReceived (m : Nat)
  | linkFaultCleared (m : Nat)
  | pcieLinkUp (speed width : Nat)
  | memoryScrub (ch : Nat) (corrected uncorrected : Nat)
  | nmtCommand (k cmd : Nat)
  | islandSelftestDone (pass : Bool)
deriving DecidableEq, Repr

end Sys2Proof
end

