-- ==== Sys2Proof/WellFormed.lean ====
section
/-!
DEFINITION. Which commands are well formed: every number lies in the range the spec gives its kind (timing group 0 to
31, arrival 0 to 255, departure 0 to 127 and so on).
-/

namespace Sys2Proof

/-- Every operand of the command lies in its range. [DESIGN CHOICE, log entry 127] -/
def Instr.wf : Instr → Bool
  | .tick => true
  | .tickWrap => true
  | .frameStart g => decide (g < 32)
  | .commitPoint g => decide (g < 32)
  | .outputLine d _ _ _ _ => decide (d < 128)
  | .writeBackComplete d => decide (d < 128)
  | .captureComplete d => decide (d < 128)
  | .ptpEnable _ => true
  | .holdoverTimeout => true
  | .servoHandoff _ => true
  | .stepGo => true
  | .tbAddend v => decide (v < 2 ^ 32)
  | .tickCapture => true
  | .tickCaptureLatch => true
  | .latchedRead _ addr => decide (addr < 2 ^ 25)
  | .receiveFrame m _ => decide (m < 24)
  | .frameCloseTimeout a => decide (a < 256)
  | .pathTimeout a path => decide (a < 256) && decide (path < 2)
  | .sourceLoss a => decide (a < 256)
  | .injectionTake a => decide (a < 256)
  | .injectionCopyDone a _ _ => decide (a < 256)
  | .generatorFrameDone a => decide (a < 256)
  | .sliceDecodeDone a k _ _ _ => decide (a < 256) && decide (k < 256)
  | .sliceEncodeDone d k => decide (d < 128) && decide (k < 256)
  | .stgOpen s => decide (s < 32)
  | .stgSeal s => decide (s < 32)
  | .stgSealHeld s => decide (s < 32)
  | .stgAbandon s => decide (s < 32)
  | .stg0Seal => true
  | .stg0Hold => true
  | .stg0Abandon => true
  | .take d => decide (d < 128)
  | .takeCancel d => decide (d < 128)
  | .salvoCopy d => decide (d < 128)
  | .salvoGo s => decide (s < 32)
  | .salvoCancel s => decide (s < 32)
  | .salvoClear s => decide (s < 32)
  | .engineHardFault e => decide (e < 25)
  | .lateResponse m => decide (m < 86)
  | .engineBistStart e => decide (e < 25)
  | .engineBistResult e _ => decide (e < 25)
  | .bistAbandon _ e => decide (e < 25)
  | .codecBistStart c => decide (c < 24)
  | .codecBistResult c _ => decide (c < 24)
  | .engReadmit e => decide (e < 25)
  | .engReadmitDone e _ => decide (e < 25)
  | .codecFault c => decide (c < 24)
  | .cdcReadmit c => decide (c < 24)
  | .cdcReadmitDone c _ => decide (c < 24)
  | .bistForceFault v => decide (v < 65536)
  | .packetDue d => decide (d < 128)
  | .latePacketHandover d => decide (d < 128)
  | .transmitFrame m _ => decide (m < 24)
  | .irqHpd h _ => decide (h < 8)
  | .unplug h => decide (h < 8)
  | .plug h _ _ => decide (h < 8)
  | .linkTrainingDone h _ => decide (h < 8)
  | .headRetry h => decide (h < 8)
  | .headRetrain h => decide (h < 8)
  | .auxTimeout h => decide (h < 8)
  | .dpcdPoll h _ => decide (h < 8)
  | .frameSync p _ => decide (p < 16)
  | .portLoss p => decide (p < 16)
  | .pllLock k => decide (k < 4)
  | .pllRefLoss k => decide (k < 4)
  | .trackerLock t ratio => decide (t < 16) && decide (ratio < 2 ^ 32)
  | .mixSample n => decide (n < 1024)
  | .duckBlock n => decide (n < 1024)
  | .sampleMissing ch => decide (ch < 1024)
  | .flowLoss f => decide (f < 64)
  | .porterNop k => decide (k < 4)
  | .porterCopy k _ => decide (k < 4)
  | .porterFill k _ => decide (k < 4)
  | .porterBlend k _ => decide (k < 4)
  | .porterCompletion k _ => decide (k < 4)
  | .porterAbort k => decide (k < 4)
  | .porterResume k => decide (k < 4)
  | .laneAttempt i => decide (i < 48)
  | .laneUp i => decide (i < 48)
  | .signalLoss i _ => decide (i < 48)
  | .quadPllLoss q => decide (q < 12)
  | .quadPllLock q => decide (q < 12)
  | .eqFreeze i => decide (i < 48)
  | .eqResume i => decide (i < 48)
  | .readaptation i => decide (i < 48)
  | .laneRecal i => decide (i < 48)
  | .laneTest i v => decide (i < 48) && decide (v < 256)
  | .laneLoop i v => decide (i < 48) && decide (v < 256)
  | .laneInject i => decide (i < 48)
  | .checkerClear i => decide (i < 48)
  | .arpRefresh m ip => decide (m < 24) && decide (ip < 2 ^ 32)
  | .msTxAn m an _ => decide (m < 24) && decide (an < 4)
  | .keyLoadComplete m => decide (m < 24)
  | .saRetire ch an => decide (ch < 192) && decide (an < 4)
  | .ethLoop m v => decide (m < 24) && decide (v < 256)
  | .tsIdPop m => decide (m < 24)
  | .pcieReset kind => decide (kind < 4)
  | .pcieLoop v => decide (v < 256)
  | .pantryWindowWrite offset _ => decide (offset < 2 ^ 26)
  | .ringEnable r => decide (r < 65536)
  | .ringDisable r => decide (r < 65536)
  | .ringReset r => decide (r < 65536)
  | .ringClearError r => decide (r < 65536)
  | .ringDescWrite word v => decide (word < 2 ^ 20) && decide (v < 2 ^ 32)
  | .doorbell _ r v be => decide (r < 65536) && decide (v < 2 ^ 64) && decide (be < 256)
  | .entryFetch r _ _ => decide (r < 65536)
  | .dchEvacuate c => decide (c < 8)
  | .stripeMoved c => decide (c < 8)
  | .dchRetrain c => decide (c < 8)
  | .dchTrainingDone c _ => decide (c < 8)
  | .dchReadmit c => decide (c < 8)
  | .dchLoop c v => decide (c < 8) && decide (v < 256)
  | .mr4Poll c rate => decide (c < 8) && decide (rate < 8)
  | .inkMaskSet w _ => decide (w < 32)
  | .inkMaskClr w _ => decide (w < 32)
  | .inkPendSet w _ => decide (w < 32)
  | .inkPendClr w _ => decide (w < 32)
  | .inkFire s => decide (s < 1024)
  | .inkClaim t => decide (t < 4)
  | .inkComplete t s => decide (t < 4) && decide (s < 1024)
  | .holdRelease g => decide (g < 64)
  | .hqArm bits => decide (bits < 65536)
  | .objectRead _ index sub => decide (index < 65536) && decide (sub < 256)
  | .objectWrite _ index sub _ => decide (index < 65536) && decide (sub < 256)
  | .registerWrite _ addr v be => decide (addr < 2 ^ 25) && decide (v < 2 ^ 32) && decide (be < 16)
  | .assistTimeout _ => true
  | .openGo _ => true
  | .openResp _ _ => true
  | .openVerdict _ _ => true
  | .lockoutEnd ch => decide (ch < 5)
  | .sesClose s => decide (s < 32)
  | .sesKill by_ s => decide (by_ < 32) && decide (s < 32)
  | .sessionIdle s => decide (s < 32)
  | .busOff k => decide (k < 2)
  | .nmtResetNode k => decide (k < 2)
  | .nmtResetCommunication k => decide (k < 2)
  | .usdoSegment _ index sub _ _ => decide (index < 65536) && decide (sub < 256)
  | .usdoAbort _ => true
  | .usdoTimeout _ => true
  | .heartbeat k => decide (k < 2)
  | .dmbChallenge => true
  | .dmbRespond => true
  | .dmbClose => true
  | .lcStep s => decide (s < 32)
  | .lcFuseBurnt => true
  | .lcRecover => true
  | .lcRecoverResult _ => true
  | .ledgerAck q => decide (q < 2 ^ 64)
  | .ledgerTimeMark => true
  | .krGenerate s => decide (s < 32)
  | .krImportComponents s => decide (s < 32)
  | .krImportTransport s => decide (s < 32)
  | .krExport s => decide (s < 32)
  | .krRevoke s => decide (s < 32)
  | .krLoad s => decide (s < 32)
  | .krQuery s => decide (s < 32)
  | .kcValue s _ => decide (s < 32)
  | .componentTimeout s => decide (s < 32)
  | .krSelftest => true
  | .periodicSelftest => true
  | .entropyTestFailure => true
  | .krZeroiseAll s => decide (s < 32)
  | .drbgReseed => true
  | .imgEnrol s => decide (s < 32)
  | .rbAdvance s kind => decide (s < 32) && decide (kind < 2)
  | .physicalTamper det => decide (det < 16)
  | .environmentalTamper det => decide (det < 16)
  | .tamperClear det => decide (det < 16)
  | .mbxStatusSnapshot => true
  | .mbxMkaKeyDerivation => true
  | .mbxIcvCompute => true
  | .mbxIcvCheck => true
  | .mbxSakUnwrapLoad => true
  | .mbxSakGenerate => true
  | .mbxLedgerSignature => true
  | .nvBurst => true
  | .nvBurstDone => true
  | .holdupTest => true
  | .holdupTestDone _ => true
  | .nvScrub _ _ => true
  | .nvwpChange _ => true
  | .powerOn => true
  | .pinReset => true
  | .powerFail => true
  | .brownOut => true
  | .startupStepEnd => true
  | .startupStepExpiry => true
  | .pwrOperate => true
  | .pwrStandby => true
  | .pwrSleep => true
  | .sleepEntryDone => true
  | .softwareReset => true
  | .softwareResetRegister => true
  | .coreRestart => true
  | .wdtKick k v => decide (k < 4) && decide (v < 2 ^ 32)
  | .watchdogExpiry k => decide (k < 4)
  | .wakePin => true
  | .canWake => true
  | .wakeTimer => true
  | .fwWrite v => decide (v < 2 ^ 64)
  | .fwWriteDone _ => true
  | .fwHandover v => decide (v < 2 ^ 64)
  | .fwConfirm v => decide (v < 2 ^ 64)
  | .ptArm k => decide (k < 8)
  | .ptStop k => decide (k < 8)
  | .ptExpiry k => decide (k < 8)
  | .pllLockLoss k => decide (k < 4)
  | .pllRefReturn k => decide (k < 4)
  | .dpAbsenceTimeout h => decide (h < 8)
  | .recalAttemptFailed i => decide (i < 48)
  | .checkerLock i => decide (i < 48)
  | .checkerLockLoss i => decide (i < 48)
  | .farEndSlip i => decide (i < 48)
  | .linkFaultReceived m => decide (m < 24)
  | .linkFaultCleared m => decide (m < 24)
  | .pcieLinkUp _ _ => true
  | .memoryScrub ch _ _ => decide (ch < 9)
  | .nmtCommand k cmd => decide (k < 2) && decide (cmd < 256)
  | .islandSelftestDone _ => true

end Sys2Proof
end

