-- ==== Sys2Proof/Decode.lean ====
section
/-!
DEFINITION. The commands that words spell. The opcode table of this block gives no row any bits: every command comes
as a command, so no word spells one.
-/

namespace Sys2Proof

/-- The command a word spells by the table's bits: the table gives none. [DESIGN CHOICE, log entry 122] -/
def decodeTableWord (_nbits _w : Nat) : Option Instr := none

end Sys2Proof
end

