-- ==== Sys2Proof/Machine/Tab.lean ====
section
/-!
DEFINITION. Sparse tables in one canonical form: a list of (key, value) pairs, keys strictly rising. The object store,
the byte memories and every numbered table of the block (rooms, rings, key slots and so on) are held this way.
-/

namespace Sys2Proof.Machine

/-- A sparse table: pairs of a key and what is stored there. -/
abbrev Tab (α : Type) := List (Nat × α)

/-- What is stored under a key. -/
def Tab.find {α : Type} : Tab α → Nat → Option α
  | [], _ => none
  | (k, v) :: t, x => if x = k then some v else Tab.find t x

/-- What is stored under a key, or the value an absent key stands for. -/
def Tab.getD {α : Type} (t : Tab α) (x : Nat) (d : α) : α :=
  match t.find x with
  | some v => v
  | none => d

/-- Store a value under a key; the keys stay strictly rising. -/
def Tab.put {α : Type} : Tab α → Nat → α → Tab α
  | [], x, v => [(x, v)]
  | (k, w) :: t, x, v =>
    if x < k then (x, v) :: (k, w) :: t
    else if x = k then (k, v) :: t
    else (k, w) :: Tab.put t x v

/-- Remove a key. -/
def Tab.del {α : Type} : Tab α → Nat → Tab α
  | [], _ => []
  | (k, w) :: t, x => if x = k then Tab.del t x else (k, w) :: Tab.del t x

/-- Rewrite what stands under a key, from the value an absent key stands for. -/
def Tab.upd {α : Type} (t : Tab α) (x : Nat) (d : α) (f : α → α) : Tab α := t.put x (f (t.getD x d))

/-- Strictly rising keys. -/
def Tab.wf {α : Type} : Tab α → Bool
  | [] => true
  | (k, _) :: t => t.all (fun p => k < p.1) && Tab.wf t

end Sys2Proof.Machine
end

