-- ==== Sys2Proof/Machine/Bits.lean ====
section
/-!
DEFINITION. Bit fields, two's complement, byte order and exact division, for values the spec numbers as words.
-/

namespace Sys2Proof.Machine

/-- Bits [lo + n - 1 : lo] of a word. -/
def bitsAt (x lo n : Nat) : Nat := x / 2 ^ lo % 2 ^ n

/-- Bit `k` of a word. -/
def bitOf (x k : Nat) : Bool := x.testBit k

/-- Write bits [lo + n - 1 : lo] of a word. -/
def setBits (x lo n v : Nat) : Nat := x - bitsAt x lo n * 2 ^ lo + v % 2 ^ n * 2 ^ lo

/-- The word with the bits of `m` cleared. -/
def clearMask (x m : Nat) : Nat := x - (x &&& m)

/-- A `w`-bit word read as two's complement. -/
def asInt (w x : Nat) : Int := if 2 * x < 2 ^ w then (x : Int) else (x : Int) - (2 ^ w : Nat)

/-- The `w`-bit two's complement word of an integer (wrapping). -/
def ofInt (w : Nat) (v : Int) : Nat := (v % (2 ^ w : Nat)).toNat

/-- An integer brought into `lo` to `hi`. -/
def clampInt (lo hi v : Int) : Int := if v < lo then lo else if hi < v then hi else v

/-- Division rounding up. -/
def ceilDiv (a b : Nat) : Nat := (a + b - 1) / b

/-- `b` as 1 or 0. -/
def b2n (b : Bool) : Nat := if b then 1 else 0

/-- `n` bytes of a value, least significant first (memory is little-endian, R4). [DEDUCED, log entry 118] -/
def leBytes : Nat → Nat → List Byte
  | 0, _ => []
  | n + 1, v => BitVec.ofNat 8 v :: leBytes n (v / 256)

/-- The value of bytes, least significant first. [DEDUCED, log entry 118] -/
def ofLe : List Byte → Nat
  | [] => 0
  | b :: t => b.toNat + 256 * ofLe t

/-- `n` bytes of a value, most significant first. -/
def beBytes (n v : Nat) : List Byte := (leBytes n v).reverse

/-- The value of bytes, most significant first. -/
def ofBe (bs : List Byte) : Nat := ofLe bs.reverse

/-- The numbers of the set bits below `n`. -/
def setBitsOf (n x : Nat) : List Nat := (List.range n).filter fun k => x.testBit k

/-- The item at a position, or a default. -/
def nth {α : Type} (l : List α) (i : Nat) (d : α) : α := l.getD i d

/-- The list with position `i` replaced. -/
def setNth {α : Type} (l : List α) (i : Nat) (v : α) : List α := l.set i v

/-- Insert a number into an ascending list. -/
def insertAsc (x : Nat) : List Nat → List Nat
  | [] => [x]
  | y :: t => if x ≤ y then x :: y :: t else y :: insertAsc x t

/-- Ascending order. -/
def sortAsc (l : List Nat) : List Nat := l.foldr insertAsc []

/-- The least number of a list, or a default for the empty list. -/
def leastOr (d : Nat) : List Nat → Nat
  | [] => d
  | x :: t => t.foldl min x

/-- UTF-8 validity of a byte string (R411 step 5). -/
def utf8Valid : List Byte → Bool
  | [] => true
  | b :: rest =>
    let x := b.toNat
    let cont (c : Byte) : Bool := c.toNat / 64 == 2
    if x < 0x80 then utf8Valid rest
    else match rest with
      | [] => false
      | c1 :: r1 =>
        if 0xC2 ≤ x && x ≤ 0xDF then cont c1 && utf8Valid r1
        else match r1 with
          | [] => false
          | c2 :: r2 =>
            if 0xE0 ≤ x && x ≤ 0xEF then
              cont c1 && cont c2 && (x != 0xE0 || 0xA0 ≤ c1.toNat) && (x != 0xED || c1.toNat < 0xA0)
                && utf8Valid r2
            else match r2 with
              | [] => false
              | c3 :: r3 =>
                if 0xF0 ≤ x && x ≤ 0xF4 then
                  cont c1 && cont c2 && cont c3 && (x != 0xF0 || 0x90 ≤ c1.toNat)
                    && (x != 0xF4 || c1.toNat < 0x90) && utf8Valid r3
                else false

end Sys2Proof.Machine
end

