-- ==== Sys2Proof/Config.lean ====
section
/-!
DEFINITION. What one part fixes and the manual does not: identity values burnt into the fuses, and every value the
spec leaves open. Each is an opaque constant: nothing can be proved of it but what holds for every value.
-/

namespace Sys2Proof

/-- The fused identity base address, `dev_mac_base` (R446). [DESIGN CHOICE, log entry 8] -/
opaque Config.macBase : Nat

/-- The DRAM fitted, MiB in each of the 8 channels (R373). -/
opaque Config.dramFitted (channel : Nat) : Nat

/-- Byte `k` of the public key of credential 0, the enrolment key the equipment maker supplies with its order (R435): a
point of P-384. [DEDUCED, log entry 107] -/
opaque Config.enrolKey (k : Nat) : Byte

/-- The device serial, 16 bytes read little-endian (R446). [DESIGN CHOICE, log entry 8] -/
opaque Config.serial : Nat

/-- The low 32 bits of the device serial, `serial_number` (R422). -/
def Config.serialLow : Nat := Config.serial % 2 ^ 32

/-- Free values: the `n`th value the spec leaves open, drawn by a command that runs on. A caller cuts it to a width.
[DESIGN CHOICE, log entry 7] -/
opaque Config.freeValue (n : Nat) : Nat

/-- A sample a JPEG XS decoder makes of a slice's bytes: plane, line of the slice and column.
[DESIGN CHOICE, log entry 10] -/
opaque Config.xsDecode (bytes : List Byte) (plane y x : Nat) : Nat

/-- Lines of a slice that decode from the bytes ahead of a lost packet: those of its whole precincts (R202). -/
opaque Config.xsIntact (bytes : List Byte) : Nat

/-- Length of the codestream markers an encoder writes ahead of the first slice (R200), for its parameters: size, sampling,
depth, profile, levels of decomposition, level and sublevel. [DESIGN CHOICE, log entry 10] -/
opaque Config.xsMarkers (params : List Nat) : Nat

/-- The lowest level of ISO/IEC 21122-2 whose limits cover a raster and rate, and the lowest sublevel that covers bits per
pixel, both as the codestream codes them (R200). -/
opaque Config.xsLevel (width height num den : Nat) : Nat
opaque Config.xsSublevel (bpp : Nat) : Nat

/-- Byte `i` of a unit an encoder makes for its parameters: the markers, or a slice of the lines given, padded to its
budget (R200). -/
opaque Config.xsByte (params : List Nat) (lines : List (List Nat)) (unit i : Nat) : Byte

/-- The frequency the equipment feeds AUDCLK[i], Hz (R241). -/
opaque Config.audclk (i : Nat) : Nat

/-- The scale of R168's 20-bit linear values: the code that stands for 1. [DESIGN CHOICE, log entry 11] -/
opaque Config.linearOne : Nat

/-- The point of each span of 64 linear values at which R168's encode table is taken. [DESIGN CHOICE, log entry 11] -/
opaque Config.linearBin : Nat

/-- Byte `k` of the AES-256-KW wrap of a 256-bit key with a blob's header (R453, R457): under the blob key of the root of
`lc_state` `lc`, or under the transport key of the secret given. [DESIGN CHOICE, log entry 9] -/
opaque Config.wrapByte (transport : Option Nat) (lc : Nat) (head : List Byte) (secret k : Nat) : Byte

/-- The key in a wrap made outside this part, when its integrity check passes (R457). [DESIGN CHOICE, log entry 9] -/
opaque Config.unwrap (transport : Option Nat) (lc : Nat) (head body : List Byte) : Option Nat

/-- The first 3 bytes of AES-256-CMAC over 16 zero bytes, least significant first (R458). -/
opaque Config.checkValue (secret : Nat) : Nat

/-- An image's key hashes, signatures and payload digest verify (R463), given the fused hashes once enrolled. -/
opaque Config.imageOk (enrolled : Bool) (ecdsa mldsa image : List Byte) : Bool

/-- Byte `k` of the public key of the Ledger key of a root (R453), and of a signature by it (R445). -/
opaque Config.ledgerPub (lc k : Nat) : Byte
opaque Config.ledgerSig (lc : Nat) (data : List Byte) (k : Nat) : Byte

/-- The response to a challenge's message verifies (R418): by HMAC-SHA-384 with a 256-bit key, truncated to 16 bytes, or by
ECDSA P-384 with a public key. -/
opaque Config.responseOk (hmac : Bool) (key message response : List Byte) : Bool

/-- Byte `k` of a test credential's key built into the boot ROM (R436). -/
opaque Config.testKey (cred k : Nat) : Byte

/-- Byte `k` of what an island mailbox command of firmware answers for its input (R333, R476). -/
opaque Config.mailbox (cmd lc : Nat) (input : List Byte) (k : Nat) : Byte

/-- Its length; the MAC, receive channel and association a distributed SAK names; and whether its unwrap passes. -/
opaque Config.mailboxLen (cmd : Nat) (input : List Byte) : Nat
opaque Config.sakField (input : List Byte) (field : Nat) : Nat
opaque Config.sakOk (input : List Byte) : Bool

end Sys2Proof
end

