-- ==== Sys2Proof/Machine/Objects.lean ====
section
/-!
DEFINITION. The object dictionary's objects, one constructor per object the spec names, with the table that its
chapters give: index, subindex, type, rights, default, apply class, range (R5, R6, R411, R414, R431).
An object is named by its constructor and an instance number (arrival a, departure d, layer 8 d + l,
Signboard region 16 d + r, and so on).
-/

namespace Sys2Proof.Machine

/-- Every object of the dictionary, by the name the spec gives it. -/
inductive Obj where
  -- R44: objects at 0x2200
  | ptpEnable
  | ptpMac
  | ptpProfile
  | stepThreshold
  | ptpMasterAllowed
  | holdoverTimeout
  | tbState
  | tickNow
  | timeNow
  | ptpDomain
  | offsetLast
  -- R44: objects at 0x2210
  | tgMode
  | tgRateNum
  | tgRateDen
  | tgTotalLines
  | tgActiveLines
  | tgPhaseOffset
  | tgSlewLimit
  | tgState
  | tgLastCommit
  | tgFrameCount
  -- R59: objects at 0x3000
  | arrName
  | arrKind
  | arrStorage
  | arrWidth
  | arrHeight
  | arrRateNum
  | arrRateDen
  | arrScan
  | arrSampling
  | arrDepth
  | arrColorimetry
  | arrTransfer
  | arrRange
  | arrState
  | arrFormatNow
  -- R60: objects at 0x3400
  | depName
  | depBind
  | depGroup
  | depEngineReq
  | depWidth
  | depHeight
  | depSampling
  | depDepth
  | depColorimetry
  | depTransfer
  | depRange
  | depLayers
  | depState
  | depStatus
  | depEngine
  -- R83: objects at 0x3000
  | arrMac
  | arrDstIp
  | arrUdpPort
  | arrSrcIp
  | arrSsrc
  | arrSsrcMatch
  | arrPt
  | arrMerge
  | arrMacB
  | arrDstIpB
  | arrUdpPortB
  | arrSrcIpB
  | arrMergeWindow
  | arrPathTimeout
  | arrRing
  | arrWbDep
  | arrGen
  | arrGenPattern
  | arrGenColour
  | arrGenGroup
  | arrLossFrames
  | arrConcealMax
  | arrTsWindow
  | arrDiMode
  | arrDiLow
  | arrDiHigh
  | arrEventFlags
  | arrPathState
  | arrSeq
  | arrFrameTime
  | arrFrameTick
  | arrRtpOffset
  | arrCodec
  | arrFrames
  | arrOutside
  | arrIncomplete
  | arrConcealed
  | arrPktsA
  | arrPktsB
  | arrDups
  | arrLate
  -- R109: objects at 0x3000
  | arrRooms
  | arrSlices
  | arrSliceGroup
  | arrSliceGuard
  | arrRelockFrames
  | arrSliceMode
  | arrSliceCause
  | arrMarginEarly
  | arrMarginLate
  | arrRoomSkips
  | arrSliceMisses
  | arrFallbacks
  -- R110: objects at 0x3800
  | layRcMode
  | layRcDelay
  | layMotion
  | layRcWeight
  | layReadMode
  -- R111: objects at 0x4C20
  | panSliceKib
  | panSliceUsedKib
  | roomUsed
  -- R130: objects at 0x3C00
  | stgOpen
  | stgSeal
  | stgAbandon
  | stgAnchor
  | stgStatus
  -- R130: objects at 0x3C10
  | stgState
  | stgOwner
  | stgEntries
  | stgSealTick
  | stgLandTick
  | stgLastStatus
  | stgEvent
  -- R131: objects at 0x3C80
  | tkMask
  | tkSrc0
  | tkSrc1
  | tkSrc2
  | tkSrc3
  | tkSrc4
  | tkSrc5
  | tkSrc6
  | tkSrc7
  | tkStaging
  | tkForceCold
  | tkGo
  | tkSalvo
  | tkState
  | tkKind
  | tkAcceptTick
  | tkLandTick
  | tkUndoCause
  | tkStatus
  | tkEventFlags
  | tkLanded
  | tkUndone
  | tkColds
  -- R132: objects at 0x3D00
  | svTime
  | svAtomic
  | svGo
  | svMembersLo
  | svMembersHi
  | svState
  | svStatus
  | svLate
  | svGoTick
  -- R154: objects at 0x3800
  | laySrc
  | layCropX
  | layCropY
  | layCropW
  | layCropH
  | layDstX
  | layDstY
  | layDstW
  | layDstH
  | layZ
  | layBlend
  | layAlpha
  | layKey
  | layFill
  | layPlaceholder
  | layStaleLimit
  | layLockstep
  | layFetchAll
  | layState
  | layStale
  | layShownSeq
  | layShownTime
  | layFetchBytes
  | layFetchFull
  | layLateLines
  | layEventFlags
  -- R156: objects at 0x5C80
  | engState
  | engReplaces
  | engDeps
  | engLoad
  | engShadow
  | engFaults
  | engEventFlags
  -- R156: objects at 0x5880
  | engReadmit
  -- R175: objects at 0x3800
  | layCoefH
  | layCoefV
  | layLbReserve
  | layLbNeed
  | layLbTaps
  | layPredec
  | layLbFlags
  -- R176: objects at 0x3480
  | coefKind
  | coefData
  -- R176: objects at 0x5C80
  | engLbGranted
  | engLbShadow
  | engLbFree
  -- R190: objects at 0x3E00
  | sbEnable
  | sbTwin
  | sbBlank
  | sbMarker
  | sbRecover
  | sbFreezeLimit
  | sbEventFlags
  | sbrKind
  | sbrX
  | sbrY
  | sbrW
  | sbrH
  | sbrLayer
  | sbrReaction
  | sbrExpectN
  | sbrExpect0
  | sbrExpect1
  | sbrExpect2
  | sbrExpect3
  | sbrAgeMax
  | sbrSeqWindow
  -- R191: objects at 0x3E80
  | sbState
  | sbFailMask
  | sbVerdictTick
  | sbFails
  | sbShadowFails
  | sbTwinSkips
  | sbTwinState
  | sbrCause
  | sbrCrc
  | sbrMatch
  | sbrAge
  -- R204: objects at 0x3000
  | arrXsProfile
  | arrXsLinesConcealed
  | arrXsParseErrors
  | arrXsBppNow
  -- R205: objects at 0x3400
  | depXsProfile
  | depXsBpp
  | depXsNlx
  | depXsNly
  | depXsPayload
  | depXsCodec
  | depXsFrameBytes
  -- R206: objects at 0x5CA0
  | cdcState
  | cdcStreams
  | cdcLoad
  | cdcFaults
  | cdcEventFlags
  -- R206: objects at 0x5881
  | cdcReadmit
  -- R223: objects at 0x3400
  | depMac
  | depDstIp
  | depUdpPort
  | depSrcPort
  | depSsrc
  | depPt
  | depTag
  | depDscp
  | depDup
  | depMacB
  | depDstIpB
  | depUdpPortB
  | depTagB
  | depPacing
  | depBurst
  | depTro
  | depPayload
  | depHead
  | depHTotal
  | depHSyncStart
  | depHSyncWidth
  | depVSyncStart
  | depVSyncWidth
  | depSyncPol
  | depDpMaxRate
  | depDpMaxLanes
  | depCapRing
  | depCapEvery
  | depEventFlags
  | depFrames
  | depFrameTime
  | depPktsA
  | depPktsB
  | depTxLate
  | depWbAbandoned
  | depCapFrames
  | depCapSkips
  | depCapAbandoned
  -- R224: objects at 0x2810
  | headState
  | headLinkRate
  | headLinkLanes
  | headHpd
  | headDownspread
  | headRetrain
  | headEdid
  | headDpcdCaps
  | headDep
  | headRetrains
  | headEventFlags
  | headLastFail
  -- R247: objects at 0x4000
  | mcCount48
  | mcCount96
  -- R247: objects at 0x4010
  | tdmEnable
  | tdmMode
  | tdmPll
  | tdmRate
  | tdmFrameLen
  | tdmSlots
  | tdmSlotWidth
  | tdmSlotOffset
  | tdmWordLen
  | tdmFsShape
  | tdmPolarity
  | tdmTxIdle
  | tdmTxMask
  | tdmRxMask
  | tdmLoop
  | tdmState
  | tdmClock
  | tdmEventFlags
  | tdmFrames
  | tdmMalformed
  | tdmLastLatch
  -- R248: objects at 0x4030
  | pllEnable
  | pllFamily
  | pllRef
  | pllPull
  | pllMclkOut
  | pllState
  | pllOffset
  | pllPhaseErr
  | pllSlips
  | pllEventFlags
  -- R249: objects at 0x4080
  | asrcInClock
  | asrcInRate
  | asrcOutClock
  | asrcOutRate
  | asrcState
  | asrcRatio
  | asrcTracker
  | asrcEventFlags
  -- R271: objects at 0x4200
  | dstSrc0
  | dstSrc1
  | dstSrc2
  | dstSrc3
  | dstSrc4
  | dstSrc5
  | dstSrc6
  | dstSrc7
  | dstGain0
  | dstGain1
  | dstGain2
  | dstGain3
  | dstGain4
  | dstGain5
  | dstGain6
  | dstGain7
  | dstGain
  | dstRamp
  | dstDuckKey
  | dstDuckMask
  | dstDuckDepth
  | dstDuckThresh
  | dstDuckAttack
  | dstDuckHold
  | dstDuckRelease
  | dstDuckState
  | dstClock
  | dstPeak
  -- R272: objects at 0x4300
  | nrEnable
  | nrMac
  | nrDstIp
  | nrUdpPort
  | nrSrcIp
  | nrPt
  | nrEncoding
  | nrRate
  | nrChannels
  | nrPacketSamples
  | nrFirst
  | nrOffset
  | nrTsOffset
  | nrNap
  | nrState
  | nrPkts
  | nrLate
  | nrUnderruns
  | nrEventFlags
  -- R273: objects at 0x4340
  | nsEnable
  | nsMac
  | nsDstIp
  | nsUdpPort
  | nsSrcPort
  | nsPt
  | nsSsrc
  | nsTag
  | nsDscp
  | nsEncoding
  | nsRate
  | nsChannels
  | nsPacketSamples
  | nsFirst
  | nsState
  | nsPkts
  -- R274: objects at 0x43A0
  | headAudCh
  | headAudRate
  | headAudDepth
  -- R274: objects at 0x43A8
  | embArrival
  | embOffset
  | embNap
  | capDeparture
  -- R274: objects at 0x4380
  | cvMode
  | cvGroup
  | cvDelay
  | cvLayer0
  | cvLayer1
  | cvLayer2
  | cvLayer3
  | cvLayer4
  | cvLayer5
  | cvLayer6
  | cvLayer7
  | cvAudio0
  | cvAudio1
  | cvAudio2
  | cvAudio3
  | cvAudio4
  | cvAudio5
  | cvAudio6
  | cvAudio7
  | cvExcuse
  | cvState
  | cvEventFlags
  -- R274: objects at 0x43D0
  | napPorts
  | napHold
  | napActive
  | napEventFlags
  -- R298: objects at 0x4410
  | ptrEnable
  | ptrRing
  | ptrDeadTime
  | ptrHalt
  | ptrCtl
  | ptrState
  | ptrLastStatus
  | ptrDone
  | ptrErrors
  | ptrStalls
  | ptrBytesRead
  | ptrBytesWritten
  | ptrEventFlags
  -- R318: objects at 0x2410
  | laneProto
  | laneMac
  | laneTxInv
  | laneRxInv
  | laneTxMain
  | laneTxPre
  | laneTxPost
  | laneRecal
  | laneState
  | laneCause
  | laneAttempts
  | laneFreezes
  | laneEventFlags
  | laneTest
  | laneLoop
  | lanePattern
  | laneUser
  | laneTestRate
  | laneInject
  | laneInjectPeriod
  | laneChkBits
  | laneChkErrors
  | laneFeSlips
  -- R337: objects at 0x2610
  | ethSpeed
  | ethAddr
  | ethIp
  | ethNetmask
  | ethGateway
  | ethMaxFrame
  | ethVidRx
  | ethAvShare
  | ethTtl
  | ethTsAdjTx
  | ethTsAdjRx
  | ethLoop
  | ethLink
  | ethSlopeVideo
  | ethSlopeAudio
  | ethAdmitted
  | ethEventFlags
  | ethTxFrames
  | ethRxFrames
  | ethRxFcs
  | ethRxOversize
  | ethRxUnmatched
  | ethRxCtlOverflow
  | ethTxDropDown
  | ethTxUnresolved
  | ethFecUncorrected
  | ethTsOverflow
  -- R337: objects at 0x2640
  | msEnable
  | msMode
  | msSuite
  | msConfidentiality
  | msReplayWindow
  | msPtpClear
  | msCak
  | msRxOverlap
  | msPnThreshold
  | msTxAn
  | msTxKey0
  | msTxKey1
  | msTxKey2
  | msTxKey3
  | msTxSaState
  | msTxPn
  | msEventFlags
  | msTxProtected
  | msTxNokey
  | msRxUntagged
  | msRxBad
  | msRxReplay
  | msRxNosa
  | msTxPnExhausted
  -- R337: objects at 0x2680
  | msrxSci
  | msrxKey0
  | msrxKey1
  | msrxKey2
  | msrxKey3
  | msrxSaState
  | msrxFrames
  -- R361: objects at 0x5C20
  | pcieLinkSpeed
  | pcieLinkWidth
  | pcieBar0Drops
  | pcieBar4Drops
  | pcieDbRejects
  | pcieReadFails
  | pcieAerCorr
  | pcieFlrs
  | pcieEventFlags
  -- R361: objects at 0x5860
  | pcieLoop
  -- R382: objects at 0x4C00
  | bmInflight
  | bmInflightHwm
  | bmLateResp
  | bmResets
  | bmEventFlags
  -- R382: objects at 0x4C10
  | bmPark
  -- R382: objects at 0x4C20
  | panRingKib
  | panPorterKib
  | panCodecKib
  | panCorr
  | panUncorr
  | panEventFlags
  -- R382: objects at 0x4C30
  | dramRate
  | dramCapMib
  | dramCoreMib
  | dramPorterMib
  | dramFreezeMib
  | roomPool
  | dramMigRate
  -- R382: objects at 0x4C40
  | bmPrio0
  | bmPrio1
  | bmPrio2
  | bmPrio3
  | bmPrio4
  | bmPrio5
  | bmPrio6
  | bmPrio7
  | bmPrio8
  | bmPrio9
  | bmPrio10
  | bmPrio11
  | bmPrio12
  | bmPrio13
  | bmMaxOut
  -- R382: objects at 0x4CA0
  | dchState
  | dchCmd
  | dchLoop
  | dchCorr
  | dchUncorr
  | dchStripesUsed
  | dchMigLeft
  | dchEventFlags
  -- R406: objects at 0x4800
  | inkGroupBits
  | inkLost
  | inkBadComplete
  | inkRecords
  -- R406: objects at 0x4810
  | tgtRunning
  | tgtPresented
  | tgtDepth
  | tgtClaims
  -- R406: objects at 0x4820
  | hqEnable
  | hqRing
  | hqVector
  | hqArmed
  | hqFull
  -- R406: objects at 0x4840
  | cgCount
  | cgTime
  | cgHold
  -- R406: objects at 0x4A00
  | srcPrio
  | srcTargets
  | srcQueue
  | srcCgroup
  | srcMask
  | srcPend
  | srcState
  | srcCount
  -- R422: objects at 0x1000
  | deviceType
  -- R422: objects at 0x1001
  | errorRegister
  -- R422: objects at 0x1017
  | heartbeatTime
  -- R422: objects at 0x1018
  | identityCount
  | vendorId
  | productCode
  | revision
  | serialNumber
  -- R423: objects at 0x2180
  | canEnable
  | canNodeId
  | canNomRate
  | canDataRate
  | canUsdoTimeout
  | canNmtState
  | canBusOffs
  | canEventFlags
  -- R427: objects at 0x2100
  | sesCount
  | sesIdle
  | sesSelf
  | sesClose
  | sesFailures
  -- R427: objects at 0x2110
  | openRole
  | openCred
  | openGo
  | openChal
  | openResp
  | openResult
  -- R427: objects at 0x2140
  | sesState
  | sesRole
  | sesChannel
  | sesCred
  | sesOpenTick
  | sesLastTick
  | sesLastStatus
  | sesKill
  -- R427: objects at 0x2190
  | trdpMacs
  | trdpPdDropped
  | trdpRequests
  -- R446: objects at 0x2000
  | devSerial
  | devMacBase
  | bootCount
  | lcState
  | lcTarget
  | lcConfirm
  | lcStep
  | lcRecover
  | lcLastStatus
  | lcEventFlags
  -- R446: objects at 0x2010
  | ledgerCapacity
  | ledgerNextSeq
  | ledgerOldestSeq
  | ledgerCursor
  | ledgerWindow
  | ledgerWindowSig
  | ledgerAck
  | ledgerMarked
  | ledgerLost
  | ledgerPolicy
  | ledgerBad
  | ledgerEventFlags
  -- R446: objects at 0x2040
  | credKind
  | credRoles
  | credChannels
  | credStates
  | credEnable
  | credPubkey
  | credKey
  | credLabel
  | credUses
  -- R474: objects at 0x5400
  | krIslandState
  | krRootState
  | krSlotsUsed
  | krKeptCount
  | krSelftest
  | krSelftestResult
  | krZeroiseAll
  | krEventFlags
  | krLedgerPub
  -- R474: objects at 0x5410
  | krNum
  | krAlg
  | krUse
  | krBinding
  | krMinRole
  | krPersist
  | krTransport
  | krBlob
  | krCmd
  | krStatus
  | krKcv
  | krQState
  | krQAttr
  -- R474: objects at 0x5420
  | kcParts
  | kcValue
  | kcKcv
  | kcKcvFinal
  | kcCount
  -- R474: objects at 0x5440
  | imgVerCore
  | imgVerIsland
  | rbCore
  | rbIsland
  | rbAdvance
  | imgHashEcdsa
  | imgHashMldsa
  | imgEnrolGo
  -- R474: objects at 0x5460
  | nwMeshEnable
  | nwState
  | nwEnvLimit
  | nwEnvCount
  | nwSleepEvent
  -- R474: objects at 0x5480
  | drbgReseeds
  | esFailures
  -- R490: objects at 0x5000
  | nvHoldupState
  | nvHoldupNf
  | nvHoldupPolicy
  | nvProtect
  | nvParamFree
  | nvQueue
  | nvBursts
  | nvRefused
  | nvDropped
  | nvCorr
  | nvUncorr
  | nvPoisonAddr
  | nvEqualSeq
  | nvScrubs
  | nvEventFlags
  -- R515: objects at 0x5C00
  | suStep
  | suCause
  | suStepMs
  | suExpired
  | pwrState
  | pwrCmd
  | pwrWakeMask
  | pwrWakeAfter
  | pwrStandbyMacs
  | pwrWakeSource
  | wdtMs
  | coreRestarts
  -- R515: objects at 0x5C08
  | fwCmd
  | fwState
  | fwStatus
  | fwRunning
  | fwBoot
  | fwFallback
  | fwSlotVer
  -- R528: objects at 0x5800
  | bistEnable
  | bistPeriod
  | bistForceFault
  | bistRuns
  | bistSkipped
  | bistEventFlags
  -- R528: objects at 0x5810
  | ptKind
  | ptTarget
  | ptAmount
  | ptLifetime
  | ptGo
  | ptState
  | ptLeft
  | ptCount
  | ptEventFlags
deriving DecidableEq, Repr

/-- How an instance number selects the index and the subindex of an object. -/
inductive Scheme where
  /-- one object, no instances -/
  | one
  /-- index `base + i` -/
  | plus
  /-- four instances an index: index `base + (i >> 2)`, subindex `0x40 * (i & 3) + k` (R271, R406) -/
  | quad
  /-- Signboard regions: index `base + (i >> 4)`, subindex `0x10 + step * (i & 15) + k` (R190, R191) -/
  | region (step : Nat)
deriving DecidableEq, Repr

/-- The dictionary types of R5 and R415. -/
inductive Ty where
  | bool | u8 | u16 | u32 | u64 | i16 | i32 | time64 | tick48 | str | domain
deriving DecidableEq, Repr

/-- A role's right to an object (R5). -/
inductive Right where
  | none | r | w | rw
deriving DecidableEq, Repr

/-- Apply classes (R6); `ro` is the "—" of a read-only object. -/
inductive Apply where
  | ro | now | commit | boundary | restart
deriving DecidableEq, Repr

/-- One row of a chapter's object table. -/
structure ObjInfo where
  base : Nat
  scheme : Scheme
  /-- number of instances -/
  count : Nat
  sub : Nat
  ty : Ty
  rOp : Right
  rInst : Right
  rMaker : Right
  /-- the default, where it is the same for every instance -/
  dflt : Nat
  apply : Apply
  /-- kept in the NV store (R416) -/
  kept : Bool
deriving DecidableEq, Repr

/-- Values that a write admits at step 6 of R411. -/
inductive Range where
  | any
  | span (lo hi : Nat)
  | spanOr (lo hi x : Nat)
  | oneOf (xs : List Nat)
  | mask (m : Nat)
  | signed (lo hi : Int)
  | signedOr (lo hi x : Int)
deriving DecidableEq, Repr

/-- The object tables of the chapters, row by row. -/
def Obj.info : Obj → ObjInfo
  | .ptpEnable => ⟨0x2200, .one, 1, 0x01, .bool, .r, .rw, .rw, 1, .now, true⟩
  | .ptpMac => ⟨0x2200, .one, 1, 0x02, .u8, .r, .rw, .rw, 0, .restart, true⟩
  | .ptpProfile => ⟨0x2200, .one, 1, 0x03, .u8, .r, .rw, .rw, 1, .restart, true⟩
  | .stepThreshold => ⟨0x2200, .one, 1, 0x04, .u32, .r, .rw, .rw, 1000000, .now, true⟩
  | .ptpMasterAllowed => ⟨0x2200, .one, 1, 0x05, .bool, .r, .rw, .rw, 0, .restart, true⟩
  | .holdoverTimeout => ⟨0x2200, .one, 1, 0x06, .u32, .r, .rw, .rw, 3000, .now, true⟩
  | .tbState => ⟨0x2200, .one, 1, 0x07, .u8, .r, .r, .r, 0, .ro, false⟩
  | .tickNow => ⟨0x2200, .one, 1, 0x08, .tick48, .r, .r, .r, 0, .ro, false⟩
  | .timeNow => ⟨0x2200, .one, 1, 0x09, .time64, .r, .r, .r, 0, .ro, false⟩
  | .ptpDomain => ⟨0x2200, .one, 1, 0x0A, .u8, .r, .rw, .rw, 127, .restart, true⟩
  | .offsetLast => ⟨0x2200, .one, 1, 0x0B, .i32, .r, .r, .r, 0, .ro, false⟩
  | .tgMode => ⟨0x2210, .plus, 32, 0x01, .u8, .r, .rw, .rw, 1, .commit, true⟩
  | .tgRateNum => ⟨0x2210, .plus, 32, 0x02, .u32, .r, .rw, .rw, 60, .commit, true⟩
  | .tgRateDen => ⟨0x2210, .plus, 32, 0x03, .u32, .r, .rw, .rw, 1, .commit, true⟩
  | .tgTotalLines => ⟨0x2210, .plus, 32, 0x04, .u16, .r, .rw, .rw, 1125, .commit, true⟩
  | .tgActiveLines => ⟨0x2210, .plus, 32, 0x05, .u16, .r, .rw, .rw, 1080, .commit, true⟩
  | .tgPhaseOffset => ⟨0x2210, .plus, 32, 0x06, .i32, .r, .rw, .rw, 0, .commit, true⟩
  | .tgSlewLimit => ⟨0x2210, .plus, 32, 0x07, .u16, .r, .rw, .rw, 100, .now, true⟩
  | .tgState => ⟨0x2210, .plus, 32, 0x08, .u8, .r, .r, .r, 0, .ro, false⟩
  | .tgLastCommit => ⟨0x2210, .plus, 32, 0x09, .tick48, .r, .r, .r, 0, .ro, false⟩
  | .tgFrameCount => ⟨0x2210, .plus, 32, 0x0A, .u64, .r, .r, .r, 0, .ro, false⟩
  | .arrName => ⟨0x3000, .plus, 256, 0x01, .str, .r, .rw, .rw, 0, .now, true⟩
  | .arrKind => ⟨0x3000, .plus, 256, 0x02, .u8, .r, .rw, .rw, 0, .commit, true⟩
  | .arrStorage => ⟨0x3000, .plus, 256, 0x03, .u8, .r, .rw, .rw, 0, .commit, true⟩
  | .arrWidth => ⟨0x3000, .plus, 256, 0x04, .u16, .r, .rw, .rw, 1920, .commit, true⟩
  | .arrHeight => ⟨0x3000, .plus, 256, 0x05, .u16, .r, .rw, .rw, 1080, .commit, true⟩
  | .arrRateNum => ⟨0x3000, .plus, 256, 0x06, .u32, .r, .rw, .rw, 60, .commit, true⟩
  | .arrRateDen => ⟨0x3000, .plus, 256, 0x07, .u32, .r, .rw, .rw, 1, .commit, true⟩
  | .arrScan => ⟨0x3000, .plus, 256, 0x08, .u8, .r, .rw, .rw, 0, .commit, true⟩
  | .arrSampling => ⟨0x3000, .plus, 256, 0x09, .u8, .r, .rw, .rw, 1, .commit, true⟩
  | .arrDepth => ⟨0x3000, .plus, 256, 0x0A, .u8, .r, .rw, .rw, 10, .commit, true⟩
  | .arrColorimetry => ⟨0x3000, .plus, 256, 0x0B, .u8, .r, .rw, .rw, 1, .commit, true⟩
  | .arrTransfer => ⟨0x3000, .plus, 256, 0x0C, .u8, .r, .rw, .rw, 0, .commit, true⟩
  | .arrRange => ⟨0x3000, .plus, 256, 0x0D, .u8, .r, .rw, .rw, 0, .commit, true⟩
  | .arrState => ⟨0x3000, .plus, 256, 0x0E, .u8, .r, .r, .r, 0, .ro, false⟩
  | .arrFormatNow => ⟨0x3000, .plus, 256, 0x0F, .u64, .r, .r, .r, 0, .ro, false⟩
  | .depName => ⟨0x3400, .plus, 128, 0x01, .str, .r, .rw, .rw, 0, .now, true⟩
  | .depBind => ⟨0x3400, .plus, 128, 0x02, .u8, .r, .rw, .rw, 0, .commit, true⟩
  | .depGroup => ⟨0x3400, .plus, 128, 0x03, .u8, .r, .rw, .rw, 0, .commit, true⟩
  | .depEngineReq => ⟨0x3400, .plus, 128, 0x04, .u8, .r, .rw, .rw, 255, .commit, true⟩
  | .depWidth => ⟨0x3400, .plus, 128, 0x05, .u16, .r, .rw, .rw, 1920, .commit, true⟩
  | .depHeight => ⟨0x3400, .plus, 128, 0x06, .u16, .r, .rw, .rw, 1080, .commit, true⟩
  | .depSampling => ⟨0x3400, .plus, 128, 0x07, .u8, .r, .rw, .rw, 1, .commit, true⟩
  | .depDepth => ⟨0x3400, .plus, 128, 0x08, .u8, .r, .rw, .rw, 10, .commit, true⟩
  | .depColorimetry => ⟨0x3400, .plus, 128, 0x09, .u8, .r, .rw, .rw, 1, .commit, true⟩
  | .depTransfer => ⟨0x3400, .plus, 128, 0x0A, .u8, .r, .rw, .rw, 0, .commit, true⟩
  | .depRange => ⟨0x3400, .plus, 128, 0x0B, .u8, .r, .rw, .rw, 0, .commit, true⟩
  | .depLayers => ⟨0x3400, .plus, 128, 0x0C, .u8, .r, .rw, .rw, 2, .commit, true⟩
  | .depState => ⟨0x3400, .plus, 128, 0x0D, .u8, .r, .r, .r, 0, .ro, false⟩
  | .depStatus => ⟨0x3400, .plus, 128, 0x0E, .u16, .r, .r, .r, 0, .ro, false⟩
  | .depEngine => ⟨0x3400, .plus, 128, 0x0F, .u8, .r, .r, .r, 255, .ro, false⟩
  | .arrMac => ⟨0x3000, .plus, 256, 0x10, .u8, .r, .rw, .rw, 0, .commit, true⟩
  | .arrDstIp => ⟨0x3000, .plus, 256, 0x11, .u32, .r, .rw, .rw, 0, .commit, true⟩
  | .arrUdpPort => ⟨0x3000, .plus, 256, 0x12, .u16, .r, .rw, .rw, 5004, .commit, true⟩
  | .arrSrcIp => ⟨0x3000, .plus, 256, 0x13, .u32, .r, .rw, .rw, 0, .commit, true⟩
  | .arrSsrc => ⟨0x3000, .plus, 256, 0x14, .u32, .r, .rw, .rw, 0, .commit, true⟩
  | .arrSsrcMatch => ⟨0x3000, .plus, 256, 0x15, .bool, .r, .rw, .rw, 0, .commit, true⟩
  | .arrPt => ⟨0x3000, .plus, 256, 0x16, .u8, .r, .rw, .rw, 96, .commit, true⟩
  | .arrMerge => ⟨0x3000, .plus, 256, 0x17, .bool, .r, .rw, .rw, 0, .commit, true⟩
  | .arrMacB => ⟨0x3000, .plus, 256, 0x18, .u8, .r, .rw, .rw, 1, .commit, true⟩
  | .arrDstIpB => ⟨0x3000, .plus, 256, 0x19, .u32, .r, .rw, .rw, 0, .commit, true⟩
  | .arrUdpPortB => ⟨0x3000, .plus, 256, 0x1A, .u16, .r, .rw, .rw, 5004, .commit, true⟩
  | .arrSrcIpB => ⟨0x3000, .plus, 256, 0x1B, .u32, .r, .rw, .rw, 0, .commit, true⟩
  | .arrMergeWindow => ⟨0x3000, .plus, 256, 0x1C, .u16, .r, .rw, .rw, 5000, .commit, true⟩
  | .arrPathTimeout => ⟨0x3000, .plus, 256, 0x1D, .u16, .r, .rw, .rw, 20, .commit, true⟩
  | .arrRing => ⟨0x3000, .plus, 256, 0x20, .u16, .r, .rw, .rw, 0, .commit, true⟩
  | .arrWbDep => ⟨0x3000, .plus, 256, 0x21, .u8, .r, .rw, .rw, 0, .commit, true⟩
  | .arrGen => ⟨0x3000, .plus, 256, 0x22, .u8, .r, .rw, .rw, 0, .commit, true⟩
  | .arrGenPattern => ⟨0x3000, .plus, 256, 0x23, .u8, .r, .rw, .rw, 1, .commit, true⟩
  | .arrGenColour => ⟨0x3000, .plus, 256, 0x24, .u64, .r, .rw, .rw, 8796227240192, .commit, true⟩
  | .arrGenGroup => ⟨0x3000, .plus, 256, 0x25, .u8, .r, .rw, .rw, 0, .commit, true⟩
  | .arrLossFrames => ⟨0x3000, .plus, 256, 0x28, .u8, .r, .rw, .rw, 2, .now, true⟩
  | .arrConcealMax => ⟨0x3000, .plus, 256, 0x29, .u16, .r, .rw, .rw, 16, .now, true⟩
  | .arrTsWindow => ⟨0x3000, .plus, 256, 0x2A, .u16, .r, .rw, .rw, 1000, .now, true⟩
  | .arrDiMode => ⟨0x3000, .plus, 256, 0x2B, .u8, .r, .rw, .rw, 0, .commit, true⟩
  | .arrDiLow => ⟨0x3000, .plus, 256, 0x2C, .u16, .r, .rw, .rw, 16, .commit, true⟩
  | .arrDiHigh => ⟨0x3000, .plus, 256, 0x2D, .u16, .r, .rw, .rw, 64, .commit, true⟩
  | .arrEventFlags => ⟨0x3000, .plus, 256, 0x30, .u32, .rw, .rw, .rw, 0, .now, false⟩
  | .arrPathState => ⟨0x3000, .plus, 256, 0x31, .u8, .r, .r, .r, 0, .ro, false⟩
  | .arrSeq => ⟨0x3000, .plus, 256, 0x32, .u32, .r, .r, .r, 0, .ro, false⟩
  | .arrFrameTime => ⟨0x3000, .plus, 256, 0x33, .time64, .r, .r, .r, 0, .ro, false⟩
  | .arrFrameTick => ⟨0x3000, .plus, 256, 0x34, .tick48, .r, .r, .r, 0, .ro, false⟩
  | .arrRtpOffset => ⟨0x3000, .plus, 256, 0x35, .i32, .r, .r, .r, 0, .ro, false⟩
  | .arrCodec => ⟨0x3000, .plus, 256, 0x36, .u8, .r, .r, .r, 255, .ro, false⟩
  | .arrFrames => ⟨0x3000, .plus, 256, 0x38, .u32, .r, .r, .r, 0, .ro, false⟩
  | .arrOutside => ⟨0x3000, .plus, 256, 0x39, .u32, .r, .r, .r, 0, .ro, false⟩
  | .arrIncomplete => ⟨0x3000, .plus, 256, 0x3A, .u32, .r, .r, .r, 0, .ro, false⟩
  | .arrConcealed => ⟨0x3000, .plus, 256, 0x3B, .u32, .r, .r, .r, 0, .ro, false⟩
  | .arrPktsA => ⟨0x3000, .plus, 256, 0x3C, .u32, .r, .r, .r, 0, .ro, false⟩
  | .arrPktsB => ⟨0x3000, .plus, 256, 0x3D, .u32, .r, .r, .r, 0, .ro, false⟩
  | .arrDups => ⟨0x3000, .plus, 256, 0x3E, .u32, .r, .r, .r, 0, .ro, false⟩
  | .arrLate => ⟨0x3000, .plus, 256, 0x40, .u32, .r, .r, .r, 0, .ro, false⟩
  | .arrRooms => ⟨0x3000, .plus, 256, 0x48, .u8, .r, .rw, .rw, 4, .commit, true⟩
  | .arrSlices => ⟨0x3000, .plus, 256, 0x49, .u8, .r, .rw, .rw, 4, .commit, true⟩
  | .arrSliceGroup => ⟨0x3000, .plus, 256, 0x4A, .u8, .r, .rw, .rw, 0, .commit, true⟩
  | .arrSliceGuard => ⟨0x3000, .plus, 256, 0x4B, .u16, .r, .rw, .rw, 60, .now, true⟩
  | .arrRelockFrames => ⟨0x3000, .plus, 256, 0x4C, .u16, .r, .rw, .rw, 120, .now, true⟩
  | .arrSliceMode => ⟨0x3000, .plus, 256, 0x4D, .u8, .r, .r, .r, 0, .ro, false⟩
  | .arrSliceCause => ⟨0x3000, .plus, 256, 0x4E, .u32, .r, .r, .r, 0, .ro, false⟩
  | .arrMarginEarly => ⟨0x3000, .plus, 256, 0x4F, .i32, .r, .r, .r, 0, .ro, false⟩
  | .arrMarginLate => ⟨0x3000, .plus, 256, 0x50, .i32, .r, .r, .r, 0, .ro, false⟩
  | .arrRoomSkips => ⟨0x3000, .plus, 256, 0x51, .u32, .r, .r, .r, 0, .ro, false⟩
  | .arrSliceMisses => ⟨0x3000, .plus, 256, 0x52, .u32, .r, .r, .r, 0, .ro, false⟩
  | .arrFallbacks => ⟨0x3000, .plus, 256, 0x53, .u32, .r, .r, .r, 0, .ro, false⟩
  | .layRcMode => ⟨0x3800, .plus, 1024, 0x30, .u8, .rw, .rw, .rw, 0, .boundary, true⟩
  | .layRcDelay => ⟨0x3800, .plus, 1024, 0x31, .u32, .rw, .rw, .rw, 0, .boundary, true⟩
  | .layMotion => ⟨0x3800, .plus, 1024, 0x32, .u16, .rw, .rw, .rw, 48, .boundary, true⟩
  | .layRcWeight => ⟨0x3800, .plus, 1024, 0x33, .u8, .r, .r, .r, 0, .ro, false⟩
  | .layReadMode => ⟨0x3800, .plus, 1024, 0x34, .u8, .r, .r, .r, 0, .ro, false⟩
  | .panSliceKib => ⟨0x4C20, .one, 1, 0x01, .u32, .r, .rw, .rw, 42000, .restart, true⟩
  | .panSliceUsedKib => ⟨0x4C20, .one, 1, 0x02, .u32, .r, .r, .r, 0, .ro, false⟩
  | .roomUsed => ⟨0x4C20, .one, 1, 0x03, .u64, .r, .r, .r, 0, .ro, false⟩
  | .stgOpen => ⟨0x3C00, .one, 1, 0x01, .u8, .rw, .rw, .rw, 255, .now, false⟩
  | .stgSeal => ⟨0x3C00, .one, 1, 0x02, .u8, .rw, .rw, .rw, 0, .now, false⟩
  | .stgAbandon => ⟨0x3C00, .one, 1, 0x03, .u8, .rw, .rw, .rw, 0, .now, false⟩
  | .stgAnchor => ⟨0x3C00, .one, 1, 0x04, .u8, .rw, .rw, .rw, 0, .now, false⟩
  | .stgStatus => ⟨0x3C00, .one, 1, 0x05, .u16, .r, .r, .r, 0, .ro, false⟩
  | .stgState => ⟨0x3C10, .plus, 16, 0x01, .u8, .r, .r, .r, 0, .ro, false⟩
  | .stgOwner => ⟨0x3C10, .plus, 16, 0x02, .u16, .r, .r, .r, 65535, .ro, false⟩
  | .stgEntries => ⟨0x3C10, .plus, 16, 0x03, .u16, .r, .r, .r, 0, .ro, false⟩
  | .stgSealTick => ⟨0x3C10, .plus, 16, 0x04, .tick48, .r, .r, .r, 0, .ro, false⟩
  | .stgLandTick => ⟨0x3C10, .plus, 16, 0x05, .tick48, .r, .r, .r, 0, .ro, false⟩
  | .stgLastStatus => ⟨0x3C10, .plus, 16, 0x06, .u16, .r, .r, .r, 0, .ro, false⟩
  | .stgEvent => ⟨0x3C10, .plus, 16, 0x07, .u32, .rw, .rw, .rw, 0, .now, false⟩
  | .tkMask => ⟨0x3C80, .plus, 128, 0x01, .u8, .rw, .rw, .rw, 0, .now, false⟩
  | .tkSrc0 => ⟨0x3C80, .plus, 128, 0x02, .u16, .rw, .rw, .rw, 256, .now, false⟩
  | .tkSrc1 => ⟨0x3C80, .plus, 128, 0x03, .u16, .rw, .rw, .rw, 256, .now, false⟩
  | .tkSrc2 => ⟨0x3C80, .plus, 128, 0x04, .u16, .rw, .rw, .rw, 256, .now, false⟩
  | .tkSrc3 => ⟨0x3C80, .plus, 128, 0x05, .u16, .rw, .rw, .rw, 256, .now, false⟩
  | .tkSrc4 => ⟨0x3C80, .plus, 128, 0x06, .u16, .rw, .rw, .rw, 256, .now, false⟩
  | .tkSrc5 => ⟨0x3C80, .plus, 128, 0x07, .u16, .rw, .rw, .rw, 256, .now, false⟩
  | .tkSrc6 => ⟨0x3C80, .plus, 128, 0x08, .u16, .rw, .rw, .rw, 256, .now, false⟩
  | .tkSrc7 => ⟨0x3C80, .plus, 128, 0x09, .u16, .rw, .rw, .rw, 256, .now, false⟩
  | .tkStaging => ⟨0x3C80, .plus, 128, 0x0A, .u8, .rw, .rw, .rw, 255, .now, false⟩
  | .tkForceCold => ⟨0x3C80, .plus, 128, 0x0B, .bool, .rw, .rw, .rw, 0, .now, false⟩
  | .tkGo => ⟨0x3C80, .plus, 128, 0x0C, .u8, .rw, .rw, .rw, 0, .now, false⟩
  | .tkSalvo => ⟨0x3C80, .plus, 128, 0x0D, .u8, .rw, .rw, .rw, 0, .now, false⟩
  | .tkState => ⟨0x3C80, .plus, 128, 0x0E, .u8, .r, .r, .r, 0, .ro, false⟩
  | .tkKind => ⟨0x3C80, .plus, 128, 0x0F, .u8, .r, .r, .r, 0, .ro, false⟩
  | .tkAcceptTick => ⟨0x3C80, .plus, 128, 0x10, .tick48, .r, .r, .r, 0, .ro, false⟩
  | .tkLandTick => ⟨0x3C80, .plus, 128, 0x11, .tick48, .r, .r, .r, 0, .ro, false⟩
  | .tkUndoCause => ⟨0x3C80, .plus, 128, 0x12, .u8, .r, .r, .r, 0, .ro, false⟩
  | .tkStatus => ⟨0x3C80, .plus, 128, 0x13, .u16, .r, .r, .r, 0, .ro, false⟩
  | .tkEventFlags => ⟨0x3C80, .plus, 128, 0x14, .u32, .rw, .rw, .rw, 0, .now, false⟩
  | .tkLanded => ⟨0x3C80, .plus, 128, 0x15, .u32, .r, .r, .r, 0, .ro, false⟩
  | .tkUndone => ⟨0x3C80, .plus, 128, 0x16, .u32, .r, .r, .r, 0, .ro, false⟩
  | .tkColds => ⟨0x3C80, .plus, 128, 0x17, .u32, .r, .r, .r, 0, .ro, false⟩
  | .svTime => ⟨0x3D00, .plus, 32, 0x01, .time64, .rw, .rw, .rw, 0, .now, false⟩
  | .svAtomic => ⟨0x3D00, .plus, 32, 0x02, .bool, .rw, .rw, .rw, 1, .now, false⟩
  | .svGo => ⟨0x3D00, .plus, 32, 0x03, .u8, .rw, .rw, .rw, 0, .now, false⟩
  | .svMembersLo => ⟨0x3D00, .plus, 32, 0x04, .u64, .r, .r, .r, 0, .ro, false⟩
  | .svMembersHi => ⟨0x3D00, .plus, 32, 0x05, .u64, .r, .r, .r, 0, .ro, false⟩
  | .svState => ⟨0x3D00, .plus, 32, 0x06, .u8, .r, .r, .r, 0, .ro, false⟩
  | .svStatus => ⟨0x3D00, .plus, 32, 0x07, .u16, .r, .r, .r, 0, .ro, false⟩
  | .svLate => ⟨0x3D00, .plus, 32, 0x08, .u8, .r, .r, .r, 0, .ro, false⟩
  | .svGoTick => ⟨0x3D00, .plus, 32, 0x09, .tick48, .r, .r, .r, 0, .ro, false⟩
  | .laySrc => ⟨0x3800, .plus, 1024, 0x01, .u16, .rw, .rw, .rw, 256, .commit, true⟩
  | .layCropX => ⟨0x3800, .plus, 1024, 0x02, .u16, .rw, .rw, .rw, 0, .commit, true⟩
  | .layCropY => ⟨0x3800, .plus, 1024, 0x03, .u16, .rw, .rw, .rw, 0, .commit, true⟩
  | .layCropW => ⟨0x3800, .plus, 1024, 0x04, .u16, .rw, .rw, .rw, 0, .commit, true⟩
  | .layCropH => ⟨0x3800, .plus, 1024, 0x05, .u16, .rw, .rw, .rw, 0, .commit, true⟩
  | .layDstX => ⟨0x3800, .plus, 1024, 0x06, .u16, .rw, .rw, .rw, 0, .commit, true⟩
  | .layDstY => ⟨0x3800, .plus, 1024, 0x07, .u16, .rw, .rw, .rw, 0, .commit, true⟩
  | .layDstW => ⟨0x3800, .plus, 1024, 0x08, .u16, .rw, .rw, .rw, 0, .commit, true⟩
  | .layDstH => ⟨0x3800, .plus, 1024, 0x09, .u16, .rw, .rw, .rw, 0, .commit, true⟩
  | .layZ => ⟨0x3800, .plus, 1024, 0x0A, .u8, .rw, .rw, .rw, 0, .commit, true⟩
  | .layBlend => ⟨0x3800, .plus, 1024, 0x0B, .u8, .rw, .rw, .rw, 0, .commit, true⟩
  | .layAlpha => ⟨0x3800, .plus, 1024, 0x0C, .u16, .rw, .rw, .rw, 256, .boundary, true⟩
  | .layKey => ⟨0x3800, .plus, 1024, 0x0D, .u16, .rw, .rw, .rw, 256, .boundary, true⟩
  | .layFill => ⟨0x3800, .plus, 1024, 0x0E, .u64, .rw, .rw, .rw, 0, .boundary, true⟩
  | .layPlaceholder => ⟨0x3800, .plus, 1024, 0x0F, .u8, .rw, .rw, .rw, 0, .boundary, true⟩
  | .layStaleLimit => ⟨0x3800, .plus, 1024, 0x10, .u8, .rw, .rw, .rw, 8, .boundary, true⟩
  | .layLockstep => ⟨0x3800, .plus, 1024, 0x11, .u8, .rw, .rw, .rw, 0, .commit, true⟩
  | .layFetchAll => ⟨0x3800, .plus, 1024, 0x12, .bool, .r, .rw, .rw, 0, .boundary, true⟩
  | .layState => ⟨0x3800, .plus, 1024, 0x20, .u8, .r, .r, .r, 0, .ro, false⟩
  | .layStale => ⟨0x3800, .plus, 1024, 0x21, .u8, .r, .r, .r, 0, .ro, false⟩
  | .layShownSeq => ⟨0x3800, .plus, 1024, 0x22, .u32, .r, .r, .r, 0, .ro, false⟩
  | .layShownTime => ⟨0x3800, .plus, 1024, 0x23, .time64, .r, .r, .r, 0, .ro, false⟩
  | .layFetchBytes => ⟨0x3800, .plus, 1024, 0x24, .u32, .r, .r, .r, 0, .ro, false⟩
  | .layFetchFull => ⟨0x3800, .plus, 1024, 0x25, .u32, .r, .r, .r, 0, .ro, false⟩
  | .layLateLines => ⟨0x3800, .plus, 1024, 0x26, .u32, .r, .r, .r, 0, .ro, false⟩
  | .layEventFlags => ⟨0x3800, .plus, 1024, 0x27, .u32, .rw, .rw, .rw, 0, .now, false⟩
  | .engState => ⟨0x5C80, .plus, 25, 0x01, .u8, .r, .r, .r, 0, .ro, false⟩
  | .engReplaces => ⟨0x5C80, .plus, 25, 0x02, .u8, .r, .r, .r, 255, .ro, false⟩
  | .engDeps => ⟨0x5C80, .plus, 25, 0x03, .u8, .r, .r, .r, 0, .ro, false⟩
  | .engLoad => ⟨0x5C80, .plus, 25, 0x04, .u32, .r, .r, .r, 0, .ro, false⟩
  | .engShadow => ⟨0x5C80, .plus, 25, 0x05, .u32, .r, .r, .r, 0, .ro, false⟩
  | .engFaults => ⟨0x5C80, .plus, 25, 0x06, .u32, .r, .r, .r, 0, .ro, false⟩
  | .engEventFlags => ⟨0x5C80, .plus, 25, 0x07, .u32, .rw, .rw, .rw, 0, .now, false⟩
  | .engReadmit => ⟨0x5880, .one, 1, 0x01, .u8, .none, .r, .rw, 255, .now, false⟩
  | .layCoefH => ⟨0x3800, .plus, 1024, 0x40, .u8, .rw, .rw, .rw, 0, .commit, true⟩
  | .layCoefV => ⟨0x3800, .plus, 1024, 0x41, .u8, .rw, .rw, .rw, 0, .commit, true⟩
  | .layLbReserve => ⟨0x3800, .plus, 1024, 0x42, .bool, .r, .rw, .rw, 1, .commit, true⟩
  | .layLbNeed => ⟨0x3800, .plus, 1024, 0x43, .u32, .r, .r, .r, 0, .ro, false⟩
  | .layLbTaps => ⟨0x3800, .plus, 1024, 0x44, .u8, .r, .r, .r, 4, .ro, false⟩
  | .layPredec => ⟨0x3800, .plus, 1024, 0x45, .u8, .r, .r, .r, 17, .ro, false⟩
  | .layLbFlags => ⟨0x3800, .plus, 1024, 0x46, .u32, .rw, .rw, .rw, 0, .now, false⟩
  | .coefKind => ⟨0x3480, .plus, 8, 0x01, .u8, .r, .rw, .rw, 0, .commit, true⟩
  | .coefData => ⟨0x3480, .plus, 8, 0x02, .domain, .r, .rw, .rw, 0, .commit, true⟩
  | .engLbGranted => ⟨0x5C80, .plus, 25, 0x08, .u32, .r, .r, .r, 0, .ro, false⟩
  | .engLbShadow => ⟨0x5C80, .plus, 25, 0x09, .u32, .r, .r, .r, 0, .ro, false⟩
  | .engLbFree => ⟨0x5C80, .plus, 25, 0x0A, .u32, .r, .r, .r, 262144, .ro, false⟩
  | .sbEnable => ⟨0x3E00, .plus, 128, 0x01, .bool, .r, .rw, .rw, 0, .commit, true⟩
  | .sbTwin => ⟨0x3E00, .plus, 128, 0x02, .u8, .r, .rw, .rw, 255, .commit, true⟩
  | .sbBlank => ⟨0x3E00, .plus, 128, 0x03, .u64, .r, .rw, .rw, 0, .commit, true⟩
  | .sbMarker => ⟨0x3E00, .plus, 128, 0x04, .u64, .r, .rw, .rw, 4095, .commit, true⟩
  | .sbRecover => ⟨0x3E00, .plus, 128, 0x05, .u8, .r, .rw, .rw, 2, .commit, true⟩
  | .sbFreezeLimit => ⟨0x3E00, .plus, 128, 0x06, .u8, .r, .rw, .rw, 30, .commit, true⟩
  | .sbEventFlags => ⟨0x3E00, .plus, 128, 0x07, .u32, .rw, .rw, .rw, 0, .now, false⟩
  | .sbrKind => ⟨0x3E00, (.region 14), 2048, 0x00, .u8, .r, .rw, .rw, 0, .commit, true⟩
  | .sbrX => ⟨0x3E00, (.region 14), 2048, 0x01, .u16, .r, .rw, .rw, 0, .commit, true⟩
  | .sbrY => ⟨0x3E00, (.region 14), 2048, 0x02, .u16, .r, .rw, .rw, 0, .commit, true⟩
  | .sbrW => ⟨0x3E00, (.region 14), 2048, 0x03, .u16, .r, .rw, .rw, 0, .commit, true⟩
  | .sbrH => ⟨0x3E00, (.region 14), 2048, 0x04, .u16, .r, .rw, .rw, 0, .commit, true⟩
  | .sbrLayer => ⟨0x3E00, (.region 14), 2048, 0x05, .u8, .r, .rw, .rw, 0, .commit, true⟩
  | .sbrReaction => ⟨0x3E00, (.region 14), 2048, 0x06, .u8, .r, .rw, .rw, 0, .commit, true⟩
  | .sbrExpectN => ⟨0x3E00, (.region 14), 2048, 0x07, .u8, .r, .rw, .rw, 1, .commit, true⟩
  | .sbrExpect0 => ⟨0x3E00, (.region 14), 2048, 0x08, .u32, .r, .rw, .rw, 0, .commit, true⟩
  | .sbrExpect1 => ⟨0x3E00, (.region 14), 2048, 0x09, .u32, .r, .rw, .rw, 0, .commit, true⟩
  | .sbrExpect2 => ⟨0x3E00, (.region 14), 2048, 0x0A, .u32, .r, .rw, .rw, 0, .commit, true⟩
  | .sbrExpect3 => ⟨0x3E00, (.region 14), 2048, 0x0B, .u32, .r, .rw, .rw, 0, .commit, true⟩
  | .sbrAgeMax => ⟨0x3E00, (.region 14), 2048, 0x0C, .u32, .r, .rw, .rw, 100000, .commit, true⟩
  | .sbrSeqWindow => ⟨0x3E00, (.region 14), 2048, 0x0D, .u8, .r, .rw, .rw, 8, .commit, true⟩
  | .sbState => ⟨0x3E80, .plus, 128, 0x01, .u8, .r, .r, .r, 0, .ro, false⟩
  | .sbFailMask => ⟨0x3E80, .plus, 128, 0x02, .u16, .r, .r, .r, 0, .ro, false⟩
  | .sbVerdictTick => ⟨0x3E80, .plus, 128, 0x03, .tick48, .r, .r, .r, 0, .ro, false⟩
  | .sbFails => ⟨0x3E80, .plus, 128, 0x04, .u32, .r, .r, .r, 0, .ro, false⟩
  | .sbShadowFails => ⟨0x3E80, .plus, 128, 0x05, .u32, .r, .r, .r, 0, .ro, false⟩
  | .sbTwinSkips => ⟨0x3E80, .plus, 128, 0x06, .u32, .r, .r, .r, 0, .ro, false⟩
  | .sbTwinState => ⟨0x3E80, .plus, 128, 0x07, .u8, .r, .r, .r, 0, .ro, false⟩
  | .sbrCause => ⟨0x3E80, (.region 4), 2048, 0x00, .u8, .r, .r, .r, 0, .ro, false⟩
  | .sbrCrc => ⟨0x3E80, (.region 4), 2048, 0x01, .u32, .r, .r, .r, 0, .ro, false⟩
  | .sbrMatch => ⟨0x3E80, (.region 4), 2048, 0x02, .u8, .r, .r, .r, 255, .ro, false⟩
  | .sbrAge => ⟨0x3E80, (.region 4), 2048, 0x03, .u32, .r, .r, .r, 0, .ro, false⟩
  | .arrXsProfile => ⟨0x3000, .plus, 256, 0x60, .u8, .r, .rw, .rw, 0, .commit, true⟩
  | .arrXsLinesConcealed => ⟨0x3000, .plus, 256, 0x61, .u32, .r, .r, .r, 0, .ro, false⟩
  | .arrXsParseErrors => ⟨0x3000, .plus, 256, 0x62, .u32, .r, .r, .r, 0, .ro, false⟩
  | .arrXsBppNow => ⟨0x3000, .plus, 256, 0x63, .u16, .r, .r, .r, 0, .ro, false⟩
  | .depXsProfile => ⟨0x3400, .plus, 128, 0x60, .u8, .r, .rw, .rw, 255, .commit, true⟩
  | .depXsBpp => ⟨0x3400, .plus, 128, 0x61, .u16, .r, .rw, .rw, 64, .commit, true⟩
  | .depXsNlx => ⟨0x3400, .plus, 128, 0x62, .u8, .r, .rw, .rw, 5, .commit, true⟩
  | .depXsNly => ⟨0x3400, .plus, 128, 0x63, .u8, .r, .rw, .rw, 1, .commit, true⟩
  | .depXsPayload => ⟨0x3400, .plus, 128, 0x64, .u16, .r, .rw, .rw, 1400, .commit, true⟩
  | .depXsCodec => ⟨0x3400, .plus, 128, 0x65, .u8, .r, .r, .r, 255, .ro, false⟩
  | .depXsFrameBytes => ⟨0x3400, .plus, 128, 0x66, .u32, .r, .r, .r, 0, .ro, false⟩
  | .cdcState => ⟨0x5CA0, .plus, 24, 0x01, .u8, .r, .r, .r, 0, .ro, false⟩
  | .cdcStreams => ⟨0x5CA0, .plus, 24, 0x02, .u8, .r, .r, .r, 0, .ro, false⟩
  | .cdcLoad => ⟨0x5CA0, .plus, 24, 0x03, .u32, .r, .r, .r, 0, .ro, false⟩
  | .cdcFaults => ⟨0x5CA0, .plus, 24, 0x04, .u32, .r, .r, .r, 0, .ro, false⟩
  | .cdcEventFlags => ⟨0x5CA0, .plus, 24, 0x05, .u32, .rw, .rw, .rw, 0, .now, false⟩
  | .cdcReadmit => ⟨0x5881, .one, 1, 0x01, .u8, .none, .r, .rw, 255, .now, false⟩
  | .depMac => ⟨0x3400, .plus, 128, 0x10, .u8, .r, .rw, .rw, 0, .commit, true⟩
  | .depDstIp => ⟨0x3400, .plus, 128, 0x11, .u32, .r, .rw, .rw, 0, .commit, true⟩
  | .depUdpPort => ⟨0x3400, .plus, 128, 0x12, .u16, .r, .rw, .rw, 5004, .commit, true⟩
  | .depSrcPort => ⟨0x3400, .plus, 128, 0x13, .u16, .r, .rw, .rw, 5004, .commit, true⟩
  | .depSsrc => ⟨0x3400, .plus, 128, 0x14, .u32, .r, .rw, .rw, 0, .commit, true⟩
  | .depPt => ⟨0x3400, .plus, 128, 0x15, .u8, .r, .rw, .rw, 96, .commit, true⟩
  | .depTag => ⟨0x3400, .plus, 128, 0x16, .u16, .r, .rw, .rw, 65535, .commit, true⟩
  | .depDscp => ⟨0x3400, .plus, 128, 0x17, .u8, .r, .rw, .rw, 34, .commit, true⟩
  | .depDup => ⟨0x3400, .plus, 128, 0x18, .bool, .r, .rw, .rw, 0, .commit, true⟩
  | .depMacB => ⟨0x3400, .plus, 128, 0x19, .u8, .r, .rw, .rw, 1, .commit, true⟩
  | .depDstIpB => ⟨0x3400, .plus, 128, 0x1A, .u32, .r, .rw, .rw, 0, .commit, true⟩
  | .depUdpPortB => ⟨0x3400, .plus, 128, 0x1B, .u16, .r, .rw, .rw, 5004, .commit, true⟩
  | .depTagB => ⟨0x3400, .plus, 128, 0x1C, .u16, .r, .rw, .rw, 65535, .commit, true⟩
  | .depPacing => ⟨0x3400, .plus, 128, 0x1D, .u8, .r, .rw, .rw, 0, .commit, true⟩
  | .depBurst => ⟨0x3400, .plus, 128, 0x1E, .u8, .r, .rw, .rw, 4, .commit, true⟩
  | .depTro => ⟨0x3400, .plus, 128, 0x1F, .u32, .r, .rw, .rw, 0, .commit, true⟩
  | .depPayload => ⟨0x3400, .plus, 128, 0x20, .u16, .r, .rw, .rw, 1200, .commit, true⟩
  | .depHead => ⟨0x3400, .plus, 128, 0x28, .u8, .r, .rw, .rw, 0, .commit, true⟩
  | .depHTotal => ⟨0x3400, .plus, 128, 0x29, .u16, .r, .rw, .rw, 2200, .commit, true⟩
  | .depHSyncStart => ⟨0x3400, .plus, 128, 0x2A, .u16, .r, .rw, .rw, 2008, .commit, true⟩
  | .depHSyncWidth => ⟨0x3400, .plus, 128, 0x2B, .u16, .r, .rw, .rw, 44, .commit, true⟩
  | .depVSyncStart => ⟨0x3400, .plus, 128, 0x2C, .u16, .r, .rw, .rw, 1084, .commit, true⟩
  | .depVSyncWidth => ⟨0x3400, .plus, 128, 0x2D, .u8, .r, .rw, .rw, 5, .commit, true⟩
  | .depSyncPol => ⟨0x3400, .plus, 128, 0x2E, .u8, .r, .rw, .rw, 3, .commit, true⟩
  | .depDpMaxRate => ⟨0x3400, .plus, 128, 0x2F, .u8, .r, .rw, .rw, 4, .commit, true⟩
  | .depDpMaxLanes => ⟨0x3400, .plus, 128, 0x30, .u8, .r, .rw, .rw, 4, .commit, true⟩
  | .depCapRing => ⟨0x3400, .plus, 128, 0x38, .u16, .r, .rw, .rw, 0, .commit, true⟩
  | .depCapEvery => ⟨0x3400, .plus, 128, 0x39, .u8, .r, .rw, .rw, 1, .commit, true⟩
  | .depEventFlags => ⟨0x3400, .plus, 128, 0x40, .u32, .rw, .rw, .rw, 0, .now, false⟩
  | .depFrames => ⟨0x3400, .plus, 128, 0x41, .u32, .r, .r, .r, 0, .ro, false⟩
  | .depFrameTime => ⟨0x3400, .plus, 128, 0x42, .time64, .r, .r, .r, 0, .ro, false⟩
  | .depPktsA => ⟨0x3400, .plus, 128, 0x43, .u32, .r, .r, .r, 0, .ro, false⟩
  | .depPktsB => ⟨0x3400, .plus, 128, 0x44, .u32, .r, .r, .r, 0, .ro, false⟩
  | .depTxLate => ⟨0x3400, .plus, 128, 0x45, .u32, .r, .r, .r, 0, .ro, false⟩
  | .depWbAbandoned => ⟨0x3400, .plus, 128, 0x46, .u32, .r, .r, .r, 0, .ro, false⟩
  | .depCapFrames => ⟨0x3400, .plus, 128, 0x47, .u32, .r, .r, .r, 0, .ro, false⟩
  | .depCapSkips => ⟨0x3400, .plus, 128, 0x48, .u32, .r, .r, .r, 0, .ro, false⟩
  | .depCapAbandoned => ⟨0x3400, .plus, 128, 0x49, .u32, .r, .r, .r, 0, .ro, false⟩
  | .headState => ⟨0x2810, .plus, 8, 0x01, .u8, .r, .r, .r, 0, .ro, false⟩
  | .headLinkRate => ⟨0x2810, .plus, 8, 0x02, .u8, .r, .r, .r, 0, .ro, false⟩
  | .headLinkLanes => ⟨0x2810, .plus, 8, 0x03, .u8, .r, .r, .r, 0, .ro, false⟩
  | .headHpd => ⟨0x2810, .plus, 8, 0x04, .bool, .r, .r, .r, 0, .ro, false⟩
  | .headDownspread => ⟨0x2810, .plus, 8, 0x05, .bool, .r, .rw, .rw, 1, .now, true⟩
  | .headRetrain => ⟨0x2810, .plus, 8, 0x06, .u8, .r, .rw, .rw, 0, .now, false⟩
  | .headEdid => ⟨0x2810, .plus, 8, 0x07, .domain, .r, .r, .r, 0, .ro, false⟩
  | .headDpcdCaps => ⟨0x2810, .plus, 8, 0x08, .domain, .r, .r, .r, 0, .ro, false⟩
  | .headDep => ⟨0x2810, .plus, 8, 0x09, .u8, .r, .r, .r, 255, .ro, false⟩
  | .headRetrains => ⟨0x2810, .plus, 8, 0x0A, .u32, .r, .r, .r, 0, .ro, false⟩
  | .headEventFlags => ⟨0x2810, .plus, 8, 0x0B, .u32, .rw, .rw, .rw, 0, .now, false⟩
  | .headLastFail => ⟨0x2810, .plus, 8, 0x0C, .u8, .r, .r, .r, 0, .ro, false⟩
  | .mcCount48 => ⟨0x4000, .one, 1, 0x01, .u32, .r, .r, .r, 0, .ro, false⟩
  | .mcCount96 => ⟨0x4000, .one, 1, 0x02, .u32, .r, .r, .r, 0, .ro, false⟩
  | .tdmEnable => ⟨0x4010, .plus, 16, 0x01, .bool, .r, .rw, .rw, 0, .commit, true⟩
  | .tdmMode => ⟨0x4010, .plus, 16, 0x02, .u8, .r, .rw, .rw, 0, .commit, true⟩
  | .tdmPll => ⟨0x4010, .plus, 16, 0x03, .u8, .r, .rw, .rw, 0, .commit, true⟩
  | .tdmRate => ⟨0x4010, .plus, 16, 0x04, .u32, .r, .rw, .rw, 48000, .commit, true⟩
  | .tdmFrameLen => ⟨0x4010, .plus, 16, 0x05, .u16, .r, .rw, .rw, 256, .commit, true⟩
  | .tdmSlots => ⟨0x4010, .plus, 16, 0x06, .u8, .r, .rw, .rw, 8, .commit, true⟩
  | .tdmSlotWidth => ⟨0x4010, .plus, 16, 0x07, .u8, .r, .rw, .rw, 32, .commit, true⟩
  | .tdmSlotOffset => ⟨0x4010, .plus, 16, 0x08, .u8, .r, .rw, .rw, 1, .commit, true⟩
  | .tdmWordLen => ⟨0x4010, .plus, 16, 0x09, .u8, .r, .rw, .rw, 24, .commit, true⟩
  | .tdmFsShape => ⟨0x4010, .plus, 16, 0x0A, .u8, .r, .rw, .rw, 0, .commit, true⟩
  | .tdmPolarity => ⟨0x4010, .plus, 16, 0x0B, .u8, .r, .rw, .rw, 3, .commit, true⟩
  | .tdmTxIdle => ⟨0x4010, .plus, 16, 0x0C, .u8, .r, .rw, .rw, 0, .commit, true⟩
  | .tdmTxMask => ⟨0x4010, .plus, 16, 0x0D, .u32, .r, .rw, .rw, 0, .now, true⟩
  | .tdmRxMask => ⟨0x4010, .plus, 16, 0x0E, .u32, .r, .rw, .rw, 0, .now, true⟩
  | .tdmLoop => ⟨0x4010, .plus, 16, 0x0F, .u8, .none, .r, .rw, 0, .now, false⟩
  | .tdmState => ⟨0x4010, .plus, 16, 0x10, .u8, .r, .r, .r, 0, .ro, false⟩
  | .tdmClock => ⟨0x4010, .plus, 16, 0x11, .u8, .r, .r, .r, 0, .ro, false⟩
  | .tdmEventFlags => ⟨0x4010, .plus, 16, 0x12, .u32, .rw, .rw, .rw, 0, .now, false⟩
  | .tdmFrames => ⟨0x4010, .plus, 16, 0x13, .u32, .r, .r, .r, 0, .ro, false⟩
  | .tdmMalformed => ⟨0x4010, .plus, 16, 0x14, .u32, .r, .r, .r, 0, .ro, false⟩
  | .tdmLastLatch => ⟨0x4010, .plus, 16, 0x15, .tick48, .r, .r, .r, 0, .ro, false⟩
  | .pllEnable => ⟨0x4030, .plus, 4, 0x01, .bool, .r, .rw, .rw, 0, .commit, true⟩
  | .pllFamily => ⟨0x4030, .plus, 4, 0x02, .u8, .r, .rw, .rw, 0, .commit, true⟩
  | .pllRef => ⟨0x4030, .plus, 4, 0x03, .u8, .r, .rw, .rw, 0, .commit, true⟩
  | .pllPull => ⟨0x4030, .plus, 4, 0x04, .u16, .r, .rw, .rw, 100, .now, true⟩
  | .pllMclkOut => ⟨0x4030, .plus, 4, 0x05, .bool, .r, .rw, .rw, 0, .commit, true⟩
  | .pllState => ⟨0x4030, .plus, 4, 0x06, .u8, .r, .r, .r, 0, .ro, false⟩
  | .pllOffset => ⟨0x4030, .plus, 4, 0x07, .i32, .r, .r, .r, 0, .ro, false⟩
  | .pllPhaseErr => ⟨0x4030, .plus, 4, 0x08, .i32, .r, .r, .r, 0, .ro, false⟩
  | .pllSlips => ⟨0x4030, .plus, 4, 0x09, .u32, .r, .r, .r, 0, .ro, false⟩
  | .pllEventFlags => ⟨0x4030, .plus, 4, 0x0A, .u32, .rw, .rw, .rw, 0, .now, false⟩
  | .asrcInClock => ⟨0x4080, .plus, 128, 0x01, .u8, .r, .rw, .rw, 0, .commit, true⟩
  | .asrcInRate => ⟨0x4080, .plus, 128, 0x02, .u32, .r, .rw, .rw, 48000, .commit, true⟩
  | .asrcOutClock => ⟨0x4080, .plus, 128, 0x03, .u8, .r, .rw, .rw, 4, .commit, true⟩
  | .asrcOutRate => ⟨0x4080, .plus, 128, 0x04, .u32, .r, .rw, .rw, 48000, .commit, true⟩
  | .asrcState => ⟨0x4080, .plus, 128, 0x05, .u8, .r, .r, .r, 0, .ro, false⟩
  | .asrcRatio => ⟨0x4080, .plus, 128, 0x06, .u32, .r, .r, .r, 0, .ro, false⟩
  | .asrcTracker => ⟨0x4080, .plus, 128, 0x07, .u8, .r, .r, .r, 255, .ro, false⟩
  | .asrcEventFlags => ⟨0x4080, .plus, 128, 0x08, .u32, .rw, .rw, .rw, 0, .now, false⟩
  | .dstSrc0 => ⟨0x4200, .quad, 1024, 0x01, .u16, .rw, .rw, .rw, 65535, .commit, true⟩
  | .dstSrc1 => ⟨0x4200, .quad, 1024, 0x02, .u16, .rw, .rw, .rw, 65535, .commit, true⟩
  | .dstSrc2 => ⟨0x4200, .quad, 1024, 0x03, .u16, .rw, .rw, .rw, 65535, .commit, true⟩
  | .dstSrc3 => ⟨0x4200, .quad, 1024, 0x04, .u16, .rw, .rw, .rw, 65535, .commit, true⟩
  | .dstSrc4 => ⟨0x4200, .quad, 1024, 0x05, .u16, .rw, .rw, .rw, 65535, .commit, true⟩
  | .dstSrc5 => ⟨0x4200, .quad, 1024, 0x06, .u16, .rw, .rw, .rw, 65535, .commit, true⟩
  | .dstSrc6 => ⟨0x4200, .quad, 1024, 0x07, .u16, .rw, .rw, .rw, 65535, .commit, true⟩
  | .dstSrc7 => ⟨0x4200, .quad, 1024, 0x08, .u16, .rw, .rw, .rw, 65535, .commit, true⟩
  | .dstGain0 => ⟨0x4200, .quad, 1024, 0x09, .i16, .rw, .rw, .rw, 0, .now, true⟩
  | .dstGain1 => ⟨0x4200, .quad, 1024, 0x0A, .i16, .rw, .rw, .rw, 0, .now, true⟩
  | .dstGain2 => ⟨0x4200, .quad, 1024, 0x0B, .i16, .rw, .rw, .rw, 0, .now, true⟩
  | .dstGain3 => ⟨0x4200, .quad, 1024, 0x0C, .i16, .rw, .rw, .rw, 0, .now, true⟩
  | .dstGain4 => ⟨0x4200, .quad, 1024, 0x0D, .i16, .rw, .rw, .rw, 0, .now, true⟩
  | .dstGain5 => ⟨0x4200, .quad, 1024, 0x0E, .i16, .rw, .rw, .rw, 0, .now, true⟩
  | .dstGain6 => ⟨0x4200, .quad, 1024, 0x0F, .i16, .rw, .rw, .rw, 0, .now, true⟩
  | .dstGain7 => ⟨0x4200, .quad, 1024, 0x10, .i16, .rw, .rw, .rw, 0, .now, true⟩
  | .dstGain => ⟨0x4200, .quad, 1024, 0x11, .i16, .rw, .rw, .rw, 0, .now, true⟩
  | .dstRamp => ⟨0x4200, .quad, 1024, 0x12, .u16, .r, .rw, .rw, 240, .now, true⟩
  | .dstDuckKey => ⟨0x4200, .quad, 1024, 0x13, .u16, .r, .rw, .rw, 65535, .commit, true⟩
  | .dstDuckMask => ⟨0x4200, .quad, 1024, 0x14, .u8, .r, .rw, .rw, 0, .now, true⟩
  | .dstDuckDepth => ⟨0x4200, .quad, 1024, 0x15, .i16, .rw, .rw, .rw, 63736, .now, true⟩
  | .dstDuckThresh => ⟨0x4200, .quad, 1024, 0x16, .i16, .r, .rw, .rw, 61536, .now, true⟩
  | .dstDuckAttack => ⟨0x4200, .quad, 1024, 0x17, .u16, .r, .rw, .rw, 20, .now, true⟩
  | .dstDuckHold => ⟨0x4200, .quad, 1024, 0x18, .u16, .r, .rw, .rw, 500, .now, true⟩
  | .dstDuckRelease => ⟨0x4200, .quad, 1024, 0x19, .u16, .r, .rw, .rw, 1000, .now, true⟩
  | .dstDuckState => ⟨0x4200, .quad, 1024, 0x1A, .u8, .r, .r, .r, 0, .ro, false⟩
  | .dstClock => ⟨0x4200, .quad, 1024, 0x1B, .u8, .r, .r, .r, 0, .ro, false⟩
  | .dstPeak => ⟨0x4200, .quad, 1024, 0x1C, .i16, .r, .r, .r, 32768, .ro, false⟩
  | .nrEnable => ⟨0x4300, .plus, 64, 0x01, .bool, .r, .rw, .rw, 0, .commit, true⟩
  | .nrMac => ⟨0x4300, .plus, 64, 0x02, .u8, .r, .rw, .rw, 0, .commit, true⟩
  | .nrDstIp => ⟨0x4300, .plus, 64, 0x03, .u32, .r, .rw, .rw, 0, .commit, true⟩
  | .nrUdpPort => ⟨0x4300, .plus, 64, 0x04, .u16, .r, .rw, .rw, 5004, .commit, true⟩
  | .nrSrcIp => ⟨0x4300, .plus, 64, 0x05, .u32, .r, .rw, .rw, 0, .commit, true⟩
  | .nrPt => ⟨0x4300, .plus, 64, 0x06, .u8, .r, .rw, .rw, 96, .commit, true⟩
  | .nrEncoding => ⟨0x4300, .plus, 64, 0x07, .u8, .r, .rw, .rw, 1, .commit, true⟩
  | .nrRate => ⟨0x4300, .plus, 64, 0x08, .u32, .r, .rw, .rw, 48000, .commit, true⟩
  | .nrChannels => ⟨0x4300, .plus, 64, 0x09, .u8, .r, .rw, .rw, 2, .commit, true⟩
  | .nrPacketSamples => ⟨0x4300, .plus, 64, 0x0A, .u8, .r, .rw, .rw, 48, .commit, true⟩
  | .nrFirst => ⟨0x4300, .plus, 64, 0x0B, .u16, .r, .rw, .rw, 0, .commit, true⟩
  | .nrOffset => ⟨0x4300, .plus, 64, 0x0C, .u32, .r, .rw, .rw, 3000, .commit, true⟩
  | .nrTsOffset => ⟨0x4300, .plus, 64, 0x0D, .u32, .r, .rw, .rw, 0, .commit, true⟩
  | .nrNap => ⟨0x4300, .plus, 64, 0x0E, .bool, .r, .rw, .rw, 1, .now, true⟩
  | .nrState => ⟨0x4300, .plus, 64, 0x0F, .u8, .r, .r, .r, 0, .ro, false⟩
  | .nrPkts => ⟨0x4300, .plus, 64, 0x10, .u32, .r, .r, .r, 0, .ro, false⟩
  | .nrLate => ⟨0x4300, .plus, 64, 0x11, .u32, .r, .r, .r, 0, .ro, false⟩
  | .nrUnderruns => ⟨0x4300, .plus, 64, 0x12, .u32, .r, .r, .r, 0, .ro, false⟩
  | .nrEventFlags => ⟨0x4300, .plus, 64, 0x13, .u32, .rw, .rw, .rw, 0, .now, false⟩
  | .nsEnable => ⟨0x4340, .plus, 64, 0x01, .bool, .r, .rw, .rw, 0, .commit, true⟩
  | .nsMac => ⟨0x4340, .plus, 64, 0x02, .u8, .r, .rw, .rw, 0, .commit, true⟩
  | .nsDstIp => ⟨0x4340, .plus, 64, 0x03, .u32, .r, .rw, .rw, 0, .commit, true⟩
  | .nsUdpPort => ⟨0x4340, .plus, 64, 0x04, .u16, .r, .rw, .rw, 5004, .commit, true⟩
  | .nsSrcPort => ⟨0x4340, .plus, 64, 0x05, .u16, .r, .rw, .rw, 5004, .commit, true⟩
  | .nsPt => ⟨0x4340, .plus, 64, 0x06, .u8, .r, .rw, .rw, 96, .commit, true⟩
  | .nsSsrc => ⟨0x4340, .plus, 64, 0x07, .u32, .r, .rw, .rw, 0, .commit, true⟩
  | .nsTag => ⟨0x4340, .plus, 64, 0x08, .u16, .r, .rw, .rw, 65535, .commit, true⟩
  | .nsDscp => ⟨0x4340, .plus, 64, 0x09, .u8, .r, .rw, .rw, 46, .commit, true⟩
  | .nsEncoding => ⟨0x4340, .plus, 64, 0x0A, .u8, .r, .rw, .rw, 1, .commit, true⟩
  | .nsRate => ⟨0x4340, .plus, 64, 0x0B, .u32, .r, .rw, .rw, 48000, .commit, true⟩
  | .nsChannels => ⟨0x4340, .plus, 64, 0x0C, .u8, .r, .rw, .rw, 2, .commit, true⟩
  | .nsPacketSamples => ⟨0x4340, .plus, 64, 0x0D, .u8, .r, .rw, .rw, 48, .commit, true⟩
  | .nsFirst => ⟨0x4340, .plus, 64, 0x0E, .u16, .r, .rw, .rw, 0, .commit, true⟩
  | .nsState => ⟨0x4340, .plus, 64, 0x10, .u8, .r, .r, .r, 0, .ro, false⟩
  | .nsPkts => ⟨0x4340, .plus, 64, 0x11, .u32, .r, .r, .r, 0, .ro, false⟩
  | .headAudCh => ⟨0x43A0, .plus, 8, 0x01, .u8, .r, .rw, .rw, 2, .commit, true⟩
  | .headAudRate => ⟨0x43A0, .plus, 8, 0x02, .u32, .r, .rw, .rw, 48000, .commit, true⟩
  | .headAudDepth => ⟨0x43A0, .plus, 8, 0x03, .u8, .r, .rw, .rw, 24, .commit, true⟩
  | .embArrival => ⟨0x43A8, .plus, 8, 0x01, .u8, .r, .rw, .rw, 255, .commit, true⟩
  | .embOffset => ⟨0x43A8, .plus, 8, 0x02, .u32, .r, .rw, .rw, 40000, .commit, true⟩
  | .embNap => ⟨0x43A8, .plus, 8, 0x03, .bool, .r, .rw, .rw, 1, .now, true⟩
  | .capDeparture => ⟨0x43A8, .plus, 8, 0x04, .u8, .r, .rw, .rw, 255, .commit, true⟩
  | .cvMode => ⟨0x4380, .plus, 32, 0x01, .u8, .r, .rw, .rw, 0, .commit, true⟩
  | .cvGroup => ⟨0x4380, .plus, 32, 0x02, .u8, .r, .rw, .rw, 0, .commit, true⟩
  | .cvDelay => ⟨0x4380, .plus, 32, 0x03, .u32, .r, .rw, .rw, 40000, .commit, true⟩
  | .cvLayer0 => ⟨0x4380, .plus, 32, 0x04, .u16, .r, .rw, .rw, 65535, .commit, true⟩
  | .cvLayer1 => ⟨0x4380, .plus, 32, 0x05, .u16, .r, .rw, .rw, 65535, .commit, true⟩
  | .cvLayer2 => ⟨0x4380, .plus, 32, 0x06, .u16, .r, .rw, .rw, 65535, .commit, true⟩
  | .cvLayer3 => ⟨0x4380, .plus, 32, 0x07, .u16, .r, .rw, .rw, 65535, .commit, true⟩
  | .cvLayer4 => ⟨0x4380, .plus, 32, 0x08, .u16, .r, .rw, .rw, 65535, .commit, true⟩
  | .cvLayer5 => ⟨0x4380, .plus, 32, 0x09, .u16, .r, .rw, .rw, 65535, .commit, true⟩
  | .cvLayer6 => ⟨0x4380, .plus, 32, 0x0A, .u16, .r, .rw, .rw, 65535, .commit, true⟩
  | .cvLayer7 => ⟨0x4380, .plus, 32, 0x0B, .u16, .r, .rw, .rw, 65535, .commit, true⟩
  | .cvAudio0 => ⟨0x4380, .plus, 32, 0x0C, .u8, .r, .rw, .rw, 255, .commit, true⟩
  | .cvAudio1 => ⟨0x4380, .plus, 32, 0x0D, .u8, .r, .rw, .rw, 255, .commit, true⟩
  | .cvAudio2 => ⟨0x4380, .plus, 32, 0x0E, .u8, .r, .rw, .rw, 255, .commit, true⟩
  | .cvAudio3 => ⟨0x4380, .plus, 32, 0x0F, .u8, .r, .rw, .rw, 255, .commit, true⟩
  | .cvAudio4 => ⟨0x4380, .plus, 32, 0x10, .u8, .r, .rw, .rw, 255, .commit, true⟩
  | .cvAudio5 => ⟨0x4380, .plus, 32, 0x11, .u8, .r, .rw, .rw, 255, .commit, true⟩
  | .cvAudio6 => ⟨0x4380, .plus, 32, 0x12, .u8, .r, .rw, .rw, 255, .commit, true⟩
  | .cvAudio7 => ⟨0x4380, .plus, 32, 0x13, .u8, .r, .rw, .rw, 255, .commit, true⟩
  | .cvExcuse => ⟨0x4380, .plus, 32, 0x14, .u8, .r, .rw, .rw, 8, .commit, true⟩
  | .cvState => ⟨0x4380, .plus, 32, 0x15, .u8, .r, .r, .r, 0, .ro, false⟩
  | .cvEventFlags => ⟨0x4380, .plus, 32, 0x16, .u32, .rw, .rw, .rw, 0, .now, false⟩
  | .napPorts => ⟨0x43D0, .one, 1, 0x01, .u16, .r, .rw, .rw, 65535, .now, true⟩
  | .napHold => ⟨0x43D0, .one, 1, 0x02, .u16, .r, .rw, .rw, 8192, .now, true⟩
  | .napActive => ⟨0x43D0, .one, 1, 0x03, .domain, .r, .r, .r, 0, .ro, false⟩
  | .napEventFlags => ⟨0x43D0, .one, 1, 0x04, .u32, .rw, .rw, .rw, 0, .now, false⟩
  | .ptrEnable => ⟨0x4410, .plus, 4, 0x01, .bool, .r, .rw, .rw, 0, .now, true⟩
  | .ptrRing => ⟨0x4410, .plus, 4, 0x02, .u16, .r, .rw, .rw, 0, .commit, true⟩
  | .ptrDeadTime => ⟨0x4410, .plus, 4, 0x03, .u16, .r, .rw, .rw, 0, .now, true⟩
  | .ptrHalt => ⟨0x4410, .plus, 4, 0x04, .bool, .r, .rw, .rw, 0, .now, true⟩
  | .ptrCtl => ⟨0x4410, .plus, 4, 0x05, .u8, .r, .rw, .rw, 0, .now, false⟩
  | .ptrState => ⟨0x4410, .plus, 4, 0x06, .u8, .r, .r, .r, 0, .ro, false⟩
  | .ptrLastStatus => ⟨0x4410, .plus, 4, 0x07, .u16, .r, .r, .r, 0, .ro, false⟩
  | .ptrDone => ⟨0x4410, .plus, 4, 0x08, .u32, .r, .r, .r, 0, .ro, false⟩
  | .ptrErrors => ⟨0x4410, .plus, 4, 0x09, .u32, .r, .r, .r, 0, .ro, false⟩
  | .ptrStalls => ⟨0x4410, .plus, 4, 0x0A, .u32, .r, .r, .r, 0, .ro, false⟩
  | .ptrBytesRead => ⟨0x4410, .plus, 4, 0x0B, .u64, .r, .r, .r, 0, .ro, false⟩
  | .ptrBytesWritten => ⟨0x4410, .plus, 4, 0x0C, .u64, .r, .r, .r, 0, .ro, false⟩
  | .ptrEventFlags => ⟨0x4410, .plus, 4, 0x0D, .u32, .rw, .rw, .rw, 0, .now, false⟩
  | .laneProto => ⟨0x2410, .plus, 48, 0x01, .u8, .r, .rw, .rw, 0, .commit, true⟩
  | .laneMac => ⟨0x2410, .plus, 48, 0x02, .u8, .r, .rw, .rw, 0, .commit, true⟩
  | .laneTxInv => ⟨0x2410, .plus, 48, 0x03, .bool, .r, .rw, .rw, 0, .commit, true⟩
  | .laneRxInv => ⟨0x2410, .plus, 48, 0x04, .bool, .r, .rw, .rw, 0, .commit, true⟩
  | .laneTxMain => ⟨0x2410, .plus, 48, 0x05, .u8, .r, .rw, .rw, 48, .commit, true⟩
  | .laneTxPre => ⟨0x2410, .plus, 48, 0x06, .u8, .r, .rw, .rw, 4, .commit, true⟩
  | .laneTxPost => ⟨0x2410, .plus, 48, 0x07, .u8, .r, .rw, .rw, 8, .commit, true⟩
  | .laneRecal => ⟨0x2410, .plus, 48, 0x08, .u8, .r, .rw, .rw, 0, .now, false⟩
  | .laneState => ⟨0x2410, .plus, 48, 0x09, .u8, .r, .r, .r, 0, .ro, false⟩
  | .laneCause => ⟨0x2410, .plus, 48, 0x0A, .u8, .r, .r, .r, 0, .ro, false⟩
  | .laneAttempts => ⟨0x2410, .plus, 48, 0x0B, .u32, .r, .r, .r, 0, .ro, false⟩
  | .laneFreezes => ⟨0x2410, .plus, 48, 0x0C, .u32, .r, .r, .r, 0, .ro, false⟩
  | .laneEventFlags => ⟨0x2410, .plus, 48, 0x0D, .u32, .rw, .rw, .rw, 0, .now, false⟩
  | .laneTest => ⟨0x2410, .plus, 48, 0x10, .u8, .none, .r, .rw, 0, .now, false⟩
  | .laneLoop => ⟨0x2410, .plus, 48, 0x11, .u8, .none, .r, .rw, 0, .now, false⟩
  | .lanePattern => ⟨0x2410, .plus, 48, 0x12, .u8, .none, .r, .rw, 4, .now, false⟩
  | .laneUser => ⟨0x2410, .plus, 48, 0x13, .domain, .none, .r, .rw, 0, .now, false⟩
  | .laneTestRate => ⟨0x2410, .plus, 48, 0x14, .u32, .none, .r, .rw, 10312500, .now, false⟩
  | .laneInject => ⟨0x2410, .plus, 48, 0x15, .u8, .none, .r, .rw, 0, .now, false⟩
  | .laneInjectPeriod => ⟨0x2410, .plus, 48, 0x16, .u32, .none, .r, .rw, 0, .now, false⟩
  | .laneChkBits => ⟨0x2410, .plus, 48, 0x17, .u64, .r, .r, .r, 0, .ro, false⟩
  | .laneChkErrors => ⟨0x2410, .plus, 48, 0x18, .u64, .r, .r, .r, 0, .ro, false⟩
  | .laneFeSlips => ⟨0x2410, .plus, 48, 0x19, .u32, .r, .r, .r, 0, .ro, false⟩
  | .ethSpeed => ⟨0x2610, .plus, 24, 0x01, .u8, .r, .rw, .rw, 1, .commit, true⟩
  | .ethAddr => ⟨0x2610, .plus, 24, 0x02, .u64, .r, .rw, .rw, 0, .commit, true⟩
  | .ethIp => ⟨0x2610, .plus, 24, 0x03, .u32, .r, .rw, .rw, 0, .commit, true⟩
  | .ethNetmask => ⟨0x2610, .plus, 24, 0x04, .u32, .r, .rw, .rw, 4294967040, .commit, true⟩
  | .ethGateway => ⟨0x2610, .plus, 24, 0x05, .u32, .r, .rw, .rw, 0, .commit, true⟩
  | .ethMaxFrame => ⟨0x2610, .plus, 24, 0x06, .u16, .r, .rw, .rw, 1522, .commit, true⟩
  | .ethVidRx => ⟨0x2610, .plus, 24, 0x07, .u64, .r, .rw, .rw, 18446744073709551615, .commit, true⟩
  | .ethAvShare => ⟨0x2610, .plus, 24, 0x08, .u8, .r, .rw, .rw, 75, .commit, true⟩
  | .ethTtl => ⟨0x2610, .plus, 24, 0x09, .u8, .r, .rw, .rw, 64, .commit, true⟩
  | .ethTsAdjTx => ⟨0x2610, .plus, 24, 0x0A, .i32, .r, .rw, .rw, 0, .now, true⟩
  | .ethTsAdjRx => ⟨0x2610, .plus, 24, 0x0B, .i32, .r, .rw, .rw, 0, .now, true⟩
  | .ethLoop => ⟨0x2610, .plus, 24, 0x0C, .u8, .none, .r, .rw, 0, .now, false⟩
  | .ethLink => ⟨0x2610, .plus, 24, 0x0D, .u8, .r, .r, .r, 0, .ro, false⟩
  | .ethSlopeVideo => ⟨0x2610, .plus, 24, 0x0E, .u64, .r, .r, .r, 0, .ro, false⟩
  | .ethSlopeAudio => ⟨0x2610, .plus, 24, 0x0F, .u64, .r, .r, .r, 0, .ro, false⟩
  | .ethAdmitted => ⟨0x2610, .plus, 24, 0x10, .u64, .r, .r, .r, 0, .ro, false⟩
  | .ethEventFlags => ⟨0x2610, .plus, 24, 0x11, .u32, .rw, .rw, .rw, 0, .now, false⟩
  | .ethTxFrames => ⟨0x2610, .plus, 24, 0x12, .u64, .r, .r, .r, 0, .ro, false⟩
  | .ethRxFrames => ⟨0x2610, .plus, 24, 0x13, .u64, .r, .r, .r, 0, .ro, false⟩
  | .ethRxFcs => ⟨0x2610, .plus, 24, 0x14, .u32, .r, .r, .r, 0, .ro, false⟩
  | .ethRxOversize => ⟨0x2610, .plus, 24, 0x15, .u32, .r, .r, .r, 0, .ro, false⟩
  | .ethRxUnmatched => ⟨0x2610, .plus, 24, 0x16, .u32, .r, .r, .r, 0, .ro, false⟩
  | .ethRxCtlOverflow => ⟨0x2610, .plus, 24, 0x17, .u32, .r, .r, .r, 0, .ro, false⟩
  | .ethTxDropDown => ⟨0x2610, .plus, 24, 0x18, .u32, .r, .r, .r, 0, .ro, false⟩
  | .ethTxUnresolved => ⟨0x2610, .plus, 24, 0x19, .u32, .r, .r, .r, 0, .ro, false⟩
  | .ethFecUncorrected => ⟨0x2610, .plus, 24, 0x1A, .u32, .r, .r, .r, 0, .ro, false⟩
  | .ethTsOverflow => ⟨0x2610, .plus, 24, 0x1B, .u32, .r, .r, .r, 0, .ro, false⟩
  | .msEnable => ⟨0x2640, .plus, 24, 0x01, .bool, .r, .rw, .rw, 0, .commit, true⟩
  | .msMode => ⟨0x2640, .plus, 24, 0x02, .u8, .r, .rw, .rw, 1, .commit, true⟩
  | .msSuite => ⟨0x2640, .plus, 24, 0x03, .u8, .r, .rw, .rw, 1, .commit, true⟩
  | .msConfidentiality => ⟨0x2640, .plus, 24, 0x04, .bool, .r, .rw, .rw, 1, .commit, true⟩
  | .msReplayWindow => ⟨0x2640, .plus, 24, 0x05, .u32, .r, .rw, .rw, 64, .commit, true⟩
  | .msPtpClear => ⟨0x2640, .plus, 24, 0x06, .bool, .r, .rw, .rw, 1, .commit, true⟩
  | .msCak => ⟨0x2640, .plus, 24, 0x07, .u32, .r, .rw, .rw, 4294967295, .commit, true⟩
  | .msRxOverlap => ⟨0x2640, .plus, 24, 0x08, .u16, .r, .rw, .rw, 3000, .now, true⟩
  | .msPnThreshold => ⟨0x2640, .plus, 24, 0x09, .u8, .r, .rw, .rw, 75, .now, true⟩
  | .msTxAn => ⟨0x2640, .plus, 24, 0x0A, .u8, .r, .rw, .rw, 0, .now, true⟩
  | .msTxKey0 => ⟨0x2640, .plus, 24, 0x0B, .u32, .r, .rw, .rw, 4294967295, .commit, true⟩
  | .msTxKey1 => ⟨0x2640, .plus, 24, 0x0C, .u32, .r, .rw, .rw, 4294967295, .commit, true⟩
  | .msTxKey2 => ⟨0x2640, .plus, 24, 0x0D, .u32, .r, .rw, .rw, 4294967295, .commit, true⟩
  | .msTxKey3 => ⟨0x2640, .plus, 24, 0x0E, .u32, .r, .rw, .rw, 4294967295, .commit, true⟩
  | .msTxSaState => ⟨0x2640, .plus, 24, 0x0F, .u8, .r, .r, .r, 0, .ro, false⟩
  | .msTxPn => ⟨0x2640, .plus, 24, 0x10, .u64, .r, .r, .r, 0, .ro, false⟩
  | .msEventFlags => ⟨0x2640, .plus, 24, 0x11, .u32, .rw, .rw, .rw, 0, .now, false⟩
  | .msTxProtected => ⟨0x2640, .plus, 24, 0x12, .u64, .r, .r, .r, 0, .ro, false⟩
  | .msTxNokey => ⟨0x2640, .plus, 24, 0x13, .u32, .r, .r, .r, 0, .ro, false⟩
  | .msRxUntagged => ⟨0x2640, .plus, 24, 0x14, .u32, .r, .r, .r, 0, .ro, false⟩
  | .msRxBad => ⟨0x2640, .plus, 24, 0x15, .u32, .r, .r, .r, 0, .ro, false⟩
  | .msRxReplay => ⟨0x2640, .plus, 24, 0x16, .u32, .r, .r, .r, 0, .ro, false⟩
  | .msRxNosa => ⟨0x2640, .plus, 24, 0x17, .u32, .r, .r, .r, 0, .ro, false⟩
  | .msTxPnExhausted => ⟨0x2640, .plus, 24, 0x18, .u32, .r, .r, .r, 0, .ro, false⟩
  | .msrxSci => ⟨0x2680, .plus, 192, 0x01, .u64, .r, .rw, .rw, 0, .commit, true⟩
  | .msrxKey0 => ⟨0x2680, .plus, 192, 0x02, .u32, .r, .rw, .rw, 4294967295, .commit, true⟩
  | .msrxKey1 => ⟨0x2680, .plus, 192, 0x03, .u32, .r, .rw, .rw, 4294967295, .commit, true⟩
  | .msrxKey2 => ⟨0x2680, .plus, 192, 0x04, .u32, .r, .rw, .rw, 4294967295, .commit, true⟩
  | .msrxKey3 => ⟨0x2680, .plus, 192, 0x05, .u32, .r, .rw, .rw, 4294967295, .commit, true⟩
  | .msrxSaState => ⟨0x2680, .plus, 192, 0x06, .u8, .r, .r, .r, 0, .ro, false⟩
  | .msrxFrames => ⟨0x2680, .plus, 192, 0x07, .u64, .r, .r, .r, 0, .ro, false⟩
  | .pcieLinkSpeed => ⟨0x5C20, .one, 1, 0x01, .u8, .r, .r, .r, 0, .ro, false⟩
  | .pcieLinkWidth => ⟨0x5C20, .one, 1, 0x02, .u8, .r, .r, .r, 0, .ro, false⟩
  | .pcieBar0Drops => ⟨0x5C20, .one, 1, 0x03, .u32, .r, .r, .r, 0, .ro, false⟩
  | .pcieBar4Drops => ⟨0x5C20, .one, 1, 0x04, .u32, .r, .r, .r, 0, .ro, false⟩
  | .pcieDbRejects => ⟨0x5C20, .one, 1, 0x05, .u32, .r, .r, .r, 0, .ro, false⟩
  | .pcieReadFails => ⟨0x5C20, .one, 1, 0x06, .u32, .r, .r, .r, 0, .ro, false⟩
  | .pcieAerCorr => ⟨0x5C20, .one, 1, 0x07, .u32, .r, .r, .r, 0, .ro, false⟩
  | .pcieFlrs => ⟨0x5C20, .one, 1, 0x08, .u32, .r, .r, .r, 0, .ro, false⟩
  | .pcieEventFlags => ⟨0x5C20, .one, 1, 0x09, .u32, .rw, .rw, .rw, 0, .now, false⟩
  | .pcieLoop => ⟨0x5860, .one, 1, 0x01, .u8, .none, .r, .rw, 0, .now, false⟩
  | .bmInflight => ⟨0x4C00, .one, 1, 0x01, .u16, .r, .r, .r, 0, .ro, false⟩
  | .bmInflightHwm => ⟨0x4C00, .one, 1, 0x02, .u16, .r, .r, .r, 0, .ro, false⟩
  | .bmLateResp => ⟨0x4C00, .one, 1, 0x03, .u32, .r, .r, .r, 0, .ro, false⟩
  | .bmResets => ⟨0x4C00, .one, 1, 0x04, .u32, .r, .r, .r, 0, .ro, false⟩
  | .bmEventFlags => ⟨0x4C00, .one, 1, 0x05, .u32, .rw, .rw, .rw, 0, .now, false⟩
  | .bmPark => ⟨0x4C10, .plus, 14, 0x01, .u8, .r, .r, .rw, 0, .now, true⟩
  | .panRingKib => ⟨0x4C20, .one, 1, 0x04, .u32, .r, .rw, .rw, 2048, .restart, true⟩
  | .panPorterKib => ⟨0x4C20, .one, 1, 0x05, .u32, .r, .rw, .rw, 2032, .restart, true⟩
  | .panCodecKib => ⟨0x4C20, .one, 1, 0x06, .u32, .r, .rw, .rw, 3072, .restart, true⟩
  | .panCorr => ⟨0x4C20, .one, 1, 0x07, .u32, .r, .r, .r, 0, .ro, false⟩
  | .panUncorr => ⟨0x4C20, .one, 1, 0x08, .u32, .r, .r, .r, 0, .ro, false⟩
  | .panEventFlags => ⟨0x4C20, .one, 1, 0x09, .u32, .rw, .rw, .rw, 0, .now, false⟩
  | .dramRate => ⟨0x4C30, .one, 1, 0x01, .u16, .r, .rw, .rw, 8533, .restart, true⟩
  | .dramCapMib => ⟨0x4C30, .one, 1, 0x02, .u32, .r, .r, .r, 0, .ro, false⟩
  | .dramCoreMib => ⟨0x4C30, .one, 1, 0x03, .u32, .r, .rw, .rw, 256, .restart, true⟩
  | .dramPorterMib => ⟨0x4C30, .one, 1, 0x04, .u32, .r, .rw, .rw, 256, .restart, true⟩
  | .dramFreezeMib => ⟨0x4C30, .one, 1, 0x05, .u32, .r, .rw, .rw, 1280, .restart, true⟩
  | .roomPool => ⟨0x4C30, .one, 1, 0x06, .u64, .r, .r, .r, 0, .ro, false⟩
  | .dramMigRate => ⟨0x4C30, .one, 1, 0x07, .u16, .r, .rw, .rw, 8000, .now, true⟩
  | .bmPrio0 => ⟨0x4C40, .plus, 86, 0x01, .u8, .r, .r, .rw, 0, .now, true⟩
  | .bmPrio1 => ⟨0x4C40, .plus, 86, 0x02, .u8, .r, .r, .rw, 0, .now, true⟩
  | .bmPrio2 => ⟨0x4C40, .plus, 86, 0x03, .u8, .r, .r, .rw, 0, .now, true⟩
  | .bmPrio3 => ⟨0x4C40, .plus, 86, 0x04, .u8, .r, .r, .rw, 0, .now, true⟩
  | .bmPrio4 => ⟨0x4C40, .plus, 86, 0x05, .u8, .r, .r, .rw, 0, .now, true⟩
  | .bmPrio5 => ⟨0x4C40, .plus, 86, 0x06, .u8, .r, .r, .rw, 0, .now, true⟩
  | .bmPrio6 => ⟨0x4C40, .plus, 86, 0x07, .u8, .r, .r, .rw, 0, .now, true⟩
  | .bmPrio7 => ⟨0x4C40, .plus, 86, 0x08, .u8, .r, .r, .rw, 0, .now, true⟩
  | .bmPrio8 => ⟨0x4C40, .plus, 86, 0x09, .u8, .r, .r, .rw, 0, .now, true⟩
  | .bmPrio9 => ⟨0x4C40, .plus, 86, 0x0A, .u8, .r, .r, .rw, 0, .now, true⟩
  | .bmPrio10 => ⟨0x4C40, .plus, 86, 0x0B, .u8, .r, .r, .rw, 0, .now, true⟩
  | .bmPrio11 => ⟨0x4C40, .plus, 86, 0x0C, .u8, .r, .r, .rw, 0, .now, true⟩
  | .bmPrio12 => ⟨0x4C40, .plus, 86, 0x0D, .u8, .r, .r, .rw, 0, .now, true⟩
  | .bmPrio13 => ⟨0x4C40, .plus, 86, 0x0E, .u8, .r, .r, .rw, 0, .now, true⟩
  | .bmMaxOut => ⟨0x4C40, .plus, 86, 0x0F, .u16, .r, .r, .rw, 256, .now, true⟩
  | .dchState => ⟨0x4CA0, .plus, 8, 0x01, .u8, .r, .r, .r, 0, .ro, false⟩
  | .dchCmd => ⟨0x4CA0, .plus, 8, 0x02, .u8, .r, .rw, .rw, 0, .now, false⟩
  | .dchLoop => ⟨0x4CA0, .plus, 8, 0x03, .u8, .none, .r, .rw, 0, .now, false⟩
  | .dchCorr => ⟨0x4CA0, .plus, 8, 0x04, .u32, .r, .r, .r, 0, .ro, false⟩
  | .dchUncorr => ⟨0x4CA0, .plus, 8, 0x05, .u32, .r, .r, .r, 0, .ro, false⟩
  | .dchStripesUsed => ⟨0x4CA0, .plus, 8, 0x06, .u16, .r, .r, .r, 0, .ro, false⟩
  | .dchMigLeft => ⟨0x4CA0, .plus, 8, 0x07, .u16, .r, .r, .r, 0, .ro, false⟩
  | .dchEventFlags => ⟨0x4CA0, .plus, 8, 0x08, .u32, .rw, .rw, .rw, 0, .now, false⟩
  | .inkGroupBits => ⟨0x4800, .one, 1, 0x01, .u8, .r, .rw, .rw, 4, .restart, true⟩
  | .inkLost => ⟨0x4800, .one, 1, 0x02, .u32, .r, .r, .r, 0, .ro, false⟩
  | .inkBadComplete => ⟨0x4800, .one, 1, 0x03, .u32, .r, .r, .r, 0, .ro, false⟩
  | .inkRecords => ⟨0x4800, .one, 1, 0x04, .u32, .r, .r, .r, 0, .ro, false⟩
  | .tgtRunning => ⟨0x4810, .plus, 5, 0x01, .u16, .r, .r, .r, 256, .ro, false⟩
  | .tgtPresented => ⟨0x4810, .plus, 5, 0x02, .u16, .r, .r, .r, 65535, .ro, false⟩
  | .tgtDepth => ⟨0x4810, .plus, 5, 0x03, .u8, .r, .r, .r, 0, .ro, false⟩
  | .tgtClaims => ⟨0x4810, .plus, 5, 0x04, .u32, .r, .r, .r, 0, .ro, false⟩
  | .hqEnable => ⟨0x4820, .plus, 16, 0x01, .bool, .r, .rw, .rw, 0, .commit, true⟩
  | .hqRing => ⟨0x4820, .plus, 16, 0x02, .u16, .r, .rw, .rw, 0, .commit, true⟩
  | .hqVector => ⟨0x4820, .plus, 16, 0x03, .u16, .r, .rw, .rw, 0, .commit, true⟩
  | .hqArmed => ⟨0x4820, .plus, 16, 0x04, .bool, .r, .r, .r, 0, .ro, false⟩
  | .hqFull => ⟨0x4820, .plus, 16, 0x05, .u32, .r, .r, .r, 0, .ro, false⟩
  | .cgCount => ⟨0x4840, .plus, 64, 0x01, .u16, .r, .rw, .rw, 1, .now, true⟩
  | .cgTime => ⟨0x4840, .plus, 64, 0x02, .u32, .r, .rw, .rw, 4000, .now, true⟩
  | .cgHold => ⟨0x4840, .plus, 64, 0x03, .bool, .r, .r, .r, 0, .ro, false⟩
  | .srcPrio => ⟨0x4A00, .quad, 1024, 0x01, .u8, .r, .rw, .rw, 128, .commit, true⟩
  | .srcTargets => ⟨0x4A00, .quad, 1024, 0x02, .u8, .r, .rw, .rw, 1, .commit, true⟩
  | .srcQueue => ⟨0x4A00, .quad, 1024, 0x03, .u8, .r, .rw, .rw, 0, .commit, true⟩
  | .srcCgroup => ⟨0x4A00, .quad, 1024, 0x04, .u8, .r, .rw, .rw, 255, .commit, true⟩
  | .srcMask => ⟨0x4A00, .quad, 1024, 0x05, .bool, .r, .rw, .rw, 0, .now, true⟩
  | .srcPend => ⟨0x4A00, .quad, 1024, 0x06, .u8, .r, .rw, .rw, 0, .now, false⟩
  | .srcState => ⟨0x4A00, .quad, 1024, 0x07, .u8, .r, .r, .r, 0, .ro, false⟩
  | .srcCount => ⟨0x4A00, .quad, 1024, 0x08, .u16, .r, .r, .r, 0, .ro, false⟩
  | .deviceType => ⟨0x1000, .one, 1, 0x00, .u32, .r, .r, .r, 0, .ro, false⟩
  | .errorRegister => ⟨0x1001, .one, 1, 0x00, .u8, .r, .r, .r, 0, .ro, false⟩
  | .heartbeatTime => ⟨0x1017, .one, 1, 0x00, .u16, .r, .rw, .rw, 1000, .now, true⟩
  | .identityCount => ⟨0x1018, .one, 1, 0x00, .u8, .r, .r, .r, 4, .ro, false⟩
  | .vendorId => ⟨0x1018, .one, 1, 0x01, .u32, .r, .r, .r, 2938, .ro, false⟩
  | .productCode => ⟨0x1018, .one, 1, 0x02, .u32, .r, .r, .r, 29270, .ro, false⟩
  | .revision => ⟨0x1018, .one, 1, 0x03, .u32, .r, .r, .r, 176, .ro, false⟩
  | .serialNumber => ⟨0x1018, .one, 1, 0x04, .u32, .r, .r, .r, 0, .ro, false⟩
  | .canEnable => ⟨0x2180, .plus, 2, 0x01, .bool, .r, .rw, .rw, 0, .restart, true⟩
  | .canNodeId => ⟨0x2180, .plus, 2, 0x02, .u8, .r, .rw, .rw, 0, .restart, true⟩
  | .canNomRate => ⟨0x2180, .plus, 2, 0x03, .u16, .r, .rw, .rw, 500, .restart, true⟩
  | .canDataRate => ⟨0x2180, .plus, 2, 0x04, .u16, .r, .rw, .rw, 2000, .restart, true⟩
  | .canUsdoTimeout => ⟨0x2180, .plus, 2, 0x05, .u16, .r, .rw, .rw, 1000, .now, true⟩
  | .canNmtState => ⟨0x2180, .plus, 2, 0x06, .u8, .r, .r, .r, 0, .ro, false⟩
  | .canBusOffs => ⟨0x2180, .plus, 2, 0x07, .u32, .r, .r, .r, 0, .ro, false⟩
  | .canEventFlags => ⟨0x2180, .plus, 2, 0x08, .u32, .rw, .rw, .rw, 0, .now, false⟩
  | .sesCount => ⟨0x2100, .one, 1, 0x01, .u8, .r, .r, .r, 0, .ro, false⟩
  | .sesIdle => ⟨0x2100, .one, 1, 0x02, .u32, .r, .rw, .rw, 300, .now, true⟩
  | .sesSelf => ⟨0x2100, .one, 1, 0x03, .u8, .r, .r, .r, 0, .ro, false⟩
  | .sesClose => ⟨0x2100, .one, 1, 0x04, .u8, .rw, .rw, .rw, 0, .now, false⟩
  | .sesFailures => ⟨0x2100, .one, 1, 0x05, .u32, .r, .r, .r, 0, .ro, false⟩
  | .openRole => ⟨0x2110, .one, 1, 0x01, .u8, .rw, .rw, .rw, 0, .now, false⟩
  | .openCred => ⟨0x2110, .one, 1, 0x02, .u16, .rw, .rw, .rw, 0, .now, false⟩
  | .openGo => ⟨0x2110, .one, 1, 0x03, .u8, .rw, .rw, .rw, 0, .now, false⟩
  | .openChal => ⟨0x2110, .one, 1, 0x04, .domain, .r, .r, .r, 0, .ro, false⟩
  | .openResp => ⟨0x2110, .one, 1, 0x05, .domain, .rw, .rw, .rw, 0, .now, false⟩
  | .openResult => ⟨0x2110, .one, 1, 0x06, .u16, .r, .r, .r, 0, .ro, false⟩
  | .sesState => ⟨0x2140, .plus, 32, 0x01, .u8, .r, .r, .r, 0, .ro, false⟩
  | .sesRole => ⟨0x2140, .plus, 32, 0x02, .u8, .r, .r, .r, 0, .ro, false⟩
  | .sesChannel => ⟨0x2140, .plus, 32, 0x03, .u8, .r, .r, .r, 0, .ro, false⟩
  | .sesCred => ⟨0x2140, .plus, 32, 0x04, .u16, .r, .r, .r, 0, .ro, false⟩
  | .sesOpenTick => ⟨0x2140, .plus, 32, 0x05, .tick48, .r, .r, .r, 0, .ro, false⟩
  | .sesLastTick => ⟨0x2140, .plus, 32, 0x06, .tick48, .r, .r, .r, 0, .ro, false⟩
  | .sesLastStatus => ⟨0x2140, .plus, 32, 0x07, .u16, .r, .r, .r, 0, .ro, false⟩
  | .sesKill => ⟨0x2140, .plus, 32, 0x08, .u8, .r, .rw, .rw, 0, .now, false⟩
  | .trdpMacs => ⟨0x2190, .one, 1, 0x01, .u32, .r, .rw, .rw, 0, .commit, true⟩
  | .trdpPdDropped => ⟨0x2190, .one, 1, 0x02, .u32, .r, .r, .r, 0, .ro, false⟩
  | .trdpRequests => ⟨0x2190, .one, 1, 0x03, .u32, .r, .r, .r, 0, .ro, false⟩
  | .devSerial => ⟨0x2000, .one, 1, 0x01, .domain, .r, .r, .r, 0, .ro, false⟩
  | .devMacBase => ⟨0x2000, .one, 1, 0x02, .u64, .r, .r, .r, 0, .ro, false⟩
  | .bootCount => ⟨0x2000, .one, 1, 0x03, .u32, .r, .r, .r, 0, .ro, false⟩
  | .lcState => ⟨0x2000, .one, 1, 0x04, .u8, .r, .r, .r, 0, .ro, false⟩
  | .lcTarget => ⟨0x2000, .one, 1, 0x05, .u8, .none, .none, .rw, 0, .now, true⟩
  | .lcConfirm => ⟨0x2000, .one, 1, 0x06, .u32, .none, .none, .rw, 0, .now, true⟩
  | .lcStep => ⟨0x2000, .one, 1, 0x07, .u8, .none, .none, .rw, 0, .now, false⟩
  | .lcRecover => ⟨0x2000, .one, 1, 0x08, .u8, .none, .none, .rw, 0, .now, false⟩
  | .lcLastStatus => ⟨0x2000, .one, 1, 0x09, .u16, .r, .r, .r, 0, .ro, false⟩
  | .lcEventFlags => ⟨0x2000, .one, 1, 0x0A, .u32, .rw, .rw, .rw, 0, .now, false⟩
  | .ledgerCapacity => ⟨0x2010, .one, 1, 0x01, .u16, .r, .r, .r, 4096, .ro, false⟩
  | .ledgerNextSeq => ⟨0x2010, .one, 1, 0x02, .u32, .r, .r, .r, 0, .ro, false⟩
  | .ledgerOldestSeq => ⟨0x2010, .one, 1, 0x03, .u32, .r, .r, .r, 0, .ro, false⟩
  | .ledgerCursor => ⟨0x2010, .one, 1, 0x04, .u32, .none, .rw, .rw, 0, .now, true⟩
  | .ledgerWindow => ⟨0x2010, .one, 1, 0x05, .domain, .none, .r, .r, 0, .ro, false⟩
  | .ledgerWindowSig => ⟨0x2010, .one, 1, 0x06, .domain, .none, .r, .r, 0, .ro, false⟩
  | .ledgerAck => ⟨0x2010, .one, 1, 0x07, .u32, .none, .rw, .rw, 0, .now, false⟩
  | .ledgerMarked => ⟨0x2010, .one, 1, 0x08, .u32, .r, .r, .r, 0, .ro, false⟩
  | .ledgerLost => ⟨0x2010, .one, 1, 0x09, .u32, .r, .r, .r, 0, .ro, false⟩
  | .ledgerPolicy => ⟨0x2010, .one, 1, 0x0A, .u8, .none, .r, .rw, 0, .now, true⟩
  | .ledgerBad => ⟨0x2010, .one, 1, 0x0B, .u32, .r, .r, .r, 0, .ro, false⟩
  | .ledgerEventFlags => ⟨0x2010, .one, 1, 0x0C, .u32, .rw, .rw, .rw, 0, .now, false⟩
  | .credKind => ⟨0x2040, .plus, 64, 0x01, .u8, .r, .rw, .rw, 0, .commit, true⟩
  | .credRoles => ⟨0x2040, .plus, 64, 0x02, .u8, .r, .rw, .rw, 0, .commit, true⟩
  | .credChannels => ⟨0x2040, .plus, 64, 0x03, .u8, .r, .rw, .rw, 0, .commit, true⟩
  | .credStates => ⟨0x2040, .plus, 64, 0x04, .u8, .r, .rw, .rw, 0, .commit, true⟩
  | .credEnable => ⟨0x2040, .plus, 64, 0x05, .bool, .r, .rw, .rw, 0, .commit, true⟩
  | .credPubkey => ⟨0x2040, .plus, 64, 0x06, .domain, .r, .rw, .rw, 0, .commit, true⟩
  | .credKey => ⟨0x2040, .plus, 64, 0x07, .u32, .r, .rw, .rw, 4294967295, .commit, true⟩
  | .credLabel => ⟨0x2040, .plus, 64, 0x08, .str, .r, .rw, .rw, 0, .commit, true⟩
  | .credUses => ⟨0x2040, .plus, 64, 0x09, .u32, .r, .r, .r, 0, .ro, false⟩
  | .krIslandState => ⟨0x5400, .one, 1, 0x01, .u8, .r, .r, .r, 0, .ro, false⟩
  | .krRootState => ⟨0x5400, .one, 1, 0x02, .u8, .r, .r, .r, 0, .ro, false⟩
  | .krSlotsUsed => ⟨0x5400, .one, 1, 0x03, .u16, .r, .r, .r, 0, .ro, false⟩
  | .krKeptCount => ⟨0x5400, .one, 1, 0x04, .u16, .r, .r, .r, 0, .ro, false⟩
  | .krSelftest => ⟨0x5400, .one, 1, 0x05, .u8, .none, .rw, .rw, 0, .now, false⟩
  | .krSelftestResult => ⟨0x5400, .one, 1, 0x06, .u16, .r, .r, .r, 0, .ro, false⟩
  | .krZeroiseAll => ⟨0x5400, .one, 1, 0x07, .u8, .none, .rw, .rw, 0, .now, false⟩
  | .krEventFlags => ⟨0x5400, .one, 1, 0x08, .u32, .rw, .rw, .rw, 0, .now, false⟩
  | .krLedgerPub => ⟨0x5400, .one, 1, 0x09, .domain, .r, .r, .r, 0, .ro, false⟩
  | .krNum => ⟨0x5410, .one, 1, 0x01, .u32, .none, .rw, .rw, 4294967295, .now, false⟩
  | .krAlg => ⟨0x5410, .one, 1, 0x02, .u8, .none, .rw, .rw, 0, .now, false⟩
  | .krUse => ⟨0x5410, .one, 1, 0x03, .u8, .none, .rw, .rw, 0, .now, false⟩
  | .krBinding => ⟨0x5410, .one, 1, 0x04, .u16, .none, .rw, .rw, 0, .now, false⟩
  | .krMinRole => ⟨0x5410, .one, 1, 0x05, .u8, .none, .rw, .rw, 0, .now, false⟩
  | .krPersist => ⟨0x5410, .one, 1, 0x06, .u8, .none, .rw, .rw, 0, .now, false⟩
  | .krTransport => ⟨0x5410, .one, 1, 0x07, .u32, .none, .rw, .rw, 4294967295, .now, false⟩
  | .krBlob => ⟨0x5410, .one, 1, 0x08, .domain, .none, .rw, .rw, 0, .now, false⟩
  | .krCmd => ⟨0x5410, .one, 1, 0x09, .u8, .none, .rw, .rw, 0, .now, false⟩
  | .krStatus => ⟨0x5410, .one, 1, 0x0A, .u16, .none, .r, .r, 0, .ro, false⟩
  | .krKcv => ⟨0x5410, .one, 1, 0x0B, .domain, .none, .r, .r, 0, .ro, false⟩
  | .krQState => ⟨0x5410, .one, 1, 0x10, .u8, .none, .r, .r, 0, .ro, false⟩
  | .krQAttr => ⟨0x5410, .one, 1, 0x11, .u64, .none, .r, .r, 0, .ro, false⟩
  | .kcParts => ⟨0x5420, .one, 1, 0x01, .u8, .none, .rw, .rw, 2, .now, false⟩
  | .kcValue => ⟨0x5420, .one, 1, 0x02, .domain, .none, .w, .w, 0, .now, false⟩
  | .kcKcv => ⟨0x5420, .one, 1, 0x03, .domain, .none, .r, .r, 0, .ro, false⟩
  | .kcKcvFinal => ⟨0x5420, .one, 1, 0x04, .domain, .none, .r, .r, 0, .ro, false⟩
  | .kcCount => ⟨0x5420, .one, 1, 0x05, .u8, .none, .r, .r, 0, .ro, false⟩
  | .imgVerCore => ⟨0x5440, .one, 1, 0x01, .u32, .r, .r, .r, 0, .ro, false⟩
  | .imgVerIsland => ⟨0x5440, .one, 1, 0x02, .u32, .r, .r, .r, 0, .ro, false⟩
  | .rbCore => ⟨0x5440, .one, 1, 0x03, .u8, .r, .r, .r, 0, .ro, false⟩
  | .rbIsland => ⟨0x5440, .one, 1, 0x04, .u8, .r, .r, .r, 0, .ro, false⟩
  | .rbAdvance => ⟨0x5440, .one, 1, 0x05, .u8, .none, .none, .rw, 0, .now, false⟩
  | .imgHashEcdsa => ⟨0x5440, .one, 1, 0x06, .domain, .r, .r, .rw, 0, .now, true⟩
  | .imgHashMldsa => ⟨0x5440, .one, 1, 0x07, .domain, .r, .r, .rw, 0, .now, true⟩
  | .imgEnrolGo => ⟨0x5440, .one, 1, 0x08, .u8, .none, .none, .rw, 0, .now, false⟩
  | .nwMeshEnable => ⟨0x5460, .one, 1, 0x01, .u8, .r, .r, .rw, 15, .restart, true⟩
  | .nwState => ⟨0x5460, .one, 1, 0x02, .u16, .r, .r, .r, 0, .ro, false⟩
  | .nwEnvLimit => ⟨0x5460, .one, 1, 0x03, .u8, .r, .r, .rw, 4, .now, true⟩
  | .nwEnvCount => ⟨0x5460, .one, 1, 0x04, .u32, .r, .r, .r, 0, .ro, false⟩
  | .nwSleepEvent => ⟨0x5460, .one, 1, 0x05, .u32, .r, .r, .r, 0, .ro, false⟩
  | .drbgReseeds => ⟨0x5480, .one, 1, 0x01, .u32, .r, .r, .r, 0, .ro, false⟩
  | .esFailures => ⟨0x5480, .one, 1, 0x02, .u32, .r, .r, .r, 0, .ro, false⟩
  | .nvHoldupState => ⟨0x5000, .one, 1, 0x01, .u8, .r, .r, .r, 0, .ro, false⟩
  | .nvHoldupNf => ⟨0x5000, .one, 1, 0x02, .u32, .r, .r, .r, 0, .ro, false⟩
  | .nvHoldupPolicy => ⟨0x5000, .one, 1, 0x03, .u8, .r, .r, .rw, 0, .now, true⟩
  | .nvProtect => ⟨0x5000, .one, 1, 0x04, .bool, .r, .r, .r, 0, .ro, false⟩
  | .nvParamFree => ⟨0x5000, .one, 1, 0x05, .u16, .r, .r, .r, 928, .ro, false⟩
  | .nvQueue => ⟨0x5000, .one, 1, 0x06, .u16, .r, .r, .r, 0, .ro, false⟩
  | .nvBursts => ⟨0x5000, .one, 1, 0x07, .u32, .r, .r, .r, 0, .ro, false⟩
  | .nvRefused => ⟨0x5000, .one, 1, 0x08, .u32, .r, .r, .r, 0, .ro, false⟩
  | .nvDropped => ⟨0x5000, .one, 1, 0x09, .u32, .r, .r, .r, 0, .ro, false⟩
  | .nvCorr => ⟨0x5000, .one, 1, 0x0A, .u32, .r, .r, .r, 0, .ro, false⟩
  | .nvUncorr => ⟨0x5000, .one, 1, 0x0B, .u32, .r, .r, .r, 0, .ro, false⟩
  | .nvPoisonAddr => ⟨0x5000, .one, 1, 0x0C, .u32, .r, .r, .r, 0, .ro, false⟩
  | .nvEqualSeq => ⟨0x5000, .one, 1, 0x0D, .u32, .r, .r, .r, 0, .ro, false⟩
  | .nvScrubs => ⟨0x5000, .one, 1, 0x0E, .u32, .r, .r, .r, 0, .ro, false⟩
  | .nvEventFlags => ⟨0x5000, .one, 1, 0x0F, .u32, .rw, .rw, .rw, 0, .now, false⟩
  | .suStep => ⟨0x5C00, .one, 1, 0x01, .u8, .r, .r, .r, 0, .ro, false⟩
  | .suCause => ⟨0x5C00, .one, 1, 0x02, .u8, .r, .r, .r, 0, .ro, false⟩
  | .suStepMs => ⟨0x5C00, .one, 1, 0x03, .domain, .r, .r, .r, 0, .ro, false⟩
  | .suExpired => ⟨0x5C00, .one, 1, 0x04, .u16, .r, .r, .r, 0, .ro, false⟩
  | .pwrState => ⟨0x5C00, .one, 1, 0x05, .u8, .r, .r, .r, 0, .ro, false⟩
  | .pwrCmd => ⟨0x5C00, .one, 1, 0x06, .u8, .none, .rw, .rw, 0, .now, false⟩
  | .pwrWakeMask => ⟨0x5C00, .one, 1, 0x07, .u8, .r, .rw, .rw, 7, .now, true⟩
  | .pwrWakeAfter => ⟨0x5C00, .one, 1, 0x08, .u32, .r, .rw, .rw, 0, .now, true⟩
  | .pwrStandbyMacs => ⟨0x5C00, .one, 1, 0x09, .u32, .r, .rw, .rw, 0, .now, true⟩
  | .pwrWakeSource => ⟨0x5C00, .one, 1, 0x0A, .u8, .r, .r, .r, 0, .ro, false⟩
  | .wdtMs => ⟨0x5C00, .one, 1, 0x0B, .u16, .r, .r, .rw, 2000, .now, true⟩
  | .coreRestarts => ⟨0x5C00, .one, 1, 0x0C, .u32, .r, .r, .r, 0, .ro, false⟩
  | .fwCmd => ⟨0x5C08, .one, 1, 0x01, .u64, .none, .none, .rw, 0, .now, false⟩
  | .fwState => ⟨0x5C08, .one, 1, 0x02, .u8, .r, .r, .r, 0, .ro, false⟩
  | .fwStatus => ⟨0x5C08, .one, 1, 0x03, .u16, .r, .r, .r, 0, .ro, false⟩
  | .fwRunning => ⟨0x5C08, .one, 1, 0x04, .u8, .r, .r, .r, 0, .ro, false⟩
  | .fwBoot => ⟨0x5C08, .one, 1, 0x05, .u8, .r, .r, .r, 0, .ro, false⟩
  | .fwFallback => ⟨0x5C08, .one, 1, 0x06, .u8, .r, .r, .r, 0, .ro, false⟩
  | .fwSlotVer => ⟨0x5C08, .one, 1, 0x07, .domain, .r, .r, .r, 0, .ro, false⟩
  | .bistEnable => ⟨0x5800, .one, 1, 0x01, .bool, .r, .r, .rw, 1, .now, true⟩
  | .bistPeriod => ⟨0x5800, .one, 1, 0x02, .u16, .r, .r, .rw, 1000, .now, true⟩
  | .bistForceFault => ⟨0x5800, .one, 1, 0x03, .u8, .none, .none, .rw, 255, .now, false⟩
  | .bistRuns => ⟨0x5800, .one, 1, 0x04, .u32, .r, .r, .r, 0, .ro, false⟩
  | .bistSkipped => ⟨0x5800, .one, 1, 0x05, .u32, .r, .r, .r, 0, .ro, false⟩
  | .bistEventFlags => ⟨0x5800, .one, 1, 0x06, .u32, .rw, .rw, .rw, 0, .now, false⟩
  | .ptKind => ⟨0x5810, .plus, 8, 0x01, .u8, .none, .r, .rw, 0, .now, false⟩
  | .ptTarget => ⟨0x5810, .plus, 8, 0x02, .u16, .none, .r, .rw, 0, .now, false⟩
  | .ptAmount => ⟨0x5810, .plus, 8, 0x03, .u16, .none, .r, .rw, 0, .now, false⟩
  | .ptLifetime => ⟨0x5810, .plus, 8, 0x04, .u32, .none, .r, .rw, 4000000, .now, false⟩
  | .ptGo => ⟨0x5810, .plus, 8, 0x05, .u8, .none, .none, .rw, 0, .now, false⟩
  | .ptState => ⟨0x5810, .plus, 8, 0x06, .u8, .r, .r, .r, 0, .ro, false⟩
  | .ptLeft => ⟨0x5810, .plus, 8, 0x07, .u32, .r, .r, .r, 0, .ro, false⟩
  | .ptCount => ⟨0x5810, .plus, 8, 0x08, .u32, .r, .r, .r, 0, .ro, false⟩
  | .ptEventFlags => ⟨0x5810, .plus, 8, 0x09, .u32, .rw, .rw, .rw, 0, .now, false⟩

/-- Default bus-matrix priority of master `m`, the same toward every target (R384). -/
def prioDefault (m : Nat) : Nat :=
  if m = 83 then 15
  else if 16 ≤ m ∧ m ≤ 40 then 14
  else if m ≤ 15 ∨ (49 ≤ m ∧ m ≤ 72) then 13
  else if (41 ≤ m ∧ m ≤ 48) ∨ m = 82 then 12
  else if m = 78 then 11
  else if m = 77 then 10
  else if m = 80 ∨ m = 81 ∨ m = 84 then 9
  else if m = 79 then 8
  else if 73 ≤ m ∧ m ≤ 76 then 4
  else if m = 85 then 2
  else 0

/-- Default parking master of bus target `t` (R384, targets numbered by R366). -/
def parkDefault (t : Nat) : Nat :=
  if t ≤ 7 then 16 + t
  else if t = 8 then 0
  else if t = 9 then 77
  else if t = 10 ∨ t = 11 then 80
  else 84

/-- The default of instance `i` of an object (the "Default" column). [DESIGN CHOICE, log entry 5]
[PRESUMED, log entry 124] -/
def Obj.default (o : Obj) (i : Nat) : Nat :=
  match o with
  | .layZ => i % 8
  | .engState => if i = 24 then 3 else 0
  | .pllEnable => if i = 0 then 1 else 0
  | .pllRef => if i = 0 then 1 else 0
  | .laneProto => if 32 ≤ i ∧ i ≤ 47 then 1 else 0
  | .laneMac => if 32 ≤ i ∧ i ≤ 47 then i - 32 else 0
  | .ethAddr => (Config.macBase + i) % 2 ^ 48
  | .bmPark => parkDefault i
  | .bmPrio0 => prioDefault i
  | .bmPrio1 => prioDefault i
  | .bmPrio2 => prioDefault i
  | .bmPrio3 => prioDefault i
  | .bmPrio4 => prioDefault i
  | .bmPrio5 => prioDefault i
  | .bmPrio6 => prioDefault i
  | .bmPrio7 => prioDefault i
  | .bmPrio8 => prioDefault i
  | .bmPrio9 => prioDefault i
  | .bmPrio10 => prioDefault i
  | .bmPrio11 => prioDefault i
  | .bmPrio12 => prioDefault i
  | .bmPrio13 => prioDefault i
  | .serialNumber => Config.serialLow
  | .canEnable => if i = 0 then 1 else 0
  | .canNodeId => 32 + i
  | .devMacBase => Config.macBase % 2 ^ 48
  | .krRootState => 1
  | .lcState => 1
  | .nwState => 0x71F
  | .bootCount => 1
  | .ledgerNextSeq => 1
  | .ledgerOldestSeq => 1
  | .suCause => 1
  | .credKind => if i = 0 then 1 else 0
  | .credRoles => if i = 0 then 4 else 0
  | .credChannels => if i = 0 then 0x18 else 0
  | .credStates => if i = 0 then 0x1A else 0
  | .credEnable => if i = 0 then 1 else 0
  | o => o.info.dflt

/-- The values step 6 of R411 admits, for objects with a range of their own. [DEDUCED, log entry 116] -/
def Obj.range : Obj → Range
  | .ptpMac => .span 0 23
  | .ptpProfile => .span 0 1
  | .stepThreshold => .span 1000 1000000000
  | .holdoverTimeout => .span 100 60000
  | .ptpDomain => .span 0 127
  | .tgMode => .span 0 1
  | .tgRateDen => .span 1 4294967295
  | .tgTotalLines => .span 66 8192
  | .tgActiveLines => .span 64 2160
  | .tgSlewLimit => .span 10 1000
  | .arrKind => .span 0 5
  | .arrStorage => .span 0 1
  | .arrWidth => .span 64 4096
  | .arrHeight => .span 64 2160
  | .arrRateDen => .span 1 4294967295
  | .arrScan => .span 0 2
  | .arrSampling => .span 0 3
  | .arrDepth => .oneOf [8, 10, 12]
  | .arrColorimetry => .span 0 2
  | .arrTransfer => .span 0 1
  | .arrRange => .span 0 1
  | .depBind => .span 0 15
  | .depGroup => .span 0 31
  | .depEngineReq => .spanOr 0 23 255
  | .depWidth => .span 64 4096
  | .depHeight => .span 64 2160
  | .depSampling => .span 0 3
  | .depDepth => .oneOf [8, 10, 12]
  | .depColorimetry => .span 0 2
  | .depTransfer => .span 0 1
  | .depRange => .span 0 1
  | .depLayers => .span 2 8
  | .arrMac => .span 0 23
  | .arrUdpPort => .span 1 65535
  | .arrPt => .span 96 127
  | .arrMacB => .span 0 23
  | .arrUdpPortB => .span 1 65535
  | .arrMergeWindow => .span 100 20000
  | .arrPathTimeout => .span 1 1000
  | .arrRing => .span 0 65535
  | .arrWbDep => .span 0 127
  | .arrGen => .span 0 7
  | .arrGenPattern => .span 0 5
  | .arrGenGroup => .span 0 31
  | .arrLossFrames => .span 1 16
  | .arrConcealMax => .span 0 2160
  | .arrTsWindow => .span 1 60000
  | .arrDiMode => .span 0 2
  | .arrDiLow => .span 0 4094
  | .arrDiHigh => .span 1 4095
  | .arrRooms => .span 3 8
  | .arrSlices => .span 4 16
  | .arrSliceGroup => .span 0 31
  | .arrSliceGuard => .span 4 4000
  | .arrRelockFrames => .span 0 3600
  | .layRcMode => .span 0 1
  | .layRcDelay => .span 0 1000000
  | .layMotion => .span 0 4095
  | .stgOpen => .oneOf [1]
  | .stgSeal => .span 1 2
  | .stgAbandon => .oneOf [1]
  | .stgAnchor => .span 0 31
  | .tkMask => .span 0 255
  | .tkSrc0 => .spanOr 0 255 256
  | .tkSrc1 => .spanOr 0 255 256
  | .tkSrc2 => .spanOr 0 255 256
  | .tkSrc3 => .spanOr 0 255 256
  | .tkSrc4 => .spanOr 0 255 256
  | .tkSrc5 => .spanOr 0 255 256
  | .tkSrc6 => .spanOr 0 255 256
  | .tkSrc7 => .spanOr 0 255 256
  | .tkStaging => .spanOr 0 15 255
  | .tkGo => .span 1 3
  | .tkSalvo => .span 0 31
  | .svGo => .span 1 3
  | .laySrc => .spanOr 0 255 256
  | .layCropX => .span 0 4095
  | .layCropY => .span 0 2159
  | .layCropW => .span 0 4096
  | .layCropH => .span 0 2160
  | .layDstX => .span 0 4095
  | .layDstY => .span 0 2159
  | .layDstW => .span 0 4096
  | .layDstH => .span 0 2160
  | .layZ => .span 0 7
  | .layBlend => .span 0 2
  | .layAlpha => .span 0 256
  | .layKey => .span 0 4095
  | .layPlaceholder => .span 0 1
  | .layStaleLimit => .span 1 255
  | .layLockstep => .span 0 63
  | .engReadmit => .span 0 24
  | .layCoefH => .oneOf [0, 1, 2, 16, 17, 18, 19, 20, 21, 22, 23]
  | .layCoefV => .oneOf [0, 1, 2, 16, 17, 18, 19, 20, 21, 22, 23]
  | .coefKind => .span 0 1
  | .sbRecover => .span 1 255
  | .sbFreezeLimit => .span 1 255
  | .sbrKind => .span 0 3
  | .sbrReaction => .span 0 2
  | .sbrExpectN => .span 1 4
  | .sbrAgeMax => .span 1000 1000000
  | .sbrSeqWindow => .span 1 255
  | .arrXsProfile => .span 0 1
  | .depXsProfile => .spanOr 0 1 255
  | .depXsBpp => .span 16 256
  | .depXsNlx => .span 1 5
  | .depXsNly => .span 1 2
  | .depXsPayload => .span 256 8192
  | .cdcReadmit => .span 0 23
  | .depMac => .span 0 23
  | .depUdpPort => .span 1 65535
  | .depSrcPort => .span 1 65535
  | .depPt => .span 96 127
  | .depDscp => .span 0 63
  | .depMacB => .span 0 23
  | .depUdpPortB => .span 1 65535
  | .depPacing => .span 0 1
  | .depBurst => .span 1 16
  | .depPayload => .span 256 8192
  | .depHead => .span 0 7
  | .depHTotal => .span 0 8192
  | .depHSyncWidth => .span 1 1023
  | .depVSyncWidth => .span 1 63
  | .depSyncPol => .span 0 3
  | .depDpMaxRate => .span 1 4
  | .depDpMaxLanes => .oneOf [1, 2, 4]
  | .depCapRing => .span 0 65535
  | .depCapEvery => .span 1 255
  | .headRetrain => .oneOf [1]
  | .tdmMode => .span 0 1
  | .tdmPll => .span 0 3
  | .tdmRate => .oneOf [44100, 48000, 88200, 96000]
  | .tdmFrameLen => .span 16 1280
  | .tdmSlots => .span 1 32
  | .tdmSlotWidth => .span 8 32
  | .tdmSlotOffset => .span 0 255
  | .tdmWordLen => .oneOf [16, 20, 24, 32]
  | .tdmFsShape => .span 0 2
  | .tdmPolarity => .span 0 3
  | .tdmTxIdle => .span 0 1
  | .tdmLoop => .span 0 3
  | .pllFamily => .span 0 1
  | .pllRef => .oneOf ([0, 1, 2, 3] ++ (List.range 16).map (· + 0x10))
  | .pllPull => .span 10 1000
  | .asrcInClock => .oneOf ([0, 4, 5, 6, 7] ++ (List.range 16).map (· + 0x10))
  | .asrcInRate => .oneOf [44100, 48000, 88200, 96000]
  | .asrcOutClock => .oneOf ([0, 4, 5, 6, 7] ++ (List.range 16).map (· + 0x10))
  | .asrcOutRate => .oneOf [44100, 48000, 88200, 96000]
  | .dstRamp => .span 16 48000
  | .dstDuckMask => .span 0 255
  | .dstGain0 => .signedOr (-12000) 2400 (-32768)
  | .dstGain1 => .signedOr (-12000) 2400 (-32768)
  | .dstGain2 => .signedOr (-12000) 2400 (-32768)
  | .dstGain3 => .signedOr (-12000) 2400 (-32768)
  | .dstGain4 => .signedOr (-12000) 2400 (-32768)
  | .dstGain5 => .signedOr (-12000) 2400 (-32768)
  | .dstGain6 => .signedOr (-12000) 2400 (-32768)
  | .dstGain7 => .signedOr (-12000) 2400 (-32768)
  | .dstGain => .signed (-12000) 2400
  | .dstDuckDepth => .signed (-12000) (0)
  | .dstDuckThresh => .signed (-9000) (0)
  | .dstDuckAttack => .span 1 1000
  | .dstDuckHold => .span 0 10000
  | .dstDuckRelease => .span 10 10000
  | .nrMac => .span 0 23
  | .nrUdpPort => .span 1 65535
  | .nrPt => .span 96 127
  | .nrEncoding => .span 0 1
  | .nrRate => .oneOf [48000, 96000]
  | .nrChannels => .span 1 64
  | .nrFirst => .span 0 255
  | .nrOffset => .span 0 4294967295
  | .nsMac => .span 0 23
  | .nsUdpPort => .span 1 65535
  | .nsSrcPort => .span 1 65535
  | .nsPt => .span 96 127
  | .nsDscp => .span 0 63
  | .nsEncoding => .span 0 1
  | .nsRate => .oneOf [48000, 96000]
  | .nsChannels => .span 1 64
  | .nsFirst => .span 0 255
  | .headAudCh => .oneOf [0, 2, 8]
  | .headAudRate => .oneOf [44100, 48000, 88200, 96000]
  | .headAudDepth => .oneOf [16, 24]
  | .embArrival => .spanOr 0 255 255
  | .embOffset => .span 0 4294967295
  | .capDeparture => .spanOr 0 127 255
  | .cvMode => .span 0 2
  | .cvGroup => .span 0 31
  | .cvDelay => .span 0 100000
  | .cvLayer0 => .spanOr 0 1023 65535
  | .cvLayer1 => .spanOr 0 1023 65535
  | .cvLayer2 => .spanOr 0 1023 65535
  | .cvLayer3 => .spanOr 0 1023 65535
  | .cvLayer4 => .spanOr 0 1023 65535
  | .cvLayer5 => .spanOr 0 1023 65535
  | .cvLayer6 => .spanOr 0 1023 65535
  | .cvLayer7 => .spanOr 0 1023 65535
  | .cvAudio0 => .oneOf ((List.range 64) ++ (List.range 64).map (· + 0x80) ++ [0xFF])
  | .cvAudio1 => .oneOf ((List.range 64) ++ (List.range 64).map (· + 0x80) ++ [0xFF])
  | .cvAudio2 => .oneOf ((List.range 64) ++ (List.range 64).map (· + 0x80) ++ [0xFF])
  | .cvAudio3 => .oneOf ((List.range 64) ++ (List.range 64).map (· + 0x80) ++ [0xFF])
  | .cvAudio4 => .oneOf ((List.range 64) ++ (List.range 64).map (· + 0x80) ++ [0xFF])
  | .cvAudio5 => .oneOf ((List.range 64) ++ (List.range 64).map (· + 0x80) ++ [0xFF])
  | .cvAudio6 => .oneOf ((List.range 64) ++ (List.range 64).map (· + 0x80) ++ [0xFF])
  | .cvAudio7 => .oneOf ((List.range 64) ++ (List.range 64).map (· + 0x80) ++ [0xFF])
  | .cvExcuse => .span 1 255
  | .napHold => .span 1024 65535
  | .ptrRing => .span 0 65535
  | .ptrDeadTime => .span 0 1023
  | .ptrCtl => .span 1 2
  | .laneProto => .span 0 2
  | .laneMac => .span 0 23
  | .laneTxMain => .span 0 63
  | .laneTxPre => .span 0 15
  | .laneTxPost => .span 0 31
  | .laneRecal => .oneOf [1]
  | .laneTest => .span 0 3
  | .laneLoop => .span 0 3
  | .lanePattern => .span 0 5
  | .laneTestRate => .span 1250000 28125000
  | .laneInject => .oneOf [1]
  | .ethSpeed => .span 0 1
  | .ethAddr => .span 0 281474976710655
  | .ethMaxFrame => .span 1522 9216
  | .ethAvShare => .span 10 95
  | .ethTtl => .span 1 255
  | .ethTsAdjTx => .signed (-10000) (10000)
  | .ethTsAdjRx => .signed (-10000) (10000)
  | .ethLoop => .span 0 1
  | .msMode => .span 1 2
  | .msSuite => .span 0 1
  | .msReplayWindow => .span 0 1073741824
  | .msRxOverlap => .span 100 60000
  | .msPnThreshold => .span 50 99
  | .msTxAn => .span 0 3
  | .pcieLoop => .span 0 3
  | .bmPark => .spanOr 0 85 127
  | .dramRate => .oneOf [4266, 6400, 7500, 8533]
  | .dramMigRate => .span 1000 16000
  | .bmPrio0 => .span 0 15
  | .bmPrio1 => .span 0 15
  | .bmPrio2 => .span 0 15
  | .bmPrio3 => .span 0 15
  | .bmPrio4 => .span 0 15
  | .bmPrio5 => .span 0 15
  | .bmPrio6 => .span 0 15
  | .bmPrio7 => .span 0 15
  | .bmPrio8 => .span 0 15
  | .bmPrio9 => .span 0 15
  | .bmPrio10 => .span 0 15
  | .bmPrio11 => .span 0 15
  | .bmPrio12 => .span 0 15
  | .bmPrio13 => .span 0 15
  | .bmMaxOut => .span 1 4096
  | .dchCmd => .span 1 3
  | .dchLoop => .span 0 3
  | .inkGroupBits => .span 0 8
  | .hqRing => .span 0 65535
  | .hqVector => .span 0 2047
  | .cgCount => .span 1 65535
  | .cgTime => .span 1 4000000
  | .srcTargets => .span 0 31
  | .srcQueue => .span 0 15
  | .srcCgroup => .spanOr 0 63 255
  | .srcPend => .span 1 2
  | .canNodeId => .span 1 127
  | .canNomRate => .oneOf [250, 500, 1000]
  | .canDataRate => .oneOf [1000, 2000, 4000, 5000]
  | .canUsdoTimeout => .span 100 10000
  | .sesIdle => .span 10 86400
  | .sesClose => .oneOf [1]
  | .openRole => .span 1 3
  | .openGo => .oneOf [1]
  | .sesKill => .oneOf [1]
  | .lcStep => .oneOf [1]
  | .lcRecover => .oneOf [1]
  | .ledgerPolicy => .span 0 1
  | .credKind => .span 0 2
  | .credRoles => .span 0 7
  | .credChannels => .span 0 31
  | .credStates => .span 0 31
  | .krSelftest => .oneOf [1]
  | .krZeroiseAll => .oneOf [165]
  | .krCmd => .span 1 7
  | .kcParts => .span 2 3
  | .rbAdvance => .span 1 2
  | .imgEnrolGo => .oneOf [1]
  | .nwMeshEnable => .span 0 15
  | .nwEnvLimit => .span 1 255
  | .nvHoldupPolicy => .span 0 1
  | .pwrCmd => .span 0 4
  | .pwrWakeMask => .span 0 7
  | .pwrWakeAfter => .span 0 604800
  | .wdtMs => .span 100 60000
  | .bistPeriod => .span 100 60000
  | .bistForceFault => .span 0 255
  | .ptLifetime => .span 0 4294967295
  | .ptGo => .span 1 2
  | o => if o.info.ty = .bool then .span 0 1 else .any

/-- The code a value outside the range is refused with: 0x0201 unless a chapter names another (R44, R56). -/
def Obj.rangeCode : Obj → Nat
  | .arrWidth => 0x0220
  | .arrHeight => 0x0220
  | .depWidth => 0x0220
  | .depHeight => 0x0220
  | .arrRateDen => 0x0224
  | .tgRateDen => 0x0224
  | _ => 0x0201

/-- Bits of a value of the type; 0 for STR and DOMAIN, which the byte store holds. -/
def Ty.width : Ty → Nat
  | .bool => 1
  | .u8 => 8
  | .u16 | .i16 => 16
  | .u32 | .i32 => 32
  | .tick48 => 48
  | .u64 | .time64 => 64
  | .str | .domain => 0

/-- Bytes a value of the type travels in (R415); 0 for STR and DOMAIN. -/
def Ty.bytes : Ty → Nat
  | .bool | .u8 => 1
  | .u16 | .i16 => 2
  | .u32 | .i32 => 4
  | .tick48 => 6
  | .u64 | .time64 => 8
  | .str | .domain => 0

/-- The bytes a STR or DOMAIN write must have: `(exact, longest)`; `exact = 0` where only a maximum is stated.
[DEDUCED, log entry 119] -/
def Obj.lengths : Obj → Nat × Nat
  | .coefData => (0, 1024)
  | .openResp => (0, 96)
  | .credPubkey => (0, 97)
  | .krBlob => (64, 64)
  | .kcValue => (32, 32)
  | .imgHashEcdsa => (48, 48)
  | .imgHashMldsa => (48, 48)
  | .laneUser => (10, 10)
  | o => if o.info.ty = .str then (0, 32) else (0, 1024)

/-- The index of instance `i` (R431). -/
def Obj.index (o : Obj) (i : Nat) : Nat :=
  match o.info.scheme with
  | .one => o.info.base
  | .plus => o.info.base + i
  | .quad => o.info.base + i / 4
  | .region _ => o.info.base + i / 16

/-- The subindex of instance `i`. -/
def Obj.subindex (o : Obj) (i : Nat) : Nat :=
  match o.info.scheme with
  | .one | .plus => o.info.sub
  | .quad => 0x40 * (i % 4) + o.info.sub
  | .region step => 0x10 + step * (i % 16) + o.info.sub

/-- A key that names an object and an instance by one number; no two share one, since fewer than 1,024 objects are defined. -/
def Obj.key (o : Obj) (i : Nat) : Nat := o.ctorIdx + 1024 * i

/-- Every object, in the order of the chapters. -/
def Obj.part0 : List Obj :=
  [.ptpEnable, .ptpMac, .ptpProfile, .stepThreshold, .ptpMasterAllowed, .holdoverTimeout, .tbState, .tickNow, .timeNow, .ptpDomain, .offsetLast, .tgMode, .tgRateNum, .tgRateDen, .tgTotalLines, .tgActiveLines, .tgPhaseOffset, .tgSlewLimit, .tgState, .tgLastCommit, .tgFrameCount, .arrName, .arrKind, .arrStorage, .arrWidth, .arrHeight, .arrRateNum, .arrRateDen, .arrScan, .arrSampling, .arrDepth, .arrColorimetry, .arrTransfer, .arrRange, .arrState, .arrFormatNow, .depName, .depBind, .depGroup, .depEngineReq, .depWidth, .depHeight, .depSampling, .depDepth, .depColorimetry, .depTransfer, .depRange, .depLayers]

def Obj.part1 : List Obj :=
  [.depState, .depStatus, .depEngine, .arrMac, .arrDstIp, .arrUdpPort, .arrSrcIp, .arrSsrc, .arrSsrcMatch, .arrPt, .arrMerge, .arrMacB, .arrDstIpB, .arrUdpPortB, .arrSrcIpB, .arrMergeWindow, .arrPathTimeout, .arrRing, .arrWbDep, .arrGen, .arrGenPattern, .arrGenColour, .arrGenGroup, .arrLossFrames, .arrConcealMax, .arrTsWindow, .arrDiMode, .arrDiLow, .arrDiHigh, .arrEventFlags, .arrPathState, .arrSeq, .arrFrameTime, .arrFrameTick, .arrRtpOffset, .arrCodec, .arrFrames, .arrOutside, .arrIncomplete, .arrConcealed, .arrPktsA, .arrPktsB, .arrDups, .arrLate, .arrRooms, .arrSlices, .arrSliceGroup, .arrSliceGuard]

def Obj.part2 : List Obj :=
  [.arrRelockFrames, .arrSliceMode, .arrSliceCause, .arrMarginEarly, .arrMarginLate, .arrRoomSkips, .arrSliceMisses, .arrFallbacks, .layRcMode, .layRcDelay, .layMotion, .layRcWeight, .layReadMode, .panSliceKib, .panSliceUsedKib, .roomUsed, .stgOpen, .stgSeal, .stgAbandon, .stgAnchor, .stgStatus, .stgState, .stgOwner, .stgEntries, .stgSealTick, .stgLandTick, .stgLastStatus, .stgEvent, .tkMask, .tkSrc0, .tkSrc1, .tkSrc2, .tkSrc3, .tkSrc4, .tkSrc5, .tkSrc6, .tkSrc7, .tkStaging, .tkForceCold, .tkGo, .tkSalvo, .tkState, .tkKind, .tkAcceptTick, .tkLandTick, .tkUndoCause, .tkStatus, .tkEventFlags]

def Obj.part3 : List Obj :=
  [.tkLanded, .tkUndone, .tkColds, .svTime, .svAtomic, .svGo, .svMembersLo, .svMembersHi, .svState, .svStatus, .svLate, .svGoTick, .laySrc, .layCropX, .layCropY, .layCropW, .layCropH, .layDstX, .layDstY, .layDstW, .layDstH, .layZ, .layBlend, .layAlpha, .layKey, .layFill, .layPlaceholder, .layStaleLimit, .layLockstep, .layFetchAll, .layState, .layStale, .layShownSeq, .layShownTime, .layFetchBytes, .layFetchFull, .layLateLines, .layEventFlags, .engState, .engReplaces, .engDeps, .engLoad, .engShadow, .engFaults, .engEventFlags, .engReadmit, .layCoefH, .layCoefV]

def Obj.part4 : List Obj :=
  [.layLbReserve, .layLbNeed, .layLbTaps, .layPredec, .layLbFlags, .coefKind, .coefData, .engLbGranted, .engLbShadow, .engLbFree, .sbEnable, .sbTwin, .sbBlank, .sbMarker, .sbRecover, .sbFreezeLimit, .sbEventFlags, .sbrKind, .sbrX, .sbrY, .sbrW, .sbrH, .sbrLayer, .sbrReaction, .sbrExpectN, .sbrExpect0, .sbrExpect1, .sbrExpect2, .sbrExpect3, .sbrAgeMax, .sbrSeqWindow, .sbState, .sbFailMask, .sbVerdictTick, .sbFails, .sbShadowFails, .sbTwinSkips, .sbTwinState, .sbrCause, .sbrCrc, .sbrMatch, .sbrAge, .arrXsProfile, .arrXsLinesConcealed, .arrXsParseErrors, .arrXsBppNow, .depXsProfile, .depXsBpp]

def Obj.part5 : List Obj :=
  [.depXsNlx, .depXsNly, .depXsPayload, .depXsCodec, .depXsFrameBytes, .cdcState, .cdcStreams, .cdcLoad, .cdcFaults, .cdcEventFlags, .cdcReadmit, .depMac, .depDstIp, .depUdpPort, .depSrcPort, .depSsrc, .depPt, .depTag, .depDscp, .depDup, .depMacB, .depDstIpB, .depUdpPortB, .depTagB, .depPacing, .depBurst, .depTro, .depPayload, .depHead, .depHTotal, .depHSyncStart, .depHSyncWidth, .depVSyncStart, .depVSyncWidth, .depSyncPol, .depDpMaxRate, .depDpMaxLanes, .depCapRing, .depCapEvery, .depEventFlags, .depFrames, .depFrameTime, .depPktsA, .depPktsB, .depTxLate, .depWbAbandoned, .depCapFrames, .depCapSkips]

def Obj.part6 : List Obj :=
  [.depCapAbandoned, .headState, .headLinkRate, .headLinkLanes, .headHpd, .headDownspread, .headRetrain, .headEdid, .headDpcdCaps, .headDep, .headRetrains, .headEventFlags, .headLastFail, .mcCount48, .mcCount96, .tdmEnable, .tdmMode, .tdmPll, .tdmRate, .tdmFrameLen, .tdmSlots, .tdmSlotWidth, .tdmSlotOffset, .tdmWordLen, .tdmFsShape, .tdmPolarity, .tdmTxIdle, .tdmTxMask, .tdmRxMask, .tdmLoop, .tdmState, .tdmClock, .tdmEventFlags, .tdmFrames, .tdmMalformed, .tdmLastLatch, .pllEnable, .pllFamily, .pllRef, .pllPull, .pllMclkOut, .pllState, .pllOffset, .pllPhaseErr, .pllSlips, .pllEventFlags, .asrcInClock, .asrcInRate]

def Obj.part7 : List Obj :=
  [.asrcOutClock, .asrcOutRate, .asrcState, .asrcRatio, .asrcTracker, .asrcEventFlags, .dstSrc0, .dstSrc1, .dstSrc2, .dstSrc3, .dstSrc4, .dstSrc5, .dstSrc6, .dstSrc7, .dstGain0, .dstGain1, .dstGain2, .dstGain3, .dstGain4, .dstGain5, .dstGain6, .dstGain7, .dstGain, .dstRamp, .dstDuckKey, .dstDuckMask, .dstDuckDepth, .dstDuckThresh, .dstDuckAttack, .dstDuckHold, .dstDuckRelease, .dstDuckState, .dstClock, .dstPeak, .nrEnable, .nrMac, .nrDstIp, .nrUdpPort, .nrSrcIp, .nrPt, .nrEncoding, .nrRate, .nrChannels, .nrPacketSamples, .nrFirst, .nrOffset, .nrTsOffset, .nrNap]

def Obj.part8 : List Obj :=
  [.nrState, .nrPkts, .nrLate, .nrUnderruns, .nrEventFlags, .nsEnable, .nsMac, .nsDstIp, .nsUdpPort, .nsSrcPort, .nsPt, .nsSsrc, .nsTag, .nsDscp, .nsEncoding, .nsRate, .nsChannels, .nsPacketSamples, .nsFirst, .nsState, .nsPkts, .headAudCh, .headAudRate, .headAudDepth, .embArrival, .embOffset, .embNap, .capDeparture, .cvMode, .cvGroup, .cvDelay, .cvLayer0, .cvLayer1, .cvLayer2, .cvLayer3, .cvLayer4, .cvLayer5, .cvLayer6, .cvLayer7, .cvAudio0, .cvAudio1, .cvAudio2, .cvAudio3, .cvAudio4, .cvAudio5, .cvAudio6, .cvAudio7, .cvExcuse]

def Obj.part9 : List Obj :=
  [.cvState, .cvEventFlags, .napPorts, .napHold, .napActive, .napEventFlags, .ptrEnable, .ptrRing, .ptrDeadTime, .ptrHalt, .ptrCtl, .ptrState, .ptrLastStatus, .ptrDone, .ptrErrors, .ptrStalls, .ptrBytesRead, .ptrBytesWritten, .ptrEventFlags, .laneProto, .laneMac, .laneTxInv, .laneRxInv, .laneTxMain, .laneTxPre, .laneTxPost, .laneRecal, .laneState, .laneCause, .laneAttempts, .laneFreezes, .laneEventFlags, .laneTest, .laneLoop, .lanePattern, .laneUser, .laneTestRate, .laneInject, .laneInjectPeriod, .laneChkBits, .laneChkErrors, .laneFeSlips, .ethSpeed, .ethAddr, .ethIp, .ethNetmask, .ethGateway, .ethMaxFrame]

def Obj.part10 : List Obj :=
  [.ethVidRx, .ethAvShare, .ethTtl, .ethTsAdjTx, .ethTsAdjRx, .ethLoop, .ethLink, .ethSlopeVideo, .ethSlopeAudio, .ethAdmitted, .ethEventFlags, .ethTxFrames, .ethRxFrames, .ethRxFcs, .ethRxOversize, .ethRxUnmatched, .ethRxCtlOverflow, .ethTxDropDown, .ethTxUnresolved, .ethFecUncorrected, .ethTsOverflow, .msEnable, .msMode, .msSuite, .msConfidentiality, .msReplayWindow, .msPtpClear, .msCak, .msRxOverlap, .msPnThreshold, .msTxAn, .msTxKey0, .msTxKey1, .msTxKey2, .msTxKey3, .msTxSaState, .msTxPn, .msEventFlags, .msTxProtected, .msTxNokey, .msRxUntagged, .msRxBad, .msRxReplay, .msRxNosa, .msTxPnExhausted, .msrxSci, .msrxKey0, .msrxKey1]

def Obj.part11 : List Obj :=
  [.msrxKey2, .msrxKey3, .msrxSaState, .msrxFrames, .pcieLinkSpeed, .pcieLinkWidth, .pcieBar0Drops, .pcieBar4Drops, .pcieDbRejects, .pcieReadFails, .pcieAerCorr, .pcieFlrs, .pcieEventFlags, .pcieLoop, .bmInflight, .bmInflightHwm, .bmLateResp, .bmResets, .bmEventFlags, .bmPark, .panRingKib, .panPorterKib, .panCodecKib, .panCorr, .panUncorr, .panEventFlags, .dramRate, .dramCapMib, .dramCoreMib, .dramPorterMib, .dramFreezeMib, .roomPool, .dramMigRate, .bmPrio0, .bmPrio1, .bmPrio2, .bmPrio3, .bmPrio4, .bmPrio5, .bmPrio6, .bmPrio7, .bmPrio8, .bmPrio9, .bmPrio10, .bmPrio11, .bmPrio12, .bmPrio13, .bmMaxOut]

def Obj.part12 : List Obj :=
  [.dchState, .dchCmd, .dchLoop, .dchCorr, .dchUncorr, .dchStripesUsed, .dchMigLeft, .dchEventFlags, .inkGroupBits, .inkLost, .inkBadComplete, .inkRecords, .tgtRunning, .tgtPresented, .tgtDepth, .tgtClaims, .hqEnable, .hqRing, .hqVector, .hqArmed, .hqFull, .cgCount, .cgTime, .cgHold, .srcPrio, .srcTargets, .srcQueue, .srcCgroup, .srcMask, .srcPend, .srcState, .srcCount, .deviceType, .errorRegister, .heartbeatTime, .identityCount, .vendorId, .productCode, .revision, .serialNumber, .canEnable, .canNodeId, .canNomRate, .canDataRate, .canUsdoTimeout, .canNmtState, .canBusOffs, .canEventFlags]

def Obj.part13 : List Obj :=
  [.sesCount, .sesIdle, .sesSelf, .sesClose, .sesFailures, .openRole, .openCred, .openGo, .openChal, .openResp, .openResult, .sesState, .sesRole, .sesChannel, .sesCred, .sesOpenTick, .sesLastTick, .sesLastStatus, .sesKill, .trdpMacs, .trdpPdDropped, .trdpRequests, .devSerial, .devMacBase, .bootCount, .lcState, .lcTarget, .lcConfirm, .lcStep, .lcRecover, .lcLastStatus, .lcEventFlags, .ledgerCapacity, .ledgerNextSeq, .ledgerOldestSeq, .ledgerCursor, .ledgerWindow, .ledgerWindowSig, .ledgerAck, .ledgerMarked, .ledgerLost, .ledgerPolicy, .ledgerBad, .ledgerEventFlags, .credKind, .credRoles, .credChannels, .credStates]

def Obj.part14 : List Obj :=
  [.credEnable, .credPubkey, .credKey, .credLabel, .credUses, .krIslandState, .krRootState, .krSlotsUsed, .krKeptCount, .krSelftest, .krSelftestResult, .krZeroiseAll, .krEventFlags, .krLedgerPub, .krNum, .krAlg, .krUse, .krBinding, .krMinRole, .krPersist, .krTransport, .krBlob, .krCmd, .krStatus, .krKcv, .krQState, .krQAttr, .kcParts, .kcValue, .kcKcv, .kcKcvFinal, .kcCount, .imgVerCore, .imgVerIsland, .rbCore, .rbIsland, .rbAdvance, .imgHashEcdsa, .imgHashMldsa, .imgEnrolGo, .nwMeshEnable, .nwState, .nwEnvLimit, .nwEnvCount, .nwSleepEvent, .drbgReseeds, .esFailures, .nvHoldupState]

def Obj.part15 : List Obj :=
  [.nvHoldupNf, .nvHoldupPolicy, .nvProtect, .nvParamFree, .nvQueue, .nvBursts, .nvRefused, .nvDropped, .nvCorr, .nvUncorr, .nvPoisonAddr, .nvEqualSeq, .nvScrubs, .nvEventFlags, .suStep, .suCause, .suStepMs, .suExpired, .pwrState, .pwrCmd, .pwrWakeMask, .pwrWakeAfter, .pwrStandbyMacs, .pwrWakeSource, .wdtMs, .coreRestarts, .fwCmd, .fwState, .fwStatus, .fwRunning, .fwBoot, .fwFallback, .fwSlotVer, .bistEnable, .bistPeriod, .bistForceFault, .bistRuns, .bistSkipped, .bistEventFlags, .ptKind, .ptTarget, .ptAmount, .ptLifetime, .ptGo, .ptState, .ptLeft, .ptCount, .ptEventFlags]

def Obj.all : List Obj :=
  Obj.part0 ++ Obj.part1 ++ Obj.part2 ++ Obj.part3 ++ Obj.part4 ++ Obj.part5 ++ Obj.part6 ++ Obj.part7 ++ Obj.part8 ++ Obj.part9 ++ Obj.part10 ++ Obj.part11 ++ Obj.part12 ++ Obj.part13 ++ Obj.part14 ++ Obj.part15

/-- Instance of object `o` that stands at an index and subindex, if it is there. -/
def Obj.instAt (o : Obj) (index sub : Nat) : Option Nat :=
  let n := o.info
  match n.scheme with
  | .one => if index = n.base ∧ sub = n.sub then some 0 else none
  | .plus =>
    if n.base ≤ index ∧ index < n.base + n.count ∧ sub = n.sub then some (index - n.base) else none
  | .quad =>
    if n.base ≤ index ∧ index < n.base + n.count / 4 ∧ sub % 0x40 = n.sub ∧ sub < 0x100 then
      some (4 * (index - n.base) + sub / 0x40)
    else none
  | .region step =>
    if n.base ≤ index ∧ index < n.base + n.count / 16 ∧ 0x10 + n.sub ≤ sub
        ∧ (sub - 0x10 - n.sub) % step = 0 ∧ (sub - 0x10 - n.sub) / step < 16 then
      some (16 * (index - n.base) + (sub - 0x10 - n.sub) / step)
    else none

/-- The object and instance at an index and subindex; `none` where nothing is defined there (R414). -/
def decodeObj (index sub : Nat) : Option (Obj × Nat) :=
  Obj.all.findSome? fun o => (o.instAt index sub).map fun i => (o, i)

/-- Whether some object has this index (step 2 of R411: 0x0202 or 0x0203). -/
def indexExists (index : Nat) : Bool :=
  Obj.all.any fun o =>
    let n := o.info
    match n.scheme with
    | .one => index == n.base
    | .plus => n.base ≤ index && index < n.base + n.count
    | .quad => n.base ≤ index && index < n.base + n.count / 4
    | .region _ => n.base ≤ index && index < n.base + n.count / 16

end Sys2Proof.Machine
end

