-- ==== Sys2Proof/Machine/State.lean ====
section
/-!
DEFINITION. The block's state as plain data: the clock (time base, tick, rank), the byte memories, every dictionary
object, every register without an object, and what the chapters say each block keeps inside; the reasons a step can
stop; the state after reset.
-/

namespace Sys2Proof.Machine

/-! ## Clock (R32, R38, R40) -/

/-- The time base, the tick counter and the rank reached inside the tick. -/
structure Clock where
  /-- ticks since power-good; the 48-bit tick counter is this modulo 2^48 (R38) -/
  elapsed : Nat
  /-- the time base in ns at the start of the tick (R32) -/
  timebase : Nat
  /-- its fraction, in units of 2^-28 ns -/
  frac : Nat
  /-- `TB_ADDEND`, 4.28 fixed point -/
  addend : Nat
  /-- the rank reached inside the tick, 0 at its start (R40) -/
  rank : Nat
  /-- the latest event of the tick that has a place of its own inside its rank: 1,024 × rank + place (R40, R41) -/
  place : Nat := 0
deriving DecidableEq, Repr

/-! ## Byte memories -/

/-- The addressed byte memories, each in canonical form (`Memory.wf` in Ops.lean). -/
structure Mem where
  /-- host memory, by PCIe bus address: what the part has written there -/
  host : List Host.Cell
  /-- the Pantry, 48 MiB (R344, R372) -/
  pantry : List Host.Cell
  /-- the DRAM data space, by offset from fabric address 0x0010_0000_0000 (R376) -/
  dram : List Host.Cell
  /-- the NV store's 512 KiB (R478) -/
  nv : List Host.Cell
deriving DecidableEq, Repr

/-- A byte write one command posts toward a memory; the command's step applies them in order. -/
structure Post where
  space : Space
  addr : Nat
  byte : Byte
deriving DecidableEq, Repr

/-! ## Statistics of the tick (R40, R41) -/

/-- What registers at rank 9 of the tick: statistics and flag bits first, then firings in ascending number. -/
inductive Late where
  /-- a counter rises, modulo its width -/
  | add (o : Obj) (i n : Nat)
  /-- a counter in a register without an object rises, modulo 2^32 -/
  | addReg (a n : Nat)
  /-- an object takes a value -/
  | put (o : Obj) (i v : Nat)
  /-- bits of a flag word are set -/
  | flag (o : Obj) (i bits : Nat)
  /-- bits of a ring group's event word are set (R362) -/
  | groupFlag (g bits : Nat)
  /-- a source fires without a flag bit -/
  | fire (s : Nat)
deriving DecidableEq, Repr

/-! ## Innkeeper (R388 to R405) -/

/-- The states of a source (R388). -/
inductive SrcState where
  | idle | pending | held | active
deriving DecidableEq, Repr

/-- One event source. -/
structure Src where
  st : SrcState := .idle
  count : Nat := 0
  soft : Bool := false
  /-- released from a hold (record flag [2], R401) -/
  fromHold : Bool := false
  /-- tick of the first and of the last firing represented, or of `INK_PEND_SET` -/
  first : Nat := 0
  last : Nat := 0
  /-- tick it became PENDING or left HELD (R526, kind 4) -/
  since : Nat := 0
deriving DecidableEq, Repr

/-- One core as a target: ACTIVE sources with the priority each was claimed at, most recent first. -/
structure CoreTarget where
  stack : List (Nat × Nat) := []
  presented : Option Nat := none
deriving DecidableEq, Repr

/-- A coalescing group's hold (R399). -/
structure Hold where
  opened : Nat
  firings : Nat
deriving DecidableEq, Repr

/-- Innkeeper: its sources, targets, holds and messages. [PRESUMED, log entry 101] -/
structure Ink where
  srcs : Tab Src := []
  cores : Tab CoreTarget := []
  /-- open holds -/
  holds : Tab Hold := []
  /-- round-robin pointer over targets 0 to 4 (R394) -/
  ptr : Nat := 0
  /-- sources whose firing was lost since cleared (`INK_LOST`) -/
  lostBits : Tab Bool := []
  /-- most urgent priority written to each queue since it was last empty (R393) -/
  queuePrio : Tab Nat := []
  /-- host queues on which a source waited in the last pass (`HQ_WAITING`) -/
  waiting : Tab Bool := []
  /-- MSI-X vectors sent, newest first, and those held pending in the PBA -/
  msixSent : List Nat := []
  msixPba : Tab Bool := []
  /-- one more than the tick of the latest delivery pass -/
  passAt : Nat := 0
  /-- per vector: its mask bit in the MSI-X table, set while absent (PCIe's reset value) -/
  msixMasked : Tab Bool := []
deriving DecidableEq, Repr

/-! ## Rings (R349 to R355) -/

inductive RingState where
  | disabled | enabled | error
deriving DecidableEq, Repr

/-- An entry a consumer has taken and not yet completed. -/
structure Taken where
  index : Nat
  bytes : List Byte
deriving DecidableEq, Repr

structure Ring where
  st : RingState := .disabled
  p : Nat := 0
  c : Nat := 0
  /-- the 16 descriptor words cached at enable -/
  cached : List Nat := []
  /-- entries taken, oldest first -/
  taken : List Taken := []
deriving DecidableEq, Repr

/-! ## Time base and timing groups (R34 to R37) -/

structure TimeUnit where
  /-- a master is selected -/
  master : Bool := false
  /-- consecutive sync intervals within ±1 µs -/
  run : Nat := 0
  /-- ACQUIRING was entered from FREE -/
  acqFromFree : Bool := false
  /-- the time base has been LOCKED since power-good -/
  everLocked : Bool := false
  /-- no offset has come from the newly selected master yet -/
  fresh : Bool := false
  /-- tick of the last valid sync, or of the selection -/
  lastSync : Nat := 0
  /-- `TICK_CAPTURE.GO` is set -/
  capArmed : Bool := false
  capTime : Nat := 0
  capTick : Nat := 0
  /-- the timestamp of the PTP frame the PTP unit received last (R329) -/
  rxStamp : Nat := 0
deriving DecidableEq, Repr

/-- A timing group's raster in progress. -/
structure Group where
  /-- the group has started its first frame -/
  started : Bool := false
  /-- start of the frame in progress, ns: on the time base when locked, on the undisciplined clock when free -/
  start : Rat := 0
  /-- period of the frame in progress, ns (R36) -/
  period : Rat := 0
  /-- the commit point of the frame in progress has registered -/
  committed : Bool := false
  /-- locked and out of alignment (R36) -/
  slewing : Bool := false
  /-- Signboard's verdicts on the frame in progress are registered (R187) -/
  verdict : Bool := false
deriving DecidableEq, Repr

/-! ## Pictures, rooms and slice rings (R68 to R95) -/

/-- A 4:4:4 pixel of 12 bits: Y', Cb, Cr, or R', G', B'. -/
structure Px where
  a : Nat
  b : Nat
  c : Nat
deriving DecidableEq, Repr

/-- A raster of 4:4:4 pixels, lines from the top. -/
abbrev Raster := List (List Px)

/-- A picture: its size, sampling and depth (as `arr_sampling`, `arr_depth`), and its three planes, lines from the
top, samples from the left. For R'G'B' the planes are R', G', B'. [DESIGN CHOICE, log entry 125] -/
structure Pic where
  w : Nat := 0
  h : Nat := 0
  samp : Nat := 1
  depth : Nat := 10
  /-- colorimetry, range and transfer, as a descriptor's `coding` byte (R281) -/
  coding : Nat := 1
  y : List (List Nat) := []
  c1 : List (List Nat) := []
  c2 : List (List Nat) := []
deriving DecidableEq, Repr

inductive RoomState where
  | free | writing | stored
deriving DecidableEq, Repr

/-- A room (R90): what it holds, and how many slices of a bridge frame are published (R103).
[DESIGN CHOICE, log entry 125] -/
structure Room where
  st : RoomState := .free
  seq : Nat := 0
  time : Nat := 0
  published : Nat := 0
  /-- its size in the set it belongs to (R88) -/
  bytes : Nat := 0
  pic : Pic := {}
deriving DecidableEq, Repr

/-- A slot of a slice ring: its tag (R94), and whether the slice is published. -/
structure Slot where
  seq : Nat
  k : Nat
  published : Bool
deriving DecidableEq, Repr

/-- Where a frame in progress goes. -/
inductive Dest where
  | room (r : Nat)
  | ring
  /-- no room could be claimed (R92) -/
  | skip
  /-- the claim of the tick of the frame start is still to come (R90) -/
  | pending
deriving DecidableEq, Repr

/-- The slices of one frame: when each began to be written and was published (R97), and what it holds. -/
structure SliceLog where
  start : Nat
  seq : Nat
  dest : Dest
  /-- size of the frame, and its sampling and depth -/
  w : Nat := 0
  h : Nat := 0
  samp : Nat := 1
  depth : Nat := 10
  /-- frame time -/
  time : Nat := 0
  began : Tab Nat := []
  pub : Tab Nat := []
  pics : Tab Pic := []
deriving DecidableEq, Repr

/-- A codestream packet of a frame (R201, R202): its extended sequence number, the unit its bytes belong to, whether it
is the first of the unit, whether it completes the first precinct of its slice, and its bytes. -/
structure XsPart where
  seq : Nat
  slice : Option Nat
  first : Bool
  precinct : Bool
  bytes : List Byte
deriving DecidableEq, Repr

/-- A frame in progress (R68). -/
structure Asm where
  start : Nat
  startTb : Nat
  ts : Nat
  time : Nat
  /-- 0 progressive, 1 top field, 2 bottom field -/
  field : Nat
  dest : Dest
  pic : Pic
  /-- columns received of each line: spans, from the first to past the last -/
  got : Tab (List (Nat × Nat)) := []
  /-- lines concealed so far -/
  hidden : List Nat := []
  /-- slices published so far -/
  pubNext : Nat := 0
  /-- kind 2: packets received, what the picture header gives, the sequence number of the last packet -/
  parts : List XsPart := []
  sliceLines : Option Nat := none
  ended : Option Nat := none
  /-- kind 2: the next slice to decode, and when each could be decoded, with every packet there or not (R198, R199) -/
  next : Nat := 0
  held : Tab (Nat × Bool) := []
deriving DecidableEq, Repr

/-- An injection entry being taken (R76, R357). -/
structure Inject where
  ring : Nat
  /-- its bytes are empty until its read is answered -/
  entry : Taken
  /-- the frame time used: the time base at the take until the entry gives one -/
  time : Nat
  /-- a commit returned the arrival to WAITING meanwhile -/
  abandoned : Bool
deriving DecidableEq, Repr

/-- A slice a reader used in an earlier frame whose slot nothing had overwritten by the end of that frame: layer, frame
start, slice and last-need time (R97). -/
structure Unspent where
  layer : Nat
  start : Nat
  slice : Nat
  need : Int
deriving DecidableEq, Repr

/-- What an arrival keeps that no object shows. -/
structure ArrCtx where
  /-- generation of the room set; a commit under R93 begins a new one -/
  gen : Nat := 0
  rooms : List Room := []
  /-- rooms of superseded sets still held: generation, number and room (R93) -/
  old : List (Nat × Nat × Room) := []
  slots : Tab Slot := []
  asm : Option Asm := none
  /-- kind 2: the frame after it, whose packets arrive while the one before is still decoded -/
  recv : Option Asm := none
  /-- slice logs of the latest frames, newest first -/
  logs : List SliceLog := []
  /-- ticks of the latest frame starts that have not been rejected, newest first; the first is S of R81 -/
  starts : List Nat := []
  /-- a frame is stored (the 15/16 test of R71 has something to compare with) -/
  stored : Bool := false
  /-- the room of the newest stored frame; `none` for a ring frame -/
  newest : Option Nat := none
  /-- the most recent stored top and bottom fields (R80) -/
  top : Option Pic := none
  bottom : Option Pic := none
  /-- RTP timestamps of the latest frames begun, newest first -/
  tsSeen : List Nat := []
  /-- tick of the last packet of path A and of path B -/
  lastA : Nat := 0
  lastB : Nat := 0
  /-- newest sequence number, and first-copy ticks of recent ones (R74) -/
  seqNew : Option Nat := none
  seen : Tab Nat := []
  /-- tick of the last entry taken (R76) -/
  lastTake : Option Nat := none
  inject : Option Inject := none
  /-- departure frames in a row with good shadow margins (R104) -/
  relockRun : Nat := 0
  /-- layers outside the slice group that came to select the arrival (R101 cause 4) -/
  outsiders : List Nat := []
  /-- layers that met a miss in this departure frame (R101 cause 3) -/
  missed : List Nat := []
  /-- late margins still open (R97) -/
  unspent : List Unspent := []
deriving DecidableEq, Repr

/-! ## Stagings, takes and salvos (R114 to R129) -/

/-- Who a Ledger record names (R441). -/
structure Origin where
  role : Nat := 0
  ch : Nat := 0
  cred : Nat := 0xFFFF
  ses : Nat := 0xFF
deriving DecidableEq, Repr

/-- A staged write: object, instance and value (bytes for STR and DOMAIN), and the timing group of its part. -/
structure Entry where
  o : Obj
  i : Nat
  v : Nat
  bytes : List Byte
  part : Nat
deriving DecidableEq, Repr

/-- A staging's content; its state, owner and counts are objects (R130). -/
structure Staging where
  entries : List Entry := []
  /-- who sealed it, as the Ledger names them -/
  role : Nat := 0
  ch : Nat := 0
  cred : Nat := 0xFFFF
  /-- order and tick of its seal -/
  order : Nat := 0
  sealed : Nat := 0
  /-- `stg_anchor` -/
  anchor : Nat := 0
deriving DecidableEq, Repr

inductive TakePhase where
  | armed | preroll | capture | hold
deriving DecidableEq, Repr

/-- A frame a layer holds: arrival, generation of its room set, room, `arr_seq` and frame time. -/
structure Sel where
  arr : Nat
  gen : Nat
  room : Nat
  seq : Nat
  time : Nat
deriving DecidableEq, Repr

/-- How a layer reads its arrival (R96, R103). -/
inductive ReadMode where
  | frame | bridge | slice
deriving DecidableEq, Repr

/-- What a layer, live or shadow, keeps for the frame in progress. -/
structure LayCtx where
  /-- the selection A, and B for interpolation (R105, R107), with its weight -/
  a : Option Sel := none
  b : Option Sel := none
  weight : Nat := 0
  /-- the last good frame (R142) -/
  good : Option Sel := none
  /-- frame time last shown from each arrival (R142) -/
  times : Tab Nat := []
  /-- the frames A and B the layer showed last, ready, with the frame time and `arr_seq` of what it shows -/
  shown : Option Sel := none
  shownB : Option Sel := none
  shownTime : Nat := 0
  shownSeq : Nat := 0
  mode : ReadMode := .frame
  /-- the frame starts that pair with this departure frame, ns since power-good: after the first, up to the second -/
  pair : Option (Rat × Rat) := none
  /-- `lay_lb_need` and the ready state of a shadow context -/
  grant : Nat := 0
  /-- first line of this frame from which a miss replaces the layer (R102) -/
  missFrom : Option Nat := none
  /-- `lay_stale`, state code and 2-tap or placeholder fallback of a shadow context -/
  stale : Nat := 0
  st : Nat := 0
  taps : Nat := 4
  /-- the source in a shadow context -/
  src : Nat := 0x100
deriving DecidableEq, Repr

/-- An outstanding take (R120 to R129). -/
structure Take where
  warm : Bool
  phase : TakePhase
  mask : Nat
  srcs : List Nat
  staging : Option Nat
  order : Nat
  salvo : Option Nat
  /-- a salvo member: its arm point has passed (R129) -/
  reached : Bool
  /-- commit points still to pass in ARMED after the arm point -/
  wait : Nat
  /-- lands late in its salvo -/
  late : Bool
  /-- the shadow context's layers, by layer number 8 d + l -/
  shadow : Tab LayCtx
  /-- objects a HELD staging gives the shadow context -/
  given : List Entry
  /-- who submitted it -/
  who : Origin
deriving DecidableEq, Repr

/-- A take template (R120). -/
structure Template where
  mask : Nat
  srcs : List Nat
  staging : Nat
  cold : Bool
deriving DecidableEq, Repr

/-- A salvo's members by departure, and its unlanded takes' count of late members. -/
structure Salvo where
  members : Tab Template := []
  /-- departures of the last go that have neither landed nor been undone -/
  live : List Nat := []
deriving DecidableEq, Repr

/-! ## Engines and departures (R145 to R153, R187, R209 to R221) -/

/-- A capture in progress (R221, R358). -/
structure Capture where
  ring : Nat
  /-- index of the entry taken -/
  index : Nat
  /-- F and `dep_frames` of the frame -/
  f : Nat
  frame : Nat
deriving DecidableEq, Repr

/-- A write of apply class boundary, waiting for its departure's next commit point (R115). -/
structure Held where
  o : Obj
  i : Nat
  v : Nat
  who : Origin
deriving DecidableEq, Repr

/-- What a departure keeps that no object shows. -/
structure DepCtx where
  /-- F of the frame in progress, ns on the time base, and its number, as `dep_frames` counts it -/
  f : Nat := 0
  frame : Nat := 0
  /-- instant of the frame start, ns on the undisciplined clock since power-good -/
  origin : Rat := 0
  /-- a frame of this departure has started, and no commit has stopped it -/
  composing : Bool := false
  /-- time of the commit point that opened the frame, on the time base -/
  opened : Rat := 0
  /-- the same instant on the undisciplined clock, ns since power-good -/
  openFree : Rat := 0
  /-- tick of that commit point -/
  openTick : Nat := 0
  /-- frames opened since the last step of the time base -/
  sinceStep : Option Nat := none
  /-- the frame as every binding received it, from its verdict on -/
  sent : Option Pic := none
  /-- lines of the live frame, of the twin composition (R185), and of the shadow or dry run -/
  raster : Raster := []
  twin : Raster := []
  shadow : Raster := []
  /-- lines of the frame the live context has composed -/
  liveLines : Nat := 0
  /-- the captured frame a cold take sends again (R123) -/
  holdPic : Option Raster := none
  /-- rooms a discarded shadow held, until the next commit point (R126) -/
  linger : List Sel := []
  /-- the engine this departure moves to at its next commit point (R151) -/
  moveTo : Option Nat := none
  /-- a hard fault leaves layer 0's fill until the move (R151) -/
  torn : Bool := false
  /-- coefficient tables in the version the departure uses, by table (R167) -/
  tables : Tab (List Byte) := []
  /-- lines in the write-back queue and in the capture queue (R149, R221) -/
  wbQueue : Nat := 0
  capQueue : Nat := 0
  wbAbandoned : Bool := false
  /-- the frame whose write-back is under way -/
  wbPic : Option Pic := none
  /-- the entry taken for this frame, and those whose writes are under way with their frames, oldest first -/
  capture : Option Capture := none
  capDone : List (Capture × Pic) := []
  /-- Signboard: regions under a reaction, consecutive passing and frozen frames, escalation, last passing frame -/
  failing : Nat := 0
  passRun : Nat := 0
  frozen : Nat := 0
  lastGood : Option Pic := none
  /-- checker fault in the frame (R182); regions in which a line was replaced (R185) -/
  checkerBad : Bool := false
  replaced : List Nat := []
  /-- writes of apply class boundary, oldest first -/
  boundary : List Held := []
  /-- next packet of the frame to hand over, and the extended sequence number (R211, R213) -/
  packet : Nat := 0
  extSeq : Nat := 0
  /-- the encoder: the next slice, when each could be encoded and when its packets were released, packets released so far,
  and no more to come of this frame (R198, R199, R203) -/
  encNext : Nat := 0
  encReady : Tab Nat := []
  releasedAt : Tab Nat := []
  released : Nat := 0
  encodeCut : Bool := false
  /-- the tick each line of the frame was composed in, line 0 first -/
  lineAt : List Nat := []
deriving DecidableEq, Repr

/-! ## Porter (R278 to R297) -/

/-- Bytes a command reads or writes: a space and its first and last address. -/
structure Span where
  space : Space
  lo : Nat
  hi : Nat
deriving DecidableEq, Repr

/-- A command in progress: its entry, what it writes by destination unit, and what it may collide with (R293). -/
structure PtrJob where
  entry : Taken
  units : List (List Post)
  reads : List Span
  writes : List Span
  bytesRead : Nat
  bytesWritten : Nat
  /-- bursts still to move, counted from a tick (R295) -/
  bursts : Nat
  since : Nat
  /-- the room held (R294) -/
  hold : Option Sel
deriving DecidableEq, Repr

structure PtrChan where
  job : Option PtrJob := none
  /-- bytes of host memory the head command reads, while it is stalled -/
  hostData : List Byte := []
  /-- an abort was accepted in this tick (R296) -/
  aborting : Bool := false
  /-- stopped by an abort until `ptr_enable` is written 1 again -/
  stopped : Bool := false
  /-- `PTR_CUR_TAG` -/
  tag : Nat := 0
deriving DecidableEq, Repr

/-- A layer's memory between frames, for the sequence test of Signboard (R184): what it last showed and from which source,
and frames since the sequence last changed or its window restarted. -/
structure SeqCtx where
  seq : Nat := 0
  src : Nat := 0x100
  since : Nat := 0
deriving DecidableEq, Repr

/-- The audio block of an injection entry, as an embedding slot holds it (R265): the media count of its first sample kept,
and its samples, one list of channels a sample. -/
structure EmbBlock where
  first : Nat
  samples : List (List Nat)
deriving DecidableEq, Repr

/-! ## Lanes, heads and MACs (R302 to R339) -/

/-- What a lane keeps that no object shows. -/
structure LaneCtx where
  /-- tick the cycle of attempts counts from, starts in it, and tick of the last start (R308) -/
  since : Nat := 0
  starts : Nat := 0
  last : Nat := 0
  /-- tick of entry into UP or of the last re-adaptation (R310) -/
  adapted : Nat := 0
  /-- CDR and block lock, equaliser frozen -/
  cdr : Bool := false
  block : Bool := false
  frozen : Bool := false
  /-- CTLE code and DFE taps in force -/
  ctle : Nat := 0
  dfe : List Int := []
  /-- the line rate its protocol last used, kb/s; 0 when it has never been UP (R315) -/
  rate : Nat := 0
  /-- checker locked; an error has come since; bits and injection not yet counted, in units of 1/4000 bit -/
  locked : Bool := false
  erred : Bool := false
  bitRest : Nat := 0
  injRest : Nat := 0
deriving DecidableEq, Repr

/-- The format a head signals (R219): MSA MISC0 and MISC1, data bytes 16 to 18 of the VSC SDP, and the data bytes of the HDR
static metadata SDP; an SDP that is not sent is empty. -/
structure Signal where
  misc0 : Nat
  misc1 : Nat
  vsc : List Nat
  hdr : List Nat
deriving DecidableEq, Repr

/-- What a head keeps that no object shows. -/
structure HeadCtx where
  /-- the level sampled on DP_HPD[h], and the tick it changed last for all the head has told apart (R217) -/
  hpd : Bool := false
  hpdAt : Nat := 0
  /-- DPCD 0x00100 to 0x00107 as last written, the training pattern of channel equalisation, and the adjustment loops of clock
  recovery and of equalisation (R218) -/
  dpcd : List Nat := []
  tps : Nat := 0
  loops : Nat × Nat := (0, 0)
  /-- DPCD 0x00200 to 0x00205 as last read -/
  status : List Byte := []
  /-- what the head signals with its video -/
  signal : Option Signal := none
  /-- the candidate in training, of the list of R217 -/
  cand : Nat := 0
  /-- start of the partner's absence, and tick of the last read of DPCD 0x00000 in it (R311) -/
  absent : Option Nat := some 0
  poll : Nat := 0
  /-- tick of entry into FAILED -/
  failed : Nat := 0
  /-- video is sent: a frame start has come in ACTIVE (R218) -/
  video : Bool := false
  /-- audio samples on the main link, by channel (R264) -/
  audio : Tab Nat := []
deriving DecidableEq, Repr

/-- Headers of an RTP packet sent (R211, R214, R263): IPv4, UDP, the VLAN tag (0xFFFF none) and RTP. -/
structure RtpOut where
  srcIp : Nat
  dstIp : Nat
  dscp : Nat
  ttl : Nat
  tag : Nat
  srcPort : Nat
  dstPort : Nat
  pt : Nat
  ssrc : Nat
  seq : Nat
  ts : Nat
  marker : Bool
deriving DecidableEq, Repr

/-- The one sample row data header of an ST 2110-20 packet (R212): bytes, line, pixel, continuation and field bits. -/
structure RowOut where
  length : Nat
  row : Nat
  offset : Nat
  continuation : Bool
  field : Bool
deriving DecidableEq, Repr

/-- What a frame to send carries. -/
inductive TxBody where
  /-- a frame of the control cores; `group`: to broadcast or a joined group -/
  | firmware (body : EthBody) (group : Bool)
  /-- an IGMPv3 report, or a leave, for a group from a source (0 any) (R72) -/
  | igmp (group source : Nat) (leave : Bool)
  /-- a TRDP reply, ComId 72,562, to an address, port and sessionId (R424) -/
  | trdp (ip port sid : Nat) (payload : List Byte)
  /-- ST 2110-20: the high half of the extended sequence number, the row header, and the samples of each plane -/
  | video (rtp : RtpOut) (ext : Nat) (row : RowOut) (planes : List (List Nat))
  /-- JPEG XS: the payload header and codestream bytes -/
  | xs (rtp : RtpOut) (head : XsHead) (bytes : List Byte)
  /-- audio: samples, one list of channels each -/
  | pcm (rtp : RtpOut) (samples : List (List Nat))
deriving DecidableEq, Repr

/-- A frame in a transmit queue: wire bytes and content; a departure's packet, a PTP event message or other. -/
structure TxFrame where
  bytes : Nat
  dep : Option Nat := none
  body : TxBody
  /-- sequenceId and messageType of a PTP event message -/
  ptp : Option (Nat × Nat) := none
deriving DecidableEq, Repr

/-- A MAC (R322 to R330). -/
structure MacCtx where
  /-- tick of the last link-fault ordered set, while the fault holds -/
  fault : Option Nat := none
  /-- ARP entries: address and tick of the last refresh, by IPv4 address -/
  arp : Tab (Nat × Nat) := []
  /-- frames queued to the control cores -/
  control : Nat := 0
  /-- timestamp FIFO, oldest first: sequenceId, messageType, timestamp -/
  stamps : List (Nat × Nat × Nat) := []
  /-- the entry last popped: the word of 0x104, and the timestamp -/
  popped : Nat × Nat := (0, 0)
  /-- frames waiting in queues 3, 2, 1 and 0: each its wire bytes, oldest first (R326) -/
  queues : List (List TxFrame) := [[], [], [], []]
  /-- credits of queues 1 and 2, bits, and when they were last brought up to date, ns on the undisciplined clock
  (R326) -/
  credit : List Rat := [0, 0]
  creditAt : Rat := 0
  /-- the frame being sent ends here, ns on the undisciplined clock -/
  busy : Rat := 0
  /-- frames the MAC loop-back returns, to be received in the next tick (R330) -/
  looped : List EthFrame := []
deriving DecidableEq, Repr

/-- A secure association: state (R334), Keyring number, next or highest packet number, tick of entry into its state. -/
structure Sa where
  st : Nat := 0
  key : Nat := 0xFFFFFFFF
  pn : Nat := 0
  since : Nat := 0
deriving DecidableEq, Repr

/-- A key load under way: MAC, channel (0 to 23 transmit of the MAC, 24 + 8 m + c receive), AN, key and due tick. -/
structure KeyLoad where
  mac : Nat
  chan : Nat
  an : Nat
  key : Nat
  due : Nat
deriving DecidableEq, Repr

/-- Lanes, heads and MACs. -/
structure IoUnit where
  lanes : Tab LaneCtx := []
  heads : Tab HeadCtx := []
  macs : Tab MacCtx := []
  /-- associations, by 4 × channel + AN -/
  sas : Tab Sa := []
  loads : List KeyLoad := []
  /-- receive channel of the last packet accepted by a path, by 2 a + path (R336) -/
  carried : Tab Nat := []
deriving DecidableEq, Repr

/-! ## Audio (R230 to R270) -/

/-- What a TDM port latched for a frame: masks, loop, and the samples taken from the matrix (R237). -/
structure TdmLatch where
  tx : Nat := 0
  rx : Nat := 0
  loop : Nat := 0
  samples : List Nat := []
deriving DecidableEq, Repr

structure TdmCtx where
  /-- frame k, whose latch point was the last frame sync, and frame k − 1, whose samples are on the wire -/
  now : TdmLatch := {}
  before : TdmLatch := {}
  /-- a frame sync has come since the port was enabled -/
  synced : Bool := false
  /-- ticks of the last frame syncs, newest first (R235) -/
  stamps : List Nat := []
  /-- well-formed frames in a row -/
  good : Nat := 0
  /-- bits the port puts on SDO in the present wire interval: 0, 1, or 2 for high impedance; none when it is high
  impedance throughout -/
  sdo : List Nat := []
  /-- bits received in the wire interval before the last frame sync, and whether its frame was malformed -/
  wire : List Nat := []
  wireBad : Bool := false
  /-- pins: BCLK and FS are outputs, at this frequency in Hz and with this level of FS in each bit clock; data are sampled on
  the rising edge of BCLK (R230, R233) -/
  output : Bool := false
  bclk : Nat := 0
  fs : List Nat := []
  rising : Bool := false
  /-- the PLL's queue repeats (1) or drops (2) a sample in the next frame (R243) -/
  slip : Nat := 0
deriving DecidableEq, Repr

/-- The sample a port or ASRC source last delivered, the tick it came in, and the one before (R257). -/
structure SrcCtx where
  value : Nat := 0
  at_ : Nat := 0
  before : Nat := 0
deriving DecidableEq, Repr

/-- What a destination's objects say of its routes, gains and ducking (R258). -/
structure DstSet where
  srcs : List Nat
  gains : List Int
  gain : Int
  key : Nat
  mask : Nat
  depth : Int
  thresh : Int
  attack : Nat
  hold : Nat
  release : Nat
deriving DecidableEq, Repr

/-- What a term's coefficient follows: its gain in 0.01 dB without ducking, and whether it ducks, to which depth. -/
structure TermGain where
  gain : Int
  ducked : Bool
  depth : Int
deriving DecidableEq, Repr

/-- One term of a destination's mix: its source, and a ramp of its coefficient (R257, R258). -/
structure Term where
  slot : Nat
  src : Nat
  /-- coefficient the ramp started from, steps done and steps in all -/
  start : Int
  step : Nat
  len : Nat
  /-- the coefficient last used -/
  last : Int
  /-- what it follows; the term is off or ramping out when none -/
  gain : Option TermGain
  /-- returns of the source seen (R258) -/
  seen : Nat
deriving DecidableEq, Repr

structure DstCtx where
  out : Nat := 0
  terms : List Term := []
  /-- what its objects have said, with the tick of each write, newest first, back to what is in effect (R258) -/
  sets : List (Nat × DstSet) := []
  /-- duck gain in 0.01 dB at a tick, and the tick of the last active key block -/
  duck : Rat := 0
  duckAt : Nat := 0
  active : Nat := 0
  /-- peaks of the key, when it is a port or an ASRC source, and of the output in the present 1 ms block -/
  keyPeak : Nat := 0
  peak : Nat := 0
  /-- capture destinations: latest samples, newest first, by media count at 48 kHz (R359) -/
  kept : List (Nat × Nat) := []
deriving DecidableEq, Repr

/-- A receive flow (R261, R262). -/
structure FlowCtx where
  /-- tick of the last packet -/
  last : Nat := 0
  /-- samples by media count, one list of channels each -/
  buf : Tab (List Nat) := []
  /-- in a gap; a sample was missing in the present frame -/
  gap : Bool := false
  missed : Bool := false
deriving DecidableEq, Repr

/-- A send flow (R263): sequence number, and the packet in progress: its timestamp, and its samples, one list of channels
each, as 32-bit words. -/
structure SendCtx where
  seq : Nat := 0
  ts : Nat := 0
  samples : List (List Nat) := []
deriving DecidableEq, Repr

/-- A pair under non-audio detection (R266): DATA, quiet samples, samples of the ramp in, scaled samples still to leave
after an onset, and the 4-sample delay. -/
structure NapCtx where
  data : Bool := false
  quiet : Nat := 0
  ramp : Nat := 0
  fade : Nat := 0
  delay : List (Nat × Nat) := []
deriving DecidableEq, Repr

/-- A caravan (R270): consecutive underruns of each member, and the instants its audio falls silent and returns. -/
structure CaravanCtx where
  runs : List Nat := []
  /-- silent from this instant, ns on the time base -/
  silent : Option Nat := none
  back : Option Nat := none
deriving DecidableEq, Repr

/-- An ASRC tracker (R244, R245): its clock quadruple, state and measured ratio. -/
structure Tracker where
  quad : Nat × Nat × Nat × Nat
  st : Nat := 1
  ratio : Nat := 0
deriving DecidableEq, Repr

structure AudioUnit where
  ports : Tab TdmCtx := []
  /-- tick each PLL entered its state; in ACQUIRING, the tick its phase error comes within ±50 ns -/
  plls : Tab Nat := []
  /-- samples in the queues of each PLL's domain (4 when absent), and the tick of the last change (R243) -/
  queues : Tab (Nat × Nat) := []
  /-- frequency driven on AUD_MCLK[k], Hz; none when absent -/
  mclk : Tab Nat := []
  /-- the sample each port or ASRC source last delivered -/
  srcs : Tab SrcCtx := []
  /-- returns of a port (p), a flow (16 + f) or a tracker (80 + t) to delivering (R258) -/
  returns : Tab Nat := []
  dsts : Tab DstCtx := []
  flows : Tab FlowCtx := []
  sends : Tab SendCtx := []
  naps : Tab NapCtx := []
  caravans : Tab CaravanCtx := []
  trackers : Tab Tracker := []
deriving DecidableEq, Repr

/-! ## Test and perturbation (R518 to R530) -/

structure TestUnit where
  /-- tick the background self-test of an engine started, while it runs; and of its last start -/
  engRun : Tab Nat := []
  engLast : Tab Nat := []
  cdcRun : Tab Nat := []
  cdcLast : Tab Nat := []
  /-- forced faults: the value written and the tick they register in (R523) -/
  forced : List (Nat × Nat) := []
  /-- tick each perturbation slot was armed -/
  armed : Tab Nat := []
deriving DecidableEq, Repr

/-! ## Non-volatile store (R478 to R491) -/

/-- A pair of copies: first page and size code (R486). -/
structure NvPair where
  page : Nat
  k : Nat
deriving DecidableEq, Repr

/-- A record write waiting in the burst FIFO. -/
structure NvJob where
  /-- 0 parameter, 1 key, 2 Ledger, 3 counter, 4 bytes as they stand, in the key region (helper data, erasure), 5 a group
  written back at the offset `id` -/
  region : Nat
  /-- index, key number, sequence number or counter number -/
  id : Nat
  page : Nat
  k : Nat := 0
  /-- what a copy holds past its header; the whole record for the Ledger -/
  body : List Byte
  /-- the pair was taken for this write -/
  fresh : Bool := false
  /-- the page of the pair this write frees when done -/
  frees : Option Nat := none
  /-- it passes NVWP_N (R488) -/
  forced : Bool := false
deriving DecidableEq, Repr

structure NvUnit where
  /-- pairs of each index in the parameter region, newest last -/
  pairs : Tab (List NvPair) := []
  /-- page of each kept key's pair -/
  keyPages : Tab Nat := []
  queue : List NvJob := []
  /-- the write under way, its bursts still to start, and the burst in progress: offset, bytes and tick of its start -/
  job : Option NvJob := none
  rest : List (Nat × List Byte) := []
  running : Option (Nat × List Byte × Nat) := none
  /-- poisoned groups (R485) -/
  poison : Tab Bool := []
  /-- values kept for the next start-up (apply class restart) -/
  kept : Tab Nat := []
  /-- a power fail has registered (R481), and its tick -/
  failing : Bool := false
  failedAt : Nat := 0
  /-- tick of the last hold-up test, and whether it is under way -/
  tested : Option Nat := none
  testing : Option Nat := none
  /-- tick of the last scrub pass -/
  scrubbed : Nat := 0
deriving DecidableEq, Repr

/-! ## DRAM (R373 to R380) -/

/-- 64 KiB pieces of the room pool given to one room or field store: its arrival, generation and room (256 for the field
store), and the pieces by stripe, a bit each. -/
structure Alloc where
  arr : Nat
  gen : Nat
  room : Nat
  masks : Tab Nat
deriving DecidableEq, Repr

/-- A stripe on its way: the entry that moves, the slot that takes it, and the instant its copy can be whole, in ticks. -/
structure Moving where
  stripe : Nat
  chan : Nat
  slot : Nat
  due : Rat
deriving DecidableEq, Repr

structure DramUnit where
  /-- entries of the interleave table that differ from start-up: a channel and a slot, or UNMAPPED -/
  table : Tab (Option (Nat × Nat)) := []
  allocs : List Alloc := []
  /-- stripes still to move off a channel, the one under way first, and where it goes -/
  left : Tab (List Nat) := []
  moving : Tab Moving := []
  /-- the channel has been trained since it was evacuated -/
  trained : Tab Bool := []
  /-- refresh rate of the last MR4 report of each channel, and the tick of the poll -/
  mr4 : Tab (Nat × Nat) := []
deriving DecidableEq, Repr

/-! ## Bus matrix (R366 to R371) -/

/-- Pieces in flight by master, those of an earlier epoch apart; the highest `bm_max_out` under which any of a master's was
accepted; and the non-posted reads PCIe outbound has forwarded. -/
structure BusUnit where
  flight : Tab Nat := []
  older : Tab Nat := []
  limit : Tab Nat := []
  hostReads : Nat := 0
deriving DecidableEq, Repr

/-! ## Sessions (R417 to R428) -/

/-- The key template a session sees (R474). -/
structure KeyTpl where
  num : Nat := 0xFFFFFFFF
  alg : Nat := 0
  use : Nat := 0
  binding : Nat := 0
  minRole : Nat := 0
  persist : Nat := 0
  transport : Nat := 0xFFFFFFFF
  blob : List Byte := []
  status : Nat := 0
  kcv : List Byte := []
  qState : Nat := 0
  qAttr : Nat := 0
  parts : Nat := 2
  compKcv : List Byte := []
  finalKcv : List Byte := []
deriving DecidableEq, Repr

/-- What a session keeps that no object of 0x2140 shows. -/
structure Session where
  peer : Peer
  /-- tick of its last request -/
  last : Nat := 0
  /-- the Ledger window last read (R445) -/
  window : List Byte := []
  tpl : KeyTpl := {}
  /-- code of its last seal, and the anchor it has written while it holds no staging (R130) -/
  sealCode : Nat := 0
  anchor : Nat := 0
deriving DecidableEq, Repr

/-- A peer's copy of the opening objects (R419, R427). -/
structure Opening where
  peer : Peer
  role : Nat := 0
  cred : Nat := 0
  chal : List Byte := []
  /-- role and credential the challenge was placed for (R418) -/
  chRole : Nat := 0
  chCred : Nat := 0
  /-- tick of the outstanding challenge -/
  since : Option Nat := none
  resp : List Byte := []
  /-- the island is verifying the response -/
  verifying : Bool := false
  result : Nat := 0
deriving DecidableEq, Repr

/-- An assisted request waiting for firmware (R413). -/
structure Assist where
  peer : Peer
  since : Nat
  index : Nat
  sub : Nat
  data : List Byte
deriving DecidableEq, Repr

/-- A segmented USDO transfer under way (R421). -/
structure Transfer where
  peer : Peer
  index : Nat
  sub : Nat
  data : List Byte
  last : Nat
deriving DecidableEq, Repr

/-- A request that waits for room in the burst FIFO, or for the island's pause to end (R465, R480); no data for a read. -/
structure Waiting where
  peer : Peer
  index : Nat
  sub : Nat
  data : Option (List Byte)
deriving DecidableEq, Repr

/-- The head of a TRDP request that is not answered yet, and the port its reply goes to (R424). -/
structure TrdpHead where
  peer : Peer
  port : Nat
  op : Nat
  role : Nat
  sub : Nat
  tag : Nat
  index : Nat
  length : Nat
  cred : Nat
deriving DecidableEq, Repr

structure SesUnit where
  opened : Tab Session := []
  openings : List Opening := []
  assists : List Assist := []
  held : List Waiting := []
  transfers : List Transfer := []
  /-- ticks of each channel's results of 0x0623 in the last 60 s, newest first, and the tick of its lockout -/
  failures : Tab (List Nat) := []
  locked : Tab Nat := []
  /-- tick of each controller's last heartbeat -/
  beats : Tab Nat := []
  /-- heartbeat messages sent, newest first: the controller, and its `can_nmt_state`, 0 for boot-up -/
  sent : List (Nat × Nat) := []
  /-- heads of the TRDP requests not answered yet, oldest first -/
  trdp : List TrdpHead := []
deriving DecidableEq, Repr

/-! ## Keyring (R450 to R477) -/

/-- A present key: its attributes, and its 256 bits, which no command shows (R451). -/
structure Key where
  alg : Nat
  use : Nat
  binding : Nat
  minRole : Nat
  persist : Nat
  secret : Nat
deriving DecidableEq, Repr

/-- What the key region holds of a kept number, as the island knows it: its blob, or that it is revoked (R460, R461). -/
structure KeyRec where
  revoked : Bool
  blob : List Byte
deriving DecidableEq, Repr

/-- A wrap the island has made, so that what it wrapped unwraps again: the transport key's secret, or none for the blob
key of the root of `lc`; header, wrapped bytes and key. -/
structure Wrap where
  transport : Option Nat
  lc : Nat
  head : List Byte
  body : List Byte
  secret : Nat
deriving DecidableEq, Repr

/-- Component entry (R459). -/
structure Components where
  since : Nat
  /-- the session that opened it -/
  ses : Nat
  tpl : KeyTpl
  parts : Nat
  creds : List Nat := []
  values : List Nat := []
deriving DecidableEq, Repr

structure KrUnit where
  slots : Tab Key := []
  recs : Tab KeyRec := []
  made : List Wrap := []
  comp : Option Components := none
  /-- kept keys whose two copies disagree (R461) -/
  contested : Tab Bool := []
  /-- environmental conditions present, and the tick each was last declared -/
  conds : Tab Nat := []
  /-- an environmental tamper holds key services until the island has run its tests (R469) -/
  hold : Bool := false
  /-- tick the running self-test began; sessions and commands waiting for it to end -/
  test : Option Nat := none
  waiting : List (Nat × Nat) := []
  /-- an island image swap waits for the tests (R513) -/
  swapping : Bool := false
  /-- ticks of environmental tampers within 24 h -/
  tampers : List Nat := []
  /-- tick of the last self-test and of the last reseed, and DRBG requests since -/
  tested : Nat := 0
  reseeded : Nat := 0
  requests : Nat := 0
deriving DecidableEq, Repr

/-! ## Fuses, firmware slots and power (R436 to R438, R494 to R516) -/

/-- What the one-time fuses and Night Watch's share bits hold. -/
structure Fuses where
  /-- `lc_state` [5:0] -/
  lc : Nat := 1
  /-- copies burnt of the row of a state, by `lc_state`: two make the row count as burnt (R438) -/
  copies : Tab Nat := []
  /-- share-void bits, by `lc_state` of the root (R452) -/
  voided : Tab Bool := []
  /-- roots whose helper data have been overwritten -/
  helper : Tab Bool := []
  /-- the image key hashes are enrolled (R464) -/
  enrolled : Bool := false
  ecdsa : List Byte := []
  mldsa : List Byte := []
  rbCore : Nat := 0
  rbIsland : Nat := 0
deriving DecidableEq, Repr

/-- An image in a flash slot (R463, R505). -/
structure Image where
  version : Nat := 0
  security : Nat := 0
  /-- it passes R463 but for the rollback counter -/
  ok : Bool := true
deriving DecidableEq, Repr

structure PowerUnit where
  /-- start ticks of the start-up steps begun, and end ticks of those ended -/
  began : Tab Nat := [(1, 0)]
  ended : Tab Nat := []
  /-- the start-up record is written: the start-up tamper window is closed (R470) -/
  started : Bool := false
  /-- steps under way on the return from STANDBY (R508) -/
  resuming : Bool := false
  /-- `pwr_cmd` 3 accepted in this tick (R497) -/
  resetAt : Option Nat := none
  /-- sleep entry under way since, and XT32 time of its end (R509) -/
  sleeping : Option Nat := none
  wakeHeld : Bool := false
  asleepAt : Nat := 0
  /-- groups whose commit point is still awaited on the way to STANDBY (R508) -/
  leaving : List Nat := []
  /-- the control cores run from this tick on (R498, R512), unless held in reset -/
  coresAt : Nat := 0
  coresHeld : Bool := false
  /-- tick of each core's last kick, and ticks of watchdog restarts (R498) -/
  kicks : Tab Nat := []
  dogs : List Nat := []
  /-- firmware: `fw_cmd` operation under way, slots verified by op 1, kinds on trial; a handover due at this tick -/
  writing : Option Nat := none
  verified : Tab Bool := []
  handover : Option Nat := none
  /-- `pwr_cmd` 4 accepted: the cores restart from this tick on -/
  rebootAt : Option Nat := none
  images : Tab Image := []
  /-- a life-cycle step is being burnt: target and tick accepted (R437) -/
  burning : Option (Nat × Nat) := none
  /-- recovery under way (R439) -/
  recovering : Bool := false
  /-- hour of time base of the last time mark (R442) -/
  markHour : Nat := 0
deriving DecidableEq, Repr

/-! ## What a command answers -/

/-- The answer a command gives its sender: a status code, a register word, and the bytes of a value read.
[DESIGN CHOICE, log entry 13] -/
structure Answer where
  code : Nat := 0
  word : Nat := 0
  bytes : List Byte := []
deriving DecidableEq, Repr

/-! ## The whole block -/

/-- Everything but the clock, the byte memories and the queue. [DESIGN CHOICE, log entry 6] -/
structure Dev where
  /-- dictionary objects that differ from their defaults, by `Obj.key` -/
  objs : Tab Nat := []
  /-- STR and DOMAIN objects, by `Obj.key` -/
  blobs : Tab (List Byte) := []
  /-- registers without an object, by BAR 0 address -/
  regs : Tab Nat := []
  /-- words latched by a read of a LO register, by BAR 0 address (R47) -/
  latch : Tab Nat := []
  /-- what registers at rank 9 of the tick -/
  late : List Late := []
  /-- byte writes this command posts -/
  posts : List Post := []
  /-- free values drawn so far: the model's own counter, no state of the manual -/
  drawn : Nat := 0
  ink : Ink := {}
  rings : Tab Ring := []
  /-- the ring descriptor table, 16 words a ring (R349) -/
  descs : Tab (List Nat) := []
  /-- `RING_GROUP_EVENT` -/
  groupEvents : Tab Nat := []
  time : TimeUnit := {}
  groups : Tab Group := []
  arrs : Tab ArrCtx := []
  stagings : Tab Staging := []
  seals : Nat := 0
  takes : Tab Take := []
  /-- take templates' owner-independent order of acceptance -/
  accepted : Nat := 0
  /-- departures whose take landed in the tick given (R127) -/
  landedAt : Tab Nat := []
  salvos : Tab Salvo := []
  lays : Tab LayCtx := []
  deps : Tab DepCtx := []
  /-- what the sequence test last saw of each layer -/
  seqs : Tab SeqCtx := []
  ptrs : Tab PtrChan := []
  /-- audio blocks of embedding slots 0 to 7, newest first -/
  embBlocks : Tab (List EmbBlock) := []
  io : IoUnit := {}
  audio : AudioUnit := {}
  test : TestUnit := {}
  dram : DramUnit := {}
  bus : BusUnit := {}
  nv : NvUnit := {}
  ses : SesUnit := {}
  kr : KrUnit := {}
  fuses : Fuses := {}
  pwr : PowerUnit := {}
  /-- the latest answer given to a sender -/
  answer : Answer := {}
deriving DecidableEq, Repr

/-- The machine. [DESIGN CHOICE, log entry 2] [DESIGN CHOICE, log entry 123] -/
structure State where
  clk : Clock
  dev : Dev
  mem : Mem
  /-- commands waiting, first in, first out -/
  pending : List Instr
deriving DecidableEq, Repr

/-- Reasons to stop with a fault. The spec gives every command of this block an effect, so no meaning raises one:
the constructor stands so that the type has a name for a stop (safe, never raised). [DESIGN CHOICE, log entry 121] -/
inductive Fault where
  /-- raised by no command -/
  | none
deriving DecidableEq, Repr

/-- Reasons to refuse a command. [DESIGN CHOICE, log entry 121] -/
inductive Refusal where
  /-- the command has no meaning yet; raised by an arm of `exec` alone (safe) -/
  | notModelled (mnemonic : String)
deriving DecidableEq, Repr

/-- The outcome of a step. -/
abbrev Out := Host.Outcome State Fault Refusal

/-- The clock at power-good (R32, R38). -/
def Clock.reset : Clock := { elapsed := 0, timebase := 0, frac := 0, addend := 0x28000000, rank := 0 }

/-- The machine after reset: every object at its default, the memories with nothing listed, no command waiting.
[DESIGN CHOICE, log entry 5] [DESIGN CHOICE, log entry 6] [PRESUMED, log entry 124] -/
def State.reset : State :=
  { clk := Clock.reset, dev := {}, mem := { host := [], pantry := [], dram := [], nv := [] }, pending := [] }

end Sys2Proof.Machine
end

