-- ==== Sys2Proof/Machine/Ops.lean ====
section
/-!
DEFINITION. The named operations everything else is written with: reading and writing objects, statistics and flags
that register at rank 9, event sources of flag words, byte memories, posted writes, and running an effect.
-/

namespace Sys2Proof.Machine

/-! ## Objects -/

/-- The value of an object in force. -/
def Dev.g (d : Dev) (o : Obj) (i : Nat := 0) : Nat := d.objs.getD (o.key i) (o.default i)

/-- A BOOL object, or any object, as true when not 0. -/
def Dev.on (d : Dev) (o : Obj) (i : Nat := 0) : Bool := d.g o i != 0

/-- A two's complement object. -/
def Dev.gi (d : Dev) (o : Obj) (i : Nat := 0) : Int := asInt o.info.ty.width (d.g o i)

/-- Give an object a value, cut to its width: counters wrap (R86, R109 and so on). -/
def Dev.put (d : Dev) (o : Obj) (i v : Nat) : Dev :=
  { d with objs := d.objs.put (o.key i) (v % 2 ^ o.info.ty.width) }

/-- Give a two's complement object a value. -/
def Dev.puti (d : Dev) (o : Obj) (i : Nat) (v : Int) : Dev := d.put o i (ofInt o.info.ty.width v)

/-- Return an object to its default. -/
def Dev.clear (d : Dev) (o : Obj) (i : Nat) : Dev := { d with objs := d.objs.del (o.key i) }

/-- A STR or DOMAIN object. -/
def Dev.blob (d : Dev) (o : Obj) (i : Nat := 0) : List Byte := d.blobs.getD (o.key i) []

/-- Give a STR or DOMAIN object its bytes. -/
def Dev.putBlob (d : Dev) (o : Obj) (i : Nat) (b : List Byte) : Dev := { d with blobs := d.blobs.put (o.key i) b }

/-- A register without an object. -/
def Dev.reg (d : Dev) (a : Nat) : Nat := d.regs.getD a 0

def Dev.putReg (d : Dev) (a v : Nat) : Dev := { d with regs := d.regs.put a (v % 2 ^ 32) }

/-- The value an object keeps for the next start-up (R416, R486). -/
def Dev.keptOf (d : Dev) (o : Obj) (i : Nat) : Nat :=
  if o.info.apply = .restart then d.nv.kept.getD (o.key i) (o.default i) else d.g o i

/-! ## What registers at rank 9 -/

/-- Leave something for rank 9 of the tick. -/
def Dev.later (d : Dev) (l : Late) : Dev := { d with late := d.late ++ [l] }

/-- A counter rises at rank 9. -/
def Dev.count (d : Dev) (o : Obj) (i : Nat := 0) (n : Nat := 1) : Dev := d.later (.add o i n)

/-- A counter in a register without an object rises at rank 9. -/
def Dev.countReg (d : Dev) (a : Nat) (n : Nat := 1) : Dev := d.later (.addReg a n)

/-- A flag bit is set at rank 9. -/
def Dev.flag (d : Dev) (o : Obj) (i bit : Nat) : Dev := d.later (.flag o i (2 ^ bit))

/-- A source fires, registered at rank 9. [DESIGN CHOICE, log entry 15] -/
def Dev.fire (d : Dev) (s : Nat) : Dev := d.later (.fire s)

/-- The source a flag word raises, where it is one source for the whole word
(R84, R133, R155, R156, R177, R192, R206, R225, R226, R250, R275, R299, R319, R338, R362, R383, R423, R446, R491, R529). -/
def flagSource (o : Obj) (i : Nat) : Option Nat :=
  match o with
  | .arrEventFlags => some (0x100 + i)
  | .depEventFlags | .tkEventFlags => some (0x200 + i)
  | .layEventFlags | .layLbFlags => some (0x200 + i / 8)
  | .stgEvent => some 0x2B8
  | .engEventFlags => some (0x080 + i)
  | .cdcEventFlags => some (0x0A0 + i)
  | .sbEventFlags => some (0x0C0 + i / 8)
  | .headEventFlags => some (0x060 + i)
  | .tdmEventFlags => some (0x0D0 + i)
  | .asrcEventFlags => some 0x0E8
  | .pllEventFlags => some 0x0E9
  | .nrEventFlags => some 0x0E0
  | .cvEventFlags => some 0x0E4
  | .napEventFlags => some 0x0E2
  | .ptrEventFlags => some (0x0F0 + i)
  | .laneEventFlags => some i
  | .ethEventFlags | .msEventFlags => some (0x040 + i)
  | .pcieEventFlags => some 0x068
  | .bmEventFlags => some 0x0F4
  | .panEventFlags => some 0x0F5
  | .dchEventFlags => some (0x0F6 + i)
  | .canEventFlags => some (0x2B4 + i)
  | .lcEventFlags => some 0x2BB
  | .ledgerEventFlags => some 0x2BC
  | .nvEventFlags => some 0x280
  | .bistEventFlags => some 0x3E8
  | .ptEventFlags => some (0x3E0 + i)
  | _ => none

/-- The sources that newly set bits fire: one firing for each bit that goes from 0 to 1 (R388). The Keyring's bits
each have a source of their own (R475). -/
def flagFirings (o : Obj) (i : Nat) (new : Nat) : List Nat :=
  let ks := setBitsOf 32 new
  match o with
  | .krEventFlags => ks.map (0x290 + ·)
  | o => match flagSource o i with
    | some s => ks.map fun _ => s
    | none => []

/-- Set flag bits now; the sources of the bits that were 0 fire. Answers the state and the firings. -/
def Dev.setFlags (d : Dev) (o : Obj) (i bits : Nat) : Dev × List Nat :=
  let old := d.g o i
  let new := clearMask bits old
  (d.put o i (old ||| bits), flagFirings o i new)

/-- Apply one statistic of the tick; answers the firings it makes. -/
def Dev.register (d : Dev) : Late → Dev × List Nat
  | .add o i n => (d.put o i (d.g o i + n), [])
  | .addReg a n => (d.putReg a (d.reg a + n), [])
  | .put o i v => (d.put o i v, [])
  | .flag o i bits => d.setFlags o i bits
  | .groupFlag g bits =>
    let old := d.groupEvents.getD g 0
    ({ d with groupEvents := d.groupEvents.put g (old ||| bits) },
      (setBitsOf 3 (clearMask bits old)).map fun _ => 0x2C0 + g)
  | .fire s => (d, [s])

/-- First step of rank 9 (R41): every statistic and flag of the tick, in the order they came; answers the firings. -/
def Dev.statistics (d : Dev) : Dev × List Nat :=
  d.late.foldl
    (fun (p : Dev × List Nat) l => let r := p.1.register l; (r.1, p.2 ++ r.2))
    ({ d with late := [] }, [])

/-- Clear flag bits written as 1 (R7). [DEDUCED, log entry 120] -/
def Dev.clearFlags (d : Dev) (o : Obj) (i bits : Nat) : Dev := d.put o i (clearMask (d.g o i) bits)

/-! ## Free values -/

/-- Draw a fresh free value of `w` bits. [DESIGN CHOICE, log entry 7] -/
def Dev.draw (d : Dev) (w : Nat) : Nat × Dev :=
  (Config.freeValue d.drawn % 2 ^ w, { d with drawn := d.drawn + 1 })

/-- A master reset of the fabric (R371): counted, with bit 0x1. The master's pieces that no target has granted are
discarded; those granted stay in flight, of an earlier epoch. How many were granted is a free value.
[DESIGN CHOICE, log entry 133] -/
def Dev.masterReset (d : Dev) (m : Nat) : Dev :=
  let d := (d.count .bmResets).flag .bmEventFlags 0 1
  match d.bus.flight.find m with
  | none => d
  | some n =>
    let (v, d) := d.draw 32
    { d with bus := { d.bus with flight := d.bus.flight.put m 0, older := d.bus.older.upd m 0 (· + v % (n + 1)) } }

/-! ## Byte memories -/

/-- A byte memory in canonical form: addresses strictly rising, and no entry equal to what an unlisted address
reads as. -/
def Memory.wf (m : List Host.Cell) : Bool := Tab.wf m && m.all fun c => c.2 != 0

/-- A byte of a memory; an unlisted address reads 0. [DESIGN CHOICE, log entry 4] -/
def Memory.read (m : List Host.Cell) (a : Nat) : Byte := Tab.getD m a 0

/-- Write a byte; writing what an unlisted address reads as removes the entry. [DESIGN CHOICE, log entry 4] -/
def Memory.write (m : List Host.Cell) (a : Nat) (b : Byte) : List Host.Cell :=
  if b = 0 then Tab.del m a else Tab.put m a b

/-- `n` bytes from an address. -/
def Memory.readN (m : List Host.Cell) (a n : Nat) : List Byte := (List.range n).map fun k => Memory.read m (a + k)

/-- A byte of a space. -/
def Mem.read (m : Mem) (s : Space) (a : Nat) : Byte :=
  match s with
  | .host => Memory.read m.host a
  | .pantry => Memory.read m.pantry a
  | .dram => Memory.read m.dram a
  | .nv => Memory.read m.nv a

def Mem.readN (m : Mem) (s : Space) (a n : Nat) : List Byte := (List.range n).map fun k => m.read s (a + k)

def Mem.write (m : Mem) (p : Post) : Mem :=
  match p.space with
  | .host => { m with host := Memory.write m.host p.addr p.byte }
  | .pantry => { m with pantry := Memory.write m.pantry p.addr p.byte }
  | .dram => { m with dram := Memory.write m.dram p.addr p.byte }
  | .nv => { m with nv := Memory.write m.nv p.addr p.byte }

/-- Every memory is in canonical form. -/
def Mem.wf (m : Mem) : Bool := Memory.wf m.host && Memory.wf m.pantry && Memory.wf m.dram && Memory.wf m.nv

/-- The posted writes of a command, in their order. -/
def Mem.apply (m : Mem) (ps : List Post) : Mem := ps.foldl Mem.write m

/-- Post bytes toward a memory from an address. -/
def Dev.post (d : Dev) (s : Space) (a : Nat) (bs : List Byte) : Dev :=
  { d with posts := d.posts ++ (List.range bs.length).map fun k => ⟨s, a + k, bs.getD k 0⟩ }

/-! ## Running an effect -/

/-- What an effect sees and does not change: the clock and the memories. -/
structure Env where
  clk : Clock
  mem : Mem
deriving DecidableEq, Repr

/-- Ticks since power-good. -/
def Env.now (e : Env) : Nat := e.clk.elapsed

/-- The 48-bit tick counter (R38). [DEDUCED, log entry 14] -/
def Clock.tick (c : Clock) : Nat := c.elapsed % 2 ^ 48

def Env.tick (e : Env) : Nat := e.clk.tick

/-- The time base in ns (R32). -/
def Env.tb (e : Env) : Nat := e.clk.timebase

/-- Change the block by an effect, then apply the byte writes it posted. -/
def State.run (s : State) (f : Env → Dev → Dev) : State :=
  let d := f ⟨s.clk, s.mem⟩ s.dev
  { s with dev := { d with posts := [] }, mem := s.mem.apply d.posts }

/-! ## Power states (R507) -/

/-- SLEEP: the main domain is off. [DEDUCED, log entry 82] -/
def Dev.asleep (d : Dev) : Bool := d.g .pwrState == 2

/-- STANDBY: arrivals, engines, codec, departures, audio and Porter are stopped. -/
def Dev.stopped (d : Dev) : Bool := d.g .pwrState == 1

/-! ## Tables of contexts -/

def Dev.arr (d : Dev) (a : Nat) : ArrCtx := d.arrs.getD a {}
def Dev.putArr (d : Dev) (a : Nat) (c : ArrCtx) : Dev := { d with arrs := d.arrs.put a c }
def Dev.updArr (d : Dev) (a : Nat) (f : ArrCtx → ArrCtx) : Dev := d.putArr a (f (d.arr a))
def Dev.dep (d : Dev) (n : Nat) : DepCtx := d.deps.getD n {}
def Dev.putDep (d : Dev) (n : Nat) (c : DepCtx) : Dev := { d with deps := d.deps.put n c }
def Dev.updDep (d : Dev) (n : Nat) (f : DepCtx → DepCtx) : Dev := d.putDep n (f (d.dep n))
def Dev.lay (d : Dev) (n : Nat) : LayCtx := d.lays.getD n {}
def Dev.putLay (d : Dev) (n : Nat) (c : LayCtx) : Dev := { d with lays := d.lays.put n c }
def Dev.updLay (d : Dev) (n : Nat) (f : LayCtx → LayCtx) : Dev := d.putLay n (f (d.lay n))
def Dev.group (d : Dev) (g : Nat) : Group := d.groups.getD g {}
def Dev.putGroup (d : Dev) (g : Nat) (c : Group) : Dev := { d with groups := d.groups.put g c }
def Dev.stg (d : Dev) (s : Nat) : Staging := d.stagings.getD s {}
def Dev.putStg (d : Dev) (s : Nat) (c : Staging) : Dev := { d with stagings := d.stagings.put s c }
def Dev.takeOf (d : Dev) (n : Nat) : Option Take := d.takes.find n
def Dev.putTake (d : Dev) (n : Nat) (t : Take) : Dev := { d with takes := d.takes.put n t }
def Dev.dropTake (d : Dev) (n : Nat) : Dev := { d with takes := d.takes.del n }
def Dev.ring (d : Dev) (r : Nat) : Ring := d.rings.getD r {}
def Dev.putRing (d : Dev) (r : Nat) (c : Ring) : Dev := { d with rings := d.rings.put r c }

/-- Answer the sender of a command. [DESIGN CHOICE, log entry 13] -/
def Dev.answerCode (d : Dev) (code : Nat) : Dev := { d with answer := { code := code } }
def Dev.answerWord (d : Dev) (w : Nat) : Dev := { d with answer := { word := w } }

/-- Apply an effect to each number of a list in turn. -/
def Dev.forEach (d : Dev) (ns : List Nat) (f : Dev → Nat → Dev) : Dev := ns.foldl f d

end Sys2Proof.Machine
end

