-- ==== Sys2Proof/Machine/RingOps.lean ====
section
/-!
DEFINITION. The ring machinery of R349 to R356: descriptors, indices, what a consumer takes and how it completes.
-/

namespace Sys2Proof.Machine

/-! ## Life cycle, as every block asks for it (R436, R439) -/

/-- The life-cycle state code, [2:0] of `lc_state`. -/
def Dev.lc (d : Dev) : Nat := d.g .lcState % 8

/-- The part is in QUARANTINE. -/
def Dev.quarantine (d : Dev) : Bool := (d.g .lcState).testBit 7

/-- Host writes to ranges marked "dropped" in R22 are dropped: FIELD(n), END and QUARANTINE. -/
def Dev.hostDrops (d : Dev) : Bool := d.quarantine || d.lc == 2 || d.lc == 4

/-- A dropped BAR 0 write. [DEDUCED, log entry 108] -/
def Dev.barDrop (d : Dev) : Dev := (d.count .pcieBar0Drops).fire 0x2BA

/-! ## Pantry partitions and DRAM regions in force (R372, R376) -/

/-- First Pantry byte and size of the ring partition. -/
def Dev.ringPart (d : Dev) : Nat × Nat := (d.g .panSliceKib * 1024, d.g .panRingKib * 1024)

/-- First Pantry byte and size of Porter's scratch. -/
def Dev.scratchPart (d : Dev) : Nat × Nat := ((d.g .panSliceKib + d.g .panRingKib) * 1024, d.g .panPorterKib * 1024)

/-- The fixed regions of the DRAM data space, MiB: descriptor table, core area, Porter area, hold buffers, freeze area. -/
def Dev.dramFixed (d : Dev) : Nat := 4 + d.g .dramCoreMib + d.g .dramPorterMib + 24 * 38 + d.g .dramFreezeMib

/-- Data capacity of the DRAM fitted, MiB: 15/16 of it (R374). -/
def Dev.dramData (d : Dev) : Nat := d.g .dramCapMib * 15 / 16

/-- The fixed regions exceed the capacity: every region is empty. -/
def Dev.dramEmpty (d : Dev) : Bool := decide (d.dramData < d.dramFixed)

def Dev.regionSize (d : Dev) (mib : Nat) : Nat := if d.dramEmpty then 0 else mib * 2 ^ 20

/-- DRAM offset and size of the core area; the descriptor table takes the 4 MiB before it. -/
def Dev.coreArea (d : Dev) : Nat × Nat := (2 ^ 22, d.regionSize (d.g .dramCoreMib))

/-- DRAM offset and size of the Porter area. -/
def Dev.porterArea (d : Dev) : Nat × Nat := (2 ^ 22 + d.g .dramCoreMib * 2 ^ 20, d.regionSize (d.g .dramPorterMib))

/-! ## Descriptors (R349) -/

/-- Word `k` of a descriptor. -/
def descWord (ws : List Nat) (k : Nat) : Nat := ws.getD k 0

def descWide (ws : List Nat) (k : Nat) : Nat := descWord ws k + descWord ws (k + 1) * 2 ^ 32

def descBase (ws : List Nat) : Nat := descWide ws 0
def descCpl (ws : List Nat) : Nat := descWide ws 2
def descCtl (ws : List Nat) : Nat := descWord ws 4
def descIdxWb (ws : List Nat) : Nat := descWide ws 6
def descN (ws : List Nat) : Nat := bitsAt (descCtl ws) 0 5
def descKind (ws : List Nat) : Nat := bitsAt (descCtl ws) 8 4
def descLoc (ws : List Nat) : Nat := bitsAt (descCtl ws) 12 2
def descCores (ws : List Nat) : Bool := (descCtl ws).testBit 15
def descGroup (ws : List Nat) : Nat := bitsAt (descCtl ws) 16 6

/-- The descriptor in the table. [DESIGN CHOICE, log entry 102] [DEDUCED, log entry 114] -/
def Dev.desc (d : Dev) (r : Nat) : List Nat := d.descs.getD r (List.replicate 16 0)

/-- The descriptor the part goes by: the cached copy while not DISABLED, the table otherwise (R76, R400). -/
def Dev.descInForce (d : Dev) (r : Nat) : List Nat :=
  if (d.ring r).st = .disabled then d.desc r else (d.ring r).cached

/-- Bytes of an entry: 16 for an event ring, 64 otherwise (R350). -/
def entrySize (kind : Nat) : Nat := if kind = 4 then 16 else 64

/-- Every field is valid (0x023D otherwise). -/
def descValid (ws : List Nat) : Bool :=
  let n := descN ws
  let k := descKind ws
  4 ≤ n && n ≤ 16 && bitsAt (descCtl ws) 5 3 == 0 && 1 ≤ k && k ≤ 5 && descLoc ws ≤ 2
    && !(descCtl ws).testBit 14 && bitsAt (descCtl ws) 22 10 == 0 && descWord ws 5 == 0
    && descBase ws % 64 == 0 && descCpl ws % 64 == 0 && (k != 4 || descCpl ws == 0)
    && (ws.drop 8).all (· == 0)

/-- Size of a location's partition or area; host memory is unbounded. -/
def Dev.locSize (d : Dev) (loc : Nat) : Option Nat :=
  if loc = 0 then none else if loc = 1 then some d.ringPart.2 else some d.coreArea.2

/-- Both arrays and the write-back lie wholly within their location (0x0601 otherwise). -/
def Dev.descFits (d : Dev) (ws : List Nat) : Bool :=
  match d.locSize (descLoc ws) with
  | none => true
  | some sz =>
    descBase ws + 2 ^ descN ws * entrySize (descKind ws) ≤ sz
      && (descKind ws == 4 || descCpl ws + 2 ^ descN ws * 32 ≤ sz)
      && (descIdxWb ws == 0 || descIdxWb ws + 4 ≤ sz)

/-- Where an address of a ring's location lies. -/
def Dev.locAt (d : Dev) (loc a : Nat) : Space × Nat :=
  if loc = 0 then (.host, a)
  else if loc = 1 then (.pantry, d.ringPart.1 + a)
  else (.dram, d.coreArea.1 + a)

/-- Post bytes at an address of a ring's location. -/
def Dev.postLoc (d : Dev) (loc a : Nat) (bs : List Byte) : Dev :=
  let (sp, x) := d.locAt loc a
  d.post sp x bs

/-! ## Indices (R351) -/

/-- Entries a ring holds. -/
def Ring.held (r : Ring) : Nat := (r.p + 2 ^ 32 - r.c) % 2 ^ 32

def Ring.nonempty (r : Ring) : Bool := r.p != r.c

/-- An ENABLED ring that is not full (R402). -/
def Ring.canTake (r : Ring) : Bool := r.st = .enabled && r.held < 2 ^ descN r.cached

/-- Phase bit of index `i` (R355). -/
def phaseOf (n i : Nat) : Nat := 1 - i / 2 ^ n % 2

/-- Write an index to `idx_wb`, if the ring has one (R354). -/
def Dev.indexBack (d : Dev) (ws : List Nat) (v : Nat) : Dev :=
  if descIdxWb ws = 0 then d else d.postLoc (descLoc ws) (descIdxWb ws) (leBytes 4 v)

/-- Set bits of a ring's group flags at rank 9 (R362). [DEDUCED, log entry 98] -/
def Dev.ringFlag (d : Dev) (r bit : Nat) : Dev := d.later (.groupFlag (descGroup (d.ring r).cached) (2 ^ bit))

/-- Innkeeper writes a 16-byte record at P, then P and its write-back (R402). -/
def Dev.ringProduce (d : Dev) (r : Nat) (bs : List Byte) : Dev :=
  let c := d.ring r
  let ws := c.cached
  let p' := (c.p + 1) % 2 ^ 32
  let d := d.postLoc (descLoc ws) (descBase ws + c.p % 2 ^ descN ws * 16) bs
  let d := d.putRing r { c with p := p' }
  d.indexBack ws p'

/-- The consumer takes the entry at C (R354). -/
def Dev.ringTake (d : Dev) (r : Nat) (bs : List Byte) : Dev :=
  let c := d.ring r
  let c' := (c.c + 1) % 2 ^ 32
  let d := d.putRing r { c with c := c', taken := c.taken ++ [⟨c.c, bs⟩] }
  d.indexBack c.cached c'

/-- A block takes the entry at C itself: one in the part is read at once; one in host memory has no bytes until
ENTRY_FETCH answers its read. -/
def Dev.takeAhead (e : Env) (d : Dev) (r : Nat) : Taken × Dev :=
  let c := d.ring r
  let ws := c.cached
  let own := descLoc ws != 0
  let (sp, at_) := d.locAt (descLoc ws) (descBase ws + c.c % 2 ^ descN ws * 64)
  let t : Taken := ⟨c.c, if own then e.mem.readN sp at_ 64 else []⟩
  let c' := (c.c + 1) % 2 ^ 32
  let d := d.putRing r { c with c := c', taken := c.taken ++ [t] }
  (t, if own then d.indexBack ws c' else d)

/-- Byte `k` of an entry, and fields of it. -/
def entryByte (t : Taken) (k : Nat) : Nat := (t.bytes.getD k 0).toNat
def entryField (t : Taken) (k n : Nat) : Nat := ofLe ((t.bytes.drop k).take n)

/-- The completion record of R355. -/
def completionBytes (n i tag status v0 v1 : Nat) : List Byte :=
  leBytes 4 tag ++ leBytes 2 status ++ leBytes 1 (phaseOf n i) ++ leBytes 1 0 ++ leBytes 8 v0 ++ leBytes 8 v1
    ++ leBytes 8 0

/-- Complete a taken entry: its record is written and, with IRQ set on kinds 2, 3 and 5, bit 0 of the group's flags
(R354, R355, R356). -/
def Dev.ringComplete (d : Dev) (r : Nat) (t : Taken) (status v0 v1 : Nat) : Dev :=
  let c := d.ring r
  let ws := c.cached
  let n := descN ws
  let d := d.postLoc (descLoc ws) (descCpl ws + t.index % 2 ^ n * 32)
    (completionBytes n t.index (entryField t 4 4) status v0 v1)
  let d := d.putRing r { c with taken := c.taken.filter fun x => x.index != t.index }
  if (entryByte t 1).testBit 5 && descKind ws != 1 then d.ringFlag r 0 else d

/-- Drop a taken entry without a completion (R347). -/
def Dev.ringForget (d : Dev) (r : Nat) (t : Taken) : Dev :=
  let c := d.ring r
  d.putRing r { c with taken := c.taken.filter fun x => x.index != t.index }

/-! ## Who names a ring (R76, R221, R278, R400) -/

/-- Host queues in force naming a ring. -/
def Dev.queuesNaming (d : Dev) (r : Nat) : List Nat :=
  (List.range 16).filter fun q => d.on .hqEnable q && d.g .hqRing q == r

/-- Kinds of the consumers in use that name a ring. -/
def Dev.consumerKinds (d : Dev) (r : Nat) : List Nat :=
  ((List.range 4).filter fun k => d.on .ptrEnable k && d.g .ptrRing k == r).map (fun _ => 1)
    ++ ((List.range 256).filter fun a => d.g .arrKind a == 3 && d.g .arrRing a == r).map (fun _ => 2)
    ++ ((List.range 128).filter fun n => (d.g .depBind n).testBit 3 && d.g .depCapRing n == r).map (fun _ => 3)
    ++ (d.queuesNaming r).map fun _ => 4

/-- Why `RING_CMD` enable is refused, 0 when it is not (R352). -/
def Dev.enableCode (d : Dev) (r : Nat) : Nat :=
  let ws := d.desc r
  if (d.ring r).st ≠ .disabled then 0x03A0
  else if !descValid ws then 0x023D
  else if !d.descFits ws then 0x0601
  else if (d.consumerKinds r).any (· != descKind ws) then 0x03A1
  else if !(d.queuesNaming r).isEmpty && (descCores ws || descLoc ws == 2) then 0x03A1
  else 0

/-- In QUARANTINE a command may name only a host-owned kind-5 ring in host memory (R345). -/
def quarRing (ws : List Nat) : Bool := descKind ws == 5 && !descCores ws && descLoc ws == 0

end Sys2Proof.Machine
end

