-- ==== Sys2Proof/Machine/InkOps.lean ====
section
/-!
DEFINITION. Innkeeper inside the tick: firings, masks and pending bits, coalescing holds, the delivery pass, MSI-X
(R388 to R404).
-/

namespace Sys2Proof.Machine

def Dev.src (d : Dev) (s : Nat) : Src := d.ink.srcs.getD s {}

/-- The code `src_state` reports (R388). -/
def SrcState.code : SrcState → Nat
  | .idle => 0
  | .pending => 1
  | .held => 2
  | .active => 3

/-- Change a source; `src_state` and `src_count` report it. -/
def Dev.putSrc (d : Dev) (s : Nat) (x : Src) : Dev :=
  let d := { d with ink := { d.ink with srcs := d.ink.srcs.put s x } }
  (d.put .srcState s x.st.code).put .srcCount s x.count

def Dev.core (d : Dev) (t : Nat) : CoreTarget := d.ink.cores.getD t {}

/-- Change a core target; `tgt_running`, `tgt_presented` and `tgt_depth` report it. -/
def Dev.putCore (d : Dev) (t : Nat) (c : CoreTarget) : Dev :=
  let d := { d with ink := { d.ink with cores := d.ink.cores.put t c } }
  let run := match c.stack with
    | [] => 0x100
    | x :: _ => x.2
  ((d.put .tgtRunning t run).put .tgtPresented t (c.presented.getD 0xFFFF)).put .tgtDepth t c.stack.length

/-- The group field of a priority (R392). -/
def Dev.prioGroup (d : Dev) (p : Nat) : Nat := p / 2 ^ (8 - d.g .inkGroupBits)

/-- The running priority of a target, 0x100 when idle (R393). -/
def Dev.running (d : Dev) (t : Nat) : Nat := d.g .tgtRunning t

/-- A pending source of priority `p` pre-empts core `t` (R393). -/
def Dev.preempts (d : Dev) (p t : Nat) : Bool :=
  let c := d.core t
  c.stack.length < 16 &&
    match c.stack with
    | [] => true
    | x :: _ => d.prioGroup p < d.prioGroup x.2

/-! ## Firings (R389, R399) -/

/-- One firing of source `s`, registered at tick `now`. -/
def Dev.fireNow (now : Nat) (d : Dev) (s : Nat) : Dev :=
  let x := d.src s
  let g := d.g .srcCgroup s
  let grouped := g < 64
  match x.st with
  | .idle =>
    if grouped then
      match d.ink.holds.find g with
      | some h =>
        let d := { d with ink := { d.ink with holds := d.ink.holds.put g { h with firings := h.firings + 1 } } }
        d.putSrc s { x with st := .held, count := 1, soft := false, fromHold := false, first := now, last := now }
      | none =>
        let d := { d with ink := { d.ink with holds := d.ink.holds.put g ⟨now, 1⟩ } }
        let d := d.put .cgHold g 1
        d.putSrc s { x with st := .held, count := 1, soft := false, fromHold := false, first := now, last := now }
    else
      d.putSrc s { x with st := .pending, count := 1, soft := false, fromHold := false,
                          first := now, last := now, since := now }
  | .pending | .held =>
    let d := match d.ink.holds.find g with
      | some h =>
        if grouped then
          { d with ink := { d.ink with holds := d.ink.holds.put g { h with firings := h.firings + 1 } } }
        else d
      | none => d
    d.putSrc s { x with count := min 65535 (x.count + 1), first := if x.count = 0 then now else x.first, last := now }
  | .active =>
    let d := match d.ink.holds.find g with
      | some h =>
        if grouped then
          { d with ink := { d.ink with holds := d.ink.holds.put g { h with firings := h.firings + 1 } } }
        else d
      | none => d
    (d.put .inkLost 0 (d.g .inkLost + 1)) |> fun d =>
      { d with ink := { d.ink with lostBits := d.ink.lostBits.put s true } }

/-- Second step of rank 9 (R41): every firing of the tick, in ascending source number. -/
def Dev.fireAll (now : Nat) (d : Dev) (ss : List Nat) : Dev := (sortAsc ss).foldl (Dev.fireNow now) d

/-! ## Masks and pending bits (R390) -/

/-- `INK_PEND_SET` of a source (R390). [DEDUCED, log entry 168] -/
def Dev.pendSet (now : Nat) (d : Dev) (s : Nat) : Dev :=
  let x := d.src s
  match x.st with
  | .idle => d.putSrc s { x with st := .pending, count := 0, soft := true, fromHold := false,
                                 first := now, last := now, since := now }
  | .pending => d.putSrc s { x with soft := true }
  | .held => d.putSrc s { x with st := .pending, soft := true, since := now }
  | .active => d

def Dev.pendClr (d : Dev) (s : Nat) : Dev :=
  let x := d.src s
  match x.st with
  | .pending | .held => d.putSrc s {}
  | .idle | .active => d

/-! ## Coalescing (R399) -/

/-- The hold of group `g` releases: every HELD source of the group becomes PENDING. -/
def Dev.holdEnd (now : Nat) (d : Dev) (g : Nat) : Dev :=
  let d := { d with ink := { d.ink with holds := d.ink.holds.del g } }
  let d := d.put .cgHold g 0
  (d.ink.srcs.map (·.1)).foldl (fun d x =>
    if (d.src x).st = .held ∧ d.g .srcCgroup x = g then
      d.putSrc x { d.src x with st := .pending, fromHold := true, since := now }
    else d) d

/-- The hold of group `g` is due: K firings, or tick H + T, and never in the tick it opened. -/
def Dev.holdDue (now : Nat) (d : Dev) (g : Nat) : Bool :=
  match d.ink.holds.find g with
  | none => false
  | some h => h.opened < now && (d.g .cgCount g ≤ h.firings || h.opened + d.g .cgTime g ≤ now)

/-- Every hold that is due releases, at rank 8 before the pass. -/
def Dev.releaseHolds (now : Nat) (d : Dev) : Dev :=
  (d.ink.holds.map (·.1)).foldl (fun d g => if d.holdDue now g then d.holdEnd now g else d) d

/-! ## The delivery pass (R394, R395) -/

/-- Active perturbation slots of kind 4 that name a source (R526); a slot acts from the tick after it was armed (R525). -/
def Dev.delaySlots (now : Nat) (d : Dev) (s : Nat) : List Nat :=
  (List.range 8).filter fun k =>
    d.g .ptState k == 1 && d.g .ptKind k == 4 && decide (d.test.armed.getD k 0 < now) &&
      (d.g .ptTarget k == s || (0x400 ≤ d.g .ptTarget k && (d.g .srcTargets s).testBit (d.g .ptTarget k - 0x400)))

/-- Ticks by which they delay it. -/
def Dev.deliveryDelay (now : Nat) (d : Dev) (s : Nat) : Nat :=
  min 65535 ((d.delaySlots now s).map fun k => d.g .ptAmount k).sum

/-- The slots that delayed a source count the application as its delay ends (R525). [DEDUCED, log entry 160] -/
def Dev.countDelayed (now : Nat) (d : Dev) (s : Nat) : Dev :=
  if (d.src s).st = .pending ∧ (d.src s).since + d.deliveryDelay now s = now then
    ((d.delaySlots now s).filter fun k => d.g .ptAmount k != 0).foldl (fun d k => d.count .ptCount k) d
  else d

/-- A source is deliverable: PENDING, unmasked, with a target, and not delayed for test. -/
def Dev.deliverable (now : Nat) (d : Dev) (s : Nat) : Bool :=
  let x := d.src s
  x.st = .pending && !d.on .srcMask s && d.g .srcTargets s != 0
    && (d.deliveryDelay now s == 0 || x.since + d.deliveryDelay now s ≤ now)

/-- The ring of host queue `q`. -/
def Dev.queueRing (d : Dev) (q : Nat) : Ring := d.ring (d.g .hqRing q)

/-- Queue `q` can take a record (R402). -/
def Dev.queueTakes (d : Dev) (q : Nat) : Bool := d.on .hqEnable q && (d.queueRing q).canTake

/-- The 16-byte event record of R401 for index `i` of a ring of 2^n entries. -/
def recordBytes (n i s prio : Nat) (x : Src) : List Byte :=
  let flags := phaseOf n i + 2 * b2n x.soft + 4 * b2n x.fromHold
  let span := if x.count = 0 then 0 else min 65535 (x.last - x.first)
  leBytes 2 s ++ leBytes 1 prio ++ leBytes 1 flags ++ leBytes 2 x.count ++ leBytes 2 0
    ++ leBytes 8 (x.first % 2 ^ 48 + span * 2 ^ 48)

/-- The host's running priority follows its queues (R393). -/
def Dev.hostRunning (d : Dev) : Dev :=
  let live := d.ink.queuePrio.filter fun p => (d.queueRing p.1).nonempty
  let d := { d with ink := { d.ink with queuePrio := live } }
  d.put .tgtRunning 4 (leastOr 0x100 (live.map (·.2)))

/-- Write the record of source `s` to its host queue; the source returns to IDLE. -/
def Dev.deliverHost (d : Dev) (s : Nat) : Dev :=
  let q := d.g .srcQueue s
  let r := d.g .hqRing q
  let c := d.ring r
  let p := d.g .srcPrio s
  let d := d.ringProduce r (recordBytes (descN c.cached) c.p s p (d.src s))
  let d := d.putSrc s {}
  let old := if c.nonempty then d.ink.queuePrio.getD q 0x100 else 0x100
  let d := { d with ink := { d.ink with queuePrio := d.ink.queuePrio.put q (min old p) } }
  (d.hostRunning).count .inkRecords

/-- What the pass carries from source to source: the block, cores already given a source, records written. -/
structure Pass where
  dev : Dev
  given : List Nat := []
  records : Nat := 0
deriving DecidableEq, Repr

/-- Targets the pass may give source `s` to, ascending. -/
def Pass.eligible (p : Pass) (s : Nat) : List Nat :=
  let d := p.dev
  let ts := d.g .srcTargets s
  ((List.range 4).filter fun t => ts.testBit t && !p.given.contains t && d.preempts (d.g .srcPrio s) t)
    ++ (if ts.testBit 4 && d.queueTakes (d.g .srcQueue s) && p.records < 32 then [4] else [])

/-- The eligible target whose running priority is least urgent; ties go round-robin from the pointer.
[DEDUCED, log entry 29] -/
def Dev.choose (d : Dev) (ts : List Nat) : Option Nat :=
  let top := ts.foldl (fun m t => max m (d.running t)) 0
  let tied := ts.filter fun t => d.running t == top
  match tied.filter (fun t => d.ink.ptr ≤ t) with
  | t :: _ => some t
  | [] => tied.head?

/-- Offer one source (R394). The pointer moves past the target taken among tied ones. [DEDUCED, log entry 29] -/
def Pass.offer (p : Pass) (s : Nat) : Pass :=
  let ts := p.eligible s
  match p.dev.choose ts with
  | none => p
  | some t =>
    let tied := ts.filter fun u => p.dev.running u == p.dev.running t
    let d := if tied.length ≤ 1 then p.dev
      else { p.dev with ink := { p.dev.ink with ptr := (t + 1) % 5 } }
    if t = 4 then { p with dev := d.deliverHost s, records := p.records + 1 }
    else { p with dev := d.putCore t { d.core t with presented := some s }, given := t :: p.given }

/-- Sources in the order of the pass: most urgent first, then ascending number. -/
def Dev.passOrder (now : Nat) (d : Dev) : List Nat :=
  let ss := ((d.ink.srcs.map (·.1)).filter (d.deliverable now)).map fun s => d.g .srcPrio s * 1024 + s
  (sortAsc ss).map (· % 1024)

/-- Queues on which a deliverable source still waits (R402). -/
def Dev.waitingQueues (now : Nat) (d : Dev) : List Nat :=
  (List.range 16).filter fun q => !d.queueTakes q &&
    (d.ink.srcs.map (·.1)).any fun s =>
      d.deliverable now s && (d.g .srcTargets s).testBit 4 && d.g .srcQueue s == q

/-- One delivery pass: presented sources start afresh (R395). -/
def Dev.deliveryPass (now : Nat) (d : Dev) : Dev :=
  let d := (d.ink.cores.map (·.1)).foldl (fun d t => d.putCore t { d.core t with presented := none }) d
  let d := (d.ink.srcs.map (·.1)).foldl (Dev.countDelayed now) d.hostRunning
  let d := ((d.passOrder now).foldl Pass.offer { dev := d }).dev
  let ws := d.waitingQueues now
  let d := { d with ink := { d.ink with waiting := ws.map fun q => (q, true) } }
  ws.foldl (fun d q => d.count .hqFull q) d

/-- Holds that are due release and the pass runs, once in a tick (R394, R396, R399). -/
def Dev.passOnce (now : Nat) (d : Dev) : Dev :=
  if d.ink.passAt = now + 1 then d
  else
    let d := (d.releaseHolds now).deliveryPass now
    { d with ink := { d.ink with passAt := now + 1 } }

/-! ## MSI-X (R403) -/

/-- Send a vector, or hold it pending in the PBA while it is masked. -/
def Dev.sendMsix (d : Dev) (v : Nat) : Dev :=
  if d.ink.msixMasked.getD v true then { d with ink := { d.ink with msixPba := d.ink.msixPba.put v true } }
  else { d with ink := { d.ink with msixSent := v :: d.ink.msixSent } }

/-- Each armed non-empty queue is disarmed and sends its vector. -/
def Dev.msixQueue (d : Dev) (q : Nat) : Dev :=
  if d.on .hqArmed q && (d.queueRing q).nonempty then (d.put .hqArmed q 0).sendMsix (d.g .hqVector q)
  else d

def Dev.msixAll (d : Dev) : Dev := d.forEach (List.range 16) Dev.msixQueue

/-! ## Claims and completions (R396, R397, R398) -/

/-- The word a claim answers: source, VALID, SOFT and count (R407). -/
def claimWord (s : Nat) (x : Src) : Nat := s + 2 ^ 14 + 2 ^ 15 * b2n x.soft + 2 ^ 16 * x.count

/-- Core `t` claims what it is presented: the word read, and the block after. -/
def Dev.claim (d : Dev) (t : Nat) : Nat × Dev :=
  match (d.core t).presented with
  | none => (0, d)
  | some s =>
    let x := d.src s
    let d' := d.putSrc s { st := .active }
    let d' := d'.putCore t { stack := (s, d.g .srcPrio s) :: (d.core t).stack, presented := none }
    (claimWord s x, d'.count .tgtClaims t)

/-- Core `t` completes source `s`. -/
def Dev.completeSrc (d : Dev) (t s : Nat) : Dev :=
  let c := d.core t
  if c.stack.any (fun x => x.1 == s) then
    (d.putSrc s {}).putCore t { c with stack := c.stack.filter fun x => x.1 != s }
  else d.count .inkBadComplete

/-- A reset of core `t` empties its stack. -/
def Dev.emptyStack (d : Dev) (t : Nat) : Dev :=
  let d := ((d.core t).stack).foldl (fun d x => d.putSrc x.1 {}) d
  d.putCore t {}

/-- Reset of the control cores, as Innkeeper sees it. -/
def Dev.emptyStacks (d : Dev) : Dev := d.forEach (List.range 4) Dev.emptyStack

end Sys2Proof.Machine
end

