-- ==== Sys2Proof/Machine/Picture.lean ====
section
/-!
DEFINITION. Pixels: unpacking to 12 bits, colour and range conversion, blending, the output stage with its dither, and
the packing of lines into bytes (R139, R160, R168, R169, R283, R287, R288).
-/

namespace Sys2Proof.Machine

/-- The coding of a picture or a departure: R'G'B' or Y'CbCr, colorimetry (0 BT.601, 1 BT.709, 2 BT.2020), full range,
HLG transfer. -/
structure Coding where
  rgb : Bool
  colour : Nat
  full : Bool
  hlg : Bool
deriving DecidableEq, Repr

/-! ## Rounding (R160) -/

/-- The nearest integer, ties upward. -/
def roundUp (q : Rat) : Int := (q + 1 / 2).floor

/-- An integer brought into 0 to `hi`. -/
def clipTo (hi : Nat) (v : Int) : Nat := (clampInt 0 (hi : Int) v).toNat

/-- A coding from a descriptor's byte (R281). -/
def codingOf (rgb : Bool) (code : Nat) : Coding :=
  { rgb := rgb, colour := bitsAt code 0 2, full := code.testBit 2, hlg := code.testBit 3 }

/-- The coding of a picture. -/
def Pic.codingOf (p : Pic) : Coding := Sys2Proof.Machine.codingOf (p.samp == 3) p.coding

/-- The coding byte of an arrival's envelope and of a departure. -/
def Dev.arrCoding (d : Dev) (a : Nat) : Nat := d.g .arrColorimetry a + 4 * d.g .arrRange a + 8 * d.g .arrTransfer a
def Dev.depCoding (d : Dev) (n : Nat) : Coding :=
  codingOf (d.g .depSampling n == 3) (d.g .depColorimetry n + 4 * d.g .depRange n + 8 * d.g .depTransfer n)

/-! ## Planes -/

/-- A sample of a plane, the plane's edge replicated outside it. -/
def planeAt (p : List (List Nat)) (x y : Int) : Nat :=
  let line := p.getD (clampInt 0 (p.length - 1) y).toNat []
  line.getD (clampInt 0 (line.length - 1) x).toNat 0

/-- Samples per pixel axis of the chroma planes: columns and lines they are divided by (R88). -/
def chromaDiv (samp : Nat) : Nat × Nat := if samp = 0 then (2, 2) else if samp = 1 then (2, 1) else (1, 1)

/-- Components of a pixel times two: c of R88. -/
def sampC2 (samp : Nat) : Nat := if samp = 0 then 3 else if samp = 1 then 4 else 6

/-- A grey or coloured picture of one value per plane. -/
def Pic.flat (w h samp depth v0 v1 v2 : Nat) : Pic :=
  let (dx, dy) := chromaDiv samp
  { w := w, h := h, samp := samp, depth := depth,
    y := List.replicate h (List.replicate w v0),
    c1 := List.replicate (h / dy) (List.replicate (w / dx) v1),
    c2 := List.replicate (h / dy) (List.replicate (w / dx) v2) }

/-- A rectangle of a picture; its corner lies on the chroma grid. -/
def Pic.crop (p : Pic) (x y w h : Nat) : Pic :=
  let (dx, dy) := chromaDiv p.samp
  let cut (q : List (List Nat)) (x y w h : Nat) : List (List Nat) := ((q.drop y).take h).map fun l => (l.drop x).take w
  { p with
    w := w, h := h, y := cut p.y x y w h
    c1 := cut p.c1 (x / dx) (y / dy) (ceilDiv w dx) (ceilDiv h dy)
    c2 := cut p.c2 (x / dx) (y / dy) (ceilDiv w dx) (ceilDiv h dy) }

/-! ## Chroma to 4:4:4 for Porter (R287 step 2) -/

/-- An even position takes its own sample; an odd one the mean of its neighbours, rounded up, the edge replicated. -/
def upsampleAt (line : List Nat) (x : Nat) : Nat :=
  let k := x / 2
  let own := line.getD k 0
  if x % 2 = 0 then own else (own + line.getD (min (k + 1) (line.length - 1)) 0 + 1) / 2

/-- A chroma plane brought to the luma grid. -/
def chromaFull (samp w h : Nat) (p : List (List Nat)) : List (List Nat) :=
  let (dx, dy) := chromaDiv samp
  let wide := if dx = 1 then p else p.map fun l => (List.range w).map (upsampleAt l)
  if dy = 1 then wide
  else (List.range h).map fun y =>
    let k := y / 2
    let own := wide.getD k []
    if y % 2 = 0 then own
    else
      let next := wide.getD (min (k + 1) (wide.length - 1)) []
      (List.range w).map fun x => (own.getD x 0 + next.getD x 0 + 1) / 2

/-- A picture as 12-bit 4:4:4 pixels (R287 steps 1 and 2). -/
def Pic.raster (p : Pic) : Raster :=
  let up (q : List (List Nat)) : List (List Nat) := q.map fun l => l.map (· * 2 ^ (12 - p.depth))
  let y := up p.y
  let b := chromaFull p.samp p.w p.h (up p.c1)
  let c := chromaFull p.samp p.w p.h (up p.c2)
  (List.range p.h).map fun r => (List.range p.w).map fun x =>
    ⟨(y.getD r []).getD x 0, (b.getD r []).getD x 0, (c.getD r []).getD x 0⟩

/-! ## Colour and range (R168) -/

/-- Kr and Kb of a colorimetry. -/
def lumaKr (colour : Nat) : Rat := if colour = 0 then 299 / 1000 else if colour = 1 then 2126 / 10000 else 2627 / 10000
def lumaKb (colour : Nat) : Rat := if colour = 0 then 114 / 1000 else if colour = 1 then 722 / 10000 else 593 / 10000

/-- An affine map of three components: rows of three coefficients and an offset. -/
structure Affine where
  r0 : Rat × Rat × Rat × Rat
  r1 : Rat × Rat × Rat × Rat
  r2 : Rat × Rat × Rat × Rat
deriving DecidableEq, Repr

def Affine.row (f : Affine) (q : Rat × Rat × Rat × Rat) : Rat × Rat × Rat × Rat :=
  let (a, b, c, o) := q
  let (a0, b0, c0, o0) := f.r0
  let (a1, b1, c1, o1) := f.r1
  let (a2, b2, c2, o2) := f.r2
  (a * a0 + b * a1 + c * a2, a * b0 + b * b1 + c * b2, a * c0 + b * c1 + c * c2, a * o0 + b * o1 + c * o2 + o)

/-- `g` after `f`. -/
def Affine.then (f g : Affine) : Affine := ⟨f.row g.r0, f.row g.r1, f.row g.r2⟩

/-- Step 1: a component's code, as a scale and an offset onto 0 to 1 or ±0.5. -/
def rangeDecode (full chroma : Bool) : Rat × Rat :=
  match full, chroma with
  | false, false => (1 / 3504, -256 / 3504)
  | false, true => (1 / 3584, -2048 / 3584)
  | true, false => (1 / 4095, 0)
  | true, true => (1 / 4095, -2048 / 4095)

/-- The inverse of step 1. -/
def rangeEncode (full chroma : Bool) : Rat × Rat :=
  match full, chroma with
  | false, false => (3504, 256)
  | false, true => (3584, 2048)
  | true, false => (4095, 0)
  | true, true => (4095, 2048)

def Affine.diag (p q r : Rat × Rat) : Affine := ⟨(p.1, 0, 0, p.2), (0, q.1, 0, q.2), (0, 0, r.1, r.2)⟩

/-- Y'CbCr to R'G'B' (step 2). -/
def toRgb (colour : Nat) : Affine :=
  let kr := lumaKr colour
  let kb := lumaKb colour
  let kg := 1 - kr - kb
  ⟨(1, 0, 2 * (1 - kr), 0), (1, -(2 * kb * (1 - kb)) / kg, -(2 * kr * (1 - kr)) / kg, 0), (1, 2 * (1 - kb), 0, 0)⟩

/-- R'G'B' to Y'CbCr (step 4). -/
def fromRgb (colour : Nat) : Affine :=
  let kr := lumaKr colour
  let kb := lumaKb colour
  let kg := 1 - kr - kb
  let sb := 2 * (1 - kb)
  let sr := 2 * (1 - kr)
  ⟨(kr, kg, kb, 0), (-kr / sb, -kg / sb, (1 - kb) / sb, 0), ((1 - kr) / sr, -kg / sr, -kb / sr, 0)⟩

/-- Steps 1 and 2: codes to R'G'B' on 0 to 1. [DEDUCED, log entry 26] -/
def decodeMap (s : Coding) : Affine :=
  let l := rangeDecode s.full false
  let c := rangeDecode s.full true
  if s.rgb then Affine.diag l l l else (Affine.diag l c c).then (toRgb s.colour)

/-- Step 4: R'G'B' on 0 to 1 to codes. [DEDUCED, log entry 26] -/
def encodeMap (t : Coding) : Affine :=
  let l := rangeEncode t.full false
  let c := rangeEncode t.full true
  if t.rgb then Affine.diag l l l else (fromRgb t.colour).then (Affine.diag l c c)

/-- Apply a map with coefficients and offset at 12 fraction bits, and clip. -/
def Affine.apply (f : Affine) (p : Px) : Px :=
  let one (r : Rat × Rat × Rat × Rat) : Nat :=
    let (a, b, c, o) := r
    clipTo 4095 ((roundUp (4096 * a) * p.a + roundUp (4096 * b) * p.b + roundUp (4096 * c) * p.c
      + roundUp (4096 * o) + 2048) / 4096)
  ⟨one f.r0, one f.r1, one f.r2⟩

/-- The primaries of a colorimetry: BT.601 is treated as having those of BT.709. [PRESUMED, log entry 25] -/
def primaries (colour : Nat) : Bool := colour == 2

/-- Step 3's matrix at 16 fraction bits: BT.709 to BT.2020 (ITU-R BT.2087), or its exact inverse.
[PRESUMED, log entry 25] -/
def primariesRow (to2020 : Bool) (k : Nat) : Int × Int × Int :=
  match to2020, k with
  | true, 0 => (41117, 21581, 2838)
  | true, 1 => (4529, 60260, 747)
  | true, _ => (1075, 5767, 58694)
  | false, 0 => (108823, -38516, -4771)
  | false, 1 => (-8163, 74250, -550)
  | false, _ => (-1191, -6590, 73317)

/-- The largest `n` below 2^`w` that the test admits; the test holds of every smaller one. -/
def largest (w : Nat) (ok : Nat → Bool) : Nat :=
  (List.range w).foldl (fun n k => let m := n + 2 ^ (w - 1 - k); if ok m then m else n) 0

/-- `scale` × `x` ^ (`p` / `q`), rounded to nearest, ties upward, within `w` bits. -/
def powRound (w scale : Nat) (x : Rat) (p q : Nat) : Nat :=
  largest w fun n => decide (((2 * n - 1 : Nat) : Rat) ^ q ≤ ((2 * scale : Nat) : Rat) ^ q * x ^ p)

/-- The code of 1 in the 20-bit linear values. -/
def linearOne : Nat := Config.linearOne % 2 ^ 20

/-- The decode table: the BT.1886 EOTF, gamma 2.4, black 0, white 1. -/
def linearDecode (code : Nat) : Nat := powRound 20 linearOne (code / 4095) 12 5

/-- The encode table, indexed by the top 14 bits of a clipped linear value: exponent 1 / 2.4. -/
def linearEncode (top : Nat) : Nat :=
  powRound 12 4095 (min 1 (((64 * top + Config.linearBin % 64 : Nat) : Rat) / (max 1 linearOne : Nat))) 5 12

/-- Step 3: primaries in linear light. -/
def convertPrimaries (to2020 : Bool) (p : Px) : Px :=
  let l0 := linearDecode p.a
  let l1 := linearDecode p.b
  let l2 := linearDecode p.c
  let one (k : Nat) : Nat :=
    let (a, b, c) := primariesRow to2020 k
    let v := clipTo linearOne ((a * l0 + b * l1 + c * l2 + 2 ^ 15) / 2 ^ 16)
    linearEncode (v / 2 ^ 6)
  ⟨one 0, one 1, one 2⟩

/-- Full-range R'G'B' of 12 bits, between the two matrices when the primaries differ. -/
def rgbFull : Coding := { rgb := true, colour := 1, full := true, hlg := false }

/-- HLG is converted in range only (R58, R168). -/
def rangeOnly (s t : Coding) : Affine :=
  let m (chroma : Bool) : Rat × Rat :=
    let d := rangeDecode s.full chroma
    let e := rangeEncode t.full chroma
    (d.1 * e.1, d.2 * e.1 + e.2)
  Affine.diag (m false) (m (!s.rgb)) (m (!s.rgb))

/-- Stage 7: a pixel of coding `s` in coding `t`. -/
def convertPx (s t : Coding) (p : Px) : Px :=
  if s.rgb = t.rgb ∧ s.colour = t.colour ∧ s.full = t.full then p
  else if s.hlg then (rangeOnly s t).apply p
  else if primaries s.colour = primaries t.colour then ((decodeMap s).then (encodeMap t)).apply p
  else
    let q := ((decodeMap s).then (encodeMap rgbFull)).apply p
    let q := convertPrimaries (primaries t.colour) q
    ((decodeMap rgbFull).then (encodeMap t)).apply q

/-! ## Luma (R80, R107, R139) -/

/-- The luma of R', G' and B' by a colorimetry's coefficients, rounded. -/
def lumaRgb (colour hi r g b : Nat) : Nat :=
  let kr := lumaKr colour
  let kb := lumaKb colour
  clipTo hi (roundUp (kr * r + (1 - kr - kb) * g + kb * b))

/-- The luma of a pixel of a picture, at its depth. -/
def Pic.lumaAt (p : Pic) (x y : Nat) : Nat :=
  if p.samp = 3 then
    lumaRgb p.codingOf.colour (2 ^ p.depth - 1) (planeAt p.y x y) (planeAt p.c1 x y) (planeAt p.c2 x y)
  else planeAt p.y x y

/-! ## Blending (R139, R288) -/

def blendOne (a s d : Nat) : Nat := (s * a + d * (256 - a) + 128) / 256

def blendPx (a : Nat) (s d : Px) : Px := ⟨blendOne a s.a d.a, blendOne a s.b d.b, blendOne a s.c d.c⟩

/-! ## Output stage (R169) -/

/-- The ordered matrix of the dither. -/
def ditherB (x y : Nat) : Nat :=
  match y % 4, x % 4 with
  | 0, 0 => 0 | 0, 1 => 8 | 0, 2 => 2 | 0, _ => 10
  | 1, 0 => 12 | 1, 1 => 4 | 1, 2 => 14 | 1, _ => 6
  | 2, 0 => 3 | 2, 1 => 11 | 2, 2 => 1 | 2, _ => 9
  | _, 0 => 15 | _, 1 => 7 | _, 2 => 13 | _, _ => 5

/-- Step 3: a 12-bit component at a raster position brought to `n` bits; `dither` false rounds to nearest. -/
def reduceAt (n : Nat) (dither : Bool) (x y v : Nat) : Nat :=
  let s := 12 - n
  let t := if dither then ditherB x y * 2 ^ s / 16 else 2 ^ s / 2
  min ((v + t) / 2 ^ s) (2 ^ n - 1)

/-- Step 1 on a line of one chroma component. -/
def subsampleH (l : List Nat) : List Nat :=
  (List.range (ceilDiv l.length 2)).map fun k =>
    (l.getD (2 * k - 1) 0 + 2 * l.getD (2 * k) 0 + l.getD (min (2 * k + 1) (l.length - 1)) 0 + 2) / 4

/-- Step 2 on a plane. -/
def subsampleV (p : List (List Nat)) : List (List Nat) :=
  (List.range (ceilDiv p.length 2)).map fun r =>
    let u := p.getD (2 * r) []
    let v := p.getD (min (2 * r + 1) (p.length - 1)) []
    (List.range u.length).map fun x => (u.getD x 0 + v.getD x 0 + 1) / 2

/-- The output stage: a 4:4:4 raster whose first pixel stands at (x0, y0) of its target, in the target's sampling and
depth. A chroma sample takes the dither of the position it is sited at. -/
def outputStage (samp depth : Nat) (dither : Bool) (x0 y0 : Nat) (r : Raster) : Pic :=
  let (dx, dy) := chromaDiv samp
  let y := r.map fun l => l.map Px.a
  let sub (p : List (List Nat)) : List (List Nat) :=
    let p := if dx = 1 then p else p.map subsampleH
    if dy = 1 then p else subsampleV p
  let red (fx fy : Nat) (p : List (List Nat)) : List (List Nat) :=
    (List.range p.length).map fun j =>
      let l := p.getD j []
      (List.range l.length).map fun k => reduceAt depth dither (x0 + fx * k) (y0 + fy * j) (l.getD k 0)
  { w := (r.getD 0 []).length, h := r.length, samp := samp, depth := depth,
    y := red 1 1 y
    c1 := red dx dy (sub (r.map fun l => l.map Px.b))
    c2 := red dx dy (sub (r.map fun l => l.map Px.c)) }

/-! ## Packing of a line into bits (R283) -/

/-- Where a component of a line stands: its bit offset for sample `x` of plane `k` (0 luma, 1 and 2 chroma) in a
surface of width `w`; for 4:2:0 the chroma of the line's own plane follows the luma. -/
def bitOffset (samp depth w k x : Nat) : Nat :=
  if samp = 0 then (if k = 0 then x * depth else (w + x) * depth)
  else if samp = 1 then
    (if k = 0 then (4 * (x / 2) + (if x % 2 = 0 then 1 else 3)) * depth
     else (4 * x + (if k = 1 then 0 else 2)) * depth)
  else if samp = 2 then (3 * x + (if k = 0 then 1 else if k = 1 then 0 else 2)) * depth
  else (3 * x + k) * depth

/-- Bits of a line of `w` pixels: width × depth × c. -/
def lineBits (samp depth w : Nat) : Nat := ceilDiv (w * depth * sampC2 samp) 2

/-- The planes a line carries: for 4:2:0 an even line carries Cb and an odd one Cr. -/
def linePlanes (samp y : Nat) : List Nat := if samp = 0 then [0, 1 + y % 2] else [0, 1, 2]

/-- A plane's line for picture line `y`. -/
def Pic.planeLine (p : Pic) (k y : Nat) : List Nat :=
  if k = 0 then p.y.getD y []
  else
    let q := if p.samp = 0 then y / 2 else y
    if k = 1 then p.c1.getD q [] else p.c2.getD q []

/-- Write samples of one plane into a line's bit stream, from sample `x`. -/
def packRun (samp depth w k x : Nat) (vs : List Nat) (line : Nat) : Nat :=
  (List.range vs.length).foldl (fun n j => setBits n (bitOffset samp depth w k (x + j)) depth (vs.getD j 0)) line

/-- Read `n` samples of one plane from a line's bit stream, from sample `x`. -/
def unpackRun (samp depth w k x n line : Nat) : List Nat :=
  (List.range n).map fun j => bitsAt line (bitOffset samp depth w k (x + j)) depth

/-- A whole line of a picture as bits. -/
def Pic.packLine (p : Pic) (y : Nat) : Nat :=
  (linePlanes p.samp y).foldl (fun n k => packRun p.samp p.depth p.w k 0 (p.planeLine k y) n) 0

/-- Pitch of a room's line in bytes: ceil(w × d × c / 512) × 64 (R88). -/
def roomPitch (samp depth w : Nat) : Nat := ceilDiv (lineBits samp depth w) 512 * 64

end Sys2Proof.Machine
end

