-- ==== Sys2Proof/Machine/Rooms.lean ====
section
/-!
DEFINITION. Rooms, slice rings and the selection of frames (R87 to R95, R105), timing of groups and departures as
every chapter reads it (R36, R37, R96, R209).
-/

namespace Sys2Proof.Machine

/-! ## Time (R36, R37, R44) -/

/-- The frame period of a rate num / den, in ns. -/
def ratePeriod (num den : Nat) : Rat := (1000000000 * den : Nat) / (num : Rat)

/-- The envelope period of an arrival. -/
def Dev.envPeriod (d : Dev) (a : Nat) : Rat := ratePeriod (d.g .arrRateNum a) (d.g .arrRateDen a)

/-- The frame period of a group by the objects in force. -/
def Dev.tgPeriod (d : Dev) (g : Nat) : Rat := ratePeriod (d.g .tgRateNum g) (d.g .tgRateDen g)

/-- The line period of a group by the objects in force. -/
def Dev.tgLine (d : Dev) (g : Nat) : Rat := d.tgPeriod g / d.g .tgTotalLines g

/-- The instant the tick begins, ns on the undisciplined clock since power-good. -/
def Env.free (e : Env) : Rat := ((e.now * 250 : Nat) : Rat)

/-- The clock a group follows: the time base when locked, the undisciplined clock when free-running. -/
def Dev.groupNow (e : Env) (d : Dev) (g : Nat) : Rat := if d.g .tgMode g = 1 then (e.tb : Rat) else e.free

/-- An instant of a group's clock on the undisciplined clock. -/
def Dev.toFree (e : Env) (d : Dev) (g : Nat) (t : Rat) : Rat := e.free - (d.groupNow e g - t)

/-- An instant of a group's clock on the time base. [DEDUCED, log entry 30] -/
def Dev.toTb (e : Env) (d : Dev) (g : Nat) (t : Rat) : Rat := (e.tb : Rat) - (d.groupNow e g - t)

/-- The instant of the commit point of the frame in progress, on the group's clock (R37). -/
def Dev.commitInstant (d : Dev) (g : Nat) : Rat :=
  let c := d.group g
  c.start + c.period * d.g .tgActiveLines g / d.g .tgTotalLines g

/-- P of the frame in progress of a group, which a slew changes (R36, R210); by the objects in force before its first. -/
def Dev.period (d : Dev) (g : Nat) : Rat := if (d.group g).started then (d.group g).period else d.tgPeriod g

/-- The line period of a departure: P / L_d with L_d = H_d × L / A (R209). -/
def Dev.depLine (d : Dev) (n : Nat) : Rat :=
  let g := d.g .depGroup n
  d.period g * d.g .tgActiveLines g / ((d.g .depHeight n * d.g .tgTotalLines g : Nat) : Rat)

/-- O(y) of a departure's frame in progress, the tick it falls in (R96, R209). [DEDUCED, log entry 30] -/
def Dev.lineTick (d : Dev) (n y : Nat) : Int := ((d.dep n).origin + d.depLine n * y).floor / 250

/-- The departures of a group, bound or not, ascending. -/
def Dev.groupDeps (d : Dev) (g : Nat) : List Nat := (List.range 128).filter fun n => d.g .depGroup n == g

/-- Layer numbers of a departure's stack. -/
def Dev.stack (d : Dev) (n : Nat) : List Nat := (List.range (min 8 (d.g .depLayers n))).map (8 * n + ·)

/-! ## Sizes (R88) -/

def Dev.roomBytes (d : Dev) (a : Nat) : Nat :=
  ceilDiv (d.g .arrHeight a * roomPitch (d.g .arrSampling a) (d.g .arrDepth a) (d.g .arrWidth a)) 4096 * 4096

def Dev.slotBytes (d : Dev) (a : Nat) : Nat :=
  ceilDiv (16 * roomPitch (d.g .arrSampling a) (d.g .arrDepth a) (d.g .arrWidth a)) 1024 * 1024

/-! ## Holds (R91, R126, R294) -/

/-- Rooms a layer context holds. -/
def LayCtx.holds (c : LayCtx) : List Sel :=
  c.a.toList ++ c.b.toList ++ (if c.st = 3 then c.good.toList else [])

/-- Every selection that holds a room. -/
def Dev.holdings (d : Dev) : List Sel :=
  (d.lays.map fun p => p.2.holds).flatten
    ++ (d.takes.map fun p => (p.2.shadow.map fun q => q.2.holds).flatten).flatten
    ++ (d.deps.map fun p => p.2.linger).flatten
    ++ (d.ptrs.map fun p => match p.2.job with | some j => j.hold.toList | none => []).flatten

def Dev.roomHeld (d : Dev) (a gen r : Nat) : Bool :=
  d.holdings.any fun s => s.arr == a && s.gen == gen && s.room == r

/-! ## Claiming a room (R90, R92) -/

/-- How long ago a frame was stored, in frames of `arr_seq` modulo 2^32. -/
def seqAge (newest seq : Nat) : Nat := (newest + 2 ^ 32 - seq) % 2 ^ 32

/-- The room the arrival would claim. -/
def Dev.claimable (d : Dev) (a : Nat) : Option Nat :=
  let c := d.arr a
  let idx := List.range c.rooms.length
  match idx.find? fun r => (c.rooms.getD r {}).st = .free with
  | some r => some r
  | none =>
    let cand := idx.filter fun r =>
      (c.rooms.getD r {}).st = .stored && !d.roomHeld a c.gen r && c.newest != some r
    let age (r : Nat) : Nat := seqAge (d.g .arrSeq a) (c.rooms.getD r {}).seq
    let oldest := cand.foldl (fun m r => max m (age r)) 0
    cand.find? fun r => age r == oldest

def ArrCtx.setRoom (c : ArrCtx) (r : Nat) (x : Room) : ArrCtx := { c with rooms := c.rooms.set r x }

/-- Claim a room at a frame start: the frame's destination. A frame without one is skipped (R92). -/
def Dev.claim' (d : Dev) (a : Nat) : Dest × Dev :=
  match d.claimable a with
  | some r => (.room r, d.updArr a fun c => c.setRoom r { st := .writing, bytes := d.roomBytes a })
  | none => (.skip, (d.count .arrRoomSkips a).flag .arrEventFlags a 7 |>.put .arrSliceCause a 9)

/-- A frame in progress gives its room back. -/
def Dev.freeRoom (d : Dev) (a : Nat) (x : Dest) : Dev :=
  match x with
  | .room r => d.updArr a fun c => c.setRoom r { bytes := d.roomBytes a }
  | _ => d

/-- The log of the frame that started at a tick. -/
def ArrCtx.updLog (c : ArrCtx) (start : Nat) (f : SliceLog → SliceLog) : ArrCtx :=
  { c with logs := c.logs.map fun l => if l.start = start then f l else l }

/-- A frame takes its destination. -/
def ArrCtx.binds (c : ArrCtx) (x : Asm) (dest : Dest) : ArrCtx :=
  let c := c.updLog x.start fun l => { l with dest := dest }
  match dest with
  | .room r => c.setRoom r { c.rooms.getD r {} with published := x.pubNext }
  | _ => c

/-- The frames of an arrival that began in this tick claim their rooms, unless evidence of the tick has rejected them
(R90). -/
def Dev.claimDue (d : Dev) (a : Nat) : Dev :=
  let d := match (d.arr a).asm with
    | none => d
    | some x =>
      if x.dest = Dest.pending then
        let (dest, d) := d.claim' a
        d.updArr a fun c => { c.binds x dest with asm := some { x with dest := dest } }
      else d
  match (d.arr a).recv with
  | none => d
  | some x =>
    if x.dest = Dest.pending then
      let (dest, d) := d.claim' a
      d.updArr a fun c => { c.binds x dest with recv := some { x with dest := dest } }
    else d

/-- Every frame that began in this tick claims its room. -/
def Dev.claimAll (d : Dev) : Dev := d.forEach (d.arrs.map fun (p : Nat × ArrCtx) => p.1) Dev.claimDue

/-! ## Selection (R105) -/

/-- The stored frames of an arrival: room and frame. -/
def ArrCtx.stored' (c : ArrCtx) : List (Nat × Room) :=
  ((List.range c.rooms.length).map fun r => (r, c.rooms.getD r {})).filter fun p => p.2.st = .stored

def ArrCtx.sel (c : ArrCtx) (a : Nat) (p : Nat × Room) : Sel :=
  { arr := a, gen := c.gen, room := p.1, seq := p.2.seq, time := p.2.time }

/-- A: the newest stored frame whose frame time is at or before τ. -/
def Dev.selectA (d : Dev) (a : Nat) (tau : Rat) : Option Sel :=
  let c := d.arr a
  let cand := c.stored'.filter fun p => (p.2.time : Rat) ≤ tau
  let top := cand.foldl (fun m p => max m p.2.time) 0
  (cand.find? fun p => p.2.time == top).map (c.sel a)

/-- B: the oldest stored frame whose frame time is after τ. -/
def Dev.selectB (d : Dev) (a : Nat) (tau : Rat) : Option Sel :=
  let c := d.arr a
  let cand := c.stored'.filter fun p => tau < (p.2.time : Rat)
  match cand with
  | [] => none
  | p :: t =>
    let low := t.foldl (fun m q => min m q.2.time) p.2.time
    (cand.find? fun q => q.2.time == low).map (c.sel a)

/-- The room a selection names, in the present set or a superseded one (R93). -/
def Dev.roomOf (d : Dev) (s : Sel) : Option Room :=
  let c := d.arr s.arr
  let r := if c.gen = s.gen then c.rooms[s.room]? else (c.old.find? fun p => p.1 = s.gen ∧ p.2.1 = s.room).map (·.2.2)
  match r with
  | some x => if x.st = .stored ∧ x.seq = s.seq then some x else none
  | none => none

/-- The picture a selection shows. -/
def Dev.picOf (d : Dev) (s : Sel) : Pic :=
  match d.roomOf s with
  | some x => x.pic
  | none => {}

/-! ## Allocation (R93) -/

/-- A commit gives the arrival a new room set and ring, and keeps what is held of the old set. -/
def Dev.allocate (d : Dev) (a : Nat) : Dev :=
  let c := d.arr a
  let kept := (c.stored'.filter fun p => d.roomHeld a c.gen p.1).map fun p => (c.gen, p.1, p.2)
  let n := if d.g .arrKind a = 0 then 0 else d.g .arrRooms a
  d.putArr a { c with gen := c.gen + 1, rooms := List.replicate n { bytes := d.roomBytes a }, old := c.old ++ kept, slots := [], asm := none, recv := none,
                      logs := [], newest := none, top := none, bottom := none }

/-- Rooms of superseded sets that nobody holds any more are released. -/
def Dev.releaseOld (d : Dev) (a : Nat) : Dev :=
  d.updArr a fun c => { c with old := c.old.filter fun p => d.roomHeld a p.1 p.2.1 }

/-- Bytes of the room pool held, `room_used` (R89): room sets, field stores and superseded rooms still held. -/
def Dev.fieldStore (d : Dev) (a : Nat) : Nat :=
  if d.g .arrScan a = 0 then 0
  else ceilDiv (d.g .arrWidth a * d.g .arrHeight a * d.g .arrDepth a * sampC2 (d.g .arrSampling a)) 16

/-- The bytes of the 64 KiB pieces a room or store takes (R376). -/
def pieces (n : Nat) : Nat := ceilDiv n 65536 * 65536

def Dev.roomSum (d : Dev) : Nat :=
  ((List.range 256).map fun a =>
      (if d.g .arrKind a = 0 then 0 else d.g .arrRooms a * pieces (d.roomBytes a) + pieces (d.fieldStore a))
        + ((d.arr a).old.map fun p => pieces p.2.2.bytes).sum).sum

/-- Bytes of every slice ring. -/
def Dev.ringSum (d : Dev) : Nat :=
  ((List.range 256).map fun a =>
      if d.g .arrKind a ≠ 0 ∧ d.g .arrStorage a = 1 then d.g .arrSlices a * d.slotBytes a else 0).sum

end Sys2Proof.Machine
end

