-- ==== Sys2Proof/Machine/DramOps.lean ====
section
/-!
DEFINITION. The DRAM channels: stripes, the room pool and its pieces, evacuation, retraining and readmission, scrubbing
(R373 to R381).
-/

namespace Sys2Proof.Machine

/-! ## Stripes (R376, R377) -/

/-- Stripes of 2 MiB in the data space, and those of the fixed regions, which come first. -/
def Dev.stripes (d : Dev) : Nat := d.dramData / 2
def Dev.fixedStripes (d : Dev) : Nat := if d.dramEmpty then 0 else d.dramFixed / 2

/-- Slots of one channel. -/
def Dev.slots (d : Dev) : Nat := d.stripes / 8

/-- The interleave table: where a stripe lies, none when UNMAPPED. -/
def Dev.stripeAt (d : Dev) (s : Nat) : Option (Nat × Nat) := d.dram.table.getD s (some (s % 8, s / 8))

def Dev.setStripe (d : Dev) (s : Nat) (v : Option (Nat × Nat)) : Dev :=
  { d with dram := { d.dram with table := d.dram.table.put s v } }

def Dev.onChannel (d : Dev) (c s : Nat) : Bool :=
  match d.stripeAt s with
  | some (k, _) => k == c
  | none => false

/-- Pieces taken, by stripe. -/
def takenMasks (l : List Alloc) : Tab Nat :=
  l.foldl (fun (t : Tab Nat) x => x.masks.foldl (fun (t : Tab Nat) (p : Nat × Nat) => t.upd p.1 0 (p.2 ||| ·)) t) []

/-- A stripe is used: it lies in a fixed region, or a piece in it is allocated. -/
def Dev.stripeUsed (d : Dev) (taken : Tab Nat) (s : Nat) : Bool := decide (s < d.fixedStripes) || (taken.find s).isSome

/-- Used stripes mapped to a channel, ascending. -/
def Dev.usedOn (d : Dev) (taken : Tab Nat) (c : Nat) : List Nat :=
  (List.range d.stripes).filter fun s => d.onChannel c s && d.stripeUsed taken s

/-- Free mapped stripes of a channel, ascending. -/
def Dev.freeOn (d : Dev) (taken : Tab Nat) (c : Nat) : List Nat :=
  (List.range d.stripes).filter fun s => d.onChannel c s && !d.stripeUsed taken s

/-- `room_pool`: the capacity of the channels in service, less the fixed regions. -/
def Dev.roomPoolBytes (d : Dev) : Nat :=
  if d.dramEmpty then 0
  else (((List.range 8).filter fun c => d.g .dchState c == 0).length * d.slots - d.fixedStripes) * 2 ^ 21

/-! ## The allocator (R376, R377) -/

/-- The lowest `n` set bits of a mask. -/
def lowBits (n mask : Nat) : Nat := (((setBitsOf 32 mask).take n).map (2 ^ ·)).sum

/-- Take `n` pieces from stripes in the order given. [DEDUCED, log entry 59] -/
def takePieces (taken : Tab Nat) : List Nat → Nat → Tab Nat
  | [], _ => []
  | s :: t, n =>
    if n = 0 then []
    else
      let m := lowBits n (clearMask (2 ^ 32 - 1) (taken.getD s 0))
      if m = 0 then takePieces taken t n else (takePieces taken t (n - (setBitsOf 32 m).length)).put s m

/-- Rooms and field stores as they stand, with their sizes in pieces. -/
def Dev.roomOwners (d : Dev) : List (Nat × Nat × Nat × Nat) :=
  ((List.range 256).map fun a =>
    let c := d.arr a
    let now := if d.g .arrKind a = 0 then [] else
      ((List.range c.rooms.length).map fun r => (a, c.gen, r, ceilDiv (c.rooms.getD r {}).bytes 65536))
        ++ (if d.g .arrScan a = 0 then [] else [(a, c.gen, 256, ceilDiv (d.fieldStore a) 65536)])
    now ++ c.old.map fun (p : Nat × Nat × Room) => (a, p.1, p.2.1, ceilDiv p.2.2.bytes 65536)).flatten

def Alloc.is (x : Alloc) (a g r : Nat) : Bool := x.arr == a && x.gen == g && x.room == r

/-- Pieces follow the rooms: what is gone is freed, what is new takes pieces in used stripes first, in ascending address. -/
def Dev.followRooms (d : Dev) : Dev :=
  let os := d.roomOwners
  let kept := d.dram.allocs.filter fun x => os.any fun o => x.is o.1 o.2.1 o.2.2.1
  let new := os.filter fun o => !kept.any fun x => x.is o.1 o.2.1 o.2.2.1
  let pool := ((List.range d.stripes).drop d.fixedStripes).filter fun s => (d.stripeAt s).isSome
  let allocs := new.foldl (fun (l : List Alloc) o =>
    let taken := takenMasks l
    let used := pool.filter fun s => (taken.find s).isSome
    let free := pool.filter fun s => (taken.find s).isNone
    l ++ [{ arr := o.1, gen := o.2.1, room := o.2.2.1, masks := takePieces taken (used ++ free) o.2.2.2 }]) kept
  { d with dram := { d.dram with allocs := allocs } }

/-- `dch_stripes_used`, `dch_mig_left` and `room_pool` follow. -/
def Dev.reportDram (d : Dev) : Dev :=
  let taken := takenMasks d.dram.allocs
  let d := d.forEach (List.range 8) fun d c =>
    (d.put .dchStripesUsed c (d.usedOn taken c).length).put .dchMigLeft c (d.dram.left.getD c []).length
  d.put .roomPool 0 d.roomPoolBytes

/-- `pan_slice_used_kib`, `room_used` and the DRAM figures follow the configuration in force. -/
def Dev.reportRooms (d : Dev) : Dev :=
  (((d.put .panSliceUsedKib 0 (d.ringSum / 1024)).put .roomUsed 0 d.roomSum).followRooms).reportDram

/-! ## States of a channel (R378) -/

def dchInService : Nat := 0
def dchEvacuating : Nat := 1
def dchEvacuated : Nat := 2
def dchTraining : Nat := 3
def dchFailed : Nat := 4

/-- A change of `dch_state` sets bit 0. -/
def Dev.setDch (d : Dev) (c v : Nat) : Dev :=
  if d.g .dchState c = v then d else (d.put .dchState c v).flag .dchEventFlags c 0

/-- Channels other than `c` in service. -/
def Dev.otherChannels (d : Dev) (c : Nat) : List Nat :=
  (List.range 8).filter fun k => k != c && d.g .dchState k == dchInService

/-! ## Evacuation (R379) -/

/-- Where the next stripe goes: the lowest free stripe of the channel in service with the fewest used stripes among those
that have one. [DEDUCED, log entry 59] -/
def Dev.moveTarget (d : Dev) (c : Nat) : Option (Nat × Nat × Nat) :=
  let taken := takenMasks d.dram.allocs
  let ks := (d.otherChannels c).filter fun k => !(d.freeOn taken k).isEmpty
  let n (k : Nat) : Nat := (d.usedOn taken k).length
  match ks.find? fun k => ks.all fun j => n k ≤ n j with
  | none => none
  | some k => match d.freeOn taken k with
    | [] => none
    | s :: _ => (d.stripeAt s).map fun (p : Nat × Nat) => (s, p.1, p.2)

/-- Ticks the controller copies a stripe of 2 MiB in, at `dram_mig_rate`. -/
def Dev.copyTicks (d : Dev) : Rat := (8388608 : Rat) / ((d.g .dramMigRate : Nat) : Rat)

/-- The move of the next used stripe begins at an instant: the free stripe is UNMAPPED and gives its slot. -/
def Dev.startMove (t : Rat) (d : Dev) (c : Nat) : Dev :=
  match d.dram.left.getD c [], d.moveTarget c with
  | s :: _, some (free, k, slot) =>
    let d := d.setStripe free none
    { d with dram := { d.dram with moving := d.dram.moving.put c { stripe := s, chan := k, slot := slot, due := t + d.copyTicks } } }
  | _, _ => d

/-- With no stripe left the channel is EVACUATED. -/
def Dev.evacuationEnds (d : Dev) (c : Nat) : Dev :=
  if (d.dram.left.getD c []).isEmpty then
    let d := { d with dram := { d.dram with moving := d.dram.moving.del c, trained := d.dram.trained.del c } }
    (d.setDch c dchEvacuated).flag .dchEventFlags c 4
  else d

/-- Why `dch_cmd` 1 is refused. -/
def Dev.evacuateCode (d : Dev) (c : Nat) : Nat :=
  let taken := takenMasks d.dram.allocs
  let free := ((d.otherChannels c).map fun k => (d.freeOn taken k).length).sum
  if d.g .dchState c ≠ dchInService then 0x03B0
  else if free < (d.usedOn taken c).length then 0x0412
  else if (d.put .dchState c dchEvacuating).roomPoolBytes < d.g .roomUsed then 0x0412
  else 0

/-- `dch_cmd` 1. -/
def Dev.dchEvacuate (now : Nat) (d : Dev) (c : Nat) : Dev :=
  let code := d.evacuateCode c
  if code ≠ 0 then d.answerCode code
  else
    let taken := takenMasks d.dram.allocs
    let used := d.usedOn taken c
    let d := (d.freeOn taken c).foldl (fun d s => d.setStripe s none) d
    let d := (d.setDch c dchEvacuating)
    let d := { d with dram := { d.dram with left := d.dram.left.put c used } }
    (((d.startMove now c).evacuationEnds c).reportDram).answerCode 0

/-- The last copy and double write of the stripe under way are acknowledged: its entry switches to the target, and the copy of
the next one begins. [DEDUCED, log entry 150] -/
def Dev.stripeMoved (now : Nat) (d : Dev) (c : Nat) : Dev :=
  if d.g .dchState c ≠ dchEvacuating then d
  else match d.dram.moving.find c with
    | none => d.startMove now c
    | some m =>
      if (now : Rat) < m.due then d
      else
      let d := d.setStripe m.stripe (some (m.chan, m.slot))
      let d := { d with dram := { d.dram with moving := d.dram.moving.del c
                                              left := d.dram.left.upd c [] fun (l : List Nat) => l.drop 1 } }
      ((d.startMove (max m.due ((now : Rat) - 1)) c).evacuationEnds c).reportDram

/-! ## Training and readmission (R378, R380) -/

/-- `dch_cmd` 2. -/
def Dev.dchRetrain (d : Dev) (c : Nat) : Dev :=
  if d.g .dchState c = dchEvacuated ∨ d.g .dchState c = dchFailed then (d.setDch c dchTraining).answerCode 0
  else d.answerCode 0x03B0

/-- Step 5 of start-up runs. -/
def Dev.startTraining (d : Dev) : Bool := (d.pwr.began.find 5).isSome && (d.pwr.ended.find 5).isNone

/-- Training of a channel ends; in start-up the channel goes into service with every slot mapped (R373, R500). -/
def Dev.dchTrainingDone (d : Dev) (c : Nat) (ok : Bool) : Dev :=
  if d.g .dchState c ≠ dchTraining then d
  else if ok ∧ d.startTraining then d.setDch c dchInService
  else if ok then
    ({ d with dram := { d.dram with trained := d.dram.trained.put c true } }).setDch c dchEvacuated
  else (d.setDch c dchFailed).flag .dchEventFlags c 3

/-- Map slots onto UNMAPPED stripes, one each, in ascending stripe number. -/
def Dev.mapSlots (c : Nat) : Dev → List Nat → List Nat → Dev
  | d, s :: ss, k :: ks => (d.setStripe s (some (c, k))).mapSlots c ss ks
  | d, _, _ => d

/-- `dch_cmd` 3. -/
def Dev.dchReadmit (d : Dev) (c : Nat) : Dev :=
  if d.g .dchState c ≠ dchEvacuated ∨ !d.dram.trained.getD c false then d.answerCode 0x03B0
  else
    let free := (List.range d.stripes).filter fun s => (d.stripeAt s).isNone
    ((((d.mapSlots c free (List.range d.slots)).setDch c dchInService)).reportDram).answerCode 0

/-- `dch_cmd` by its value; 0 is no command. -/
def Dev.dchCommand (now : Nat) (d : Dev) (c v : Nat) : Dev :=
  match v with
  | 0 => d.answerCode 0
  | 1 => d.dchEvacuate now c
  | 2 => d.dchRetrain c
  | 3 => d.dchReadmit c
  | _ => d.answerCode 0x0201

/-- `dch_loop` (R381). [DEDUCED, log entry 167] -/
def Dev.dchLoopTo (d : Dev) (c v : Nat) : Dev :=
  if 3 < v then d.answerCode 0x0201
  else if d.g .dchState c = dchEvacuated ∨ d.g .dchState c = dchFailed then (d.put .dchLoop c v).answerCode 0
  else d.answerCode 0x03B0

/-! ## Refresh and scrubbing (R373, R375) -/

/-- Every 16 ms the controller takes a channel's MR4 report: refresh follows the rate it names. -/
def Dev.mr4Poll (now : Nat) (d : Dev) (c rate : Nat) : Dev :=
  match d.dram.mr4.find c with
  | some (_, t) => if now < t + 64000 then d else { d with dram := { d.dram with mr4 := d.dram.mr4.put c (rate, now) } }
  | none => { d with dram := { d.dram with mr4 := d.dram.mr4.put c (rate, now) } }

/-- Corrected and poisoned reads of a scrub pass: DRAM channel 0 to 7, or 8 for the Pantry. The address of a poisoned
Pantry word is left open. [DESIGN CHOICE, log entry 58] -/
def Dev.memoryScrub (d : Dev) (ch corrected uncorrected : Nat) : Dev :=
  if ch < 8 then
    let d := if corrected = 0 then d else (d.count .dchCorr ch corrected).flag .dchEventFlags ch 1
    if uncorrected = 0 then d else (d.count .dchUncorr ch uncorrected).flag .dchEventFlags ch 2
  else
    let d := if corrected = 0 then d else (d.count .panCorr 0 corrected).flag .panEventFlags 0 0
    if uncorrected = 0 then d
    else
      let (a, d) := d.draw 26
      ((d.putReg 0x60008 a).count .panUncorr 0 uncorrected).flag .panEventFlags 0 1

/-- A read of poisoned data is counted where it lies: in the Pantry, in a DRAM channel, which is a free value, or as a failed
read of host memory (R346, R375). -/
def Dev.poisonRead (d : Dev) (sp : Space) : Dev :=
  match sp with
  | .pantry => d.memoryScrub 8 0 1
  | .dram =>
    let (c, d) := d.draw 3
    d.memoryScrub (c % 8) 0 1
  | .host => (d.count .pcieReadFails).flag .pcieEventFlags 0 2
  | .nv => d

end Sys2Proof.Machine
end

