-- ==== Sys2Proof/Machine/LaneOps.lean ====
section
/-!
DEFINITION. Serial lanes and their quads, MAC links, and DisplayPort heads with their training (R215 to R218, R302 to
R317, R322).
-/

namespace Sys2Proof.Machine

def Dev.lane (d : Dev) (i : Nat) : LaneCtx := d.io.lanes.getD i {}
def Dev.putLane (d : Dev) (i : Nat) (c : LaneCtx) : Dev := { d with io := { d.io with lanes := d.io.lanes.put i c } }
def Dev.head (d : Dev) (h : Nat) : HeadCtx := d.io.heads.getD h {}
def Dev.putHead (d : Dev) (h : Nat) (c : HeadCtx) : Dev := { d with io := { d.io with heads := d.io.heads.put h c } }
def Dev.mac (d : Dev) (m : Nat) : MacCtx := d.io.macs.getD m {}
def Dev.putMac (d : Dev) (m : Nat) (c : MacCtx) : Dev := { d with io := { d.io with macs := d.io.macs.put m c } }

/-! ## Lane states (R304) -/

def laneOff : Nat := 0
def laneAcquiring : Nat := 1
def laneUp : Nat := 2
def laneNoPartner : Nat := 3
def laneTest : Nat := 4
def laneRecal : Nat := 5
def laneNoClock : Nat := 6

/-- A change of a lane's state, with its cause. -/
def Dev.setLane (d : Dev) (i st cause : Nat) : Dev :=
  if d.g .laneState i = st then d
  else
    let d := ((d.put .laneState i st).put .laneCause i cause).flag .laneEventFlags i 0
    if st = laneNoPartner then d.flag .laneEventFlags i 1 else d

/-- `QUAD_PLL.LOCK` and `QUAD_PLL_LOSSES`. -/
def quadPll (q : Nat) : Nat := 0x80000 + 0x4000 * q
def Dev.quadLocked (d : Dev) (q : Nat) : Bool := d.reg (quadPll q) == 1

/-- The lanes of a quad. -/
def quadLanes (q : Nat) : List Nat := (List.range 4).map (4 * q + ·)

/-- A test owns the lane (R314). -/
def Dev.laneTested (d : Dev) (i : Nat) : Bool := d.on .laneTest i || d.on .laneLoop i

/-- The line rate of a lane's protocol in kb/s (R303). -/
def Dev.laneRate (d : Dev) (i : Nat) : Nat :=
  if d.g .laneProto i = 1 then (if d.g .ethSpeed (d.g .laneMac i) = 1 then 25781250 else 10312500)
  else if d.g .laneProto i = 2 then
    ([1620000, 1620000, 2700000, 5400000, 8100000].getD (d.g .headLinkRate (i / 4)) 1620000)
  else 0

/-! ## Link of a MAC (R322) -/

/-- The lanes in force that name a MAC. -/
def Dev.lanesOf (d : Dev) (m : Nat) : List Nat :=
  (List.range 48).filter fun i => d.g .laneProto i == 1 && d.g .laneMac i == m

/-- Configured for Ethernet (R303). -/
def Dev.macReady (d : Dev) (m : Nat) : Bool := (d.lanesOf m).length == 1

/-- The MACs that `ptp_mac` names, in force and for the next start-up, are configured for Ethernet (R551). -/
def Dev.ptpMacsOk (d : Dev) : Bool := d.macReady (d.g .ptpMac) && d.macReady (d.keptOf .ptpMac 0)

/-- The link state of a MAC follows its lane, its faults and its loop-back (R322, R330). -/
def Dev.linkFollow (d : Dev) (m : Nat) : Dev :=
  let up := d.on .ethLoop m ||
    (d.macReady m && (d.lanesOf m).all (fun i => d.g .laneState i == laneUp) && (d.mac m).fault.isNone)
  if d.on .ethLink m = up then d else (d.put .ethLink m (b2n up)).flag .ethEventFlags m 0

/-! ## Attempts (R306 to R308) -/

/-- The lane enters ACQUIRING from start values; on an Ethernet lane the first attempt starts (R308). -/
def Dev.acquireLane (now : Nat) (d : Dev) (i cause : Nat) : Dev :=
  let c := d.lane i
  let eth := d.g .laneProto i == 1
  let d := d.putLane i { c with since := now, last := now, starts := b2n eth, cdr := false, block := false,
                                frozen := false, ctle := 0, dfe := [], locked := false }
  let d := if eth then d.count .laneAttempts i else d
  (d.setLane i laneAcquiring cause).linkFollow (d.g .laneMac i)

/-- In STANDBY only the lanes of the MACs kept by `pwr_standby_macs` run (R507). -/
def Dev.laneIdle (d : Dev) (i : Nat) : Bool :=
  d.g .pwrState == 1 && !(d.g .laneProto i == 1 && (d.g .pwrStandbyMacs).testBit (d.g .laneMac i))

/-- Where a lane goes when nothing keeps it elsewhere: NO_CLOCK, TEST, OFF or ACQUIRING. -/
def Dev.settleLane (now : Nat) (d : Dev) (i cause : Nat) : Dev :=
  let m := d.g .laneMac i
  if (d.g .laneProto i = 0 ∧ !d.laneTested i) ∨ d.laneIdle i then (d.setLane i laneOff cause).linkFollow m
  else if !d.quadLocked (i / 4) then (d.setLane i laneNoClock cause).linkFollow m
  else if d.laneTested i then (d.setLane i laneTest cause).linkFollow m
  else d.acquireLane now i cause

/-- Ticks between attempts: 100 ms. -/
def attemptTicks : Nat := 400000

/-- A new attempt of an Ethernet lane starts; the sixth without UP is NO_PARTNER. -/
def Dev.laneAttempt (now : Nat) (d : Dev) (i : Nat) : Dev :=
  let c := d.lane i
  let st := d.g .laneState i
  if d.g .laneProto i = 1 ∧ (st = laneAcquiring ∨ st = laneNoPartner) ∧ c.last + attemptTicks ≤ now then
    let d := d.putLane i { c with last := c.last + attemptTicks, starts := c.starts + 1, cdr := false, block := false,
                                  ctle := 0, dfe := [] }
    let d := d.count .laneAttempts i
    if c.starts + 1 = 6 then d.setLane i laneNoPartner 4 else d
  else d

/-- The equaliser's settings are the silicon's: free values. [DESIGN CHOICE, log entry 12] -/
def Dev.adaptLane (d : Dev) (i : Nat) : Dev :=
  let (ctle, d) := d.draw 4
  let (taps, d) := (List.range 12).foldl (fun (p : List Int × Dev) _ =>
    let (v, d) := p.2.draw 8
    (p.1 ++ [asInt 8 v], d)) ([], d)
  d.putLane i { d.lane i with ctle := ctle, dfe := taps }

/-- The four steps of an attempt together: 5, 25, 40 and 10 ms at most (R306). -/
def attemptSteps : Nat := 320000

/-- The attempt in progress can end in this tick: it started in an earlier one, so a write of this tick replaces what the lane
does of itself (R313), and its steps have not all run out (R306). [DEDUCED, log entry 146] -/
def Dev.attemptRuns (now : Nat) (d : Dev) (i : Nat) : Bool :=
  decide ((d.lane i).last < now) && decide (now ≤ (d.lane i).last + attemptSteps)

/-- An attempt reaches block lock. -/
def Dev.laneReachesUp (now : Nat) (d : Dev) (i : Nat) : Dev :=
  let st := d.g .laneState i
  if d.g .laneProto i = 1 ∧ (st = laneAcquiring ∨ st = laneNoPartner ∨ st = laneRecal) ∧ d.attemptRuns now i then
    let d := d.adaptLane i
    let d := d.putLane i { d.lane i with cdr := true, block := true, adapted := now, frozen := false, rate := d.laneRate i }
    (d.setLane i laneUp 5).linkFollow (d.g .laneMac i)
  else d

/-- Signal detect falls or block lock is lost on an UP Ethernet lane. -/
def Dev.laneLoses (now : Nat) (d : Dev) (i : Nat) : Dev :=
  if d.g .laneProto i = 1 ∧ d.g .laneState i = laneUp then d.acquireLane now i 2 else d

/-- A background re-adaptation: CTLE by at most one code, each tap by at most 2 (R310).
[DESIGN CHOICE, log entry 12] -/
def Dev.readapt (now : Nat) (d : Dev) (i : Nat) : Dev :=
  let c := d.lane i
  if d.g .laneProto i = 1 ∧ d.g .laneState i = laneUp ∧ !c.frozen ∧ c.adapted + 40000000 ≤ now then
    let (u, d) := d.draw 8
    let ctle := (clampInt 0 15 ((c.ctle : Int) + (u % 3 : Nat) - 1)).toNat
    let (taps, d) := c.dfe.foldl (fun (p : List Int × Dev) t =>
      let (v, d) := p.2.draw 8
      (p.1 ++ [clampInt (-128) 127 (t + (v % 5 : Nat) - 2)], d)) ([], d)
    d.putLane i { c with ctle := ctle, dfe := taps, adapted := now }
  else d

/-! ## Quads (R305) -/

def Dev.quadLoss (d : Dev) (q : Nat) : Dev :=
  if d.quadLocked q then
    let d := (d.putReg (quadPll q) 0).putReg (quadPll q + 4) (d.reg (quadPll q + 4) + 1)
    (quadLanes q).foldl (fun d i =>
      let d := d.putLane i { d.lane i with cdr := false, block := false, frozen := false, locked := false }
      ((d.setLane i laneNoClock 8).flag .laneEventFlags i 5).linkFollow (d.g .laneMac i)) d
  else d

def Dev.quadLock (now : Nat) (d : Dev) (q : Nat) : Dev :=
  if d.quadLocked q then d
  else (quadLanes q).foldl (fun d i => d.settleLane now i 8) (d.putReg (quadPll q) 1)

/-! ## Test (R312 to R317) -/

/-- `lane_recal` 1. [DEDUCED, log entry 47] -/
def Dev.recalLane (now : Nat) (d : Dev) (i : Nat) : Dev :=
  let st := d.g .laneState i
  if d.g .laneProto i = 1 ∧ (st = laneUp ∨ st = laneNoPartner) then
    let c := d.lane i
    let d := d.putLane i { c with since := now, last := now, starts := 1, cdr := false, block := false, frozen := false,
                                  ctle := 0, dfe := [] }
    (((d.count .laneAttempts i).setLane i laneRecal 7).linkFollow (d.g .laneMac i)).answerCode 0
  else d.answerCode 0x0397

/-- The recalibration's attempt ends without UP: the cycle of R308 goes on from the entry into RECAL.
[DEDUCED, log entry 47] -/
def Dev.recalFails (now : Nat) (d : Dev) (i : Nat) : Dev :=
  if d.g .laneState i = laneRecal ∧ (d.lane i).last < now then d.setLane i laneAcquiring 7 else d

/-- A write of `lane_test` or `lane_loop` has been taken: the lane enters or leaves TEST (R314). -/
def Dev.testFollow (now : Nat) (d : Dev) (i : Nat) : Dev :=
  let st := d.g .laneState i
  let d := if d.on .laneTest i ∧ (d.g .laneTest i).testBit 1 then d
    else d.putLane i { d.lane i with locked := false, erred := false }
  let d := if d.laneTested i then d.putLane i { d.lane i with frozen := false } else d
  if d.laneTested i then
    (if st = laneNoClock ∨ st = laneTest then d
     else if !d.quadLocked (i / 4) then d.setLane i laneNoClock 8
     else (d.setLane i laneTest 6).linkFollow (d.g .laneMac i))
  else if st = laneTest ∨ (st = laneNoClock ∧ d.g .laneProto i = 0) then d.settleLane now i 6
  else d

/-- The rate of the pattern generator and checker in kb/s (R315). -/
def Dev.testRate (d : Dev) (i : Nat) : Nat :=
  if d.g .laneProto i = 0 then d.g .laneTestRate i
  else if (d.lane i).rate ≠ 0 then (d.lane i).rate
  else if d.g .laneProto i = 1 then 10312500 else 1620000

/-- Errors one inverted bit makes at the lane's own checker (R316). -/
def Dev.echo (d : Dev) (i : Nat) : Nat := if d.g .lanePattern i = 5 then 1 else 3

/-- The lane's checker sees the lane's own generator: near-end loop, generator and checker set, checker locked. -/
def Dev.selfChecked (d : Dev) (i : Nat) : Bool :=
  (d.g .laneLoop i == 1 || d.g .laneLoop i == 2) && d.g .laneTest i == 3 && (d.lane i).locked

/-- The checker counts `n` errors. -/
def Dev.checkerErrors (d : Dev) (i n : Nat) : Dev :=
  if n = 0 then d
  else
    let c := d.lane i
    let d := (d.count .laneChkErrors i n).putLane i { c with erred := true }
    if c.erred then d else d.flag .laneEventFlags i 3

/-- One injected error. -/
def Dev.injectOne (d : Dev) (i : Nat) : Dev := if d.selfChecked i then d.checkerErrors i (d.echo i) else d

/-- The checker loses lock. -/
def Dev.checkerLost (d : Dev) (i : Nat) : Dev := (d.putLane i { d.lane i with locked := false }).flag .laneEventFlags i 2

/-- Errors the line itself makes in a tick of `bits` bits, fewer than 64 in any 1,024: a free value.
[DESIGN CHOICE, log entry 147] -/
def Dev.lineErrors (d : Dev) (i bits : Nat) : Dev :=
  if d.g .laneLoop i = 2 then d
  else
    let (v, d) := d.draw 16
    d.checkerErrors i (v % (63 * (bits / 1024) + 1))

/-- One tick of a lane's checker: the bits of 250 ns, the line's errors, and those its own generator injects by period; 64 errors
of 1,024 bits end the lock (R315, R316). -/
def Dev.checkerTick (d : Dev) (i : Nat) : Dev :=
  let c := d.lane i
  if !c.locked then d
  else
    let b := c.bitRest + d.testRate i
    let per := d.g .laneInjectPeriod i
    let j := c.injRest + b / 4000
    let d := (d.put .laneChkBits i (d.g .laneChkBits i + b / 4000)).putLane i
      { c with bitRest := b % 4000, injRest := if per = 0 then 0 else j % per }
    let d := d.lineErrors i (b / 4000)
    if per = 0 ∨ !d.selfChecked i then d
    else
      let d := d.checkerErrors i (j / per * d.echo i)
      if 64 * per ≤ 1024 * d.echo i then d.checkerLost i else d

def Dev.checkersTick (d : Dev) : Dev := (d.io.lanes.map fun (p : Nat × LaneCtx) => p.1).foldl Dev.checkerTick d

/-- The checker locks. -/
def Dev.checkerLocks (d : Dev) (i : Nat) : Dev :=
  if d.g .laneState i = laneTest ∧ (d.g .laneTest i).testBit 1 then
    d.putLane i { d.lane i with locked := true, erred := false, bitRest := 0, injRest := 0 }
  else d

/-- 64 of 1,024 consecutive bits were in error: the checker counted each of them (R315). -/
def Dev.checkerUnlocks (d : Dev) (i : Nat) : Dev :=
  if (d.lane i).locked then (d.checkerErrors i 64).checkerLost i else d

def Dev.checkerClears (d : Dev) (i : Nat) : Dev := (d.put .laneChkBits i 0).put .laneChkErrors i 0

/-! ## What a lane's transmitter sends (R304, R311, R315, R317) -/

/-- What stands on a lane's transmit pins. -/
inductive LaneDrive
  /-- electrical idle -/
  | idle
  /-- the MAC's or the head's stream, at a rate in kb/s -/
  | protocolData (rate : Nat)
  /-- the DisplayPort idle pattern at 1.62 Gb/s, swing and pre-emphasis level 0 -/
  | displayPortIdle
  /-- a pattern of R315 at a rate, inverted or not -/
  | pattern (p rate : Nat) (inverted : Bool)
  /-- a copy of the receive data -/
  | received
deriving DecidableEq, Repr

/-- The transmit pins of a lane: a test's pattern or loop, what its protocol sends, the DisplayPort idle pattern while the
partner is absent, or electrical idle. A far-end loop without CDR lock sends PRBS31. -/
def Dev.laneDrive (d : Dev) (i : Nat) : LaneDrive :=
  let st := d.g .laneState i
  if st = laneOff ∨ st = laneNoClock then .idle
  else if st = laneTest ∧ d.g .laneLoop i = 3 then
    (if (d.lane i).cdr then .received else .pattern 4 (d.testRate i) false)
  else if st = laneTest ∧ (d.g .laneTest i).testBit 0 then
    .pattern (d.g .lanePattern i) (d.testRate i) (d.reg (0x80000 + 0x4000 * (i / 4) + 0x800 + 0x800 * (i % 4) + 0x040) == 256)
  else if d.g .laneProto i = 0 then .idle
  else if d.g .laneProto i = 2 ∧ (d.head (i / 4)).absent.isSome then .displayPortIdle
  else .protocolData (d.laneRate i)

/-! ## Heads (R215 to R218, R311) -/

def headUnbound : Nat := 0
def headDetached : Nat := 1
def headTraining : Nat := 2
def headActive : Nat := 3
def headNoFit : Nat := 4
def headFailed : Nat := 5
def headNoPartner : Nat := 6

/-- DisplayPort lanes of a head. -/
def Dev.headLanes (d : Dev) (h : Nat) : List Nat := (quadLanes h).filter fun i => d.g .laneProto i == 2

/-- A head stops sending video, and audio and signalling with it. -/
def Dev.stopVideo (d : Dev) (h : Nat) : Dev := d.putHead h { d.head h with video := false, signal := none, audio := [] }

/-- A change of a head's state; its lanes are UP exactly in ACTIVE (R311). -/
def Dev.setHead (now : Nat) (d : Dev) (h st : Nat) : Dev :=
  let old := d.g .headState h
  if old = st then d
  else
    let d := (d.put .headState h st).flag .headEventFlags h 0
    if st = headActive then
      (d.headLanes h).foldl (fun d i =>
        if d.g .laneState i = laneTest ∨ d.g .laneState i = laneNoClock then d
        else (d.putLane i { d.lane i with rate := d.laneRate i, adapted := now }).setLane i laneUp 5) d
    else if old = headActive then
      let d := ((d.stopVideo h).put .headLinkRate h 0).put .headLinkLanes h 0
      (d.headLanes h).foldl (fun d i => if d.g .laneState i = laneUp then d.acquireLane now i 3 else d) d
    else d

/-- The departure in force that binds a head. -/
def Dev.headOwner (d : Dev) (h : Nat) : Option Nat :=
  (List.range 128).find? fun n => (d.g .depBind n).testBit 1 && d.g .depHead n == h

/-- The sink's maximum rate as `dep_dp_max_rate`, and lanes, from the capability bytes it gave.
[PRESUMED, log entry 49] -/
def sinkRate (caps : List Byte) : Nat :=
  let v := (caps.getD 1 0).toNat
  if 0x1E ≤ v then 4 else if 0x14 ≤ v then 3 else if 0x0A ≤ v then 2 else if 0x06 ≤ v then 1 else 0

def sinkLanes (caps : List Byte) : Nat := (caps.getD 2 0).toNat % 32

/-- Rate code in bit/s. [PRESUMED, log entry 49] -/
def dpRate (k : Nat) : Nat := [0, 1620000000, 2700000000, 5400000000, 8100000000].getD k 0

/-- The link configurations that carry a departure's raster on a head, in order (R217). -/
def Dev.candidates (d : Dev) (h n : Nat) : List (Nat × Nat) :=
  let caps := d.blob .headDpcdCaps h
  let g := d.g .depGroup n
  let bits := (if d.g .depSampling n = 1 then 2 else 3) * d.g .depDepth n
  let p : Rat := ((d.g .depHTotal n * d.g .depHeight n * d.g .tgTotalLines g * d.g .tgRateNum g : Nat) : Rat)
    / ((d.g .tgActiveLines g * d.g .tgRateDen g : Nat) : Rat)
  let spread : Rat := if d.on .headDownspread h then 995 / 1000 else 1
  ((List.range 4).map fun k =>
    ([1, 2, 4].filter fun l =>
      k + 1 ≤ d.g .depDpMaxRate n && k + 1 ≤ sinkRate caps && l ≤ d.g .depDpMaxLanes n && l ≤ sinkLanes caps
        && decide (p * bits ≤ (l * dpRate (k + 1) : Nat) * (8 / 10 : Rat) * spread)).map fun l => (k + 1, l)).flatten

/-- Training of a candidate starts: DPCD 0x00100 to 0x00107 take the rate, the lanes, the pattern of clock recovery, swing and
pre-emphasis level 0, and down-spreading; channel equalisation will use the highest pattern the sink supports (R218). -/
def Dev.linkTraining (d : Dev) (h rate lanes : Nat) : Dev :=
  let caps := d.blob .headDpcdCaps h
  let tps := if rate = 4 ∧ (caps.getD 3 0).toNat.testBit 7 then 4 else if (caps.getD 2 0).toNat.testBit 6 then 3 else 2
  d.putHead h { d.head h with
    dpcd := [[0, 0x06, 0x0A, 0x14, 0x1E].getD rate 0, 0x80 + lanes, 0x21, 0, 0, 0, 0, if d.on .headDownspread h then 0x10 else 0]
    tps := tps, loops := (0, 0) }

/-- The adjustment loops training took: at most 10 of clock recovery, then at most 5 of equalisation; a step that fails has
used all of its own (R218). How many a step takes that succeeds is a free value. -/
def Dev.trainingLoops (d : Dev) (h : Nat) (r : TrainResult) : Dev :=
  let (u, d) := d.draw 16
  let (v, d) := d.draw 16
  let loops := match r with
    | .pass => (u % 11, v % 6)
    | .clockRecovery => (10, 0)
    | .equalisation => (u % 11, 5)
    | .auxSilent => (u % 11, v % 6)
  let c := d.head h
  d.putHead h { c with loops := loops, dpcd := c.dpcd.set 2 0 }

/-- Train from candidate `from`; none fits: NO_FIT. -/
def Dev.trainHead (now : Nat) (d : Dev) (h start : Nat) : Dev :=
  match d.headOwner h with
  | none => d
  | some n =>
    if (d.candidates h n).isEmpty then (d.setHead now h headNoFit).put .headLastFail h 4
    else
      let d := ((d.setHead now h headTraining).count .headRetrains h).stopVideo h
      let d := d.putHead h { d.head h with cand := start, absent := none }
      let (rate, lanes) := (d.candidates h n).getD start (0, 0)
      d.linkTraining h rate lanes

/-- The absence of the partner begins (R311). -/
def Dev.absenceBegins (now : Nat) (d : Dev) (h : Nat) : Dev :=
  if (d.head h).absent.isSome then d
  else d.putHead h { d.head h with absent := some now, poll := now }

/-- The absence ends: lanes in NO_PARTNER seek again, and the head goes on as on a plug. [DEDUCED, log entry 48] -/
def Dev.absenceEnds (now : Nat) (d : Dev) (h : Nat) : Dev :=
  let d := d.putHead h { d.head h with absent := none }
  let d := (d.headLanes h).foldl (fun d i => if d.g .laneState i = laneNoPartner then d.setLane i laneAcquiring 0 else d) d
  d.trainHead now h 0

/-- DP_HPD[h] changes level, or rises again after a pulse. -/
def Dev.sampleHpd (now : Nat) (d : Dev) (h : Nat) (high : Bool) : Dev :=
  d.putHead h { d.head h with hpd := high, hpdAt := now }

/-- The level of DP_HPD[h] can have stood for so many ticks: each tick samples it (R217). [DEDUCED, log entry 143] -/
def Dev.hpdFor (now : Nat) (d : Dev) (h ticks : Nat) : Bool := decide ((d.head h).hpdAt + ticks ≤ now)

/-- Ticks of 250 µs, the shortest low pulse that counts, and of 2 ms. -/
def pulseTicks : Nat := 1000
def plugTicks : Nat := 8000

/-- HPD low for 2 ms. -/
def Dev.unplugHead (now : Nat) (d : Dev) (h : Nat) : Dev :=
  if !d.on .headHpd h ∨ !d.hpdFor now h plugTicks then d
  else
    let d := d.sampleHpd now h false
    let d := ((d.put .headHpd h 0).flag .headEventFlags h 2).absenceBegins now h
    if d.g .headState h = headUnbound then d else d.setHead now h headDetached

/-- HPD high for 2 ms after an unplug. -/
def Dev.plugHead (now : Nat) (d : Dev) (h : Nat) (caps edid : List Byte) : Dev :=
  if d.on .headHpd h ∨ !d.hpdFor now h plugTicks then d
  else
    let d := d.sampleHpd now h true
    let d := (d.put .headHpd h 1).flag .headEventFlags h 1
    let d := if d.blob .headEdid h = edid then d else d.flag .headEventFlags h 5
    ((d.putBlob .headDpcdCaps h (caps.take 16)).putBlob .headEdid h (edid.take 1024)).absenceEnds now h

/-- Start of a retraining from the configuration in force. -/
def Dev.candInForce (d : Dev) (h n : Nat) : Nat :=
  let k := (d.candidates h n).findIdx (· == (d.g .headLinkRate h, d.g .headLinkLanes h))
  if k < (d.candidates h n).length then k else 0

/-- Retrain a bound head. -/
def Dev.retrainHead (now : Nat) (d : Dev) (h : Nat) : Dev :=
  match d.headOwner h with
  | none => d
  | some n => if d.g .headState h = headDetached then d else d.trainHead now h (d.candInForce h n)

/-- Every lane of a link holds clock recovery, equalisation and symbol lock, and the lanes are aligned, by DPCD 0x00202 to
0x00204. -/
def linkHolds (lanes : Nat) (status : List Byte) : Bool :=
  ((List.range lanes).all fun k => (status.getD (2 + k / 2) 0).toNat / 2 ^ (4 * (k % 2)) % 8 == 7)
    && (status.getD 4 0).toNat.testBit 0

/-- A low pulse of HPD of 250 µs to 2 ms ends: the head reads DPCD 0x00200 to 0x00205 (R217, R218). -/
def Dev.irqHpd (now : Nat) (d : Dev) (h : Nat) (status : List Byte) : Dev :=
  if !d.on .headHpd h ∨ !d.hpdFor now h pulseTicks then d
  else
    let d := (d.sampleHpd now h true).flag .headEventFlags h 3
    let d := d.putHead h { d.head h with status := status.take 6 }
    if d.g .headState h = headActive ∧ !linkHolds (d.g .headLinkLanes h) status then (d.flag .headEventFlags h 4).retrainHead now h
    else if d.g .headState h = headFailed then d.trainHead now h 0
    else d

/-- No AUX reply: the partner is absent, and an ACTIVE head leaves ACTIVE. [DEDUCED, log entry 48] -/
def Dev.auxSilent (now : Nat) (d : Dev) (h : Nat) : Dev :=
  if !d.on .headHpd h then d
  else
    let d := d.absenceBegins now h
    if d.g .headState h = headActive then d.setHead now h headTraining else d

/-- The training of the present candidate ends. -/
def Dev.trainingDone (now : Nat) (d : Dev) (h : Nat) (r : TrainResult) : Dev :=
  match d.headOwner h with
  | none => d
  | some n =>
    if d.g .headState h ≠ headTraining ∨ (d.head h).absent.isSome then d
    else
      let cs := d.candidates h n
      let k := (d.head h).cand
      let next (d : Dev) (why : Nat) : Dev :=
        let d := d.put .headLastFail h why
        if k + 1 < cs.length then
          let d := (d.count .headRetrains h).putHead h { d.head h with cand := k + 1 }
          let (rate, lanes) := cs.getD (k + 1) (0, 0)
          d.linkTraining h rate lanes
        else (d.setHead now h headFailed).putHead h { d.head h with failed := now }
      let d := d.trainingLoops h r
      match r with
      | .pass =>
        let (rate, lanes) := cs.getD k (0, 0)
        ((d.put .headLinkRate h rate).put .headLinkLanes h lanes).setHead now h headActive
      | .clockRecovery => next d 1
      | .equalisation => next d 2
      | .auxSilent => d.auxSilent now h

/-- 500 ms of absence (R311). -/
def Dev.absenceTimeout (now : Nat) (d : Dev) (h : Nat) : Dev :=
  match (d.head h).absent with
  | none => d
  | some t =>
    if now < t + 2000000 then d
    else
      let d := (d.headLanes h).foldl (fun d i =>
        if d.g .laneState i = laneAcquiring then d.setLane i laneNoPartner 4 else d) d
      if d.on .headHpd h ∧ d.g .headState h ≠ headUnbound then
        (d.setHead now h headNoPartner).put .headLastFail h 3
      else d

/-- The read of DPCD 0x00000 every 100 ms of absence. -/
def Dev.dpcdPoll (now : Nat) (d : Dev) (h : Nat) (answered : Bool) : Dev :=
  let c := d.head h
  if c.absent.isSome ∧ d.on .headHpd h ∧ c.poll + attemptTicks ≤ now then
    let d := d.putHead h { c with poll := c.poll + attemptTicks }
    if answered then d.absenceEnds now h else d
  else d

/-- A FAILED head tries again after 1 s. -/
def Dev.headRetry (now : Nat) (d : Dev) (h : Nat) : Dev :=
  if d.g .headState h = headFailed ∧ (d.head h).failed + 4000000 ≤ now then d.trainHead now h 0 else d

/-- The heads follow the departures a commit left in force: `old` is the configuration before it (R216, R218). A head given
lanes while DP_HPD is low has an absent partner from then on (R311). -/
def Dev.headFollow (now : Nat) (old d : Dev) (h : Nat) : Dev :=
  let o := d.headOwner h
  let was := old.headOwner h
  let d := d.put .headDep h (o.getD 0xFF)
  let d := if d.on .headHpd h ∨ (d.headLanes h).isEmpty then d else d.absenceBegins now h
  match o with
  | none => if d.g .headState h = headUnbound then d else d.setHead now h headUnbound
  | some n =>
    let sig (x : Dev) (n : Nat) : List Nat :=
      [x.g .depWidth n, x.g .depHeight n, x.g .depSampling n, x.g .depDepth n, x.g .depGroup n, x.g .depHTotal n,
       x.g .depDpMaxRate n, x.g .depDpMaxLanes n, x.g .tgRateNum (x.g .depGroup n), x.g .tgRateDen (x.g .depGroup n),
       x.g .tgTotalLines (x.g .depGroup n), x.g .tgActiveLines (x.g .depGroup n)]
    if was = some n ∧ sig old n = sig d n ∧ d.g .headState h ≠ headUnbound then d
    else if !d.on .headHpd h then d.setHead now h headDetached
    else if (d.head h).absent.isSome ∧ d.g .headState h ≠ headUnbound then d
    else if d.g .headState h = headActive ∧ (d.candidates h n).contains (d.g .headLinkRate h, d.g .headLinkLanes h) then d
    else d.trainHead now h (d.candInForce h n)

end Sys2Proof.Machine
end

