-- ==== Sys2Proof/Machine/AudioOps.lean ====
section
/-!
DEFINITION. Audio: sample clocks, TDM ports, PLLs, ASRC trackers, the matrix with gains, ramps and ducking, network
flows, embedding slots and non-audio detection (R230 to R266).
-/

namespace Sys2Proof.Machine

def Dev.tdm (d : Dev) (p : Nat) : TdmCtx := d.audio.ports.getD p {}
def Dev.putTdm (d : Dev) (p : Nat) (c : TdmCtx) : Dev := { d with audio := { d.audio with ports := d.audio.ports.put p c } }
def Dev.dst (d : Dev) (n : Nat) : DstCtx := d.audio.dsts.getD n {}
def Dev.putDst (d : Dev) (n : Nat) (c : DstCtx) : Dev := { d with audio := { d.audio with dsts := d.audio.dsts.put n c } }
def Dev.flow (d : Dev) (f : Nat) : FlowCtx := d.audio.flows.getD f {}
def Dev.putFlow (d : Dev) (f : Nat) (c : FlowCtx) : Dev := { d with audio := { d.audio with flows := d.audio.flows.put f c } }
def Dev.returned (d : Dev) (k : Nat) : Dev :=
  { d with audio := { d.audio with returns := d.audio.returns.put k (d.audio.returns.getD k 0 + 1) } }

/-- Peak of a sample. -/
def magnitude (v : Nat) : Nat := (asInt 32 v).natAbs

/-- A port or ASRC source delivers a sample; destinations that duck by it take its peak (R259). -/
def Dev.srcPut (now : Nat) (d : Dev) (n v : Nat) : Dev :=
  let c := d.audio.srcs.getD n {}
  let keyed (q : Nat × DstCtx) : Nat × DstCtx :=
    if d.g .dstDuckKey q.1 = n then (q.1, { q.2 with keyPeak := max q.2.keyPeak (magnitude v) }) else q
  { d with audio := { d.audio with
      srcs := d.audio.srcs.put n { value := v, at_ := now, before := if c.at_ = now then c.before else c.value }
      dsts := d.audio.dsts.map keyed } }

/-! ## Sample clocks (R239, R240, R255) -/

/-- The media clock count of an instant at a rate. -/
def mediaCount (tb rate : Nat) : Nat := tb * rate / 1000000000

/-- What a clock identity resolves to. -/
def Dev.resolve (d : Dev) (id : Nat) : Nat :=
  if 4 ≤ id ∧ id < 8 then
    (if d.g .pllRef (id - 4) = 1 then 0 else if 0x10 ≤ d.g .pllRef (id - 4) then d.g .pllRef (id - 4) else id)
  else id

/-- The resolved identity of a port. -/
def Dev.portClock (d : Dev) (p : Nat) : Nat :=
  if d.g .tdmMode p = 1 then 0x10 + p else d.resolve (4 + d.g .tdmPll p)

/-- The flow whose channels hold network channel `ch`: an enabled one before one that is off. -/
def Dev.recvFlow (d : Dev) (ch : Nat) : Option Nat :=
  let has (f : Nat) : Bool := d.g .nrFirst f ≤ ch && ch < d.g .nrFirst f + d.g .nrChannels f
  match (List.range 64).find? fun f => d.on .nrEnable f && has f with
  | some f => some f
  | none => (List.range 64).find? has

def Dev.sendFlow (d : Dev) (ch : Nat) : Option Nat :=
  let has (f : Nat) : Bool := d.g .nsFirst f ≤ ch && ch < d.g .nsFirst f + d.g .nsChannels f
  match (List.range 64).find? fun f => d.on .nsEnable f && has f with
  | some f => some f
  | none => (List.range 64).find? has

/-- The sample clock of a source: resolved identity and rate. -/
def Dev.srcClock (d : Dev) (n : Nat) : Nat × Nat :=
  if n < 512 then (d.portClock (n / 32), d.g .tdmRate (n / 32))
  else if n < 768 then (0, match d.recvFlow (n - 512) with
    | some f => d.g .nrRate f
    | none => 48000)
  else if n < 896 then (d.resolve (d.g .asrcOutClock (n - 768)), d.g .asrcOutRate (n - 768))
  else (0, 48000)

/-- The sample clock of a destination. -/
def Dev.dstClockOf (d : Dev) (n : Nat) : Nat × Nat :=
  if n < 512 then (d.portClock (n / 32), d.g .tdmRate (n / 32))
  else if n < 768 then (0, match d.sendFlow (n - 512) with
    | some f => d.g .nsRate f
    | none => 48000)
  else if n < 896 then (d.resolve (d.g .asrcInClock (n - 768)), d.g .asrcInRate (n - 768))
  else if n < 960 then (0, d.g .headAudRate ((n - 896) / 8))
  else (0, 48000)

/-! ## Terms of a destination -/

def Dev.dstSrcs (d : Dev) (n : Nat) : List Nat :=
  [d.g .dstSrc0 n, d.g .dstSrc1 n, d.g .dstSrc2 n, d.g .dstSrc3 n, d.g .dstSrc4 n, d.g .dstSrc5 n, d.g .dstSrc6 n,
   d.g .dstSrc7 n]

def Dev.dstGains (d : Dev) (n : Nat) : List Int :=
  [d.gi .dstGain0 n, d.gi .dstGain1 n, d.gi .dstGain2 n, d.gi .dstGain3 n, d.gi .dstGain4 n, d.gi .dstGain5 n,
   d.gi .dstGain6 n, d.gi .dstGain7 n]

/-- Every route in force: destination and source. -/
def Dev.routes (d : Dev) : List (Nat × Nat) :=
  ((List.range 1024).map fun n => ((d.dstSrcs n).filter (· != 0xFFFF)).map fun s => (n, s)).flatten

/-! ## Decibels (R257, R259), by exact comparison -/

/-- 10^(g/2000) × a ≤ b × 2^0, both sides to the power 2000: `a^2000 × 10^g ≤ b^2000`. -/
def dbLe (a : Nat) (g : Int) (b : Nat) : Bool :=
  if 0 ≤ g then a ^ 2000 * 10 ^ g.toNat ≤ b ^ 2000 else a ^ 2000 ≤ b ^ 2000 * 10 ^ (-g).toNat

/-- The largest number below 2^bits + base that satisfies a downward closed test, from the bits down. -/
def searchBits (p : Nat → Bool) : Nat → Nat → Nat
  | 0, base => base
  | k + 1, base => searchBits p k (if p (base + 2 ^ k) then base + 2 ^ k else base)

/-- round(2^24 × 10^(G/20)) for G in 0.01 dB: the largest k with 2k − 1 ≤ 2^25 × 10^(G/20). -/
def gainCoef (g : Int) : Nat :=
  let test (k : Nat) : Bool :=
    if 0 ≤ g then (2 * k - 1) ^ 2000 ≤ (2 ^ 25) ^ 2000 * 10 ^ g.toNat
    else (2 * k - 1) ^ 2000 * 10 ^ (-g).toNat ≤ (2 ^ 25) ^ 2000
  searchBits test 29 0

/-- A peak is at or above a level in 0.01 dBFS. -/
def atLeastDb (peak : Nat) (level : Int) : Bool := dbLe (2 ^ 31) level peak

/-- A peak in 0.01 dBFS, rounded down; −32,768 for silence. -/
def peakDb (peak : Nat) : Int :=
  if peak = 0 then -32768 else (searchBits (fun k => atLeastDb peak ((k : Int) - 32768)) 16 0 : Nat) - 32768

/-! ## Non-audio detection (R266) -/

/-- The burst preamble. -/
def napBurst (a b : Nat) : Bool := a / 65536 % 65536 == 0xF872 && b / 65536 % 65536 == 0x4E1F

/-- A 32-bit sample scaled by `k` / `n`. -/
def scaleSample (v k n : Nat) : Nat := ofInt 32 (asInt 32 v * k / n)

/-- One sample of a pair: what leaves the 4-sample delay, the pair after it, and whether DATA began or ended. The samples
before a burst leave scaled, the last three of them after DATA has begun. -/
def NapCtx.next (c : NapCtx) (hold a b : Nat) : (Nat × Nat) × NapCtx × Bool × Bool :=
  let burst := napBurst a b
  let held := List.replicate (4 - c.delay.length) (0, 0) ++ c.delay
  let onset := !c.data && burst
  let held := if onset then
      held.zipIdx.map fun (q : (Nat × Nat) × Nat) => (scaleSample q.1.1 (3 - q.2) 4, scaleSample q.1.2 (3 - q.2) 4)
    else held
  let (x, y) := held.headD (0, 0)
  let quiet := if c.data then (if burst then 0 else c.quiet + 1) else 0
  let release := c.data && quiet == hold
  let data := onset || (c.data && !release)
  let out := if c.data ∧ c.fade = 0 then (0, 0)
    else if c.ramp = 0 then (x, y)
    else (scaleSample x (33 - c.ramp) 32, scaleSample y (33 - c.ramp) 32)
  (out, { data := data, quiet := quiet, ramp := if release then 32 else c.ramp - 1,
          fade := if onset then 3 else c.fade - 1, delay := held.drop 1 ++ [(a, b)] }, onset, release)

/-- A pair with first source number `n` under detection takes one sample. [DEDUCED, log entry 32] -/
def Dev.napStep (d : Dev) (n a b : Nat) : (Nat × Nat) × Dev :=
  let c := d.audio.naps.getD n {}
  let (out, c', onset, release) := c.next (d.g .napHold) a b
  let d := { d with audio := { d.audio with naps := d.audio.naps.put n c' } }
  let d := if onset then d.flag .napEventFlags 0 0 else if release then d.flag .napEventFlags 0 1 else d
  let bits := d.blob .napActive
  let bits := if bits.isEmpty then List.replicate 128 0 else bits
  let byte := (bits.getD (n / 8) 0).toNat
  let byte' := if c'.data then byte ||| 2 ^ (n % 8) else clearMask byte (2 ^ (n % 8))
  let d := if byte = byte' then d else d.putBlob .napActive 0 (bits.set (n / 8) (BitVec.ofNat 8 byte'))
  (out, d)

/-- One sample instant of the channels from source number `base`: tested pairs pass the delay, the rest pass as they
are. -/
def Dev.napLine (d : Dev) (on : Bool) (base : Nat) (xs : List Nat) : List Nat × Dev :=
  if !on then (xs, d)
  else (List.range (xs.length / 2)).foldl (fun (p : List Nat × Dev) j =>
      let ((u, v), d) := p.2.napStep (base + 2 * j) (xs.getD (2 * j) 0) (xs.getD (2 * j + 1) 0)
      ((p.1.set (2 * j) u).set (2 * j + 1) v, d)) (xs, d)

/-! ## PLLs (R241 to R243) -/

def pllOff : Nat := 0
def pllFree : Nat := 1
def pllAcquiring : Nat := 2
def pllLocked : Nat := 3
def pllHoldover : Nat := 4

def familyBase (f : Nat) : Nat := if f = 0 then 24576000 else 22579200

/-- A PLL's state; AUD_MCLK[k] carries the family base while it runs and `pll_mclk_out` is 1 (R241). -/
def Dev.setPll (now : Nat) (d : Dev) (k st : Nat) : Dev :=
  let mclk := if st ≠ pllOff ∧ d.on .pllMclkOut k then d.audio.mclk.put k (familyBase (d.g .pllFamily k)) else d.audio.mclk.del k
  let d := { d with audio := { d.audio with mclk := mclk } }
  if d.g .pllState k = st then d
  else
    let d := (d.put .pllState k st).flag .pllEventFlags k 0
    let d := if st = pllFree then d.puti .pllOffset k 0 else d
    { d with audio := { d.audio with plls := d.audio.plls.put k now } }

/-- Where a PLL goes when it is switched. -/
def Dev.pllSwitch (now : Nat) (d : Dev) (k : Nat) : Dev :=
  d.setPll now k (if !d.on .pllEnable k then pllOff else if d.g .pllRef k = 0 then pllFree else pllAcquiring)

/-- The offset of a PLL's reference from nominal, ppb: of the media clock that of `TB_ADDEND`, of another a free value within
±1,000 ppm. -/
def Dev.refOffset (e : Env) (d : Dev) (k : Nat) : Int × Dev :=
  if d.g .pllRef k = 1 then (((e.clk.addend : Int) - 0x28000000) * 1000000000 / 0x28000000, d)
  else
    let (v, d) := d.draw 32
    ((v % 2000001 : Nat) - 1000000, d)

/-- Locked after 1 s within ±50 ns; the phase error is free there, and so is the offset within ±`pll_pull` ppm of the
reference's (R241, R242). -/
def Dev.pllLocks (e : Env) (d : Dev) (k : Nat) : Dev :=
  if d.g .pllState k = pllAcquiring ∧ d.audio.plls.getD k 0 + 4000000 ≤ e.now then
    let (u, d) := d.draw 16
    let (v, d) := d.draw 32
    let (r, d) := d.refOffset e k
    let pull := d.g .pllPull k * 1000
    let off := r + (v % (2 * pull + 1) : Nat) - pull
    ((d.puti .pllPhaseErr k ((u % 101 : Nat) - 50)).puti .pllOffset k off).setPll e.now k pllLocked
  else d

def Dev.pllUnlocks (now : Nat) (d : Dev) (k : Nat) : Dev :=
  if d.g .pllState k = pllLocked then d.setPll now k pllAcquiring else d

/-- The reference is lost: HOLDOVER (R241). [DEDUCED, log entry 50] -/
def Dev.pllRefLost (now : Nat) (d : Dev) (k : Nat) : Dev :=
  if (d.g .pllState k = pllLocked ∨ d.g .pllState k = pllAcquiring) ∧ d.g .pllRef k ≠ 1 then d.setPll now k pllHoldover else d

def Dev.pllRefBack (now : Nat) (d : Dev) (k : Nat) : Dev :=
  if d.g .pllState k = pllHoldover then d.setPll now k pllAcquiring else d

/-- The PLLs that take slave port `p` for reference. -/
def Dev.pllsOn (d : Dev) (p : Nat) : List Nat := (List.range 4).filter fun k => d.g .pllRef k == 0x10 + p

/-- A phase error in ns modulo one sample period at 48 kHz, within half a period of 0 (R242). -/
def phaseWithin (x : Int) : Int := ((3 * x + 31250) % 62500 - 31250) / 3

/-- A step of the time base moves the media clock: a PLL locked to it re-aligns by frequency, at `pll_pull` ppm, and past
±1 µs it is no longer LOCKED (R241, R242). -/
def Dev.stepPhase (now : Nat) (delta : Int) (d : Dev) (k : Nat) : Dev :=
  let st := d.g .pllState k
  if d.g .pllRef k ≠ 1 ∨ (st ≠ pllLocked ∧ st ≠ pllAcquiring) then d
  else
    let x := phaseWithin (d.gi .pllPhaseErr k - delta)
    let within := now + x.natAbs * 4000 / max 1 (d.g .pllPull k)
    let d := d.puti .pllPhaseErr k x
    if st = pllLocked ∧ x.natAbs ≤ 1000 then d
    else
      let d := d.setPll now k pllAcquiring
      { d with audio := { d.audio with plls := d.audio.plls.put k within } }

/-- Ticks between two changes of a queue by one sample: at most 2,000 ppm at 96 kHz. -/
def slipTicks : Nat := 20000

/-- A queue runs empty (repeat, 1) or full (drop, 2): every master port of the PLL, counted (R243). -/
def Dev.slipped (d : Dev) (k how : Nat) : Dev :=
  let d := ((List.range 16).filter fun p => d.g .tdmMode p == 0 && d.g .tdmPll p == k).foldl
    (fun (d : Dev) p => d.putTdm p { d.tdm p with slip := how }) d
  (d.count .pllSlips k).flag .pllEventFlags k 1

/-- At the end of a tick the queues of a PLL that is not LOCKED may have gained or lost a sample against the clock its
identity resolves to (R243). Physical clocks decide when: a free value says which. [DESIGN CHOICE, log entry 51] -/
def Dev.pllSlip (now : Nat) (d : Dev) (k : Nat) : Dev :=
  let (n, since) := d.audio.queues.getD k (4, d.audio.plls.getD k 0)
  if d.g .pllState k = pllOff ∨ d.g .pllState k = pllLocked ∨ d.resolve (4 + k) = 4 + k ∨ d.stopped = true
      ∨ now < since + slipTicks then d
  else
    let (u, d) := d.draw 32
    let keep (d : Dev) (n : Nat) : Dev := { d with audio := { d.audio with queues := d.audio.queues.put k (n, now) } }
    match u % 3 with
    | 0 => d
    | 1 => if n = 0 then keep (d.slipped k 1) 0 else keep d (n - 1)
    | _ => if n = 8 then keep (d.slipped k 2) 8 else keep d (n + 1)

/-! ## TDM ports (R231 to R238, R246) -/

def tdmOff : Nat := 0
def tdmWaiting : Nat := 1
def tdmRunning : Nat := 2
def tdmLost : Nat := 3

/-- A port's state. Outside RUNNING its sources carry 0; a PLL that takes it for reference loses it in LOST and has it
back in RUNNING (R236, R241). -/
def Dev.setTdm (now : Nat) (d : Dev) (p st : Nat) : Dev :=
  if d.g .tdmState p = st then d
  else
    let d := (d.put .tdmState p st).flag .tdmEventFlags p 0
    if st = tdmRunning then (d.pllsOn p).foldl (Dev.pllRefBack now) (d.returned p)
    else
      let d := (List.range 32).foldl (fun d s => d.srcPut now (32 * p + s) 0) d
      if st = tdmLost then (d.pllsOn p).foldl (Dev.pllRefLost now) d else d

/-- The level on FS in each bit clock of a master's frame: active from the bit clock before the first, for the length of
`tdm_fs_shape` (R231, R233). -/
def Dev.fsLevels (d : Dev) (p : Nat) : List Nat :=
  let len := d.g .tdmFrameLen p
  let n := match d.g .tdmFsShape p with
    | 0 => 1
    | 1 => d.g .tdmSlotWidth p
    | _ => len / 2
  (List.range len).map fun x => b2n (decide ((x + 1) % len < n) == (d.g .tdmPolarity p).testBit 0)

/-- The pins of a port: in OFF at their reset state; else BCLK and FS are driven in master mode (R230, R233, R236). -/
def Dev.portPins (d : Dev) (p : Nat) : TdmCtx :=
  if !d.on .tdmEnable p then {}
  else
    let master := d.g .tdmMode p == 0
    { output := master, bclk := if master then d.g .tdmFrameLen p * d.g .tdmRate p else 0,
      fs := if master then d.fsLevels p else [], rising := (d.g .tdmPolarity p).testBit 1 }

/-- Bit clock of bit `i` of slot `s`, counted from the frame sync edge (R231). One past the end of the frame lies in the next
wire interval, and belongs to the frame the edge opened. [DEDUCED, log entry 141] -/
def Dev.bitClock (d : Dev) (p s i : Nat) : Nat := d.g .tdmSlotOffset p + s * d.g .tdmSlotWidth p + i

/-- The word of a slot, from the wire interval of its frame and the one after it (R232). -/
def Dev.slotWord (d : Dev) (p s : Nat) (wire next : List Nat) : Nat :=
  let len := d.g .tdmFrameLen p
  let bit (x : Nat) : Nat := if x < len then wire.getD x 0 else next.getD (x - len) 0
  ((List.range (d.g .tdmWordLen p)).map fun i => bit (d.bitClock p s i) % 2 * 2 ^ (31 - i)).sum

/-- A slot's word ends in the wire interval after its frame. -/
def Dev.slotWraps (d : Dev) (p s : Nat) : Bool := d.g .tdmFrameLen p < d.bitClock p s (d.g .tdmWordLen p)

/-- The bits a port drives in a wire interval: those of the frame it latched, and those of the frame before that lie past its
end (R232, R238). [DEDUCED, log entry 141] -/
def Dev.wireOut (d : Dev) (p : Nat) (l before : TdmLatch) : List Nat :=
  let len := d.g .tdmFrameLen p
  let drive (l : TdmLatch) (s i : Nat) : Nat :=
    if l.tx.testBit s ∧ l.loop ≠ 3 then
      (if i < d.g .tdmWordLen p then b2n ((l.samples.getD s 0).testBit (31 - i)) else 0)
    else if d.g .tdmTxIdle p = 1 then 2 else 0
  (List.range (d.g .tdmSlots p)).foldl (fun bits s =>
    (List.range (d.g .tdmSlotWidth p)).foldl (fun (bits : List Nat) i =>
      let x := d.bitClock p s i
      if x < len then bits.set x (drive l s i) else bits.set (x - len) (drive before s i)) bits) (List.replicate len 0)

/-- What a port latches at a frame sync: masks, loop, and its destinations' samples. -/
def Dev.tdmLatch (d : Dev) (p : Nat) : TdmLatch :=
  { tx := d.g .tdmTxMask p, rx := d.g .tdmRxMask p, loop := d.g .tdmLoop p,
    samples := (List.range 32).map fun s => (d.dst (32 * p + s)).out }

/-- The words a port delivers at a frame sync: of each slot the word that its last bit has completed, under the receive mask
of the word's own frame (R235, R237, R238). `line` holds the wire interval that ends; `bad`: its frame is malformed. -/
def Dev.received (d : Dev) (p : Nat) (line : List Nat) (bad : Bool) : List Nat :=
  let c := d.tdm p
  (List.range 32).map fun s =>
    if d.g .tdmSlots p ≤ s then 0
    else if d.slotWraps p s then
      (if c.wireBad ∨ c.stamps.length < 2 ∨ !c.before.rx.testBit s then 0 else d.slotWord p s c.wire line)
    else if bad ∨ !c.synced ∨ !c.now.rx.testBit s then 0 else d.slotWord p s line []

/-- A frame sync is stamped (R235, R237): `wire` holds the bits of the wire interval it ends, one per bit clock. Frame k's
latch governs what its interval delivers and what the next one carries. A slip of the PLL's queue repeats or drops the
frame's samples (R243, R246). -/
def Dev.frameSync (e : Env) (d : Dev) (p : Nat) (wire : List Nat) : Dev :=
  let st := d.g .tdmState p
  if st = tdmOff then d
  else
    let c := d.tdm p
    let slave := d.g .tdmMode p == 1
    let whole := wire.length == d.g .tdmFrameLen p
    let good := if !c.synced then 0 else if whole then c.good + 1 else 0
    let d := d.count .tdmFrames p
    let d := if slave ∧ c.synced ∧ !whole then (d.count .tdmMalformed p).flag .tdmEventFlags p 1 else d
    let st' := if !slave then tdmRunning else if st ≠ tdmRunning ∧ 16 ≤ good then tdmRunning else st
    let d := d.setTdm e.now p st'
    let line := if c.now.loop = 1 ∨ c.now.loop = 2 then c.sdo.map (· % 2) else wire
    let bad := slave && !whole
    let (words, d) := d.napLine ((d.g .napPorts).testBit p) (32 * p) (d.received p line bad)
    let d := if st' = tdmRunning ∧ c.slip = 0 then
        (words.zipIdx).foldl (fun d (q : Nat × Nat) => d.srcPut e.now (32 * p + q.2) q.1) d
      else d
    let l := d.tdmLatch p
    let l := if c.slip = 1 then { l with samples := c.now.samples } else l
    let changed := c.synced && (l.tx != c.now.tx || l.rx != c.now.rx || l.loop != c.now.loop)
    let d := if changed then d.flag .tdmEventFlags p 3 else d
    let sdo := if st' = tdmLost then List.replicate (d.g .tdmFrameLen p) 2
      else if c.now.loop = 3 then wire else d.wireOut p c.now c.before
    (d.putTdm p { c with now := l, before := c.now, synced := true, stamps := (e.now :: c.stamps).take 65, good := good,
                         sdo := sdo, wire := line, wireBad := bad || !c.synced, slip := 0 }).put .tdmLastLatch p e.tick

/-- A slave port is silent for two frame periods. -/
def Dev.tdmSilent (e : Env) (d : Dev) (p : Nat) : Bool :=
  match (d.tdm p).stamps with
  | [] => false
  | t :: _ => 2000000000 < 250 * (e.now - t) * d.g .tdmRate p

/-- Its mean rate over 64 frames is off by more than 1,000 ppm. -/
def Dev.tdmOffRate (d : Dev) (p : Nat) : Bool :=
  match (d.tdm p).stamps, (d.tdm p).stamps[64]? with
  | t :: _, some u =>
    let span : Rat := ((250 * (t - u) : Nat) : Rat)
    let rate : Rat := 64 * 1000000000 / span
    let nom : Rat := ((d.g .tdmRate p : Nat) : Rat)
    decide (nom / 1000 < rate - nom) || decide (nom / 1000 < nom - rate)
  | _, _ => false

/-- A slave port is declared LOST (R235). -/
def Dev.portLoss (e : Env) (d : Dev) (p : Nat) : Dev :=
  let off := d.tdmOffRate p
  if d.g .tdmMode p = 1 ∧ d.g .tdmState p = tdmRunning ∧ (d.tdmSilent e p ∨ off) then
    let d := if off then d.flag .tdmEventFlags p 2 else d
    (d.setTdm e.now p tdmLost).putTdm p { d.tdm p with good := 0, sdo := List.replicate (d.g .tdmFrameLen p) 2 }
  else d

/-! ## ASRC (R244, R245) -/

/-- A channel's quadruple of clocks, resolved. -/
def Dev.asrcQuad (d : Dev) (n : Nat) : Nat × Nat × Nat × Nat :=
  (d.resolve (d.g .asrcInClock n), d.g .asrcInRate n, d.resolve (d.g .asrcOutClock n), d.g .asrcOutRate n)

/-- Channels a route in force uses. -/
def Dev.asrcUsed (d : Dev) : List Nat :=
  let rs := d.routes
  (List.range 128).filter fun n => rs.any fun r => r.1 == 768 + n || r.2 == 768 + n

/-- The clock of an identity delivers samples: not a LOST port and not an OFF PLL, and audio is not stopped (R245). -/
def Dev.clockRuns (d : Dev) (id : Nat) : Bool :=
  if d.stopped then false
  else if 0x10 ≤ id then d.g .tdmState (id - 0x10) == tdmRunning
  else if 4 ≤ id then d.g .pllState (id - 4) != pllOff
  else true

/-- The channels that share a tracker report its state and ratio; one whose own input clock has stopped has no input. Outside
LOCKED a channel outputs 0 (R245). -/
def Dev.reportTracker (now : Nat) (d : Dev) (t : Nat) (used : List Nat) : Dev :=
  match d.audio.trackers.find t with
  | none => d
  | some x => (used.filter fun n => d.asrcQuad n == x.quad).foldl (fun d n =>
      let st := if d.clockRuns (d.g .asrcInClock n) then x.st else 3
      let d := if d.g .asrcState n = st then d else (d.put .asrcState n st).flag .asrcEventFlags n 0
      let d := if st = 2 then d else d.srcPut now (768 + n) 0
      (d.put .asrcTracker n t).put .asrcRatio n x.ratio) d

def Dev.putTracker (d : Dev) (t : Nat) (x : Tracker) : Dev :=
  { d with audio := { d.audio with trackers := d.audio.trackers.put t x } }

/-- A quadruple keeps its tracker; a new one takes the lowest free number. -/
def Dev.assignTrackers (d : Dev) (quads : List (Nat × Nat × Nat × Nat)) : Dev :=
  let kept := d.audio.trackers.filter fun (p : Nat × Tracker) => quads.contains p.2.quad
  let d := { d with audio := { d.audio with trackers := kept } }
  quads.foldl (fun d q =>
    if d.audio.trackers.any fun (p : Nat × Tracker) => p.2.quad == q then d
    else match (List.range 16).find? fun t => (d.audio.trackers.find t).isNone with
      | some t => d.putTracker t { quad := q }
      | none => d) d

/-- A channel no route uses is IDLE. -/
def Dev.idleChannel (now : Nat) (d : Dev) (n : Nat) : Dev :=
  if d.g .asrcState n = 0 then d
  else ((((d.srcPut now (768 + n) 0).put .asrcState n 0).put .asrcTracker n 0xFF).put .asrcRatio n 0).flag .asrcEventFlags n 0

/-- A tracker's state follows the input clocks of its channels. -/
def Dev.trackerInput (now : Nat) (d : Dev) (used : List Nat) (t : Nat) : Dev :=
  match d.audio.trackers.find t with
  | none => d
  | some x =>
    let runs := used.any fun n => d.asrcQuad n == x.quad && d.clockRuns (d.g .asrcInClock n)
    let st := if !runs then 3 else if x.st = 3 then 1 else x.st
    (d.putTracker t { x with st := st }).reportTracker now t used

/-- Trackers follow the routes, clocks and ports in force. -/
def Dev.trackersFollow (now : Nat) (d : Dev) : Dev :=
  let used := d.asrcUsed
  let d := d.assignTrackers (used.map d.asrcQuad).eraseDups
  let d := ((List.range 128).filter fun n => !used.contains n).foldl (Dev.idleChannel now) d
  (List.range 16).foldl (fun d t => d.trackerInput now used t) d

/-- A tracker has measured its ratio, 8.24 fixed point. -/
def Dev.trackerLocks (now : Nat) (d : Dev) (t ratio : Nat) : Dev :=
  match d.audio.trackers.find t with
  | none => d
  | some x =>
    if x.st = 1 then
      ((d.putTracker t { x with st := 2, ratio := ratio % 2 ^ 32 }).reportTracker now t d.asrcUsed).returned (80 + t)
    else d

/-! ## Network playout (R260 to R262, R265, R268) -/

/-- The caravan in force an audio member belongs to: a flow, or 0x80 + slot. -/
def Dev.caravanOf (d : Dev) (m : Nat) : Option Nat :=
  (List.range 32).find? fun c => d.g .cvMode c != 0 &&
    [d.g .cvAudio0 c, d.g .cvAudio1 c, d.g .cvAudio2 c, d.g .cvAudio3 c, d.g .cvAudio4 c, d.g .cvAudio5 c,
     d.g .cvAudio6 c, d.g .cvAudio7 c].contains m

/-- D in ns of a flow or slot. -/
def Dev.playDelay (d : Dev) (m : Nat) : Nat :=
  1000 * match d.caravanOf m with
    | some c => d.g .cvDelay c
    | none => if m < 0x80 then d.g .nrOffset m else d.g .embOffset (m - 0x80)

/-- Rate of a flow or slot. -/
def Dev.playRate (d : Dev) (m : Nat) : Nat := if m < 0x80 then d.g .nrRate m else 48000

/-- Media count a flow or slot plays at the present time base. -/
def Dev.playing (e : Env) (d : Dev) (m : Nat) : Int :=
  (((e.tb : Int) - (d.playDelay m : Nat)) * (d.playRate m : Nat)) / 1000000000

/-- The sample of media count `m` a slot or flow holds. -/
def Dev.heldSample (d : Dev) (u : Nat) (m : Int) : Option (List Nat) :=
  if m < 0 then none
  else if u < 0x80 then (d.flow u).buf.find m.toNat
  else
    let bs := d.embBlocks.getD (u - 0x80) []
    bs.findSome? fun b =>
      if b.first ≤ m.toNat then b.samples[m.toNat - b.first]? else none

/-- The factor in 1/32 a sample leaves with: down to 0 over the 32 samples before a gap, up over the 32 after one, and
silent while its caravan is paused (R261, R270). -/
def Dev.playFactor (e : Env) (d : Dev) (u : Nat) (m : Int) : Nat :=
  let before := ((List.range 32).find? fun j => (d.heldSample u (m + 1 + (j : Nat))).isNone).getD 32
  let after := ((List.range 32).find? fun j => (d.heldSample u (m - 1 - (j : Nat))).isNone).getD 32
  let gap := min before (min 32 (after + 1))
  let since (t : Nat) : Nat := (e.tb - t) * d.playRate u / 1000000000
  match d.caravanOf u with
  | none => gap
  | some c =>
    let x := d.audio.caravans.getD c {}
    match x.silent, x.back with
    | some s, none => if e.tb < s then gap else min gap (32 - min 32 (since s + 1))
    | some s, some b =>
      if e.tb < s then gap else if e.tb < b then min gap (32 - min 32 (since s + 1)) else min gap (min 32 (since b + 1))
    | none, some b => if e.tb < b then gap else min gap (min 32 (since b + 1))
    | none, none => gap

/-- The sample of media count `m` as a network channel or an embedding channel delivers it. -/
def Dev.playSample (e : Env) (d : Dev) (u ch : Nat) (m : Int) : Nat :=
  match d.heldSample u m with
  | none => 0
  | some xs => scaleSample (xs.getD ch 0) (d.playFactor e u m) 32

/-- The flow or slot that delivers a network or embedding source, and the channel of it. -/
def Dev.unitOf (d : Dev) (n : Nat) : Option (Nat × Nat) :=
  if 512 ≤ n ∧ n < 768 then
    ((d.recvFlow (n - 512)).filter fun f => d.on .nrEnable f && d.g .nrState f == 2).map fun f => (f, n - 512 - d.g .nrFirst f)
  else if 896 ≤ n ∧ n < 960 then some (0x80 + (n - 896) / 8, n % 8)
  else none

/-- The sample of a source at the instant before the present one (R257): one that a port or an ASRC channel delivered in this
tick belongs to the present instant. [DEDUCED, log entry 142] -/
def Dev.srcSample (e : Env) (d : Dev) (n : Nat) : Nat :=
  match d.unitOf n with
  | some (u, ch) => d.playSample e u ch (d.playing e u - 1)
  | none =>
    let c := d.audio.srcs.getD n {}
    if c.at_ = e.now then c.before else c.value

/-- Returns to delivering of whatever a source belongs to (R258). -/
def Dev.srcReturns (d : Dev) (n : Nat) : Nat :=
  let k := if n < 512 then some (n / 32)
    else if n < 768 then (d.recvFlow (n - 512)).map (16 + ·)
    else if n < 896 then some (80 + d.g .asrcTracker (n - 768))
    else none
  match k with
  | some k => d.audio.returns.getD k 0
  | none => 0

/-! ## What a destination's objects say (R258) -/

def Dev.dstSet (d : Dev) (n : Nat) : DstSet :=
  { srcs := d.dstSrcs n, gains := d.dstGains n, gain := d.gi .dstGain n, key := d.g .dstDuckKey n, mask := d.g .dstDuckMask n,
    depth := d.gi .dstDuckDepth n, thresh := d.gi .dstDuckThresh n, attack := d.g .dstDuckAttack n,
    hold := d.g .dstDuckHold n, release := d.g .dstDuckRelease n }

/-- A write takes effect from the first sample period that begins 2 ticks after the start of its tick. -/
def inEffect (now : Nat) (p : Nat × DstSet) : Bool := p.1 == 0 || p.1 + 2 ≤ now

/-- What is in effect of what the objects have said. -/
def Dev.dstInForce (now : Nat) (d : Dev) (n : Nat) : DstSet :=
  match (d.dst n).sets.find? (inEffect now) with
  | some p => p.2
  | none => d.dstSet n

/-- A destination's objects have been written; `old` is the part before. -/
def Dev.landDst (now : Nat) (old d : Dev) (n : Nat) : Dev :=
  let c := d.dst n
  d.putDst n { c with sets := (now, d.dstSet n) :: (if c.sets.isEmpty then [(0, old.dstSet n)] else c.sets) }

/-- What is no longer in effect, nor will be, is dropped. -/
def prune (now : Nat) (l : List (Nat × DstSet)) : List (Nat × DstSet) :=
  (l.takeWhile fun p => !inEffect now p) ++ ((l.dropWhile fun p => !inEffect now p).take 1)

/-! ## Ducking (R259) -/

def duckOpen : Nat := 0
def duckAttack : Nat := 1
def duckDucked : Nat := 2
def duckRelease : Nat := 3

/-- The duck gain now, in 0.01 dB. [DEDUCED, log entry 52] -/
def Dev.duckGain (e : Env) (d : Dev) (n : Nat) (s : DstSet) : Rat :=
  let c := d.dst n
  let depth : Rat := ((s.depth : Int) : Rat)
  let ms : Rat := ((e.now - c.duckAt : Nat) : Rat) / 4000
  let st := d.g .dstDuckState n
  if st = duckAttack then max depth (c.duck + depth * ms / (s.attack : Nat))
  else if st = duckDucked then depth
  else if st = duckRelease then min 0 (c.duck - depth * ms / (s.release : Nat))
  else 0

/-- A duck state is entered from the gain reached. -/
def Dev.enterDuck (e : Env) (d : Dev) (n st : Nat) (s : DstSet) : Dev :=
  if d.g .dstDuckState n = st then d
  else
    let g := d.duckGain e n s
    (d.putDst n { d.dst n with duck := g, duckAt := e.now }).put .dstDuckState n st

/-- The states the duck gain leaves of itself: on reaching the depth, on reaching 0 dB, and after the hold. -/
def Dev.duckMoves (e : Env) (d : Dev) (n : Nat) : Dev :=
  let s := d.dstInForce e.now n
  let st := d.g .dstDuckState n
  let g := d.duckGain e n s
  if st = duckAttack ∧ g ≤ ((s.depth : Int) : Rat) then d.enterDuck e n duckDucked s
  else if st = duckDucked ∧ (d.dst n).active + s.hold * 4000 ≤ e.now then d.enterDuck e n duckRelease s
  else if st = duckRelease ∧ 0 ≤ g then d.enterDuck e n duckOpen s
  else d

/-- The peak of a key over the 1 ms block that ends, at the key's own clock. -/
def Dev.blockPeak (e : Env) (d : Dev) (n key : Nat) : Nat :=
  match d.unitOf key with
  | some (u, ch) =>
    let m := d.playing e u
    ((List.range (d.playRate u / 1000)).map fun j => magnitude (d.playSample e u ch (m - (j : Nat)))).foldl max 0
  | none => (d.dst n).keyPeak

/-- A 1 ms key block ends. [DEDUCED, log entry 52] -/
def Dev.duckBlock (e : Env) (d : Dev) (n : Nat) : Dev :=
  let s := d.dstInForce e.now n
  let active := s.key != 0xFFFF && atLeastDb (d.blockPeak e n s.key) s.thresh
  let d := d.puti .dstPeak n (peakDb (d.dst n).peak)
  let c := d.dst n
  let d := d.putDst n { c with keyPeak := 0, peak := 0, active := if active then e.now else c.active }
  let st := d.g .dstDuckState n
  if s.key = 0xFFFF then d.enterDuck e n duckOpen s
  else
    let d := if active ∧ (st = duckOpen ∨ st = duckRelease) then d.enterDuck e n duckAttack s else d
    d.duckMoves e n

/-! ## Mixing (R257, R258) -/

/-- What the term of slot `i` follows; none when it is switched off by −32,768. -/
def DstSet.want (s : DstSet) (i : Nat) : Option TermGain :=
  let g := s.gains.getD i 0
  let ducked := s.mask.testBit i
  if g = -32768 then none else some { gain := g + s.gain, ducked := ducked, depth := if ducked then s.depth else 0 }

/-- The coefficient of a term now, before ramping; the whole sum of its gains is clamped. -/
def Dev.termCoef (e : Env) (d : Dev) (n : Nat) (s : DstSet) (t : Term) : Int :=
  match t.gain with
  | none => 0
  | some g =>
    let duck : Int := if g.ducked then (d.duckGain e n s + 1 / 2).floor else 0
    (gainCoef (clampInt (-12000) 2400 (g.gain + duck)) : Nat)

/-- A term's coefficient in this sample period: on its ramp, or settled. -/
def Term.coef (t : Term) (target : Int) : Int :=
  if t.step < t.len then t.start + (target - t.start) * ((t.step + 1 : Nat) : Int) / (t.len : Int) else target

/-- The terms after what is in effect of the destination's objects: routes that end ramp out, new ones in, and a changed
gain or duck setting or a returned source starts a ramp. -/
def Dev.retarget (d : Dev) (n : Nat) (c : DstCtx) (s : DstSet) : List Term :=
  let ramp := d.g .dstRamp n
  let outgoing := c.terms.map fun (t : Term) =>
    if s.srcs.getD t.slot 0xFFFF = t.src ∧ t.gain.isSome then t
    else if t.gain.isSome then { t with gain := none, start := t.last, step := 0, len := ramp }
    else t
  let still := outgoing.filter fun (t : Term) => t.gain.isSome || t.step < t.len
  (List.range 8).foldl (fun (ts : List Term) i =>
    let src := s.srcs.getD i 0xFFFF
    if src = 0xFFFF then ts
    else
      let want := s.want i
      let seen := d.srcReturns src
      if ts.any fun t => t.slot == i && t.src == src && t.gain.isSome then
        ts.map fun t =>
          if t.slot = i ∧ t.src = src ∧ t.gain.isSome then
            (if t.seen ≠ seen then { t with gain := want, start := 0, step := 0, len := ramp, seen := seen }
             else if t.gain = want then t
             else { t with gain := want, start := t.last, step := 0, len := ramp })
          else t
      else ts ++ [{ slot := i, src := src, start := 0, step := 0, len := if want.isNone then 0 else ramp, last := 0,
                    gain := want, seen := seen }]) still

/-- A 32-bit saturated sum. -/
def saturate32 (v : Int) : Nat := ofInt 32 (clampInt (-(2 ^ 31)) (2 ^ 31 - 1) v)

/-- Samples a capture destination keeps: enough for the longest frame. -/
def keptSamples : Nat := 4096

/-- Destination `n` forms its output sample. -/
def Dev.mixSample (e : Env) (d : Dev) (n : Nat) : Nat × Dev :=
  let d := d.duckMoves e n
  let c := d.dst n
  let s := d.dstInForce e.now n
  let run := (d.retarget n c s).map fun (t : Term) =>
    let k := t.coef (d.termCoef e n s t)
    (asInt 32 (d.srcSample e t.src) * k + 2 ^ 23, { t with last := k, step := min t.len (t.step + 1) })
  let out := saturate32 ((run.map fun (p : Int × Term) => p.1 / 2 ^ 24).foldl (· + ·) 0)
  let kept := if 960 ≤ n then ((mediaCount e.tb 48000, out) :: c.kept).take keptSamples else c.kept
  (out, d.putDst n { c with out := out, terms := run.map (·.2), peak := max c.peak (magnitude out), kept := kept,
                            sets := prune e.now c.sets })

/-- An ASRC input forms a sample: the channel's output is a free value while it is LOCKED, and 0 otherwise (R245). -/
def Dev.asrcFeed (now : Nat) (d : Dev) (n : Nat) : Dev :=
  if d.g .asrcState n = 2 then
    let (v, d) := d.draw 32
    d.srcPut now (768 + n) v
  else d.srcPut now (768 + n) 0

/-- A head's destination forms a sample: one of the first `head_aud_ch` channels is sent, cut to `head_aud_depth`, while the
head is ACTIVE and sends video; another is discarded (R264). -/
def Dev.headFeed (d : Dev) (h ch out : Nat) : Dev :=
  let c := d.head h
  let depth := d.g .headAudDepth h
  let sent := d.g .headState h == headActive && c.video && decide (ch < d.g .headAudCh h)
  let audio := if sent then c.audio.put ch (out / 2 ^ (32 - depth)) else c.audio.del ch
  d.putHead h { c with audio := audio }

/-- Headers of a send flow's packet (R263). -/
def Dev.flowRtp (d : Dev) (f seq ts : Nat) : RtpOut :=
  { srcIp := d.g .ethIp (d.g .nsMac f), dstIp := d.g .nsDstIp f, dscp := d.g .nsDscp f,
    ttl := d.g .ethTtl (d.g .nsMac f), tag := d.g .nsTag f,
    srcPort := d.g .nsSrcPort f, dstPort := d.g .nsUdpPort f, pt := d.g .nsPt f, ssrc := d.g .nsSsrc f,
    seq := seq, ts := ts, marker := false }

/-- A send flow's last channel has formed a sample: the flow's channels join the packet in progress, and a full packet is
sent, its timestamp the media clock count of its first sample (R263). Answers the flow and the packet's content. -/
def Dev.sendFeed (e : Env) (d : Dev) (ch : Nat) : Option (Nat × TxBody) × Dev :=
  match (List.range 64).find? fun f => d.on .nsEnable f && d.g .nsFirst f + d.g .nsChannels f == ch + 1 with
  | none => (none, d)
  | some f =>
    let c : SendCtx := d.audio.sends.getD f {}
    let cut := if d.g .nsEncoding f = 0 then 2 ^ 16 else 2 ^ 8
    let line := (List.range (d.g .nsChannels f)).map fun i => (d.dst (512 + d.g .nsFirst f + i)).out / cut * cut
    let ts := if c.samples.isEmpty then mediaCount e.tb (d.g .nsRate f) % 2 ^ 32 else c.ts
    let samples := c.samples ++ [line]
    let full := d.g .nsPacketSamples f ≤ samples.length
    let c' : SendCtx := if full then { seq := (c.seq + 1) % 2 ^ 16 } else { c with ts := ts, samples := samples }
    let d := { d with audio := { d.audio with sends := d.audio.sends.put f c' } }
    if full then (some (f, .pcm (d.flowRtp f c.seq ts) samples), d.count .nsPkts f) else (none, d)

/-! ## Receive flows (R260 to R262) -/

def Dev.setFlow (d : Dev) (f st : Nat) : Dev :=
  if d.g .nrState f = st then d
  else
    let d := (d.put .nrState f st).flag .nrEventFlags f 0
    if st = 2 then d.returned (16 + f) else d

/-- The media count of a 32-bit RTP timestamp, nearest to the present (R73, R261). -/
def mediaNear (ts now : Nat) : Nat :=
  let lo := now / 2 ^ 32 * 2 ^ 32 + ts
  let dist (x : Nat) : Nat := if x < now then now - x else x - now
  let best := if dist (lo + 2 ^ 32) < dist lo then lo + 2 ^ 32 else lo
  if 2 ^ 32 ≤ lo ∧ dist (lo - 2 ^ 32) ≤ dist best then lo - 2 ^ 32 else best

/-- A sample of media count `m` comes after its decision: the instant 32 sample periods before its playout (R261). -/
def Dev.tooLate (e : Env) (d : Dev) (u m : Nat) : Bool :=
  decide (((m : Int) - 32) * 1000000000 < ((e.tb : Int) - (d.playDelay u : Nat)) * (d.playRate u : Nat))

/-- Samples a flow or slot keeps behind the one it plays: those of a key block and of a ramp. -/
def keptBehind : Nat := 160

/-- A matching packet of a receive flow. [DEDUCED, log entry 32] -/
def Dev.flowPacket (e : Env) (d : Dev) (f ts : Nat) (samples : List (List Nat)) : Dev :=
  let d := ((d.setFlow f 2).count .nrPkts f).putFlow f { d.flow f with last := e.now }
  let base := mediaNear ((ts + 2 ^ 32 - d.g .nrTsOffset f % 2 ^ 32) % 2 ^ 32) (mediaCount e.tb (d.g .nrRate f))
  (samples.zipIdx).foldl (fun d (q : List Nat × Nat) =>
    let m := base + q.2
    if d.tooLate e f m then (d.count .nrLate f).flag .nrEventFlags f 2
    else
      let (xs, d) := d.napLine (d.on .nrNap f) (512 + d.g .nrFirst f) q.1
      let c := d.flow f
      let low := d.playing e f - (keptBehind : Nat)
      let buf : Tab (List Nat) := c.buf.filter fun (p : Nat × List Nat) => decide (low ≤ (p.1 : Int))
      d.putFlow f { c with buf := Tab.put buf m xs }) d

/-- A receive flow falls silent for 20 ms. -/
def Dev.flowLoss (e : Env) (d : Dev) (f : Nat) : Dev :=
  if d.g .nrState f = 2 ∧ (d.flow f).last + 80000 ≤ e.now then d.setFlow f 3 else d

/-- A sample is decided missing at its decision point: a gap counts once (R261). -/
def Dev.sampleMissing (e : Env) (d : Dev) (n : Nat) : Dev :=
  match d.unitOf n with
  | none => d
  | some (u, _) =>
    let m := d.playing e u + 32
    if (d.heldSample u m).isSome then d
    else if u < 0x80 then
      let first := (d.heldSample u (m - 1)).isSome || !(d.flow u).gap
      let d := d.putFlow u { d.flow u with gap := true, missed := true }
      if first then (d.count .nrUnderruns u).flag .nrEventFlags u 1 else d
    else d.putFlow u { d.flow u with gap := true, missed := true }

end Sys2Proof.Machine
end

