-- ==== Sys2Proof/Machine/Surface.lean ====
section
/-!
DEFINITION. Surfaces in byte memories: descriptors, tiled and linear addressing, reading and writing rectangles
(R281 to R286, R292).
-/

namespace Sys2Proof.Machine

/-- A format code of R283. -/
structure Fmt where
  samp : Nat
  depth : Nat
  linear : Bool
  argb : Bool
deriving DecidableEq, Repr

def fmtOf (code : Nat) : Option Fmt :=
  if code = 0xF0 then some ⟨3, 8, true, true⟩
  else if code / 32 ≠ 0 ∨ bitsAt code 2 2 = 3 then none
  else some ⟨bitsAt code 0 2, 8 + 2 * bitsAt code 2 2, code.testBit 4, false⟩

/-- The format code of a sampling and depth, linear. -/
def fmtCode (samp depth : Nat) : Nat := samp + (depth - 8) / 2 * 4 + 16

/-- A surface descriptor with its rectangle (R281). -/
structure Surf where
  addr : Nat
  pitch : Nat
  space : Nat
  fmt : Fmt
  coding : Coding
  h : Nat
  w : Nat
  x : Nat
  y : Nat
  rw_ : Nat
  rh : Nat
deriving DecidableEq, Repr

/-- Bits of a line of `w` pixels of a format. -/
def Fmt.bits (f : Fmt) (w : Nat) : Nat := if f.argb then 32 * w else lineBits f.samp f.depth w

def Surf.lineBytes (s : Surf) : Nat := ceilDiv (s.fmt.bits s.w) 8

/-- The quantum of R285. -/
def Fmt.quantum (f : Fmt) : Nat :=
  if f.argb then 1
  else if f.samp = 1 then 2
  else if f.samp = 0 then (if f.depth = 8 then 2 else if f.depth = 10 then 8 else 4)
  else if f.depth = 8 then 1 else if f.depth = 10 then 4 else 2

/-- Address of byte `b` of line `y` (R284). -/
def Surf.at (s : Surf) (y b : Nat) : Nat :=
  if s.fmt.linear then s.addr + y * s.pitch + b
  else
    let full := s.h / 16 * 16
    let rk := if y < full then 16 else s.h % 16
    s.addr + 16 * s.pitch * (y / 16) + 64 * (b / 64) * rk + 64 * (y % 16) + b % 64

/-- The rules of R285 on alignment and pitch. -/
def Surf.alignedOk (s : Surf) : Bool :=
  let q := s.fmt.quantum
  let edge (v : Nat) : Bool := v % q == 0
  (if s.fmt.linear then s.addr % 4 == 0 && s.pitch % 4 == 0 && s.lineBytes ≤ s.pitch
   else s.addr % 1024 == 0 && s.pitch % 64 == 0 && roomPitch s.fmt.samp s.fmt.depth s.w ≤ s.pitch)
    && edge s.x && (edge (s.x + s.rw_) || s.x + s.rw_ == s.w)
    && (s.fmt.argb || s.fmt.samp != 0 || (s.y % 2 == 0 && s.rh % 2 == 0))

/-- The size limits of R286 for a surface. -/
def Surf.sizeOk (s : Surf) : Bool :=
  let m := if s.fmt.linear then 16384 else 4096
  1 ≤ s.w && s.w ≤ m && 1 ≤ s.h && s.h ≤ m

def Surf.rectOk (s : Surf) : Bool := s.x + s.rw_ ≤ s.w && s.y + s.rh ≤ s.h

/-- Bit runs of pixels `x` to `x + n - 1` of line `y`: first and last bit. -/
def Surf.runs (s : Surf) (x n : Nat) : List (Nat × Nat) :=
  let f := s.fmt
  if f.argb then [(32 * x, 32 * (x + n) - 1)]
  else if f.samp = 0 then
    [(x * f.depth, (x + n) * f.depth - 1), ((s.w + x / 2) * f.depth, (s.w + x / 2 + ceilDiv n 2) * f.depth - 1)]
  else if f.samp = 1 then [(x / 2 * 4 * f.depth, (x / 2 + ceilDiv n 2) * 4 * f.depth - 1)]
  else [(3 * x * f.depth, 3 * (x + n) * f.depth - 1)]

/-- First and last byte of a line the rectangle touches. -/
def Surf.byteSpan (s : Surf) : Nat × Nat :=
  let rs := s.runs s.x s.rw_
  (leastOr 0 (rs.map fun r => r.1 / 8), rs.foldl (fun m r => max m (r.2 / 8)) 0)

/-- The touched range of R292: first and last address. -/
def Surf.touched (s : Surf) : Nat × Nat :=
  if s.fmt.linear then (s.at s.y s.byteSpan.1, s.at (s.y + s.rh - 1) s.byteSpan.2)
  else
    let k0 := s.y / 16
    let k1 := (s.y + s.rh - 1) / 16
    (s.addr + 16 * s.pitch * k0, s.addr + min (16 * s.pitch * (k1 + 1)) (s.h * s.pitch) - 1)

def Surf.touchedBytes (s : Surf) : Nat := s.touched.2 + 1 - s.touched.1

/-- Bytes of the rectangle. -/
def Surf.rectBytes (s : Surf) : Nat :=
  s.rh * ((s.runs s.x s.rw_).map fun r => r.2 / 8 + 1 - r.1 / 8).sum

/-- A line's bits. -/
def Surf.line (s : Surf) (byte : Nat → Byte) (y : Nat) : Nat :=
  ofLe ((List.range s.lineBytes).map fun b => byte (s.at y b))

/-- The rectangle's samples; for A'R'G'B' the three colour planes. -/
def Surf.readRect (s : Surf) (byte : Nat → Byte) : Pic :=
  let (sx, sy) := chromaDiv s.fmt.samp
  let ln (j : Nat) : Nat := s.line byte (s.y + j)
  let plane (k : Nat) (step x n : Nat) : List (List Nat) :=
    (List.range (ceilDiv s.rh step)).map fun j =>
      let y := step * j + (if step = 2 ∧ k = 2 then 1 else 0)
      if s.fmt.argb then (List.range n).map fun i => bitsAt (ln y) (32 * (x + i) + 16 - 8 * k) 8
      else unpackRun s.fmt.samp s.fmt.depth s.w k x n (ln y)
  { w := s.rw_, h := s.rh, samp := s.fmt.samp, depth := s.fmt.depth,
    y := plane 0 1 s.x s.rw_
    c1 := plane 1 sy (s.x / sx) (ceilDiv s.rw_ sx)
    c2 := plane 2 sy (s.x / sx) (ceilDiv s.rw_ sx) }

/-- The alpha bytes of the rectangle of an A'R'G'B' surface; 255 for any other. -/
def Surf.readAlpha (s : Surf) (byte : Nat → Byte) : List (List Nat) :=
  (List.range s.rh).map fun j => (List.range s.rw_).map fun i =>
    if s.fmt.argb then (byte (s.at (s.y + j) (4 * (s.x + i) + 3))).toNat else 255

/-- Line `j` of the rectangle with a picture's samples in it. -/
def Surf.newLine (s : Surf) (byte : Nat → Byte) (p : Pic) (alpha : List (List Nat)) (j : Nat) : Nat :=
  let old := s.line byte (s.y + j)
  let (sx, _) := chromaDiv s.fmt.samp
  if s.fmt.argb then
    (List.range s.rw_).foldl (fun n i =>
      let v := (p.c2.getD j []).getD i 0 + 256 * (p.c1.getD j []).getD i 0 + 65536 * (p.y.getD j []).getD i 0
        + 16777216 * (alpha.getD j []).getD i 0
      setBits n (32 * (s.x + i)) 32 v) old
  else
    (linePlanes s.fmt.samp (s.y + j)).foldl (fun n k =>
      packRun s.fmt.samp s.fmt.depth s.w k (if k = 0 then s.x else s.x / sx) (p.planeLine k j) n) old

/-- The bytes line `j` of the rectangle writes. -/
def Surf.linePosts (s : Surf) (sp : Space) (base : Nat) (byte : Nat → Byte) (p : Pic) (alpha : List (List Nat))
    (j : Nat) : List Post :=
  let v := s.newLine byte p alpha j
  ((s.runs s.x s.rw_).map fun r =>
    (List.range (r.2 / 8 + 1 - r.1 / 8)).map fun k =>
      let b := r.1 / 8 + k
      (⟨sp, base + s.at (s.y + j) b, BitVec.ofNat 8 (bitsAt v (8 * b) 8)⟩ : Post)).flatten

/-- What a rectangle writes, by destination unit: a line, or a line pair for 4:2:0 (R291). -/
def Surf.unitPosts (s : Surf) (sp : Space) (base : Nat) (byte : Nat → Byte) (p : Pic) (alpha : List (List Nat)) :
    List (List Post) :=
  let n := if s.fmt.samp = 0 ∧ !s.fmt.argb then 2 else 1
  (List.range (ceilDiv s.rh n)).map fun u =>
    ((List.range n).map fun k => s.linePosts sp base byte p alpha (n * u + k)).flatten

/-- A space of R282 as a memory, its first byte there, and its size; none for host memory. -/
def Dev.window (d : Dev) (space : Nat) : Space × Nat × Option Nat :=
  if space = 0 then (.dram, d.porterArea.1, some d.porterArea.2)
  else if space = 1 then (.pantry, d.scratchPart.1, some d.scratchPart.2)
  else (.host, 0, none)

end Sys2Proof.Machine
end

