-- ==== Sys2Proof/Machine/Scaling.lean ====
section
/-!
DEFINITION. Scaling of a layer: crop and destination, ratios, pre-decimation, tap placement, coefficients, the filters
(R137, R160 to R167), the lines a layer uses (R165), the bytes it fetches (R147, R148) and its line-buffer need (R171).
-/

namespace Sys2Proof.Machine

/-- A layer's geometry against a source frame: crop and destination resolved (R137), sampling and depth of the frame,
and whether the frame's pool lines are of 12 bits for interpolation (R171). -/
structure Geom where
  fw : Nat
  fh : Nat
  samp : Nat
  depth : Nat
  cx : Nat
  cy : Nat
  cw : Nat
  ch : Nat
  dx : Nat
  dy : Nat
  dw : Nat
  dh : Nat
deriving DecidableEq, Repr

/-- Resolve a layer's crop and destination against a frame. -/
def Dev.geom (d : Dev) (n fw fh samp depth : Nat) : Geom :=
  let dep := n / 8
  let cx := d.g .layCropX n
  let cy := d.g .layCropY n
  let dx := d.g .layDstX n
  let dy := d.g .layDstY n
  { fw := fw, fh := fh, samp := samp, depth := depth, cx := cx, cy := cy,
    cw := if d.g .layCropW n = 0 then fw - cx else d.g .layCropW n,
    ch := if d.g .layCropH n = 0 then fh - cy else d.g .layCropH n,
    dx := dx, dy := dy,
    dw := if d.g .layDstW n = 0 then d.g .depWidth dep - dx else d.g .layDstW n,
    dh := if d.g .layDstH n = 0 then d.g .depHeight dep - dy else d.g .layDstH n }

/-- The geometry against the source arrival's envelope. -/
def Dev.envGeom (d : Dev) (n : Nat) : Geom :=
  let a := d.g .laySrc n
  d.geom n (d.g .arrWidth a) (d.g .arrHeight a) (d.g .arrSampling a) (d.g .arrDepth a)

/-- A ratio size / dest from 1/16 to 8 (R161). -/
def ratioOk (size dest : Nat) : Bool := dest ≤ 16 * size && size ≤ 8 * dest

def ratioLow (size dest : Nat) : Bool := 16 * size < dest

/-- Pre-decimation factor (R162). -/
def predec (size dest : Nat) : Nat := if size ≤ 2 * dest then 1 else if size ≤ 4 * dest then 2 else 4

def Geom.dH (g : Geom) : Nat := predec g.cw g.dw
def Geom.dV (g : Geom) : Nat := predec g.ch g.dh

/-! ## Line-buffer need (R171) -/

/-- The need of a layer in bytes, with `taps` 4 or 2. -/
def Geom.need (g : Geom) (interp : Bool) (taps : Nat) : Nat :=
  let c2 := sampC2 g.samp
  let wb := 2 * ceilDiv (ceilDiv g.cw g.dH) 2 + 6
  let depth := if g.dH = 1 ∧ g.dV = 1 ∧ !interp then g.depth else 12
  let line := 64 * ceilDiv (wb * depth * c2) 1024
  let lines := taps - 2 + ceilDiv g.ch (g.dh * g.dV) + (if g.samp = 0 then 1 else 0)
  lines * line + (if 1 < g.dV then 64 * ceilDiv (wb * 12 * c2) 1024 else 0)

/-- A layer is interpolating: `lay_rc_mode` 1 and an envelope rate other than its group's (R107, R171). -/
def Dev.rateDiffers (d : Dev) (a g : Nat) : Bool :=
  d.g .arrRateNum a * d.g .tgRateDen g != d.g .tgRateNum g * d.g .arrRateDen a

def Dev.interpolating (d : Dev) (n : Nat) : Bool :=
  d.g .layRcMode n == 1 && d.g .laySrc n < 256 && d.rateDiffers (d.g .laySrc n) (d.g .depGroup (n / 8))

/-- Need against a frame of the given size. [DEDUCED, log entry 28] -/
def Dev.needFor (d : Dev) (n fw fh samp depth taps : Nat) : Nat :=
  if d.g .laySrc n = 0x100 ∨ d.g .depLayers (n / 8) ≤ n % 8 then 0
  else (d.geom n fw fh samp depth).need (d.interpolating n) taps

/-- Layer `n` of the configuration `d` reads slice-locked or in bridge (R96, R103, R172). -/
def Dev.readsSlices (d : Dev) (n : Nat) : Bool :=
  let a := d.g .laySrc n
  a < 256 && d.g .arrStorage a == 1 && d.g .depGroup (n / 8) == d.g .arrSliceGroup a && 2 ≤ d.g .arrSliceMode a

/-- Need at a seal or a take (R172): against the envelope, or against `arr_format_now` for an unreserved layer.
[DEDUCED, log entry 28] -/
def Dev.checkNeed (d : Dev) (n : Nat) : Nat :=
  let a := d.g .laySrc n
  let now := d.g .arrFormatNow a
  let env := d.readsSlices n || d.on .layLbReserve n || now == 0
  if env then d.needFor n (d.g .arrWidth a) (d.g .arrHeight a) (d.g .arrSampling a) (d.g .arrDepth a) 4
  else d.needFor n (bitsAt now 0 16) (bitsAt now 16 16) (bitsAt now 52 2) (8 + 2 * bitsAt now 54 2) 4

/-! ## Position (R163) -/

/-- Position of output `j` of an axis, 24 fraction bits. -/
def axisPos (size D dest j : Nat) : Int :=
  let step : Int := roundUp ((2 ^ 24 * size : Nat) / ((D * dest : Nat) : Rat))
  (step - 2 ^ 24) / 2 + j * step

def posF (p : Int) : Int := p / 2 ^ 24
def posPhase (p : Int) : Nat := (p / 2 ^ 18 % 64).toNat

/-! ## Coefficients (R166, R167) -/

/-- Set 0 for a phase, in IEEE 754 double precision: taps `lo` to `lo + T - 1`. [DEDUCED, log entry 27] -/
def autoCoef (lo : Int) (T phase : Nat) (r : Rat) : List Int :=
  let pi : Float := 3.141592653589793
  let ofInt (k : Int) : Float := if k < 0 then -(Float.ofNat k.natAbs) else Float.ofNat k.natAbs
  let rf := ofInt r.num / Float.ofNat r.den
  let fc : Float := if r ≤ 1 then 1.0 else 1.0 / rf
  let h (k : Nat) : Float :=
    let dd := ofInt (lo + k) - Float.ofNat phase / 64.0
    let x := pi * (fc * dd)
    let s := if x == 0.0 then 1.0 else Float.sin x / x
    let c := Float.cos (pi * dd / Float.ofNat T)
    s * (c * c)
  let hs := (List.range T).map h
  let sum := hs.foldl (· + ·) 0.0
  let cs := hs.map fun v => ((Float.floor (256.0 * v / sum + 0.5)).toInt64).toInt
  let rest := 256 - cs.foldl (· + ·) 0
  let top := cs.foldl max (cs.headD 0)
  let k := cs.findIdx (· == top)
  cs.set k (top + rest)

/-- Bilinear and nearest sets over taps `lo` to `lo + T - 1`. -/
def simpleCoef (code : Nat) (lo : Int) (T phase : Nat) : List Int :=
  (List.range T).map fun k =>
    let t : Int := lo + (k : Nat)
    if code = 1 then (if t = 0 then 256 - 4 * (phase : Int) else if t = 1 then 4 * (phase : Int) else 0)
    else if t = (if phase < 32 then 0 else 1) then 256 else 0

/-- At its commit point a departure switches to the tables that have landed (R167). [DEDUCED, log entry 163] -/
def Dev.switchTables (d : Dev) (n : Nat) : Dev :=
  d.updDep n fun c => { c with tables := ((List.range 8).filter fun t => !(d.blob .coefData t).isEmpty).map fun t =>
    (t, d.blob .coefData t) }

/-- The coefficients of loadable table `t` in the version departure `n` uses: set 0 at ratio 1 until it is loaded. -/
def Dev.tableCoef (d : Dev) (n t : Nat) (lo : Int) (T phase : Nat) : List Int :=
  match (d.dep n).tables.getD t [] with
  | [] => autoCoef lo T phase 1
  | bs => (List.range T).map fun k => asInt 16 (ofLe ((bs.drop (2 * (T * phase + k))).take 2))

/-- The coefficients of a filter of departure `n`; 2 taps in fallback ignore the code. -/
def Dev.coefs (d : Dev) (n code : Nat) (vert : Bool) (taps phase : Nat) (r : Rat) : List Int :=
  let lo : Int := if vert then -1 else -2
  let T := if vert then 4 else 6
  if vert && taps == 2 then simpleCoef 1 lo T phase
  else if code = 0 then autoCoef lo T phase r
  else if code < 16 then simpleCoef code lo T phase
  else d.tableCoef n (code - 16) lo T phase

/-- A filter output: rounded, and clipped to 12 bits. -/
def firOut (cs : List Int) (s : Int → Nat) (f lo : Int) : Nat :=
  let sum := (List.range cs.length).foldl (fun (t : Int) k => t + cs.getD k 0 * (s (f + lo + k) : Nat)) 0
  clipTo 4095 ((sum + 128) / 256)

/-! ## The source as the filters read it (R160 stages 1 to 4) -/

/-- A picture brought to 12 bits per component. -/
def Pic.to12 (p : Pic) : Pic :=
  let up (q : List (List Nat)) : List (List Nat) := q.map fun l => l.map (· * 2 ^ (12 - p.depth))
  { p with depth := 12, y := up p.y, c1 := up p.c1, c2 := up p.c2 }

/-- Motion-adaptive interpolation of two 12-bit pictures: it follows the luma of each pixel (R107). -/
def mixPics (motion w : Nat) (a b : Pic) : Pic :=
  let (sx, sy) := chromaDiv a.samp
  let far (x y : Nat) : Bool :=
    let u := a.lumaAt x y
    let v := b.lumaAt x y
    motion < (if u < v then v - u else u - v)
  let mix (fx fy : Nat) (p q : List (List Nat)) : List (List Nat) :=
    (List.range p.length).map fun (j : Nat) => (List.range (p.getD j []).length).map fun (k : Nat) =>
      let u := planeAt p (k : Nat) (j : Nat)
      let v := planeAt q (k : Nat) (j : Nat)
      if far (fx * k) (fy * j) then (if w < 32 then u else v) else (u * (64 - w) + v * w + 32) / 64
  { a with y := mix 1 1 a.y b.y, c1 := mix sx sy a.c1 b.c1, c2 := mix sx sy a.c2 b.c2 }

/-- The mean of some samples, rounded to nearest. -/
def meanOf (l : List Nat) : Nat := if l.isEmpty then 0 else (2 * l.sum + l.length) / (2 * l.length)

/-- What of a crop from `at_` of `size` samples lies in a frame of `n` (R137); at least one sample. -/
def cropIn (at_ size n : Nat) : Nat := max 1 (min size (n - at_))

/-- A sample of a plane after pre-decimation: column and line counted from the crop's edge. With D = 1 a sample outside
the crop reads the frame; with D > 1 the edge of the crop within the frame is replicated, and the last group averages
only the samples that exist (R137, R162, R163). -/
def decimAt (p : List (List Nat)) (cx cy cw ch dH dV : Nat) (x y : Int) : Nat :=
  let cw := cropIn cx cw (p.getD 0 []).length
  let ch := cropIn cy ch p.length
  let xs : List Int :=
    if dH = 1 then [cx + x]
    else
      let i := (clampInt 0 (ceilDiv cw dH - 1 : Nat) x).toNat
      (List.range (min dH (cw - dH * i))).map fun k => ((cx + dH * i + k : Nat) : Int)
  let ys : List Int :=
    if dV = 1 then [cy + y]
    else
      let i := (clampInt 0 (ceilDiv ch dV - 1 : Nat) y).toNat
      (List.range (min dV (ch - dV * i))).map fun k => ((cy + dV * i + k : Nat) : Int)
  meanOf (ys.map fun yy => meanOf (xs.map fun xx => planeAt p xx yy))

/-! ## The filters (R160 stages 5 and 6, R164) -/

/-- The layer's pixel at destination column `i` and line `j`, 12 bits 4:4:4 in the source's coding.
[DEDUCED, log entry 27] -/
def Dev.filterPx (d : Dev) (n : Nat) (g : Geom) (taps : Nat) (p : Pic) (i j : Nat) : Px :=
  let dH := g.dH
  let dV := g.dV
  let px := axisPos g.cw dH g.dw i
  let py := axisPos g.ch dV g.dh j
  let fx := posF px
  let fy := posF py
  let ch := d.coefs (n / 8) (d.g .layCoefH n) false 6 (posPhase px) ((g.cw : Rat) / (dH * g.dw : Nat))
  let cv := d.coefs (n / 8) (d.g .layCoefV n) true taps (posPhase py) ((g.ch : Rat) / (dV * g.dh : Nat))
  let (sx, sy) := chromaDiv g.samp
  let luma (x y : Int) : Nat := decimAt p.y g.cx g.cy g.cw g.ch dH dV x y
  let chroma (q : List (List Nat)) (x y : Int) : Nat :=
    decimAt q (g.cx / sx) (g.cy / sy) (ceilDiv g.cw sx) (ceilDiv g.ch sy) dH dV x y
  let vert (s : Int → Int → Nat) (x : Int) : Nat := firOut cv (fun y => s x y) fy (-1)
  let q := (py - 2 ^ 23) / 2
  let vertC (pl : List (List Nat)) (x : Int) : Nat :=
    if sy = 1 then vert (chroma pl) x
    else
      let r := q / 2 ^ 24
      let w := (q / 2 ^ 18 % 64).toNat
      (chroma pl x r * (64 - w) + chroma pl x (r + 1) * w + 32) / 64
  let horC (pl : List (List Nat)) : Nat :=
    if sx = 1 then firOut ch (fun x => vertC pl x) fx (-2)
    else
      let e := fx / 2
      let w := ((px - 2 * e * 2 ^ 24) / 2 ^ 19 % 64).toNat
      (vertC pl e * (64 - w) + vertC pl (e + 1) * w + 32) / 64
  ⟨firOut ch (fun x => vert luma x) fx (-2), horC p.c1, horC p.c2⟩

/-- The destination pixel's source lies inside the stored frame (R137). -/
def Geom.inside (g : Geom) (i j : Nat) : Bool :=
  g.cx + (2 * i + 1) * g.cw / (2 * g.dw) < g.fw && g.cy + (2 * j + 1) * g.ch / (2 * g.dh) < g.fh

/-! ## Lines and columns used (R148, R165) -/

/-- Source lines averaged into decimated line `i` of the luma plane, within the frame. -/
def Geom.decimLines (g : Geom) (i : Int) : List Nat :=
  if g.dV = 1 then [(clampInt 0 (g.fh - 1 : Nat) (g.cy + i)).toNat]
  else
    let ch := cropIn g.cy g.ch g.fh
    let k := (clampInt 0 (ceilDiv ch g.dV - 1 : Nat) i).toNat
    (List.range (min g.dV (ch - g.dV * k))).map fun m => g.cy + g.dV * k + m

/-- Source lines output line `j` of the layer uses. -/
def Geom.linesUsed (g : Geom) (taps j : Nat) : List Nat :=
  let py := axisPos g.ch g.dV g.dh j
  let f := posF py
  let luma : List Int := if taps = 2 then [f, f + 1] else [f - 1, f, f + 1, f + 2]
  let ls := (luma.map g.decimLines).flatten
  let cs :=
    if g.samp = 0 then
      let r := (py - 2 ^ 23) / 2 / 2 ^ 24
      (([r, r + 1] : List Int).map fun k => (g.decimLines (2 * k) ++ g.decimLines (2 * k + 1)).map fun s =>
        [s / 2 * 2, s / 2 * 2 + 1]).flatten.flatten
    else []
  ((ls ++ cs).filter (· < g.fh)).eraseDups

/-- First and last source column of output columns `i` to `k`: with D = 1 the plain extent and the filter's reach of 3,
with D > 1 every column averaged into a decimated column that a tap reads, inside the crop (R148, R163). -/
def Geom.columns (g : Geom) (i k : Nat) : Nat × Nat :=
  if g.dH = 1 then
    let lo := g.cx + i * g.cw / g.dw
    let hi := g.cx + ceilDiv ((k + 1) * g.cw) g.dw - 1
    (lo - 3, min (hi + 3) (g.fw - 1))
  else
    let cw := cropIn g.cx g.cw g.fw
    let last : Nat := ceilDiv cw g.dH - 1
    let lo := (clampInt 0 last (posF (axisPos g.cw g.dH g.dw i) - 2)).toNat
    let hi := (clampInt 0 last (posF (axisPos g.cw g.dH g.dw k) + 3)).toNat
    (g.cx + g.dH * lo, g.cx + min (g.dH * hi + g.dH) cw - 1)

/-- The 64-byte segments of a line that hold source columns `lo` to `hi`. -/
def segmentsOf (samp depth w lo hi : Nat) : List Nat :=
  let seg (a b : Nat) : List Nat := (List.range (b / 512 + 1 - a / 512)).map (a / 512 + ·)
  if samp = 0 then
    seg (lo * depth) ((hi + 1) * depth - 1) ++ seg ((w + lo / 2) * depth) ((w + hi / 2 + 1) * depth - 1)
  else if samp = 1 then seg (lo / 2 * 4 * depth) ((hi / 2 + 1) * 4 * depth - 1)
  else seg (lo * 3 * depth) ((hi + 1) * 3 * depth - 1)

end Sys2Proof.Machine
end

