-- ==== Sys2Proof/Machine/TakeOps.lean ====
section
/-!
DEFINITION. Loads of engines (R63), takes and salvos: conditions, warm and cold, undoing (R120 to R129), and the entries
of stagings as a configuration laid over the one in force.
-/

namespace Sys2Proof.Machine

/-! ## A configuration laid over the one in force -/

/-- An entry gives its object its value. [DEDUCED, log entry 36] -/
def Dev.landEntry (d : Dev) (e : Entry) : Dev :=
  match e.o.info.ty with
  | .str | .domain => d.putBlob e.o e.i e.bytes
  | _ => d.put e.o e.i e.v

def Dev.overlay (d : Dev) (es : List Entry) : Dev := es.foldl Dev.landEntry d

/-- An entry changes its object only when its value differs from the value the object holds (R118). -/
def Dev.entryChanges (d : Dev) (e : Entry) : Bool :=
  match e.o.info.ty with
  | .str | .domain => d.blob e.o e.i != e.bytes
  | _ => d.g e.o e.i != e.v % 2 ^ e.o.info.ty.width

/-! ## Sealed stagings (R62, R114, R116) -/

def stgFree : Nat := 0
def stgOpened : Nat := 1
def stgSealed : Nat := 2
def stgHeld : Nat := 3

/-- Insert a staging by the order of its seal. -/
def Dev.insertSeal (d : Dev) (s : Nat) : List Nat → List Nat
  | [] => [s]
  | t :: r => if (d.stg s).order ≤ (d.stg t).order then s :: t :: r else t :: d.insertSeal s r

/-- SEALED stagings in the order of their seals. -/
def Dev.sealedStgs (d : Dev) : List Nat :=
  ((List.range 16).filter fun s => d.g .stgState s == stgSealed).foldr d.insertSeal []

/-- The configuration that stands once every sealed staging has landed. -/
def Dev.afterSeals (d : Dev) : Dev := d.sealedStgs.foldl (fun v s => v.overlay (d.stg s).entries) d

/-! ## Loads (R63, R64) -/

/-- A departure's load in pixel/s. -/
def Dev.depLoad (d : Dev) (n : Nat) : Rat :=
  if d.g .depBind n = 0 then 0
  else
    let g := d.g .depGroup n
    ((d.g .depWidth n * d.g .depHeight n * d.g .tgRateNum g : Nat) : Rat) / (d.g .tgRateDen g : Nat)

/-- An arrival's load. -/
def Dev.arrLoad (d : Dev) (a : Nat) : Rat :=
  if d.g .arrKind a = 0 then 0
  else ((d.g .arrWidth a * d.g .arrHeight a * d.g .arrRateNum a : Nat) : Rat) / (d.g .arrRateDen a : Nat)

/-- The limit of one engine. -/
def engineLimit : Rat := 600000000

def poolSize : Nat := 262144

/-- Departures an engine serves. -/
def Dev.served (d : Dev) (e : Nat) : List Nat :=
  (List.range 128).filter fun n => d.g .depEngine n == e && d.g .depBind n != 0

/-- Load of the departures an engine serves. -/
def Dev.engineLoad (d : Dev) (e : Nat) : Rat := ((d.served e).map d.depLoad).sum

/-- Departures whose twin an engine composes (R185). -/
def Dev.twinsOn (d : Dev) (e : Nat) : List Nat :=
  (List.range 128).filter fun n => d.on .sbEnable n && d.g .sbTwin n == e && d.g .depBind n != 0

/-- Committed load of an engine with the twins it composes (R64, R65, R185). -/
def Dev.committedLoad (d : Dev) (e : Nat) : Rat := d.engineLoad e + ((d.twinsOn e).map d.depLoad).sum

/-- Outstanding takes of departures on an engine. -/
def Dev.engineTakes (d : Dev) (e : Nat) : List (Nat × Take) := d.takes.filter fun p => d.g .depEngine p.1 == e

/-- Shadow load reserved on an engine. -/
def Dev.shadowLoad (d : Dev) (e : Nat) : Rat :=
  (((d.engineTakes e).filter fun p => p.2.warm).map fun p => d.depLoad p.1).sum

/-! ## Line-buffer pool (R171 to R173) -/

/-- Needs of a departure's layers as committed. -/
def Dev.depNeed (d : Dev) (n : Nat) : Nat := ((d.stack n).map d.checkNeed).sum

/-- The configuration a take lands for its departure. -/
def Take.view (t : Take) (n : Nat) (d : Dev) : Dev :=
  (setBitsOf 8 t.mask).foldl (fun d l => d.put .laySrc (8 * n + l) (t.srcs.getD l 0x100)) (d.overlay t.given)

/-- Needs of the shadows an engine has reserved. -/
def Dev.shadowNeeds (d : Dev) (e : Nat) : Nat :=
  (((d.engineTakes e).filter fun p => p.2.warm).map fun p => (p.2.view p.1 d).depNeed p.1).sum

/-- The sum of R173 for an engine, by the configuration of `d`. -/
def Dev.poolNeed (d : Dev) (e : Nat) : Nat :=
  ((d.served e).map d.depNeed).sum + ((d.twinsOn e).map d.depNeed).sum + d.shadowNeeds e

/-! ## Grants (R173, R174) -/

/-- Grant of a layer of a take's shadow or dry run: that of its context, or, before the layer has selected, the need
reserved for it. -/
def Dev.shadowGrant (d : Dev) (n m : Nat) (t : Take) : Nat :=
  match t.shadow.find m with
  | some c => c.grant
  | none => if t.warm || t.phase == .hold then (t.view n d).checkNeed m else 0

/-- Grants of a take's shadow or dry run. -/
def Dev.takeGrants (d : Dev) (n : Nat) (t : Take) : Nat :=
  (((t.view n d).stack n).map fun m => d.shadowGrant n m t).sum

/-- A departure re-sends a captured frame: its live context is not composed (R123). -/
def Dev.holding (d : Dev) (n : Nat) : Bool := (d.dep n).holdPic.isSome

/-- Grants of a departure's live context. -/
def Dev.depGrants (d : Dev) (n : Nat) : Nat :=
  if d.holding n then 0 else ((d.stack n).map fun m => d.g .layLbNeed m).sum

/-- Live grants on an engine, those of the twins it composes among them. -/
def Dev.liveGrants (d : Dev) (e : Nat) : Nat := ((d.served e ++ d.twinsOn e).map d.depGrants).sum

/-- Grants of the shadows and dry runs on an engine. -/
def Dev.shadowGrants (d : Dev) (e : Nat) : Nat := ((d.engineTakes e).map fun p => d.takeGrants p.1 p.2).sum

/-- Sum of the grants on an engine. -/
def Dev.grants (d : Dev) (e : Nat) : Nat := d.liveGrants e + d.shadowGrants e

/-- The needs of a departure's layers, as admitted, become their grants (R173). -/
def Dev.grantAdmitted (d : Dev) (n : Nat) : Dev := d.forEach (d.stack n) fun d m => d.put .layLbNeed m (d.checkNeed m)

/-! ## Reports of engines (R156, R176) -/

/-- `eng_deps`, loads and pool figures of one engine. -/
def Dev.reportEngine (d : Dev) (e : Nat) : Dev :=
  let live := d.liveGrants e
  let shadow := d.shadowGrants e
  let d := d.put .engDeps e (d.served e).length
  let d := d.put .engLoad e (d.committedLoad e).floor.toNat
  let d := d.put .engShadow e (d.shadowLoad e).floor.toNat
  let d := d.put .engLbGranted e live
  (d.put .engLbShadow e shadow).put .engLbFree e (poolSize - live - shadow)

def Dev.reportEngines (d : Dev) : Dev := d.forEach (List.range 25) Dev.reportEngine

/-! ## Undoing (R125, R126) -/

def TakePhase.code : TakePhase → Nat
  | .armed => 1
  | .preroll => 2
  | .capture => 3
  | .hold => 4

/-- A salvo member no longer outstanding; the salvo is DONE with the last. -/
def Dev.salvoDrop (d : Dev) (s n : Nat) : Dev :=
  let c := d.salvos.getD s {}
  let c := { c with live := c.live.filter (· != n) }
  let d := { d with salvos := d.salvos.put s c }
  if c.live.isEmpty then (d.put .svState s 3).fire 0x2B9 else d

/-- The take of departure `n` is undone: shadow discarded, reservation freed. -/
def Dev.undoOne (d : Dev) (n cause : Nat) : Dev :=
  match d.takeOf n with
  | none => d
  | some t =>
    let held := (t.shadow.map fun p => p.2.holds).flatten
    let d := (d.dropTake n).updDep n fun c =>
      { c with linger := c.linger ++ held, shadow := [],
               holdPic := if t.phase = .capture then none else c.holdPic }
    let d := (d.put .tkState n 0).put .tkKind n 0 |>.put .tkUndoCause n cause
    let d := (d.count .tkUndone n).flag .tkEventFlags n 1
    match t.salvo with
    | none => d
    | some s => d.salvoDrop s n

/-- The members of the same salvo and timing group still outstanding, when the salvo is atomic (R125 cause 9). -/
def Dev.atomicPeers (d : Dev) (n : Nat) : List Nat :=
  match d.takeOf n with
  | none => []
  | some t => match t.salvo with
    | none => []
    | some s =>
      if d.on .svAtomic s then
        (d.takes.filter fun p => p.2.salvo == some s && p.1 != n && d.g .depGroup p.1 == d.g .depGroup n).map (·.1)
      else []

/-- Undo a take, and with it the rest of its atomic group. -/
def Dev.undo (d : Dev) (n cause : Nat) : Dev :=
  let peers := d.atomicPeers n
  (peers.foldl (fun d p => d.undoOne p 9) (d.undoOne n cause)).reportEngines

/-- Undo every outstanding take that satisfies a test. -/
def Dev.undoWhere (d : Dev) (cause : Nat) (p : Dev → Nat → Take → Bool) : Dev :=
  ((d.takes.filter fun q => p d q.1 q.2).map (·.1)).foldl (fun d n => d.undo n cause) d

/-- A take names an arrival. -/
def Take.names (t : Take) (a : Nat) : Bool := (setBitsOf 8 t.mask).any fun l => t.srcs.getD l 0x100 == a

/-- Cause 3: takes that name an arrival declared lost or unbound. -/
def Dev.undoNaming (d : Dev) (a : Nat) : Dev := d.undoWhere 3 fun _ _ t => t.names a

/-- Cause 7: takes of an engine's departures. -/
def Dev.undoEngine (d : Dev) (e : Nat) : Dev := d.undoWhere 7 fun d n _ => d.g .depEngine n == e

/-! ## Acceptance (R120, R121) -/

/-- The template of a departure as its objects hold it. -/
def Dev.template (d : Dev) (n : Nat) : Template :=
  { mask := d.g .tkMask n
    srcs := [d.g .tkSrc0 n, d.g .tkSrc1 n, d.g .tkSrc2 n, d.g .tkSrc3 n,
             d.g .tkSrc4 n, d.g .tkSrc5 n, d.g .tkSrc6 n, d.g .tkSrc7 n]
    staging := d.g .tkStaging n
    cold := d.on .tkForceCold n }

/-- A staging is HELD and holds layer objects of departure `n`. -/
def Dev.heldFor (d : Dev) (s n : Nat) : Bool :=
  s < 16 && d.g .stgState s == 3 && ((d.stg s).entries.all fun e => e.i / 8 == n)

/-- Ratios of a departure's layers lie within their limits against the envelope (R161). -/
def Dev.ratiosOk (d : Dev) (n : Nat) : Bool :=
  d.g .laySrc n == 0x100 ||
    let g := d.envGeom n
    ratioOk g.cw g.dw && ratioOk g.ch g.dh

def Template.toTake (m : Template) (d : Dev) : Take :=
  { warm := false, phase := .armed, mask := m.mask, srcs := m.srcs,
    staging := if m.staging = 0xFF then none else some m.staging,
    order := 0, salvo := none, reached := true, wait := 0, late := false, shadow := [], who := {},
    given := if m.staging = 0xFF then [] else (d.stg m.staging).entries }

/-- Some engine's pool does not hold the needs of the configuration `v` that a take of departure `n` gives; the take it
replaces reserves nothing (R173). [DEDUCED, log entry 164] -/
def Dev.takeOverPool (n : Nat) (v : Dev) : Bool :=
  let w := { v with takes := v.takes.del n }
  (List.range 25).any fun k => decide (poolSize < w.poolNeed k)

/-- Why a take is refused, 0 when it is not (R120). -/
def Dev.takeCode (d : Dev) (n : Nat) (m : Template) : Nat :=
  let ls := setBitsOf 8 m.mask
  let src (l : Nat) : Nat := m.srcs.getD l 0x100
  if d.g .depState n ≠ 2 then 0x0346
  else if m.mask = 0 ∧ m.staging = 0xFF then 0x0201
  else if ls.any fun l => d.g .depLayers n ≤ l then 0x0347
  else if ls.any fun l => 0x100 < src l then 0x0201
  else if ls.any fun l => src l < 256 && !(d.g .arrState (src l) == 1 || d.g .arrState (src l) == 2) then 0x0344
  else if m.staging ≠ 0xFF ∧ !d.heldFor m.staging n then 0x0343
  else
    let v := (m.toTake d).view n d
    if !(v.stack n).all v.ratiosOk then 0x022C
    else if [v, (m.toTake d).view n d.afterSeals].any (Dev.takeOverPool n) then 0x040B
    else 0

/-- The warm decision, once any older take of the departure is undone (R121, R127). [DEDUCED, log entry 164] -/
def Dev.takeWarm (d : Dev) (n : Nat) (m : Template) : Bool :=
  let e := d.g .depEngine n
  let v := (m.toTake d).view n d
  !m.cold && d.committedLoad e + d.shadowLoad e + d.depLoad n ≤ engineLimit
    && d.poolNeed e + v.depNeed n ≤ poolSize

/-- Layer `m` selects a slice arrival from outside its `arr_slice_group`: that arrival. -/
def Dev.outside (v : Dev) (m : Nat) : Option Nat :=
  let a := v.g .laySrc m
  if a < 256 ∧ v.g .arrStorage a = 1 ∧ v.g .depBind (m / 8) ≠ 0 ∧ m % 8 < v.g .depLayers (m / 8)
    ∧ v.g .depGroup (m / 8) ≠ v.g .arrSliceGroup a then some a else none

/-- Layer `m` comes to select arrival `a` from outside its `arr_slice_group` (R101 cause 4). -/
def Dev.noteOutsider (d : Dev) (a m : Nat) : Dev :=
  d.updArr a fun c => { c with outsiders := insertAsc m (c.outsiders.filter (· != m)) }

/-- The layers a change of configuration brings to select an arrival from outside its group. -/
def Dev.noteOutsiders (d old new : Dev) (ms : List Nat) : Dev :=
  d.forEach ms fun d m => match new.outside m with
    | some a => if old.outside m = some a then d else d.noteOutsider a m
    | none => d

/-- Accept a take. -/
def Dev.acceptTake (now : Nat) (d : Dev) (n : Nat) (m : Template) (salvo : Option Nat) (who : Origin) : Dev :=
  let d := d.undo n 2
  let warm := d.takeWarm n m
  let t := { m.toTake d with warm := warm, order := d.accepted, salvo := salvo, reached := salvo.isNone, who := who }
  let d := ({ d with accepted := d.accepted + 1 }).putTake n t
  let d := (d.put .tkState n 1).put .tkKind n (if warm then 1 else 2) |>.put .tkAcceptTick n now
  let d := if warm then d else (d.count .tkColds n).flag .tkEventFlags n 2
  (d.noteOutsiders d (t.view n d) (d.stack n)).reportEngines

/-- `tk_go` 1. -/
def Dev.takeGo (now : Nat) (d : Dev) (n : Nat) (who : Origin) : Dev :=
  let m := d.template n
  let code := d.takeCode n m
  let d := if code = 0 then d.acceptTake now n m none who else d
  d.put .tkStatus n code

/-- The code `tk_go` 2 answers (R127). -/
def Dev.cancelCode (now : Nat) (d : Dev) (n : Nat) : Nat :=
  match d.takeOf n with
  | some _ => 0
  | none => if d.landedAt.find n = some now then 0x0342 else 0x0341

/-- `tk_go` 2. -/
def Dev.takeCancel (now : Nat) (d : Dev) (n : Nat) : Dev :=
  let code := d.cancelCode now n
  (if code = 0 then d.undo n 1 else d).put .tkStatus n code

/-! ## Salvos (R128) -/

def Dev.salvo (d : Dev) (s : Nat) : Salvo := d.salvos.getD s {}

def Dev.salvoOpen (d : Dev) (s : Nat) : Bool := d.g .svState s == 0 || d.g .svState s == 3

/-- Member departures as the two words report them. -/
def Dev.setMembers (d : Dev) (s : Nat) (ms : Tab Template) : Dev :=
  let d := { d with salvos := d.salvos.put s { d.salvo s with members := ms } }
  let bits (lo : Nat) : Nat := (ms.map fun (p : Nat × Template) => if lo ≤ p.1 ∧ p.1 < lo + 64 then 2 ^ (p.1 - lo) else 0).sum
  (d.put .svMembersLo s (bits 0)).put .svMembersHi s (bits 64)

/-- `tk_go` 3. [DEDUCED, log entry 37] -/
def Dev.salvoCopy (d : Dev) (n : Nat) : Dev :=
  let s := d.g .tkSalvo n
  if d.salvoOpen s then
    ((d.setMembers s ((d.salvo s).members.put n (d.template n))).put .svState s 0).put .tkStatus n 0
  else d.put .tkStatus n 0x0349

/-- Accept the members in ascending departure number; the first failing code stops. -/
def Dev.salvoAccept (now s : Nat) (who : Origin) : Dev → List (Nat × Template) → Nat × Dev
  | d, [] => (0, d)
  | d, (n, m) :: t =>
    let code := d.takeCode n m
    if code = 0 then (d.acceptTake now n m (some s) who).salvoAccept now s who t else (code, d)

/-- `sv_go` 1. -/
def Dev.salvoGo (e : Env) (d : Dev) (s : Nat) (who : Origin) : Dev :=
  let c := d.salvo s
  if !d.salvoOpen s then d.put .svStatus s 0x0349
  else if c.members.isEmpty then d.put .svStatus s 0x0201
  else if e.tb + 10000000000 < d.g .svTime s then d.put .svStatus s 0x0710
  else
    let d1 := { d with salvos := d.salvos.put s { c with live := c.members.map fun (p : Nat × Template) => p.1 } }
    match d1.salvoAccept e.tick s who c.members with
    | (0, d2) => (d2.put .svState s 1).put .svStatus s 0 |>.put .svLate s 0 |>.put .svGoTick s e.tick
    | (code, _) => d.put .svStatus s code

/-- `sv_go` 2. -/
def Dev.salvoCancel (d : Dev) (s : Nat) : Dev :=
  ((((d.takes.filter fun p => p.2.salvo == some s).map (·.1)).foldl (fun d n => d.undoOne n 1) d).reportEngines).put
    .svStatus s 0

/-- `sv_go` 3. [DEDUCED, log entry 37] -/
def Dev.salvoClear (d : Dev) (s : Nat) : Dev :=
  if d.salvoOpen s then ((d.setMembers s []).put .svState s 0).put .svStatus s 0 else d.put .svStatus s 0x0349

end Sys2Proof.Machine
end

