-- ==== Sys2Proof/Machine/ArrivalOps.lean ====
section
/-!
DEFINITION. Frames of arrivals: start, close, rejection, storage, slices, de-interlacing, packets, patterns, paths and
source loss (R49, R68 to R82, R94, R95).
-/

namespace Sys2Proof.Machine

/-- `arr_state` codes of R49. -/
def arrUnbound : Nat := 0
def arrWaiting : Nat := 1
def arrLive : Nat := 2
def arrLost : Nat := 3

/-- A change of `arr_state` sets cause bit 0 (R49, R84). -/
def Dev.setArrState (d : Dev) (a v : Nat) : Dev :=
  if d.g .arrState a = v then d else (d.put .arrState a v).flag .arrEventFlags a 0

/-- A change of slice mode, with its cause (R100). -/
def Dev.setSliceMode (d : Dev) (a mode cause : Nat) : Dev :=
  ((d.put .arrSliceMode a mode).put .arrSliceCause a cause).flag .arrEventFlags a 7

/-! ## Frame start, rejection, storage (R68 to R70, R81, R90) -/

/-- The arrival keeps slices: storage 1. -/
def Dev.sliced (d : Dev) (a : Nat) : Bool := d.g .arrStorage a == 1

/-- Lines of a frame as it arrives: half the envelope height for a field. -/
def Dev.arrLines (d : Dev) (a : Nat) : Nat :=
  if d.g .arrScan a = 0 then d.g .arrHeight a else d.g .arrHeight a / 2

/-- A blank picture of the envelope's width. -/
def Dev.blankPic (d : Dev) (a w h : Nat) : Pic := Pic.flat w h (d.g .arrSampling a) (d.g .arrDepth a) 0 0 0

/-- Most recent slice logs kept of an arrival. -/
def keepLogs : Nat := 4

/-- A frame starts: S moves, its slices are logged, and it goes to the ring or to a room it claims in this tick (R81, R90,
R94). -/
def Dev.frameStart (e : Env) (d : Dev) (a ts time field w h : Nat) : Dev :=
  let ring := d.sliced a && d.g .arrSliceMode a == 3
  let dest := if ring then Dest.ring else Dest.pending
  let c := d.arr a
  let log : SliceLog :=
    { start := e.now, seq := (d.g .arrSeq a + 1) % 2 ^ 32, dest := dest, w := w, h := h, samp := d.g .arrSampling a, depth := d.g .arrDepth a, time := time }
  let x : Asm := { start := e.now, startTb := e.tb, ts := ts, time := time, field := field, dest := dest,
                   pic := d.blankPic a w h }
  d.putArr a { c with
    starts := (e.now :: c.starts).take 4, tsSeen := (ts :: c.tsSeen).take 4,
    asm := if c.asm.isSome then c.asm else some x
    recv := if c.asm.isSome then some x else none
    logs := if d.sliced a then (log :: c.logs).take keepLogs else c.logs }

/-- The frame in progress is over; a frame received behind it takes its place. -/
def ArrCtx.next (c : ArrCtx) : ArrCtx := { c with asm := c.recv, recv := none }

/-- A frame in progress is rejected: its room reverts to FREE and S to the frame before (R70, R81, R90). -/
def Dev.rejectFrame (d : Dev) (a : Nat) : Dev :=
  match (d.arr a).asm with
  | none => d
  | some x => (d.freeRoom a x.dest).updArr a fun c => { c.next with starts := c.starts.erase x.start }

/-- A frame received behind the one in progress is rejected. -/
def Dev.rejectBehind (d : Dev) (a : Nat) : Dev :=
  match (d.arr a).recv with
  | none => d
  | some x => (d.freeRoom a x.dest).updArr a fun c => { c with recv := none, starts := c.starts.erase x.start }

/-- Rejected for evidence of R71. -/
def Dev.rejectOutside (d : Dev) (a : Nat) : Dev :=
  ((d.rejectFrame a).count .arrOutside a).flag .arrEventFlags a 1

/-- Rejected for missing lines. -/
def Dev.rejectIncomplete (d : Dev) (a : Nat) : Dev :=
  ((d.rejectFrame a).count .arrIncomplete a).flag .arrEventFlags a 2

/-- `arr_format_now` of a frame (R61). -/
def Dev.formatNow (d : Dev) (a : Nat) (p : Pic) : Nat :=
  let mhz := (roundUp ((d.g .arrRateNum a * 1000 : Nat) / (d.g .arrRateDen a : Nat) : Rat)).toNat
  p.w + p.h * 2 ^ 16 + mhz % 2 ^ 18 * 2 ^ 32 + d.g .arrScan a * 2 ^ 50 + p.samp * 2 ^ 52
    + (p.depth - 8) / 2 * 2 ^ 54 + d.g .arrColorimetry a * 2 ^ 56 + d.g .arrTransfer a * 2 ^ 58
    + d.g .arrRange a * 2 ^ 59

/-- The frame in progress is skipped (R92), or there is none. -/
def Dev.skipped (d : Dev) (a : Nat) : Bool := (d.arr a).asm.all fun x => x.dest == .skip

/-- A frame is stored (R69); a frame that was skipped is dropped (R92). -/
def Dev.storeFrame (e : Env) (d : Dev) (a : Nat) (p : Pic) : Dev :=
  match (d.arr a).asm with
  | none => d
  | some x =>
    match x.dest with
    | .skip => d.updArr a ArrCtx.next
    | dest =>
      let seq := (d.g .arrSeq a + 1) % 2 ^ 32
      let d := d.put .arrFormatNow a (d.formatNow a p)
      let d := (d.put .arrSeq a seq).put .arrFrameTime a x.time |>.put .arrFrameTick a e.tick
      let d := d.count .arrFrames a
      let d := d.updArr a fun c =>
        let c := { c.next with stored := true }
        match dest with
        | .room r =>
          { c.setRoom r { st := .stored, seq := seq, time := x.time, published := ceilDiv p.h 16,
                          bytes := d.roomBytes a,
                          pic := { p with coding := d.arrCoding a } } with newest := some r }
        | _ => { c with newest := none }
      d.setArrState a arrLive

/-! ## Slices (R94, R95) -/

/-- Slices of a frame. -/
def sliceCount (h : Nat) : Nat := ceilDiv h 16

/-- The first data of slice `k` begins to overwrite its slot. -/
def Dev.beginSlice (e : Env) (d : Dev) (a k : Nat) : Dev :=
  let c := d.arr a
  match c.asm with
  | none => d
  | some x =>
    let c := c.updLog x.start fun l => if (l.began.find k).isSome then l else { l with began := l.began.put k e.now }
    let c := match x.dest with
      | .ring =>
        let n := k % max 1 (d.g .arrSlices a)
        let seq := (d.g .arrSeq a + 1) % 2 ^ 32
        if c.slots.find n = some ⟨seq, k, true⟩ then c
        else { c with slots := c.slots.put n ⟨seq, k, false⟩ }
      | _ => c
    d.putArr a c

/-- Slice `k` is published in this tick. -/
def Dev.publish (e : Env) (d : Dev) (a k : Nat) : Dev :=
  let c := d.arr a
  match c.asm with
  | none => d
  | some x =>
    let pic := { x.pic.crop 0 (16 * k) x.pic.w (min 16 (x.pic.h - 16 * k)) with coding := d.arrCoding a }
    let c := c.updLog x.start fun l =>
      { l with began := if (l.began.find k).isSome then l.began else l.began.put k e.now,
               pub := l.pub.put k e.now, pics := l.pics.put k pic, seq := (d.g .arrSeq a + 1) % 2 ^ 32 }
    let c := { c with asm := some { x with pubNext := k + 1 } }
    let c := match x.dest with
      | .ring => { c with slots := c.slots.put (k % max 1 (d.g .arrSlices a)) ⟨(d.g .arrSeq a + 1) % 2 ^ 32, k, true⟩ }
      | .room r => c.setRoom r { c.rooms.getD r {} with published := k + 1 }
      | .skip | .pending => c
    d.putArr a c

/-- Spans that follow one another from column `x` on reach this column. -/
def reach (spans : List (Nat × Nat)) : Nat → Nat → Nat
  | 0, x => x
  | fuel + 1, x =>
    match spans.find? fun s => s.1 ≤ x && x < s.2 with
    | none => x
    | some s => reach spans fuel s.2

/-- A line has arrived whole: its samples have all been received. A line received only in part is missing.
[DEDUCED, log entry 135] -/
def Asm.lineWhole (x : Asm) (y : Nat) : Bool :=
  let spans := x.got.getD y []
  x.pic.w ≤ reach spans spans.length 0

/-- Samples of a line have been received. -/
def Asm.receives (x : Asm) (y lo hi : Nat) : Asm :=
  if lo < hi then { x with got := x.got.upd y [] fun l => (lo, hi) :: l } else x

/-- Lines of a range not received and not concealed yet. -/
def Asm.holes (x : Asm) (lo hi : Nat) : List Nat :=
  ((List.range (hi - lo)).map (lo + ·)).filter fun y => !x.lineWhole y && !x.hidden.contains y

/-- Lines concealed so far. -/
def Asm.missing (x : Asm) : Nat := x.hidden.length

/-- The received line nearest above, or failing that below (R70). -/
def Asm.nearest (x : Asm) (y : Nat) : Option Nat :=
  match ((List.range y).reverse).find? x.lineWhole with
  | some k => some k
  | none => ((List.range (x.pic.h - y)).map (y + ·)).find? x.lineWhole

/-- Copy a line of a picture, with the chroma it carries. -/
def Pic.copyLine (p : Pic) (dst src : Nat) : Pic :=
  let (_, dy) := chromaDiv p.samp
  { p with y := p.y.set dst (p.y.getD src []), c1 := p.c1.set (dst / dy) (p.c1.getD (src / dy) []),
           c2 := p.c2.set (dst / dy) (p.c2.getD (src / dy) []) }

/-- A line of free samples. -/
def Pic.freeLine (p : Pic) (y seed : Nat) : Pic :=
  let (dx, dy) := chromaDiv p.samp
  let line (k w : Nat) : List Nat :=
    (List.range w).map fun x => Config.freeValue (seed + (3 * y + k) * p.w + x) % 2 ^ p.depth
  { p with y := p.y.set y (line 0 p.w), c1 := p.c1.set (y / dy) (line 1 (p.w / dx)),
           c2 := p.c2.set (y / dy) (line 2 (p.w / dx)) }

/-- Conceal the missing lines of a range. While no line of the frame has been received, what a line shows is free.
[DESIGN CHOICE, log entry 158] -/
def Asm.conceal (x : Asm) (seed lo hi : Nat) : Asm :=
  let hs := x.holes lo hi
  let pic := hs.foldl (fun p y => match x.nearest y with
    | some k => p.copyLine y k
    | none => p.freeLine y seed) x.pic
  { x with pic := pic, hidden := x.hidden ++ hs }

/-- Free values a concealment may have taken are spent. -/
def Dev.spend (d : Dev) (x : Asm) : Dev := { d with drawn := d.drawn + 3 * x.pic.w * x.pic.h }

/-- Black in the envelope's range: luma or R'G'B', and chroma at mid-scale (R202). -/
def Dev.blackOf (d : Dev) (a : Nat) : Nat × Nat :=
  let n := d.g .arrDepth a
  let lo := if d.g .arrRange a = 1 then 0 else 2 ^ (n - 4)
  (lo, if d.g .arrSampling a = 3 then lo else 2 ^ (n - 1))

/-- A line set to one value per plane. -/
def Pic.flatLine (p : Pic) (y v c : Nat) : Pic :=
  let (dx, dy) := chromaDiv p.samp
  { p with y := p.y.set y (List.replicate p.w v), c1 := p.c1.set (y / dy) (List.replicate (p.w / dx) c),
           c2 := p.c2.set (y / dy) (List.replicate (p.w / dx) c) }

/-- Concealment of a decoder: the nearest line above, or black (R202); answers the lines concealed too. -/
def Asm.concealXs (x : Asm) (black : Nat × Nat) (lo hi : Nat) : Asm × Nat :=
  let hs := x.holes lo hi
  let pic := hs.foldl (fun p y => match ((List.range y).reverse).find? x.lineWhole with
    | some k => p.copyLine y k
    | none => p.flatLine y black.1 black.2) x.pic
  ({ x with pic := pic, hidden := x.hidden ++ hs }, hs.length)

/-- Concealed lines of a decode are counted by the arrival and by its codec engine (R204, R207). -/
def Dev.countConcealed (d : Dev) (a n : Nat) : Dev :=
  let c := d.g .arrCodec a
  let d := if n = 0 then d else d.count .arrXsLinesConcealed a n
  if n ≠ 0 ∧ c < 24 then d.countReg (0x180014 + 0x1000 * c) n else d

/-- Publish every slice that is whole, from the next one on, and those before slice `upto` whether whole or not. -/
def Dev.publishDue (e : Env) (a : Nat) : Nat → Nat → Dev → Dev
  | 0, _, d => d
  | fuel + 1, upto, d =>
    match (d.arr a).asm with
    | none => d
    | some x =>
      let k := x.pubNext
      let hi := min x.pic.h (16 * k + 16)
      if sliceCount x.pic.h ≤ k then d
      else if (x.holes (16 * k) hi).isEmpty then Dev.publishDue e a fuel upto (d.publish e a k)
      else if k < upto then
        let y := if d.g .arrKind a = 2 then (x.concealXs (d.blackOf a) (16 * k) hi).1 else x.conceal d.drawn (16 * k) hi
        let d := (d.spend x).updArr a fun c => { c with asm := some y }
        Dev.publishDue e a fuel upto (d.publish e a k)
      else d

/-! ## De-interlacing (R80) -/

/-- Difference of two samples. -/
def absDiff (a b : Nat) : Nat := if a < b then b - a else a - b

/-- One frame from a field: `cur` the field, `top` its parity, `opp` and `same` the earlier fields.
[DEDUCED, log entry 24] -/
def deinterlace (mode low high : Nat) (cur : Pic) (top : Bool) (opp same : Option Pic) : Pic :=
  let own := if top then 0 else 1
  let k12 := 2 ^ (12 - cur.depth)
  let (sx, sy) := chromaDiv cur.samp
  let above (n y : Nat) : Nat := if y = 0 then 0 else if (y - 1) % 2 = own then (y - 1) / 2 else min (n - 1) (y / 2)
  let below (n y : Nat) : Nat := if (y + 1) / 2 < n then (y + 1) / 2 else n - 1
  -- field line above and below frame line y of the other parity; the one that exists stands for both
  let up (n y : Nat) : Nat := if y = 0 then below n y else above n y
  let dn (n y : Nat) : Nat := if n * 2 ≤ y + 1 then above n y else below n y
  let motion (x y : Nat) : Option Nat := same.map fun s =>
    let n := cur.y.length
    let m (k : Nat) : Nat := absDiff (cur.lumaAt x k) (s.lumaAt x k) * k12
    max (m (up n y)) (m (dn n y))
  let out (p : Pic → List (List Nat)) (fx fy : Nat) : List (List Nat) :=
    let f := p cur
    let n := f.length
    (List.range (2 * n)).map fun y =>
      if y % 2 = own then f.getD (y / 2) []
      else (List.range (f.getD 0 []).length).map fun x =>
        let a := (f.getD (up n y) []).getD x 0
        let b := (f.getD (dn n y) []).getD x 0
        let s := (a + b + 1) / 2
        let ly := if fy * y % 2 = own then fy * y + 1 else fy * y
        match mode, opp, motion (fx * x) ly with
        | 2, some o, _ => ((p o).getD (y / 2) []).getD x 0
        | 0, some o, some m =>
          let t := ((p o).getD (y / 2) []).getD x 0
          if m ≤ low then t
          else if high ≤ m then s
          else (t * (high - m) + s * (m - low) + (high - low) / 2) / (high - low)
        | _, _, _ => s
  { cur with h := 2 * cur.h, y := out Pic.y 1 1, c1 := out Pic.c1 sx sy, c2 := out Pic.c2 sx sy }

/-- A whole or concealed frame goes to storage; a field is de-interlaced first and, once stored, kept as the latest of its
parity. -/
def Dev.deliverFrame (e : Env) (d : Dev) (a : Nat) (p : Pic) (field : Nat) : Dev :=
  let d := d.claimDue a
  if d.g .arrScan a = 0 ∨ d.skipped a then d.storeFrame e a p
  else
    let p := { p with coding := d.arrCoding a }
    let c := d.arr a
    let top := field == 1
    let (opp, same) := if top then (c.bottom, c.top) else (c.top, c.bottom)
    let f := deinterlace (d.g .arrDiMode a) (d.g .arrDiLow a) (d.g .arrDiHigh a) p top opp same
    (d.storeFrame e a f).updArr a fun c => if top then { c with top := some p } else { c with bottom := some p }

/-- Bits per pixel of a stored frame's codestream, in 1/16 (R204). -/
def Dev.reportBpp (d : Dev) (a : Nat) (x : Asm) : Dev :=
  if d.g .arrKind a = 2 then
    d.put .arrXsBppNow a ((x.parts.map fun p => p.bytes.length).sum * 128 / max 1 (x.pic.w * x.pic.h))
  else d

/-- Close a frame of kind 1 or 2 (R70): reject, or conceal, publish what is left, and store. A frame with too many missing
lines is rejected as incomplete whether or not it found a room. [DEDUCED, log entry 135] -/
def Dev.closeFrame (e : Env) (d : Dev) (a : Nat) : Dev :=
  let d := d.claimDue a
  match (d.arr a).asm with
  | none => d
  | some x =>
    let (y, d) := if d.g .arrKind a = 2 then
        let (y, n) := x.concealXs (d.blackOf a) 0 x.pic.h
        (y, d.countConcealed a n)
      else (x.conceal d.drawn 0 x.pic.h, d.spend x)
    if d.g .arrConcealMax a < y.missing then d.rejectIncomplete a
    else
      let d := d.updArr a fun c => { c with asm := some y }
      let d := if d.sliced a then Dev.publishDue e a (sliceCount y.pic.h) (sliceCount y.pic.h) d else d
      if y.dest = .skip then d.deliverFrame e a y.pic y.field
      else
        let d := if 0 < y.missing then (d.count .arrConcealed a).flag .arrEventFlags a 3 else d
        (d.deliverFrame e a y.pic y.field).reportBpp a y

/-! ## RTP time (R73) -/

/-- The frame time of a 90 kHz timestamp at a time base instant, before substitution. -/
def rtpTime (ts tb : Nat) : Nat :=
  let k0 := tb * 90000 / 1000000000
  let base := k0 / 2 ^ 32
  let cand := ([base - 1, base, base + 1].map fun b => b * 2 ^ 32 + ts)
  let dist (k : Nat) : Nat := absDiff (k * 1000000000) (tb * 90000)
  let best := cand.foldl (fun m k => min m (dist k)) (dist (base * 2 ^ 32 + ts))
  let k := (cand.find? fun k => dist k == best).getD (base * 2 ^ 32 + ts)
  k * 1000000000 / 90000

/-- Frame time, `arr_rtp_offset` and the substitution outside `arr_ts_window`. -/
def Dev.frameTime (e : Env) (d : Dev) (a ts : Nat) : Nat × Dev :=
  let t := rtpTime ts e.tb
  let off : Int := (e.tb : Int) - (t : Int)
  let d := d.puti .arrRtpOffset a (clampInt (-(2 ^ 31)) (2 ^ 31 - 1) off)
  if d.g .arrTsWindow a * 1000000 < off.natAbs then (e.tb, d.flag .arrEventFlags a 6) else (t, d)

/-- The 15/16 check of R71. -/
def Dev.tooSoon (d : Dev) (a time : Nat) : Bool :=
  (d.arr a).stored && (((time : Int) - (d.g .arrFrameTime a : Int) : Int) : Rat) < 15 / 16 * d.envPeriod a

/-! ## Paths and merge (R74, R75) -/

/-- A packet of a path: the path is UP. [DEDUCED, log entry 22] -/
def Dev.pathHeard (e : Env) (d : Dev) (a : Nat) (pathB : Bool) : Dev :=
  let bit := b2n pathB
  let d := d.updArr a fun c => if pathB then { c with lastB := e.now } else { c with lastA := e.now }
  if (d.g .arrPathState a).testBit bit then d
  else (d.put .arrPathState a (d.g .arrPathState a ||| 2 ^ bit)).flag .arrEventFlags a (4 + bit)

/-- The path is DOWN: its timeout has passed (R75). -/
def Dev.pathSilent (e : Env) (d : Dev) (a path : Nat) : Bool :=
  let last := if path = 0 then (d.arr a).lastA else (d.arr a).lastB
  path < 2 && (d.g .arrPathState a).testBit path && last + d.g .arrPathTimeout a * 4000 < e.now

def Dev.pathDown (d : Dev) (a path : Nat) : Dev :=
  (d.put .arrPathState a (clearMask (d.g .arrPathState a) (2 ^ path))).flag .arrEventFlags a (4 + path)

/-- A sequence number of `bits` bits extended to the value nearest to the newest one seen. -/
def extendSeq (bits : Nat) (newest : Option Nat) (s : Nat) : Nat :=
  match newest with
  | none => s
  | some n =>
    let m := 2 ^ bits
    let k := n / m * m + s % m
    if n + m / 2 < k ∧ m ≤ k then k - m else if k + m / 2 < n then k + m else k

/-- What the merge makes of a copy. -/
inductive Copy where
  | first | dup | late
deriving DecidableEq, Repr

/-- The first copy of a number could have come with the first packet at or above it. [DEDUCED, log entry 21] -/
def ArrCtx.judge (c : ArrCtx) (now window s : Nat) : Copy :=
  let since := (c.seen.filter fun p => s ≤ p.1).map (·.2)
  if (match c.seqNew with
      | some n => decide (s + 32768 < n)
      | none => false) then .late
  else if since.any fun t => t + 4 * window < now then .late
  else if (c.seen.find s).isSome then .dup
  else .first

/-- Judge a packet of a merging arrival, and remember it; a copy that is both late and a duplicate is late.
[DEDUCED, log entry 21] -/
def Dev.merge (e : Env) (d : Dev) (a seq : Nat) : Bool × Dev :=
  if !d.on .arrMerge a then (true, d)
  else
    let c := d.arr a
    let s := extendSeq (if d.g .arrKind a = 1 then 32 else 16) c.seqNew seq
    match c.judge e.now (d.g .arrMergeWindow a) s with
    | .late => (false, d.count .arrLate a)
    | .dup => (false, d.count .arrDups a)
    | .first =>
      let n := match c.seqNew with
        | some m => max m s
        | none => s
      let seen := (c.seen.put s e.now).filter fun p => n ≤ p.1 + 32768
      (true, d.putArr a { c with seqNew := some n, seen := seen })

/-! ## Kind 1 packets (R68, R71) -/

/-- Evidence in a segment (R71). -/
def Dev.srdBad (d : Dev) (a : Nat) (s : Srd) (fieldId : Bool) : Bool :=
  d.arrLines a ≤ s.row || d.g .arrWidth a < s.offset + s.y.length || fieldId != (d.g .arrScan a != 0)

/-- Samples written into a line. -/
def setRun (p : List (List Nat)) (y x : Nat) (vs : List Nat) : List (List Nat) :=
  if vs.isEmpty then p
  else
    let l := p.getD y []
    p.set y (l.take x ++ vs.take (l.length - x) ++ l.drop (x + vs.length))

def Asm.write (x : Asm) (s : Srd) : Asm :=
  let (dx, dy) := chromaDiv x.pic.samp
  let y := setRun x.pic.y s.row s.offset s.y
  let y := if x.pic.samp = 0 then setRun y (s.row + 1) s.offset s.y2 else y
  let x := x.receives s.row s.offset (s.offset + s.y.length)
  let x := if x.pic.samp = 0 then x.receives (s.row + 1) s.offset (s.offset + s.y2.length) else x
  { x with pic := { x.pic with y := y, c1 := setRun x.pic.c1 (s.row / dy) (s.offset / dx) s.c1,
                               c2 := setRun x.pic.c2 (s.row / dy) (s.offset / dx) s.c2 } }

/-- One segment of an accepted packet. -/
def Dev.srdIn (e : Env) (d : Dev) (a : Nat) (s : Srd) : Dev :=
  match (d.arr a).asm with
  | none => d
  | some x =>
    let d := d.updArr a fun c => { c with asm := some (x.write s) }
    if d.sliced a then
      Dev.publishDue e a (sliceCount x.pic.h) (s.row / 16) (d.beginSlice e a (s.row / 16))
    else d

/-- A packet carries a new RTP timestamp: no frame of the arrival has begun with it lately (R68).
[DEDUCED, log entry 136] -/
def Dev.newTs (d : Dev) (a ts : Nat) : Bool := !(d.arr a).tsSeen.contains ts

/-- A frame rejected before it claims a room is outside the envelope (R71, R90). -/
def Dev.refuseFrame (d : Dev) (a ts : Nat) : Dev :=
  ((d.updArr a fun c => { c with tsSeen := (ts :: c.tsSeen).take 4 }).count .arrOutside a).flag .arrEventFlags a 1

/-- The first packet of a new timestamp closes the frame before it and starts its own; evidence at the start rejects
the frame before it claims a room (R90). -/
def Dev.maybeStart (e : Env) (d : Dev) (a ts field : Nat) (evidence : Bool) : Dev :=
  if d.newTs a ts then
    let d := d.closeFrame e a
    let (time, d) := d.frameTime e a ts
    if evidence || d.tooSoon a time then d.refuseFrame a ts
    else d.frameStart e a ts time field (d.g .arrWidth a) (d.arrLines a)
  else d

/-- An accepted packet of kind 1. Field bit 0 marks the top field. [PRESUMED, log entry 137] -/
def Dev.rawPacket (e : Env) (d : Dev) (a : Nat) (r : Rtp) (rows : List Srd) (fieldId : Bool) : Dev :=
  let bad := rows.any fun s => d.srdBad a s fieldId
  let field := match rows.head? with
    | some s => if d.g .arrScan a = 0 then 0 else if s.field then 2 else 1
    | none => 0
  let d := d.maybeStart e a r.ts field bad
  match (d.arr a).asm with
  | none => d
  | some x =>
    if x.ts ≠ r.ts then d
    else if bad then d.rejectOutside a
    else
      let d := rows.foldl (fun d s => d.srdIn e a s) d
      if r.marker then d.closeFrame e a else d

/-- The unit a codestream packet belongs to: in slice mode its SEP counter says so, 2,047 being the markers; otherwise
the codestream itself (RFC 9134). [PRESUMED, log entry 138] -/
def xsUnit (h : XsHead) (slice : Option Nat) : Option Nat :=
  if h.k then (if h.sep = 2047 then none else some h.sep) else slice

/-- Packets of a unit of the codestream. -/
def Asm.unit (x : Asm) (k : Option Nat) : List XsPart := x.parts.filter fun p => p.slice == k

/-- A packet at or before which the frame stands complete. -/
def Asm.hasSeq (x : Asm) (q : Nat) : Bool := x.parts.any fun p => p.seq == q

/-- Packets of a unit that follow one another from its first, in order: those ahead of the first loss (R202). -/
def Asm.run (x : Asm) (k : Option Nat) : Nat → Nat → List XsPart
  | 0, _ => []
  | fuel + 1, q => match (x.unit k).find? fun p => p.seq == q with
    | none => []
    | some p => p :: x.run k fuel (q + 1)

/-- The first packet of a unit: the one marked so, or one whose predecessor belongs to an earlier unit. -/
def Asm.opens (x : Asm) (k : Option Nat) : Option XsPart :=
  (x.unit k).find? fun p => p.first || (p.seq != 0 && x.parts.any fun q => q.seq == p.seq - 1 && q.slice != k)

/-- A unit's packets up to the first loss. -/
def Asm.prefix (x : Asm) (k : Option Nat) : List XsPart :=
  match x.opens k with
  | none => []
  | some p => x.run k x.parts.length p.seq

/-- Every packet of a unit is there: they follow one another from its first to the first of the next unit, or to the last
of the frame. -/
def Asm.whole (x : Asm) (k : Option Nat) : Bool :=
  match (x.prefix k).getLast? with
  | none => false
  | some p => x.ended == some p.seq || x.parts.any fun q => q.seq == p.seq + 1 && q.slice != k

/-- The decoder can do slice `k`: the first precinct of the next slice is there, or a later slice, or the frame has ended
(R199). -/
def Asm.canDecode (x : Asm) (k : Nat) : Bool :=
  x.ended.isSome || x.parts.any fun p => match p.slice with
    | some j => k + 1 < j || (j == k + 1 && p.precinct)
    | none => false

/-- Remember when slice `k` could first be decoded, and whether with every packet (R198, R199). -/
def Asm.note (now : Nat) (x : Asm) (k : Nat) : Asm :=
  let whole := x.whole (some k)
  if !x.canDecode k || k < x.next then x
  else match x.held.find k with
    | some (_, true) => x
    | some (_, false) => if whole then { x with held := x.held.put k (now, true) } else x
    | none => { x with held := x.held.put k (now, whole) }

/-- What the picture header says takes effect on a frame that has produced nothing yet. -/
def Asm.headed (x : Asm) (pic : Option XsPicture) : Asm :=
  match pic with
  | none => x
  | some p => { x with
      sliceLines := some p.sliceHeight
      pic := if x.pic.w = p.width ∧ x.pic.h = p.height then x.pic
        else { Pic.flat p.width p.height x.pic.samp x.pic.depth 0 0 0 with coding := x.pic.coding } }

/-- A codestream packet of the frame with its timestamp. -/
def Asm.addXs (now : Nat) (x : Asm) (r : Rtp) (h : XsHead) (slice : Option Nat) (precinct : Bool) (pic : Option XsPicture)
    (bytes : List Byte) : Asm :=
  if x.ts ≠ r.ts then x
  else
    let q := extendSeq 16 (x.parts.head?.map fun p => p.seq) (r.seq % 2 ^ 16 + 2 ^ 16)
    let k := xsUnit h slice
    let x := (x.headed pic)
    let x := { x with parts := ⟨q, k, h.p == 0 && (h.k || h.sep == 0), precinct, bytes⟩ :: x.parts,
                      ended := if h.l || r.marker then some q else x.ended }
    match k with
    | none => x
    | some k => (x.note now (k - 1)).note now k

/-- Evidence of a codestream packet (R71, R195, R196): transmission mode, interlace, the picture header. -/
def Dev.xsBad (d : Dev) (a : Nat) (h : XsHead) (pic : Option XsPicture) : Bool :=
  !h.t || h.i != 0 || pic.any fun p =>
    d.g .arrWidth a < p.width || d.g .arrHeight a < p.height || p.sampling != d.g .arrSampling a
      || p.depth != d.g .arrDepth a || p.profile != d.g .arrXsProfile a
      || 2 < p.nly || p.sliceHeight < 8 || 128 < p.sliceHeight || p.sliceHeight % 2 ^ p.nly != 0
      || (d.sliced a && p.sliceHeight != 16)

/-- The frame's size in its log follows the picture header. -/
def ArrCtx.logHead (c : ArrCtx) (ts : Nat) (pic : Option XsPicture) : ArrCtx :=
  match pic with
  | none => c
  | some p => ((c.asm.toList ++ c.recv.toList).filter fun x => x.ts == ts).foldl
      (fun (c : ArrCtx) x => c.updLog x.start fun l => { l with w := p.width, h := p.height }) c

/-- An accepted packet of kind 2. An arrival without a codec engine stores nothing (R203); a third frame start closes the
frame in decode. [DEDUCED, log entry 136] -/
def Dev.xsPacket (e : Env) (d : Dev) (a : Nat) (r : Rtp) (h : XsHead) (slice : Option Nat) (precinct : Bool)
    (pic : Option XsPicture) (bytes : List Byte) : Dev :=
  if 24 ≤ d.g .arrCodec a then d
  else
    let bad := d.xsBad a h pic
    let d := if d.newTs a r.ts then
        let (time, d1) := d.frameTime e a r.ts
        if bad || d1.tooSoon a time then d1.refuseFrame a r.ts
        else
          let (w, hh) := (pic.map fun p => (p.width, p.height)).getD (d.g .arrWidth a, d.g .arrHeight a)
          (if (d1.arr a).recv.isSome then d1.closeFrame e a else d1).frameStart e a r.ts time 0 w hh
      else d
    let c := d.arr a
    if bad then
      if c.asm.any (·.ts == r.ts) then d.rejectOutside a
      else if c.recv.any (·.ts == r.ts) then ((d.rejectBehind a).count .arrOutside a).flag .arrEventFlags a 1
      else d
    else
      let add (x : Asm) : Asm := x.addXs e.now r h slice precinct pic bytes
      d.putArr a { c.logHead r.ts pic with asm := c.asm.map add, recv := c.recv.map add }

/-- A matching packet of an arrival of kind 1 or 2 (R72 to R75). Only first copies count in `arr_pkts_a` and
`arr_pkts_b`. [DEDUCED, log entry 22] -/
def Dev.arrPacket (e : Env) (d : Dev) (a : Nat) (pathB : Bool) (r : Rtp) : Dev :=
  let d := d.pathHeard e a pathB
  let (fresh, d) := d.merge e a r.seq
  if !fresh then d
  else
    let d := if pathB then d.count .arrPktsB a else d.count .arrPktsA a
    match d.g .arrKind a, r.body with
    | 1, .raw rows fieldId => d.rawPacket e a r rows fieldId
    | 2, .xs head slice precinct pic bytes => d.xsPacket e a r head slice precinct pic bytes
    | _, _ => d

/-! ## Time limit and source loss (R68, R81) -/

/-- The time limit of a frame of kind 1 or 2 has passed. [DESIGN CHOICE, log entry 3] -/
def Dev.closeDue (e : Env) (d : Dev) (a : Nat) : Bool :=
  (d.g .arrKind a == 1 || d.g .arrKind a == 2) &&
    match (d.arr a).asm with
    | none => false
    | some x => 3 / 2 * d.envPeriod a < ((250 * (e.now - x.start) : Nat) : Rat)

/-- The deadline of source loss has passed. -/
def Dev.lossDue (e : Env) (d : Dev) (a : Nat) : Bool :=
  (d.g .arrState a == arrWaiting || d.g .arrState a == arrLive) &&
    match (d.arr a).starts with
    | [] => false
    | s :: _ => d.g .arrLossFrames a * d.envPeriod a < ((250 * (e.now - s) : Nat) : Rat)

/-- The arrival is declared lost; takes naming it are undone (R81, R82, R125). -/
def Dev.declareLost (d : Dev) (a : Nat) : Dev := (d.setArrState a arrLost).undoNaming a

/-! ## Pattern generators (R79) -/

/-- The picture of a generator: its frame's `arr_seq` is `n`. -/
def Dev.pattern (d : Dev) (a n : Nat) : Pic :=
  let w := d.g .arrWidth a
  let h := d.g .arrHeight a
  let samp := d.g .arrSampling a
  let depth := d.g .arrDepth a
  let full := d.g .arrRange a == 1
  let black := if full then 0 else 256
  let white := if full then 4095 else 3760
  let three := if full then 3071 else 2884
  let src : Coding := { rgb := true, colour := d.g .arrColorimetry a, full := full, hlg := false }
  let dst : Coding := { src with rgb := samp == 3 }
  let f := (decodeMap src).then (encodeMap dst)
  let exact (p : Px) : Px :=
    if samp = 3 then p
    else
      let one (r : Rat × Rat × Rat × Rat) : Nat :=
        let (x, y, z, o) := r
        clipTo 4095 (roundUp (x * p.a + y * p.b + z * p.c + o))
      ⟨one f.r0, one f.r1, one f.r2⟩
  let flat : Px :=
    let v := d.g .arrGenColour a
    ⟨bitsAt v 0 12, bitsAt v 16 12, bitsAt v 32 12⟩
  let bar : Nat → Px
    | 0 => ⟨three, three, three⟩ | 1 => ⟨three, three, black⟩ | 2 => ⟨black, three, three⟩
    | 3 => ⟨black, three, black⟩ | 4 => ⟨three, black, three⟩ | 5 => ⟨three, black, black⟩
    | 6 => ⟨black, black, three⟩ | _ => ⟨black, black, black⟩
  let grey (v : Nat) : Px := ⟨v, v, v⟩
  let px (x y : Nat) : Px :=
    match d.g .arrGenPattern a with
    | 0 => flat
    | 1 => exact (bar (min 7 (x / (w / 8))))
    | 2 => exact (grey (black + x * (white - black + 1) / w))
    | 3 => exact (grey (if (x / 64 + y / 64) % 2 = 0 then white else black))
    | 4 => exact (grey (if (x + w - 8 * n % w) % w < 64 then white else black))
    | _ =>
      if y < 32 ∧ x < 512 then exact (grey (if n.testBit (15 - x / 32) then white else black)) else flat
  let (sx, sy) := chromaDiv samp
  let cut (v : Nat) : Nat := v / 2 ^ (12 - depth)
  let plane (f : Px → Nat) (sx sy : Nat) : List (List Nat) :=
    (List.range (h / sy)).map fun y => (List.range (w / sx)).map fun x => cut (f (px (sx * x) (sy * y)))
  { w := w, h := h, samp := samp, depth := depth, y := plane Px.a 1 1, c1 := plane Px.b sx sy, c2 := plane Px.c sx sy }

/-- Whole frames of kinds 3, 4 and 5: every slice is published with the frame, and the frame is stored.
[DEDUCED, log entry 23] -/
def Dev.wholeFrame (e : Env) (d : Dev) (a : Nat) (p : Pic) : Dev :=
  match (d.arr a).asm with
  | none => d
  | some x =>
    let got := (List.range p.h).map fun y => (y, [(0, p.w)])
    let d := d.updArr a fun c => { c with asm := some { x with pic := p, got := got } }
    let d := if d.sliced a then
        let d := (List.range (sliceCount p.h)).foldl (fun d k => d.beginSlice e a k) d
        Dev.publishDue e a (sliceCount p.h) (sliceCount p.h) d
      else d
    d.deliverFrame e a p x.field

/-- The generator has written its last line. [DEDUCED, log entry 23] -/
def Dev.generatorDone (e : Env) (d : Dev) (a : Nat) : Dev :=
  if d.g .arrKind a = 5 then d.wholeFrame e a (d.pattern a ((d.g .arrSeq a + 1) % 2 ^ 32)) else d

/-! ## Host injection (R76, R357) -/

/-- The ring of an injecting arrival holds an entry it may take now: one per envelope period. -/
def Dev.injectReady (e : Env) (d : Dev) (a : Nat) : Bool :=
  d.g .arrKind a == 3 && (d.arr a).inject.isNone &&
    match (d.arr a).lastTake with
    | none => true
    | some t => d.envPeriod a ≤ ((250 * (e.now - t) : Nat) : Rat)

/-- The surface an injection entry names. -/
def injectSurf (t : Taken) : Option Surf :=
  (fmtOf (entryByte t 3)).map fun f =>
    { addr := entryField t 8 8, pitch := bitsAt (entryField t 16 4) 0 24, space := bitsAt (entryField t 16 4) 24 3,
      fmt := f, coding := codingOf true 0, h := entryField t 0x16 2, w := entryField t 0x14 2, x := 0, y := 0,
      rw_ := entryField t 0x14 2, rh := entryField t 0x16 2 }

/-- The entry lies outside the envelope (R71, R357). -/
def Dev.injectBad (d : Dev) (a : Nat) (t : Taken) : Bool :=
  let flags := entryByte t 1
  let field := entryByte t 2
  let audio := flags.testBit 0
  let aud := entryField t 0x28 2
  let chans := entryByte t 0x2A
  match injectSurf t with
  | none => true
  | some s =>
    let audBytes := if audio then 4 * aud * chans else 0
    let span := s.touchedBytes
    entryByte t 0 != 1 || clearMask flags 0x21 != 0 || 2 < field || !s.fmt.linear
      || bitsAt (entryField t 16 4) 27 5 != 0 || 2 < s.space || (t.bytes.drop 0x2B).any (· != 0)
      || (if d.g .arrScan a = 0 then field != 0 else field == 0)
      || s.w == 0 || s.h == 0 || d.g .arrWidth a < s.w || d.arrLines a < s.h
      || (d.g .arrScan a != 0 && s.h != d.arrLines a)
      || s.fmt.samp != d.g .arrSampling a || s.fmt.depth != d.g .arrDepth a
      || !s.alignedOk
      || (audio && (aud == 0 || 8192 < aud || chans == 0 || 8 < chans))
      || (match (d.window s.space).2.2 with
          | some sz => decide (sz < s.touched.2 + 1) || (audio && decide (sz < entryField t 0x20 8 + audBytes))
          | none => decide (2 ^ 28 < span + audBytes))

/-- Complete an injection entry (R76, R357). -/
def Dev.injectEnd (d : Dev) (a ring : Nat) (t : Taken) (status time : Nat) : Dev :=
  let d := d.ringComplete ring t status (if status = 0 then time else 0) (d.g .arrSeq a)
  d.updArr a fun c => { c with inject := none }

/-- The entry an arrival has taken is there: it was abandoned meanwhile, lies outside the envelope, found no room, or its
copy begins (R71, R76, R92). [DEDUCED, log entry 139] -/
def Dev.injectEntry (d : Dev) (a : Nat) (j : Inject) : Dev :=
  let t := j.entry
  if j.abandoned then d.injectEnd a j.ring t 0x0306 0
  else if d.injectBad a t then
    (((d.rejectFrame a).count .arrOutside a).flag .arrEventFlags a 1).flag .arrEventFlags a 8 |>.injectEnd a j.ring t 0x0223 0
  else
    let d := d.claimDue a
    if d.skipped a then (d.updArr a ArrCtx.next).injectEnd a j.ring t 0x0419 0
    else
      let ft := entryField t 0x18 8
      let time := if ft = 0 then j.time else ft
      let w := entryField t 0x14 2
      let h := entryField t 0x16 2
      d.updArr a fun c =>
        let c := match c.asm with
          | none => c
          | some x => c.updLog x.start fun l => { l with w := w, h := h, time := time }
        { c with inject := some { j with time := time },
                 asm := c.asm.map fun x => { x with time := time, field := entryByte t 2, pic := d.blankPic a w h } }

/-- The arrival takes the next entry of its ring: its frame starts. An entry in host memory is read by ENTRY_FETCH, one in
the part at once (R68, R354). [DEDUCED, log entry 139] -/
def Dev.injectTake (e : Env) (d : Dev) (a : Nat) : Dev :=
  let r := d.g .arrRing a
  let c := d.ring r
  if c.st ≠ .enabled ∨ !c.nonempty ∨ !c.taken.isEmpty ∨ !d.injectReady e a then d
  else
    let (t, d) := d.takeAhead e r
    let d := d.updArr a fun x => { x with lastTake := some e.now }
    let d := d.frameStart e a 0 e.tb 0 (d.g .arrWidth a) (d.arrLines a)
    let j : Inject := ⟨r, t, e.tb, false⟩
    let d := d.updArr a fun x => { x with inject := some j }
    if t.bytes.isEmpty then d else d.injectEntry a j

/-- The read of an entry an arrival has taken fails: the entry is not taken after all (R354). -/
def Dev.injectUntake (d : Dev) (r index : Nat) : Dev :=
  let mine := (d.arrs.filter fun (p : Nat × ArrCtx) =>
    p.2.inject.any fun j => j.ring == r && j.entry.index == index).map fun (p : Nat × ArrCtx) => p.1
  d.forEach mine fun d a =>
    let was := (d.arr a).inject.any fun j => j.abandoned
    (if was then d else d.rejectFrame a).updArr a fun c => { c with inject := none }

/-- The read of an entry an arrival has taken is answered. -/
def Dev.injectAnswer (d : Dev) (r : Nat) (t : Taken) : Dev :=
  d.forEach (d.arrs.map fun (p : Nat × ArrCtx) => p.1) fun d a =>
    match (d.arr a).inject with
    | none => d
    | some j => if j.ring = r ∧ j.entry.index = t.index then d.injectEntry a { j with entry := t } else d

/-- The bytes of a space, host memory as the entry's read answered it. -/
def Dev.spaceByte (e : Env) (d : Dev) (space lo : Nat) (host : List Byte) (a : Nat) : Byte :=
  let (sp, base, size) := d.window space
  match size with
  | none => host.getD (a - lo) 0
  | some _ => e.mem.read sp (base + a)

/-- The samples of an audio block (R359): 32-bit little-endian words. -/
def audioBlock (chans n : Nat) (bs : List Byte) : List (List Nat) :=
  (List.range n).map fun i => (List.range chans).map fun k => ofLe ((bs.drop (4 * (i * chans + k))).take 4)

/-- The embedding slots of an arrival take an entry's audio block; samples past their decision are dropped (R261, R265). -/
def Dev.embTake (e : Env) (d : Dev) (a : Nat) (t : Taken) (time : Nat) (host : List Byte) : Dev :=
  if !(entryByte t 1).testBit 0 then d
  else
    let n := entryField t 0x28 2
    let chans := entryByte t 0x2A
    let at_ := entryField t 0x20 8
    let space := bitsAt (entryField t 16 4) 24 3
    let bs := (List.range (4 * n * chans)).map fun k => d.spaceByte e space at_ host (at_ + k)
    let block := audioBlock chans n bs
    ((List.range 8).filter fun i => d.g .embArrival i == a).foldl (fun d i =>
      let (xs, d) := block.foldl (fun (p : List (List Nat) × Dev) l =>
        let (l', d) := p.2.napLine (d.on .embNap i) (896 + 8 * i) l
        (p.1 ++ [l'], d)) ([], d)
      let first := mediaCount time 48000
      let late := ((List.range n).takeWhile fun k => d.tooLate e (0x80 + i) (first + k)).length
      let b : EmbBlock := { first := first + late, samples := xs.drop late }
      let low := d.playing e (0x80 + i) - (keptBehind : Nat)
      { d with embBlocks := d.embBlocks.upd i [] fun l =>
          b :: l.filter fun (x : EmbBlock) => decide (low < ((x.first + x.samples.length : Nat) : Int)) }) d

/-- The copy of the frame into storage completes. -/
def Dev.injectDone (e : Env) (d : Dev) (a : Nat) (bytes audio : List Byte) : Dev :=
  match (d.arr a).inject with
  | none => d
  | some j =>
    if j.entry.bytes.isEmpty then d
    else if j.abandoned then d.injectEnd a j.ring j.entry 0x0306 0
    else match injectSurf j.entry with
      | none => d
      | some s =>
        let p := s.readRect (d.spaceByte e s.space s.touched.1 bytes)
        ((d.wholeFrame e a p).embTake e a j.entry j.time audio).injectEnd a j.ring j.entry 0 j.time

/-- A commit returned the arrival to WAITING (R59): nothing in progress is stored. -/
def Dev.toWaiting (d : Dev) (a : Nat) : Dev :=
  let c := d.arr a
  let d := (c.asm.toList ++ c.recv.toList).foldl (fun d x => d.freeRoom a x.dest) d
  let d := d.updArr a fun c =>
    { c with asm := none, recv := none, starts := [], tsSeen := [], unspent := [], seqNew := none, seen := [],
             top := none, bottom := none, inject := c.inject.map fun j => { j with abandoned := true } }
  let d := d.setArrState a (if d.g .arrKind a = 0 then arrUnbound else arrWaiting)
  if d.sliced a then d.setSliceMode a 1 7
  else if d.g .arrSliceMode a != 0 then d.setSliceMode a 0 0 else d

end Sys2Proof.Machine
end

