-- ==== Sys2Proof/Machine/PorterOps.lean ====
section
/-!
DEFINITION. Porter: checks of an entry, what a command reads and writes, conflicts between channels, completion, abort
(R278 to R299).
-/

namespace Sys2Proof.Machine

def Dev.chan (d : Dev) (k : Nat) : PtrChan := d.ptrs.getD k {}
def Dev.putChan (d : Dev) (k : Nat) (c : PtrChan) : Dev := { d with ptrs := d.ptrs.put k c }

/-- The entry at the head of a channel's ring, once fetched. -/
def Dev.ptrHead (d : Dev) (k : Nat) : Option Taken := (d.ring (d.g .ptrRing k)).taken.head?

/-! ## Entry fields (R279, R281) -/

/-- A surface descriptor at an offset of an entry. -/
def surfAt (t : Taken) (o : Nat) : Option Surf :=
  (fmtOf (entryByte t (o + 0x0C))).map fun f =>
    { addr := entryField t o 8, pitch := bitsAt (entryField t (o + 8) 4) 0 24,
      space := bitsAt (entryField t (o + 8) 4) 24 3, fmt := f,
      coding := codingOf (f.argb || f.samp == 3) (entryByte t (o + 0x0D)),
      h := entryField t (o + 0x0E) 2, w := entryField t (o + 0x10) 2, x := entryField t (o + 0x12) 2,
      y := entryField t (o + 0x14) 2, rw_ := entryField t (o + 0x16) 2, rh := entryField t (o + 0x18) 2 }

/-- Reserved bits and fields outside their range of a descriptor: 0x0201. A space 3 surface takes its format and
coding from the frame. -/
def descBad (t : Taken) (o : Nat) : Bool :=
  let sp := entryField t (o + 8) 4
  bitsAt sp 27 5 != 0 || 3 < bitsAt sp 24 3 || entryField t (o + 0x1A) 2 != 0
    || entryField t (o + 0x16) 2 == 0 || entryField t (o + 0x18) 2 == 0
    || (if bitsAt sp 24 3 = 3 then decide (255 < entryField t o 8)
        else (fmtOf (entryByte t (o + 0x0C))).isNone || entryByte t (o + 0x0D) / 16 != 0
          || bitsAt (entryByte t (o + 0x0D)) 0 2 == 3)

/-- Colour planes and alpha turned clockwise by `rot` quarter turns (R289). -/
def turn {α : Type} (rot : Nat) (p : List (List α)) : List (List α) :=
  let w := (p.getD 0 []).length
  match rot with
  | 0 => p
  | 1 => (List.range w).map fun i => (p.reverse.map fun l => (l.drop i).take 1).flatten
  | 2 => p.reverse.map List.reverse
  | _ => (List.range w).reverse.map fun i => (p.map fun l => (l.drop i).take 1).flatten

/-- A command decoded: operation, flags, destination and source. -/
structure PtrCmd where
  op : Nat
  same : Bool
  dither : Bool
  pixelAlpha : Bool
  rot : Nat
  alpha : Nat
  a : Surf
  b : Option Surf
  /-- the fill colour -/
  fill : Nat
deriving DecidableEq, Repr

/-- The frame a space 3 surface reads: the frame R105 would take with τ the time base (R294). -/
def Dev.ptrFrame (e : Env) (d : Dev) (arr : Nat) : Option Sel :=
  if d.g .arrState arr = arrUnbound then none else d.selectA arr (e.tb : Nat)

/-- A space 3 surface with the frame's format, coding, size and pitch. -/
def Dev.frameSurf (d : Dev) (s : Surf) (f : Sel) : Surf :=
  let p := d.picOf f
  { s with fmt := ⟨p.samp, p.depth, false, false⟩
           coding := p.codingOf
           addr := 0, w := p.w, h := p.h, pitch := roomPitch p.samp p.depth p.w }

/-- Do two rectangles of one surface intersect? -/
def rectsMeet (a b : Surf) : Bool :=
  a.x < b.x + b.rw_ && b.x < a.x + a.rw_ && a.y < b.y + b.rh && b.y < a.y + a.rh

def spansMeet (p q : Span) : Bool := p.space == q.space && p.lo ≤ q.hi && q.lo ≤ p.hi

/-- The touched range of a surface as a span of its memory. -/
def Dev.spanOf (d : Dev) (s : Surf) : Span :=
  let (sp, base, _) := d.window s.space
  ⟨sp, base + s.touched.1, base + s.touched.2⟩

/-- Touched bytes reach beyond the area (0x0601). -/
def Dev.windowBad (d : Dev) (s : Surf) : Bool :=
  match (d.window s.space).2.2 with
  | some sz => decide (sz < s.touched.2 + 1)
  | none => false

def firstCode (l : List (Bool × Nat)) : Nat :=
  match l with
  | [] => 0
  | (true, c) :: _ => c
  | (false, _) :: t => firstCode t

/-- Decode an entry: 0x0201, or the command; a space 3 source stays unresolved. -/
def ptrDecode (t : Taken) : Option PtrCmd :=
  let op := entryByte t 0
  let flags := entryByte t 1
  let alpha := entryField t 2 2
  let same := flags.testBit 0
  let srcUsed := op = 1 ∨ op = 3
  if 3 < op ∨ flags / 64 ≠ 0 then none
  else if (op = 2 ∨ op = 3) ∧ 256 < alpha then none
  else if op = 0 then
    some ⟨0, false, true, false, 0, 0, ⟨0, 0, 0, ⟨1, 8, true, false⟩, codingOf false 0, 1, 1, 0, 0, 1, 1⟩, none, 0⟩
  else if descBad t 8 then none
  else if srcUsed ∧ !same ∧ descBad t 0x24 then none
  else if srcUsed ∧ same ∧ (entryField t 0x3A 2 = 0 ∨ entryField t 0x3C 2 = 0) then none
  else
    -- a space 3 destination has no format of its own; any stands in until it is refused
    let a := (surfAt t 8).getD ⟨0, 0, 3, ⟨1, 8, false, false⟩, codingOf false 0, 1, 1, 0, 0, 1, 1⟩
    let b := if !(decide srcUsed) then none
      else if same then
        some { a with x := entryField t 0x36 2, y := entryField t 0x38 2, rw_ := entryField t 0x3A 2,
                      rh := entryField t 0x3C 2 }
      else some ((surfAt t 0x24).getD
        ⟨entryField t 0x24 8, 0, bitsAt (entryField t 0x2C 4) 24 3, ⟨1, 8, false, false⟩, codingOf false 0, 1, 1,
          entryField t 0x36 2, entryField t 0x38 2, entryField t 0x3A 2, entryField t 0x3C 2⟩)
    some { op := op, same := same, dither := !flags.testBit 1, pixelAlpha := flags.testBit 2,
           rot := bitsAt flags 3 2, alpha := alpha, a := a, b := b, fill := entryField t 0x24 8 }

/-- A command writes through a blend. -/
def PtrCmd.blends (c : PtrCmd) : Bool := c.op == 3 || (c.op == 2 && c.alpha < 256)

/-- The checks of R290 on a decoded command whose space 3 source, if any, is resolved: the first failing code. -/
def Dev.ptrCode (d : Dev) (c : PtrCmd) (frame : Option Sel) : Nat :=
  if c.op = 0 then 0
  else
    let fromFrame := c.b.any fun b => b.space == 3
    -- without a stored frame, what depends on it is passed over until R294 refuses
    let srcs := (c.b.toList).filter fun _ => !(fromFrame && frame.isNone)
    let all := c.a :: srcs
    let real := all.filter fun s => s.space != 3
    let b := srcs.head?
    let turned := c.rot % 2 == 1
    let aliasing := b.any fun b => !c.same && b.space != 3 && spansMeet (d.spanOf c.a) (d.spanOf b)
    let selfMeet := c.same && c.rot != 0 && (b.any fun b => rectsMeet c.a b)
    firstCode
      [(c.a.space != 3 && !c.a.alignedOk, 0x0237), (srcs.any fun s => !c.same && s.space != 3 && !s.alignedOk, 0x0237),
       (srcs.any fun s => (c.same || s.space == 3) &&
          !(s.x % s.fmt.quantum == 0 && ((s.x + s.rw_) % s.fmt.quantum == 0 || s.x + s.rw_ == s.w))
          || (s.fmt.samp == 0 && !s.fmt.argb && (s.y % 2 == 1 || s.rh % 2 == 1)), 0x0237),
       (real.any fun s => !s.sizeOk || (s.space == 2 && 2 ^ 28 < s.touchedBytes), 0x0238),
       ((c.a.space != 3 && !c.a.rectOk) || (srcs.any fun s => !s.rectOk), 0x0239),
       (b.any fun b => if turned then c.a.rw_ != b.rh || c.a.rh != b.rw_ else c.a.rw_ != b.rw_ || c.a.rh != b.rh,
        0x023A),
       (c.a.space == 3 || (real.any fun s => s.space == 2 && !s.fmt.linear)
          || (b.any fun b => b.coding.hlg != c.a.coding.hlg || (b.coding.hlg && b.coding.colour != c.a.coding.colour))
          || (c.pixelAlpha && c.blends && !(b.any fun b => b.fmt.argb)), 0x023B),
       (real.any d.windowBad, 0x0601),
       (fromFrame && frame.isNone, 0x0393),
       (aliasing, 0x0391), (selfMeet, 0x0392)]

/-! ## What a command writes -/

/-- The pixels of a full-range fill colour in a coding (R139, R280). -/
def fillPx (v : Nat) (t : Coding) : Px :=
  convertPx { rgb := true, colour := t.colour, full := true, hlg := false }
    t ⟨bitsAt v 0 12, bitsAt v 16 12, bitsAt v 32 12⟩

/-- Source samples moved unchanged can be turned without being resampled: any turn, but for a quarter turn of 4:2:2. -/
def movable (s : Fmt) (rot : Nat) : Bool := s.samp != 1 || s.argb || rot % 2 == 0

/-- The alpha a blended pixel takes (R288). -/
def pixelBlend (alpha : Nat) (pixel : Option Nat) : Nat :=
  match pixel with
  | none => alpha
  | some a => (alpha * (a + a / 128) + 128) / 256

/-- The destination rectangle's new samples and alpha bytes. [DEDUCED, log entry 53] -/
def PtrCmd.result (c : PtrCmd) (src : Pic) (srcAlpha : List (List Nat)) (dst : Pic) (dstAlpha : List (List Nat))
    (alphaByte : Nat) : Pic × List (List Nat) :=
  let plain := List.replicate c.a.rh (List.replicate c.a.rw_ 255)
  let out (r : Raster) : Pic := outputStage c.a.fmt.samp c.a.fmt.depth c.dither c.a.x c.a.y r
  match c.op, c.b with
  | 1, some b =>
    if b.fmt.samp = c.a.fmt.samp ∧ b.fmt.depth = c.a.fmt.depth ∧ b.fmt.argb = c.a.fmt.argb ∧ b.coding = c.a.coding
        ∧ movable b.fmt c.rot then
      ({ src with w := c.a.rw_, h := c.a.rh, y := turn c.rot src.y, c1 := turn c.rot src.c1, c2 := turn c.rot src.c2 },
        turn c.rot srcAlpha)
    else
      (out (turn c.rot (src.raster.map fun l => l.map (convertPx b.coding c.a.coding))),
        if b.fmt.argb then turn c.rot srcAlpha else plain)
  | 3, some b =>
    let s := turn c.rot (src.raster.map fun l => l.map (convertPx b.coding c.a.coding))
    let al := turn c.rot srcAlpha
    let dr := dst.raster
    (out ((List.range c.a.rh).map fun y => (List.range c.a.rw_).map fun x =>
        let a := pixelBlend c.alpha (if c.pixelAlpha then some ((al.getD y []).getD x 255) else none)
        blendPx a ((s.getD y []).getD x ⟨0, 0, 0⟩) ((dr.getD y []).getD x ⟨0, 0, 0⟩)), dstAlpha)
  | _, _ =>
    let f := fillPx c.fill c.a.coding
    if c.alpha < 256 then
      (out (dst.raster.map fun l => l.map (blendPx c.alpha f)), dstAlpha)
    else
      (out (List.replicate c.a.rh (List.replicate c.a.rw_ f)),
        List.replicate c.a.rh (List.replicate c.a.rw_ alphaByte))

/-- Where the host bytes of a command's surfaces stand: those of the source's touched range, then of the
destination's. -/
def hostPart (c : PtrCmd) (dst : Bool) (host : List Byte) : List Byte :=
  let srcLen := match c.b with
    | some b => if b.space = 2 ∧ !c.same then b.touchedBytes else 0
    | none => 0
  if dst then host.drop srcLen else if c.same then host else host.take srcLen

/-- Build the job of a checked command. [DEDUCED, log entry 53] -/
def Dev.ptrJob (e : Env) (d : Dev) (t : Taken) (c : PtrCmd) (frame : Option Sel) (host : List Byte) : PtrJob × Dev :=
  let (sp, base, _) := d.window c.a.space
  let aByte := d.spaceByte e c.a.space c.a.touched.1 (hostPart c true host)
  let (src, al) := match c.b, frame with
    | some b, some f =>
      if b.space = 3 then ((d.picOf f).crop b.x b.y b.rw_ b.rh, List.replicate b.rh (List.replicate b.rw_ 255))
      else
        let byte := d.spaceByte e b.space b.touched.1 (hostPart c false host)
        (b.readRect byte, b.readAlpha byte)
    | some b, none =>
      let byte := d.spaceByte e b.space b.touched.1 (hostPart c false host)
      (b.readRect byte, b.readAlpha byte)
    | none, _ => ({}, [])
  let (alphaByte, d) := d.draw 8
  let (pic, alpha) := c.result src al (c.a.readRect aByte) (c.a.readAlpha aByte) alphaByte
  let units := c.a.unitPosts sp base aByte pic alpha
  let up := c.same && c.rot == 0 && (c.b.any fun b => b.y < c.a.y)
  let srcSpan := (c.b.toList.filter fun b => b.space != 3).map d.spanOf
  ({ entry := t, units := if up then units.reverse else units,
     reads := srcSpan ++ (if c.blends then [d.spanOf c.a] else []), writes := [d.spanOf c.a],
     bytesRead := (match c.b with
       | some b => b.rectBytes
       | none => 0) + (if c.blends then c.a.rectBytes else 0),
     bytesWritten := c.a.rectBytes,
     bursts := (match c.b with
       | some b => ceilDiv b.rectBytes 256
       | none => 0) + (if c.blends then 2 else 1) * ceilDiv c.a.rectBytes 256,
     since := e.now,
     hold := if c.b.any fun b => b.space == 3 then frame else none }, d)

/-! ## Running -/

/-- `ptr_state` codes of R297. -/
def ptrOff : Nat := 0
def ptrIdle : Nat := 1
def ptrRunning : Nat := 2
def ptrStalled : Nat := 3
def ptrHalted : Nat := 4

/-- A job conflicts with another channel's job in progress (R293). -/
def Dev.ptrConflict (d : Dev) (k : Nat) (j : PtrJob) : Bool :=
  (List.range 4).any fun m => m != k &&
    match (d.chan m).job with
    | none => false
    | some x =>
      (j.writes.any fun w => (x.writes ++ x.reads).any (spansMeet w)) || (j.reads.any fun r => x.writes.any (spansMeet r))

/-- An entry of channel `k` completes with a code, and halts the channel or not (R290, R297, R299). -/
def Dev.ptrClose (d : Dev) (k : Nat) (t : Taken) (code : Nat) (halts : Bool) : Dev :=
  let held := (d.chan k).job.bind fun j => j.hold
  let d := d.ringComplete (d.g .ptrRing k) t code 0 0
  let d := (d.put .ptrLastStatus k code).count .ptrDone k
  let d := d.putChan k { d.chan k with job := none, tag := entryField t 4 4 }
  let d := match held with
    | some h => (d.releaseOld h.arr).reportRooms
    | none => d
  let d := if (entryByte t 1).testBit 5 then d.flag .ptrEventFlags k 0 else d
  let d := if code = 0 then d else (d.count .ptrErrors k).flag .ptrEventFlags k 1
  if code ≠ 0 ∧ halts then (d.put .ptrState k ptrHalted).flag .ptrEventFlags k 3
  else d.put .ptrState k (if d.on .ptrEnable k then ptrIdle else ptrOff)

/-- An entry completes; one that fails halts its channel under `ptr_halt` (R297). -/
def Dev.ptrEnd (d : Dev) (k : Nat) (t : Taken) (code : Nat) : Dev := d.ptrClose k t code (d.on .ptrHalt k)

/-- Start the head command of channel `k`, or find that it must wait. `wasStalled`: it waited before. -/
def Dev.ptrBegin (e : Env) (d : Dev) (k : Nat) (host : List Byte) (wasStalled : Bool) : Dev :=
  match d.ptrHead k with
  | none => d
  | some t =>
    match ptrDecode t with
    | none => d.ptrEnd k t 0x0201
    | some c =>
      let frame := match c.b with
        | some b => if b.space = 3 then d.ptrFrame e b.addr else none
        | none => none
      let c := match c.b, frame with
        | some b, some f => { c with b := some (d.frameSurf b f) }
        | _, _ => c
      let code := d.ptrCode c frame
      if code ≠ 0 then d.ptrEnd k t code
      else if c.op = 0 then d.ptrEnd k t 0
      else
        let (j, d') := d.ptrJob e t c frame host
        if d'.ptrConflict k j then
          if wasStalled then d
          else ((d.putChan k { d.chan k with hostData := host }).put .ptrState k ptrStalled).flag .ptrEventFlags k 2
        else
          let d := d'.putChan k { d'.chan k with job := some j, hostData := [], tag := entryField t 4 4 }
          let d := d.put .ptrState k ptrRunning
          if wasStalled then d.count .ptrStalls k else d

/-- A channel may start its head command: it is enabled, not stopped, IDLE, with nothing in progress. -/
def Dev.ptrReady (d : Dev) (k : Nat) : Bool :=
  d.on .ptrEnable k && !(d.chan k).stopped && d.g .ptrState k == ptrIdle && (d.chan k).job.isNone

/-- The operation of the head entry; a reserved one reads as none. -/
def Dev.ptrHeadOp (d : Dev) (k : Nat) : Option Nat := (d.ptrHead k).map fun t => entryByte t 0

/-- An early end: every number of destination units written before it is allowed. An abort is no failure that halts: it stops
the channel in IDLE (R296). [DEDUCED, log entry 152] -/
def Dev.ptrPartial (d : Dev) (k : Nat) (code : Nat) : Dev :=
  match (d.chan k).job with
  | none => d
  | some j =>
    let (v, d) := d.draw 32
    let n := v % (j.units.length + 1)
    let ps := (j.units.take n).flatten
    let share (b : Nat) : Nat := if j.units.length = 0 then 0 else b * n / j.units.length
    let d := { d with posts := d.posts ++ ps }
    let d := (d.count .ptrBytesRead k (share j.bytesRead)).count .ptrBytesWritten k (share j.bytesWritten)
    d.ptrClose k j.entry code (d.on .ptrHalt k && code != 0x0394)

/-- Fabric clocks of one burst and the dead time after it (R295). -/
def Dev.burstClocks (d : Dev) (k : Nat) : Nat := 4 + d.g .ptrDeadTime k

/-- A write of `ptr_dead_time` applies from the next burst: those the old one left time for have been issued. -/
def Dev.ptrSetDead (now : Nat) (d : Dev) (k v : Nat) : Dev :=
  let c := d.chan k
  let d := match c.job with
    | none => d
    | some j =>
      let issued := 300 * (now - j.since) / d.burstClocks k
      d.putChan k { c with job := some { j with bursts := j.bursts - issued, since := now } }
  d.put .ptrDeadTime k v

/-- The command's bursts have had the time they need at least (R295). [DEDUCED, log entry 145] -/
def Dev.ptrMoved (now : Nat) (d : Dev) (k : Nat) : Bool :=
  (d.chan k).job.any fun j => decide (j.bursts * d.burstClocks k ≤ 300 * (now - j.since) + d.g .ptrDeadTime k)

/-- The command in progress reads something. -/
def Dev.ptrReads (d : Dev) (k : Nat) : Bool := (d.chan k).job.any fun j => !j.reads.isEmpty || j.hold.isSome

/-- The command's last write is accepted (rank 8), or its read returned poison (R296). -/
def Dev.ptrFinish (d : Dev) (k : Nat) (poisoned : Bool) : Dev :=
  match (d.chan k).job with
  | none => d
  | some j =>
    if poisoned then
      let from_ : Space := match j.reads with
        | r :: _ => r.space
        | [] => .dram
      (d.poisonRead from_).ptrPartial k 0x0520
    else
      let d := { d with posts := d.posts ++ j.units.flatten }
      let d := (d.count .ptrBytesRead k j.bytesRead).count .ptrBytesWritten k j.bytesWritten
      d.ptrEnd k j.entry 0

/-- After rank 8: aborts of this tick act on commands still in progress, then stalled commands whose conflicts are
over start, in ascending channel number (R293, R296). -/
def Dev.ptrSettle (e : Env) (d : Dev) : Dev :=
  let d := d.forEach (List.range 4) fun d k =>
    let c := d.chan k
    if !c.aborting then d
    else
      let running := c.job.isSome
      let d := if running then (d.ptrPartial k 0x0394).flag .ptrEventFlags k 4 else d
      let d := d.putChan k { d.chan k with aborting := false, stopped := true, hostData := [] }
      if d.g .ptrState k = ptrHalted then d
      else if d.on .ptrEnable k then d.put .ptrState k ptrIdle else d.put .ptrState k ptrOff
  d.forEach (List.range 4) fun d k =>
    if d.g .ptrState k = ptrStalled then d.ptrBegin e k (d.chan k).hostData true else d

/-- `ptr_ctl` 1. -/
def Dev.ptrAbort (d : Dev) (k : Nat) : Dev := (d.putChan k { d.chan k with aborting := true }).masterReset (73 + k)

/-- `ptr_ctl` 2. -/
def Dev.ptrResume (d : Dev) (k : Nat) : Dev :=
  if d.g .ptrState k = ptrHalted then d.put .ptrState k (if d.on .ptrEnable k then ptrIdle else ptrOff) else d

/-- A write of `ptr_enable` (R297): 1 restarts a stopped channel. -/
def Dev.ptrSetEnable (d : Dev) (k v : Nat) : Dev :=
  let d := d.put .ptrEnable k v
  if v = 1 then
    let d := d.putChan k { d.chan k with stopped := false }
    if d.g .ptrState k = ptrOff then d.put .ptrState k ptrIdle else d
  else if d.g .ptrState k = ptrIdle then d.put .ptrState k ptrOff
  else d

end Sys2Proof.Machine
end

