-- ==== Sys2Proof/Machine/BusOps.lean ====
section
/-!
DEFINITION. The bus matrix: its masters, and the pieces in flight from tick to tick (R366 to R371).
-/

namespace Sys2Proof.Machine

/-- A master may have pieces to move: its block has work (R366). [DESIGN CHOICE, log entry 133] -/
def Dev.busy (d : Dev) (m : Nat) : Bool :=
  if m < 16 then d.arrs.any fun p => p.1 / 16 == m && p.2.asm.isSome
  else if m < 41 then d.deps.any fun p => p.2.composing && d.g .depEngine p.1 == m - 16
  else if m < 49 then d.deps.any fun p => p.1 / 16 == m - 41 && (p.2.capture.isSome || !p.2.capDone.isEmpty)
  else if m < 73 then d.g .cdcStreams (m - 49) != 0
  else if m < 77 then (d.chan (m - 73)).job.isSome
  else if m = 82 then d.deps.any fun p => p.2.composing && d.on .sbEnable p.1
  else m < 86

/-- Pieces accepted of each master in turn: what it offers, held at `bm_max_out` of its own and at 4,096 in all (R369).
Answers the pieces in flight and their sum. `n` counts the free values from the first offer on. -/
def Dev.accept (d : Dev) : List Nat → Nat → Tab Nat → Nat → Tab Nat × Nat
  | [], _, f, t => (f, t)
  | m :: ms, n, f, t =>
    let own := f.getD m 0 + d.bus.older.getD m 0
    let k := min (Config.freeValue n) (min (d.g .bmMaxOut m - own) (4096 - t))
    Dev.accept d ms (n + 1) (f.put m (f.getD m 0 + k)) (t + k)

def Tab.total (t : Tab Nat) : Nat := (t.map fun (p : Nat × Nat) => p.2).sum

/-- The matrix over one tick: of each master's pieces some end and others are accepted. How many are free values, and so are
the reads of host memory among them, of which PCIe outbound forwards at most 768 (R369).
[DESIGN CHOICE, log entry 133] -/
def Dev.busTick (d : Dev) : Dev :=
  let b := d.bus
  let ms := (List.range 86).filter fun m => d.busy m || (b.limit.find m).isSome
  let n := d.drawn
  let left := ms.zipIdx.foldl (fun (f : Tab Nat) p => f.upd p.1 0 fun k => Config.freeValue (n + p.2) % (k + 1)) b.flight
  let (f, t) := d.accept ms (n + ms.length) left (left.total + b.older.total)
  let limit := ms.foldl (fun (l : Tab Nat) m => l.upd m 0 (max (d.g .bmMaxOut m))) b.limit
  let d := { d with drawn := n + 2 * ms.length + 1,
                    bus := { b with flight := f, limit := limit,
                                    hostReads := min 768 (Config.freeValue (n + 2 * ms.length) % (t + 1)) } }
  let d := (d.put .bmInflight 0 t).put .bmInflightHwm 0 (max t (d.g .bmInflightHwm))
  if 4096 ≤ limit.total ∧ t = 4096 then d.flag .bmEventFlags 0 2 else d

/-- A response of an earlier epoch comes: dropped, counted, and no longer in flight (R371). -/
def Dev.lateResponse (d : Dev) (m : Nat) : Dev :=
  let d := { d with bus := { d.bus with older := d.bus.older.upd m 0 (· - 1) } }
  (d.count .bmLateResp).flag .bmEventFlags 0 0

end Sys2Proof.Machine
end

