-- ==== Sys2Proof/Machine/EthOps.lean ====
section
/-!
DEFINITION. Ethernet MACs and MACsec: frame lengths and bandwidth, transmit queues with credit-based shaping, secure
associations, key loads, and the receive steps (R72, R200, R201, R212, R322 to R336).
-/

namespace Sys2Proof.Machine

/-! ## Secure associations (R331 to R335) -/

def saEmpty : Nat := 0
def saLoaded : Nat := 1
def saInUse : Nat := 2
def saRetiring : Nat := 3

/-- The MAC of a channel: 0 to 23 transmit, 24 + 8 m + c receive. -/
def chanMac (ch : Nat) : Nat := if ch < 24 then ch else (ch - 24) / 8

def Dev.sa (d : Dev) (ch an : Nat) : Sa := d.io.sas.getD (4 * ch + an) {}

/-- An association takes a value; the state objects follow, and a change of state sets bit 0. -/
def Dev.putSa (d : Dev) (ch an : Nat) (x : Sa) : Dev :=
  let old := d.sa ch an
  let d := { d with io := { d.io with sas := d.io.sas.put (4 * ch + an) x } }
  let d := if ch < 24 then d.put .msTxSaState ch (setBits (d.g .msTxSaState ch) (2 * an) 2 x.st)
    else d.put .msrxSaState (ch - 24) (setBits (d.g .msrxSaState (ch - 24)) (2 * an) 2 x.st)
  if old.st = x.st then d else d.flag .msEventFlags (chanMac ch) 0

/-- An association is zeroised to EMPTY. [PRESUMED, log entry 56] -/
def Dev.emptySa (now : Nat) (d : Dev) (ch an : Nat) : Dev := d.putSa ch an { since := now }

/-- Every channel. -/
def allChannels : List Nat := List.range (24 + 24 * 8)

/-- Empty every association that satisfies a test. -/
def Dev.emptySas (now : Nat) (d : Dev) (p : Sa → Bool) : Dev :=
  (d.io.sas.filter fun (q : Nat × Sa) => q.2.st != 0 && p q.2).foldl
    (fun d (q : Nat × Sa) => d.emptySa now (q.1 / 4) (q.1 % 4)) d

/-- The packet number space. -/
def Dev.pnSpace (d : Dev) (m : Nat) : Nat := if d.g .msSuite m = 1 then 2 ^ 64 else 2 ^ 32

/-- A key load of the island completes: the association is LOADED, or IN_USE when the MAC transmits on it (R333). -/
def Dev.loadDone (now : Nat) (d : Dev) (l : KeyLoad) : Dev :=
  let use := l.chan < 24 && d.g .msTxAn l.chan == l.an
  let d := d.putSa l.chan l.an { st := if use then saInUse else saLoaded, key := l.key,
                                 pn := if l.chan < 24 then 1 else 0, since := now }
  if use then d.put .msTxPn l.chan 1 else d

/-- Issue a key load: it completes in the second tick after. -/
def Dev.issueLoad (now : Nat) (d : Dev) (ch an key : Nat) : Dev :=
  { d with io := { d.io with loads := d.io.loads ++ [⟨chanMac ch, ch, an, key, now + 2⟩] } }

/-- The oldest due load of a MAC. [DEDUCED, log entry 169] -/
def Dev.dueLoad (now : Nat) (d : Dev) (m : Nat) : Option KeyLoad := d.io.loads.find? fun l => l.mac == m && l.due ≤ now

/-- Transmission moves to another association (R334). Answers the code. -/
def Dev.switchAn (now : Nat) (d : Dev) (m an : Nat) (fw : Bool) : Nat × Dev :=
  if d.g .msMode m = 1 ∧ !fw then (0x0399, d)
  else
    let x := d.sa m an
    if x.st ≠ saLoaded ∧ x.st ≠ saInUse then (0x0398, d)
    else
      let old := d.g .msTxAn m
      let o := d.sa m old
      let d := if old ≠ an ∧ o.st = saInUse then d.putSa m old { o with st := saLoaded, since := now } else d
      let d := d.putSa m an { x with st := saInUse, since := now }
      (0, (d.put .msTxAn m an).put .msTxPn m x.pn)

/-- A frame has verified on association `an` of a receive channel: it is IN_USE, and an older one retires. -/
def Dev.rxVerified (now : Nat) (d : Dev) (ch an pn : Nat) : Dev :=
  let x := d.sa ch an
  let d := if x.st = saLoaded then
      (List.range 4).foldl (fun d k =>
        let o := d.sa ch k
        if k ≠ an ∧ o.st = saInUse then d.putSa ch k { o with st := saRetiring, since := now } else d) d
    else d
  let st := if x.st = saRetiring then saRetiring else saInUse
  (d.putSa ch an { x with st := st, pn := max x.pn pn }).count .msrxFrames (ch - 24)

/-- A RETIRING association has been kept for `ms_rx_overlap`. -/
def Dev.retireDue (now : Nat) (d : Dev) (ch an : Nat) : Bool :=
  let x := d.sa ch an
  24 ≤ ch && x.st == saRetiring && x.since + d.g .msRxOverlap (chanMac ch) * 4000 ≤ now

/-- The receive channels in use of a MAC. -/
def Dev.rxChannels (d : Dev) (m : Nat) : List Nat :=
  ((List.range 8).filter fun c => d.g .msrxSci (8 * m + c) != 0).map fun c => 24 + 8 * m + c

/-- The channel a SecTAG's SCI names. -/
def Dev.rxChannel (d : Dev) (m : Nat) (sci : Option Nat) : Option Nat :=
  match sci with
  | some v => (d.rxChannels m).find? fun ch => d.g .msrxSci (ch - 24) == v
  | none => match d.rxChannels m with
    | [ch] => some ch
    | _ => none

/-- Verification of a protected frame (R332): the channel it came through, or none when it is dropped. -/
def Dev.verifyTag (now : Nat) (d : Dev) (m : Nat) (t : SecTag) : Option Nat × Dev :=
  match d.rxChannel m t.sci with
  | none => (none, d.count .msRxNosa m)
  | some ch =>
    let x := d.sa ch t.an
    if x.st = saEmpty ∨ 4 ≤ t.an then (none, d.count .msRxNosa m)
    else if !t.icvOk then (none, (d.count .msRxBad m).flag .msEventFlags m 4)
    else if t.pn + d.g .msReplayWindow m < x.pn then (none, d.count .msRxReplay m)
    else (some ch, d.rxVerified now ch t.an t.pn)

/-! ## Key needs of a take (R125, R336) -/

/-- The Keyring keys of the associations that carry an arrival's packets on a path. -/
def Dev.pathKeys (d : Dev) (a path : Nat) : List Nat :=
  let m := if path = 0 then d.g .arrMac a else d.g .arrMacB a
  if !d.on .msEnable m then []
  else
    let chs := match d.io.carried.find (2 * a + path) with
      | some ch => [ch]
      | none => d.rxChannels m
    (chs.map fun ch => ((List.range 4).filter fun an => (d.sa ch an).st != 0).map fun an => (d.sa ch an).key).flatten

def Dev.arrKeys (d : Dev) (a : Nat) : List Nat :=
  if d.g .arrKind a = 1 ∨ d.g .arrKind a = 2 then
    d.pathKeys a 0 ++ (if d.on .arrMerge a then d.pathKeys a 1 else [])
  else []

/-- Cause 6: a needed key satisfies a test. -/
def Dev.undoKeys (d : Dev) (p : Nat → Bool) : Dev :=
  d.undoWhere 6 fun d _ t => (setBitsOf 8 t.mask).any fun l =>
    t.srcs.getD l 0x100 < 256 && (d.arrKeys (t.srcs.getD l 0x100)).any p

/-! ## Frames and bandwidth (R200, R201, R212, R213, R324, R327) -/

/-- Bytes of an RFC 4175 pgroup and the pixels it spans on a line (a line pair for 4:2:0). -/
def pgroup (samp depth : Nat) : Nat × Nat :=
  if samp = 0 then (if depth = 8 then (6, 2) else if depth = 10 then (15, 4) else (9, 2))
  else if samp = 1 then (if depth = 8 then (4, 2) else if depth = 10 then (5, 2) else (6, 2))
  else if depth = 8 then (3, 1) else if depth = 10 then (15, 4) else (9, 2)

/-- Bytes of a line (or line pair) as pgroups. -/
def Dev.lineBytes (d : Dev) (n : Nat) : Nat :=
  let (b, px) := pgroup (d.g .depSampling n) (d.g .depDepth n)
  ceilDiv (d.g .depWidth n) px * b

/-- `dep_payload` rounded down to whole pgroups. -/
def Dev.payloadMax (d : Dev) (n : Nat) : Nat :=
  let (b, _) := pgroup (d.g .depSampling n) (d.g .depDepth n)
  d.g .depPayload n / b * b

/-- Packets of a line or line pair. -/
def Dev.linePackets (d : Dev) (n : Nat) : Nat := ceilDiv (d.lineBytes n) (max 1 (d.payloadMax n))

/-- The send is JPEG XS. -/
def Dev.xsSend (d : Dev) (n : Nat) : Bool := d.g .depXsProfile n != 0xFF

/-- Bytes of slice `k`, and packets of a slice (R200, R201). -/
def Dev.xsSliceBytes (d : Dev) (n k : Nat) : Nat :=
  d.g .depXsBpp n * d.g .depWidth n * min 16 (d.g .depHeight n - 16 * k) / 128

def Dev.xsSlicePackets (d : Dev) (n k : Nat) : Nat := ceilDiv (d.xsSliceBytes n k) (d.g .depXsPayload n)

/-- What the encoder of a departure writes into its codestreams (R200): size, format and profile, levels of
decomposition, deadzone quantisation (0), one column, slice height 16, and the lowest level and sublevel that serve. -/
def Dev.xsParams (d : Dev) (n : Nat) : List Nat :=
  let g := d.g .depGroup n
  let w := d.g .depWidth n
  let h := d.g .depHeight n
  [w, h, d.g .depSampling n, d.g .depDepth n, d.g .depXsProfile n, d.g .depXsNlx n, d.g .depXsNly n, 0, 1, 16,
   Config.xsLevel w h (d.g .tgRateNum g) (d.g .tgRateDen g), Config.xsSublevel (d.g .depXsBpp n)]

/-- M: length of the codestream markers ahead of the first slice, at most 1,024 bytes (R200). -/
def Dev.markerBytes (d : Dev) (n : Nat) : Nat := Config.xsMarkers (d.xsParams n) % 1024 + 1

/-- Packets of the markers. -/
def Dev.xsMarkerPackets (d : Dev) (n : Nat) : Nat := ceilDiv (d.markerBytes n) (d.g .depXsPayload n)

def Dev.xsSlices (d : Dev) (n : Nat) : Nat := ceilDiv (d.g .depHeight n) 16

/-- N_pk: packets of a frame. -/
def Dev.framePackets (d : Dev) (n : Nat) : Nat :=
  if d.xsSend n then d.xsMarkerPackets n + ((List.range (d.xsSlices n)).map (d.xsSlicePackets n)).sum
  else (if d.g .depSampling n = 0 then d.g .depHeight n / 2 else d.g .depHeight n) * d.linePackets n

/-- The frame length f of R324 of a departure's packet with a payload, on path A or B. -/
def Dev.depFrameLen (d : Dev) (n : Nat) (pathB : Bool) (payload : Nat) : Nat :=
  let tag := if pathB then d.g .depTagB n else d.g .depTag n
  let m := if pathB then d.g .depMacB n else d.g .depMac n
  14 + 4 * b2n (tag != 0xFFFF) + 20 + 8 + 12 + (if d.xsSend n then 4 else 8) + payload + 4 + 32 * b2n (d.on .msEnable m)

/-- The unit a JPEG XS packet belongs to, `none` for the markers, and its number in it (R201). -/
def Dev.xsPlace (d : Dev) (n k : Nat) : Option Nat × Nat :=
  let heads := d.xsMarkerPackets n
  if k < heads then (none, k)
  else
    let full := d.xsSlicePackets n 0
    let s := min ((k - heads) / max 1 full) (d.xsSlices n - 1)
    (some s, k - heads - s * full)

/-- Payload of packet `k` of the frame. -/
def Dev.packetPayload (d : Dev) (n k : Nat) : Nat :=
  if d.xsSend n then
    let p := d.g .depXsPayload n
    let last (total i count : Nat) : Nat := if i + 1 < count then p else total - p * (count - 1)
    match d.xsPlace n k with
    | (none, i) => last (d.markerBytes n) i (d.xsMarkerPackets n)
    | (some s, i) => last (d.xsSliceBytes n s) i (d.xsSlicePackets n s)
  else
    let c := max 1 (d.linePackets n)
    if k % c + 1 < c then d.payloadMax n else d.lineBytes n - d.payloadMax n * (c - 1)

/-- The largest payload of a send. -/
def Dev.largestPayload (d : Dev) (n : Nat) : Nat :=
  if d.xsSend n then d.g .depXsPayload n else min (d.payloadMax n) (d.lineBytes n)

/-- A departure sends on path A, or on path B. -/
def Dev.sendsOn (d : Dev) (n m : Nat) (pathB : Bool) : Bool :=
  (d.g .depBind n).testBit 0 && (if pathB then d.on .depDup n && d.g .depMacB n == m else d.g .depMac n == m)

/-- Wire bytes a second of a departure's send on a path: packets, each f + 20. -/
def Dev.sendRate (d : Dev) (n : Nat) (pathB : Bool) : Rat :=
  let g := d.g .depGroup n
  let fixed := d.depFrameLen n pathB 0 + 20
  let frame : Nat :=
    if d.xsSend n then
      d.xsMarkerPackets n * fixed + 1024 + ((List.range (d.xsSlices n)).map fun k =>
        d.xsSlicePackets n k * fixed + d.xsSliceBytes n k).sum
    else
      (if d.g .depSampling n = 0 then d.g .depHeight n / 2 else d.g .depHeight n)
        * (d.linePackets n * fixed + d.lineBytes n)
  ((frame * d.g .tgRateNum g : Nat) : Rat) / ((d.g .tgRateDen g : Nat) : Rat)

/-- The frame length of an audio send flow. -/
def Dev.flowFrameLen (d : Dev) (f : Nat) : Nat :=
  let w := if d.g .nsEncoding f = 0 then 2 else 3
  14 + 4 * b2n (d.g .nsTag f != 0xFFFF) + 20 + 8 + 12 + d.g .nsPacketSamples f * d.g .nsChannels f * w + 4
    + 32 * b2n (d.on .msEnable (d.g .nsMac f))

/-- Wire bytes a second of an audio send flow. -/
def Dev.flowRate (d : Dev) (f : Nat) : Rat :=
  ((d.flowFrameLen f + 20) * d.g .nsRate f : Nat) / ((max 1 (d.g .nsPacketSamples f) : Nat) : Rat)

/-- V_m: wire bytes a second of the departures' sends on a MAC. -/
def Dev.videoBytes (d : Dev) (m : Nat) : Rat :=
  ((List.range 128).map fun n =>
    (if d.sendsOn n m false then d.sendRate n false else 0) + (if d.sendsOn n m true then d.sendRate n true else 0)).sum

/-- A_m: of the audio send flows. -/
def Dev.audioBytes (d : Dev) (m : Nat) : Rat :=
  (((List.range 64).filter fun f => d.on .nsEnable f && d.g .nsMac f == m).map d.flowRate).sum

/-- Line rate in bit/s. -/
def Dev.macRate (d : Dev) (m : Nat) : Nat := if d.g .ethSpeed m = 1 then 25000000000 else 10000000000

/-- H: the share of the link held for media. -/
def Dev.macShare (d : Dev) (m : Nat) : Rat := ((d.g .ethAvShare m * d.macRate m : Nat) : Rat) / 100

/-- Admitted bandwidth and slopes of a MAC follow the configuration in force (R327). -/
def Dev.reportMac (d : Dev) (m : Nat) : Dev :=
  let v := 8 * d.videoBytes m
  let a := 8 * d.audioBytes m
  let h := d.macShare m
  let part (x : Rat) : Nat := if v + a = 0 then 0 else (x * h / (v + a)).floor.toNat
  ((d.put .ethAdmitted m (v + a).floor.toNat).put .ethSlopeVideo m (part v)).put .ethSlopeAudio m (part a)

/-! ## Transmit (R322, R323, R326, R335) -/

/-- An IPv4 multicast address. -/
def isGroup (ip : Nat) : Bool := 0xE0000000 ≤ ip && ip ≤ 0xEFFFFFFF

/-- Whether a unicast next hop has an ARP entry; a group address needs none (R323). -/
def Dev.reachable (d : Dev) (m ip : Nat) : Bool :=
  let mask := d.g .ethNetmask m
  let hop := if ip &&& mask = d.g .ethIp m &&& mask then ip else d.g .ethGateway m
  isGroup ip || ((d.mac m).arp.find hop).isSome

/-- A frame is handed to queue `q` of a MAC; a link that is DOWN and an unresolved next hop drop it. -/
def Dev.handOver (d : Dev) (m q : Nat) (f : TxFrame) (resolved : Bool) : Dev :=
  if !d.on .ethLink m then d.count .ethTxDropDown m
  else if !resolved then (d.count .ethTxUnresolved m).flag .ethEventFlags m 1
  else
    let c := d.mac m
    d.putMac m { c with queues := c.queues.set (3 - q) (c.queues.getD (3 - q) [] ++ [f]) }

/-- Wire bytes of an IGMPv3 report of one record: Ethernet, IPv4 with router alert, the record with its source, and the
frame check, at least 64 bytes, then preamble and gap. -/
def igmpBytes (source : Nat) : Nat := max 64 (14 + 24 + 16 + 4 * b2n (source != 0) + 4) + 20

/-- Firmware sends a report or a leave for a group on a MAC whose link is up, in queue 0 (R72, R326).
[DEDUCED, log entry 140] -/
def Dev.igmpSend (d : Dev) (m group source : Nat) (leave : Bool) : Dev :=
  if !d.on .ethLink m then d
  else d.handOver m 0 { bytes := igmpBytes source, body := .igmp group source leave } true

/-- The memberships of an arrival: MAC, group and source of each path (R72). -/
def Dev.memberships (d : Dev) (a : Nat) : List (Nat × Nat × Nat) :=
  let kind := d.g .arrKind a
  let path (m ip src : Nat) : List (Nat × Nat × Nat) := if isGroup ip then [(m, ip, src)] else []
  if kind = 1 ∨ kind = 2 then
    path (d.g .arrMac a) (d.g .arrDstIp a) (d.g .arrSrcIp a)
      ++ (if d.on .arrMerge a then path (d.g .arrMacB a) (d.g .arrDstIpB a) (d.g .arrSrcIpB a) else [])
  else []

/-- Memberships of a receive flow. [DEDUCED, log entry 140] -/
def Dev.flowMemberships (d : Dev) (f : Nat) : List (Nat × Nat × Nat) :=
  if d.on .nrEnable f && isGroup (d.g .nrDstIp f) then [(d.g .nrMac f, d.g .nrDstIp f, d.g .nrSrcIp f)] else []

/-- Reports for memberships a commit brings, leaves for those it removes. -/
def Dev.joinLeave (d : Dev) (old new : List (Nat × Nat × Nat)) : Dev :=
  let d := (new.filter fun p => !old.contains p).foldl (fun d (m, ip, src) => d.igmpSend m ip src false) d
  (old.filter fun p => !new.contains p).foldl (fun d (m, ip, src) => d.igmpSend m ip src true) d

/-- The answer to an IGMPv3 query on a MAC: a report for each membership there, or for those of the group queried
(R72). -/
def Dev.igmpAnswer (d : Dev) (m group : Nat) : Dev :=
  let all := ((List.range 256).map d.memberships).flatten ++ ((List.range 64).map d.flowMemberships).flatten
  ((all.filter fun p => p.1 == m && (group == 0 || p.2.1 == group)).eraseDups).foldl
    (fun d p => d.igmpSend m p.2.1 p.2.2 false) d

/-- a of R328: the largest audio frame's wire bytes on a MAC. -/
def Dev.audioFrame (d : Dev) (m : Nat) : Nat :=
  (((List.range 64).filter fun f => d.on .nsEnable f && d.g .nsMac f == m).map fun f => d.flowFrameLen f + 20).foldl max 0

/-- Credits of queues 2 and 1 brought up to an instant: a waiting queue gains at its slope up to its bound, an idle one
returns to 0. The bound takes as interference the largest frames of the other queues, as R328 counts them (R326, R327).
[PRESUMED, log entry 149] -/
def Dev.creditsAt (d : Dev) (m : Nat) (t : Rat) : List Rat :=
  let c := d.mac m
  let dt := (max t c.creditAt - c.creditAt) / 1000000000
  let r : Rat := ((d.macRate m : Nat) : Rat)
  let bound (q : Nat) (s : Rat) : Rat := ((8 * (d.g .ethMaxFrame m + 20 + 296 + (if q = 1 then d.audioFrame m else 0)) : Nat) : Rat) * s / r
  [(0, d.g .ethSlopeAudio m, 1), (1, d.g .ethSlopeVideo m, 2)].map fun (p : Nat × Nat × Nat) =>
    let s : Rat := ((p.2.1 : Nat) : Rat)
    let x := c.credit.getD p.1 0 + s * dt
    if (c.queues.getD p.2.2 []).isEmpty then min 0 x else min (bound p.1 s) x

/-- The queue that sends next: the highest that holds a frame and, for 2 and 1, has credit. Its place in the list. -/
def Dev.nextQueue (d : Dev) (m : Nat) (credit : List Rat) : Option Nat :=
  let c := d.mac m
  (List.range 4).find? fun k => !(c.queues.getD k []).isEmpty &&
    (k == 0 || k == 3 || decide (0 ≤ credit.getD (k - 1) 0))

/-- A frame leaves through MACsec: protected, or dropped for want of a key or of packet numbers (R335). Answers whether
it is sent. -/
def Dev.protect (d : Dev) (m : Nat) : Bool × Dev :=
  let an := d.g .msTxAn m
  let x := d.sa m an
  let space := d.pnSpace m
  if x.st = saEmpty then (false, (d.count .msTxNokey m).flag .msEventFlags m 3)
  else if space ≤ x.pn then (false, d.count .msTxPnExhausted m)
  else
    let pn := x.pn + 1
    let d := (d.putSa m an { x with pn := pn }).put .msTxPn m pn
    let d := if x.pn * 100 ≤ space * d.g .msPnThreshold m ∧ space * d.g .msPnThreshold m < pn * 100 then
      d.flag .msEventFlags m 1 else d
    let d := if space ≤ pn then d.flag .msEventFlags m 2 else d
    (true, d.count .msTxProtected m)

/-- A transmitted PTP event message puts its timestamp into the FIFO (R329). -/
def Dev.stampTx (e : Env) (d : Dev) (m seq kind : Nat) : Dev :=
  let c := d.mac m
  let t := ofInt 64 ((e.tb : Int) + d.gi .ethTsAdjTx m)
  if c.stamps.length < 16 then d.putMac m { c with stamps := c.stamps ++ [(seq, kind, t)] }
  else ((d.putMac m { c with stamps := c.stamps.drop 1 ++ [(seq, kind, t)] }).count .ethTsOverflow m).flag .ethEventFlags m 3

/-- PTP and EAPOL leave unprotected: EAPOL always, PTP with `ms_ptp_clear` 1 (R331). -/
def Dev.leavesClear (d : Dev) (m : Nat) (f : TxFrame) : Bool :=
  match f.body with
  | .firmware .eapol _ => true
  | .firmware .ptp _ => d.on .msPtpClear m
  | _ => false

/-- The VID a looped frame carries. -/
def tagVid (tag : Nat) : Option Nat := if tag = 0xFFFF then none else some (tag % 4096)

def RtpOut.asRtp (r : RtpOut) (ext : Nat) (body : RtpBody) : Rtp :=
  { srcIp := r.srcIp, dstIp := r.dstIp, port := r.dstPort, pt := r.pt, ssrc := r.ssrc, seq := 65536 * ext + r.seq, ts := r.ts,
    marker := r.marker, body := body }

/-- What the MAC loop-back returns of a frame: its VID, whether it is addressed to the MAC, and its content. Whether a JPEG XS
packet completes a precinct is a free value. [DESIGN CHOICE, log entry 148] -/
def Dev.loopBody (d : Dev) (f : TxFrame) : (Option Nat × Bool × EthBody) × Dev :=
  match f.body with
  | .firmware b group => ((none, group, b), d)
  | .igmp .. => ((none, false, .igmp none), d)
  | .trdp ip port sid bytes => ((none, false, .trdpMd ip port sid 72562 bytes), d)
  | .video r ext row planes =>
    let two := decide (3 < planes.length)
    let p (k : Nat) : List Nat := planes.getD k []
    let seg : Srd := { row := row.row, field := row.field, offset := row.offset, y := p 0, y2 := if two then p 1 else [],
                       c1 := if two then p 2 else p 1, c2 := if two then p 3 else p 2 }
    ((tagVid r.tag, false, .rtp (r.asRtp ext (.raw [seg] false)) true), d)
  | .xs r head bytes =>
    let (v, d) := d.draw 1
    let slice := if head.sep = 2047 then none else some head.sep
    let n := f.dep.getD 0
    let pic : XsPicture := { width := d.g .depWidth n, height := d.g .depHeight n, sampling := d.g .depSampling n,
                             depth := d.g .depDepth n, profile := d.g .depXsProfile n, sliceHeight := 16, nly := d.g .depXsNly n }
    ((tagVid r.tag, false, .rtp (r.asRtp 0 (.xs head slice (v == 1) (if slice.isNone ∧ head.p = 0 then some pic else none) bytes)) true), d)
  | .pcm r samples => ((tagVid r.tag, false, .rtp (r.asRtp 0 (.pcm samples)) true), d)

/-- MAC loop-back: a frame that leaves transmit MACsec comes back ahead of receive MACsec (R330). Whether a SecTAG's ICV
verifies under the receive association's key is a free value. [DESIGN CHOICE, log entry 148] -/
def Dev.loopFrame (d : Dev) (m : Nat) (f : TxFrame) (tag : Option (Nat × Nat)) : Dev :=
  let (x, d) := d.loopBody f
  let (v, d) := d.draw 1
  let sec := tag.map fun t => { sci := some (d.g .ethAddr m * 65536 + 1), an := t.1, pn := t.2, icvOk := v == 1 }
  let c := d.mac m
  d.putMac m { c with looped := c.looped ++ [{ len := f.bytes - 20, fcsOk := true, pause := false, vid := x.1, sec := sec,
                                               toUs := x.2.1, body := x.2.2 }] }

/-- A frame boundary: the MAC sends one frame (R326). -/
def Dev.transmit (e : Env) (d : Dev) (m : Nat) : Dev :=
  let c := d.mac m
  let start := max e.free c.busy
  if e.free + 250 ≤ c.busy then d
  else
    let credit := d.creditsAt m start
    match d.nextQueue m credit with
    | none => d.putMac m { c with credit := credit, creditAt := start }
    | some k =>
      match c.queues.getD k [] with
      | [] => d
      | f :: rest =>
        let r : Rat := ((d.macRate m : Nat) : Rat)
        let dur : Rat := ((8 * f.bytes : Nat) : Rat) * 1000000000 / r
        let cost := if k = 1 ∨ k = 2 then credit.set (k - 1) (credit.getD (k - 1) 0 - (8 * f.bytes : Nat)) else credit
        let d := d.putMac m { c with queues := c.queues.set k rest, credit := cost, creditAt := start,
                                     busy := start + dur }
        let secured := d.on .msEnable m && !d.leavesClear m f
        let tag := if secured then some (d.g .msTxAn m, (d.sa m (d.g .msTxAn m)).pn) else none
        let (ok, d) := if secured then d.protect m else (true, d)
        if !ok then d
        else
          let d := d.count .ethTxFrames m
          let d := if d.on .ethLoop m then d.loopFrame m f tag else d
          match f.ptp with
          | some (seq, kind) => d.stampTx e m seq kind
          | none => d

/-- A frame of the control cores joins its queue: 3 for PTP of at most 128 bytes, 0 for the rest (R326). -/
def Dev.firmwareFrame (d : Dev) (m : Nat) (f : FwFrame) : Dev :=
  d.handOver m (if f.body = .ptp ∧ f.len ≤ 128 then 3 else 0)
    { bytes := f.len + 20, ptp := f.event, body := .firmware f.body f.group } f.resolved

/-! ## Receive (R72, R260, R325) -/

/-- An RTP packet matches path A or B of an arrival on MAC `m`. -/
def Dev.matchesPath (d : Dev) (a m : Nat) (pathB : Bool) (r : Rtp) : Bool :=
  (d.g .arrKind a == 1 || d.g .arrKind a == 2) &&
    (if pathB then
      d.on .arrMerge a && d.g .arrMacB a == m && d.g .arrDstIpB a == r.dstIp && d.g .arrUdpPortB a == r.port
        && (d.g .arrSrcIpB a == 0 || d.g .arrSrcIpB a == r.srcIp)
     else
      d.g .arrMac a == m && d.g .arrDstIp a == r.dstIp && d.g .arrUdpPort a == r.port
        && (d.g .arrSrcIp a == 0 || d.g .arrSrcIp a == r.srcIp))
    && d.g .arrPt a == r.pt && (!d.on .arrSsrcMatch a || d.g .arrSsrc a == r.ssrc)

/-- The arrival and path a packet belongs to. -/
def Dev.arrMatch (d : Dev) (m : Nat) (r : Rtp) : Option (Nat × Bool) :=
  match (List.range 256).find? fun a => d.matchesPath a m false r with
  | some a => some (a, false)
  | none => ((List.range 256).find? fun a => d.matchesPath a m true r).map fun a => (a, true)

/-- The receive flow a packet belongs to. -/
def Dev.flowMatch (d : Dev) (m : Nat) (r : Rtp) : Option Nat :=
  (List.range 64).find? fun f =>
    d.on .nrEnable f && d.g .nrMac f == m && d.g .nrDstIp f == r.dstIp && d.g .nrUdpPort f == r.port
      && (d.g .nrSrcIp f == 0 || d.g .nrSrcIp f == r.srcIp) && d.g .nrPt f == r.pt

/-- Frames the cores hold at most. -/
def controlQueue : Nat := 512

/-- A frame for the control cores (step 8). [DEDUCED, log entry 55] [DEDUCED, log entry 97] -/
def Dev.toCores (d : Dev) (m : Nat) : Dev :=
  let c := d.mac m
  if c.control < controlQueue then d.putMac m { c with control := c.control + 1 }
  else (d.count .ethRxCtlOverflow m).flag .ethEventFlags m 2

/-- A received PTP frame goes to the PTP unit with its timestamp (R329). -/
def Dev.stampRx (e : Env) (d : Dev) (m : Nat) : Dev :=
  { d with time := { d.time with rxStamp := ofInt 64 ((e.tb : Int) + d.gi .ethTsAdjRx m) } }

/-- ARP entries a MAC holds at most; beyond them a new one is not taken. [DESIGN CHOICE, log entry 159] -/
def arpEntries : Nat := 256

def MacCtx.learn (c : MacCtx) (ip addr now : Nat) : MacCtx :=
  if (c.arp.find ip).isSome ∨ c.arp.length < arpEntries then { c with arp := c.arp.put ip (addr, now) } else c

/-- Steps 5 to 9, after MACsec; `ch`: the receive channel the frame came through. [DEDUCED, log entry 54] -/
def Dev.receiveClear (e : Env) (d : Dev) (m : Nat) (f : EthFrame) (ch : Option Nat) (vidCheck : Bool) : Dev :=
  let vids := (List.range 4).map fun k => bitsAt (d.g .ethVidRx m) (16 * k) 16
  let vid := f.vid.getD 0
  if vidCheck ∧ vid ≠ 0 ∧ !vids.contains vid then d.count .ethRxUnmatched m
  else match f.body with
    | .ptp => if d.g .ptpMac = m then d.stampRx e m else d
    | .rtp r ok =>
      match d.arrMatch m r with
      | some (a, pathB) =>
        if !ok then d
        else
          let d := match ch with
            | some c => { d with io := { d.io with carried := d.io.carried.put (2 * a + b2n pathB) c } }
            | none => d
          if d.stopped then d else d.arrPacket e a pathB r
      | none => match d.flowMatch m r, r.body with
        | some k, .pcm xs =>
          if d.stopped ∨ !ok then d else d.flowPacket e k r.ts xs
        | _, _ => d.count .ethRxUnmatched m
    | .arp ip addr =>
      if !f.toUs then d.count .ethRxUnmatched m
      else
        let d := d.toCores m
        d.putMac m ((d.mac m).learn ip addr e.now)
    | .igmp query => if f.toUs then
        let d := d.toCores m
        match query with
        | some g => d.igmpAnswer m g
        | none => d
      else d.count .ethRxUnmatched m
    | .icmp | .trdpMd .. => if f.toUs then d.toCores m else d.count .ethRxUnmatched m
    | .trdpPd => if f.toUs then (d.toCores m).count .trdpPdDropped else d.count .ethRxUnmatched m
    | .eapol => d.count .ethRxUnmatched m
    | .other => d.count .ethRxUnmatched m

/-- A MAC receives a frame (R325). [DEDUCED, log entry 54] -/
def Dev.receive (e : Env) (d : Dev) (m : Nat) (f : EthFrame) : Dev :=
  if !d.on .ethLink m then d
  else if d.g .ethSpeed m = 1 ∧ !f.fecOk then ((d.count .ethFecUncorrected m).flag .ethEventFlags m 4).count .ethRxFcs m
  else if !f.fcsOk then d.count .ethRxFcs m
  else if d.g .ethMaxFrame m < f.len then d.count .ethRxOversize m
  else if f.len < 64 ∨ f.pause then d.count .ethRxUnmatched m
  else
    let d := d.count .ethRxFrames m
    if !d.on .msEnable m then d.receiveClear e m f none true
    else match f.sec with
      | none =>
        match f.body with
        | .eapol => d
        | .ptp => if d.on .msPtpClear m then d.receiveClear e m f none false else d.count .msRxUntagged m
        | _ => d.count .msRxUntagged m
      | some t =>
        match d.verifyTag e.now m t with
        | (some ch, d) => d.receiveClear e m f (some ch) true
        | (none, d) => d

/-- Frames that MAC loop-backs returned in the tick before are received (R330). -/
def Dev.receiveLooped (e : Env) (d : Dev) (m : Nat) : Dev :=
  let fs := (d.mac m).looped
  if fs.isEmpty then d
  else fs.foldl (fun d f => d.receive e m f) (d.putMac m { d.mac m with looped := [] })

/-- At the end of a tick the cores take a free number of the frames queued to them. [DEDUCED, log entry 55] -/
def Dev.coresDrain (d : Dev) (m : Nat) : Dev :=
  let c := d.mac m
  if c.control = 0 then d
  else
    let (u, d) := d.draw 16
    d.putMac m { c with control := c.control - u % (c.control + 1) }

/-- A read of `TS_ID` pops the oldest timestamp and shows it; without one it reads 0 (R339). -/
def Dev.popStamp (d : Dev) (m : Nat) : Nat × Dev :=
  let c := d.mac m
  match c.stamps with
  | [] => (0, d.putMac m { c with popped := (0, 0) })
  | (seq, kind, t) :: rest =>
    let w := seq % 2 ^ 16 + kind % 16 * 2 ^ 16 + 2 ^ 31
    (w, d.putMac m { c with stamps := rest, popped := (w, t) })

end Sys2Proof.Machine
end

