-- ==== Sys2Proof/Machine/CodecOps.lean ====
section
/-!
DEFINITION. JPEG XS engines: placement, decoded and encoded slices, faults and readmission (R195 to R207).
-/

namespace Sys2Proof.Machine

/-- A codec stream: an arrival decoded, or a departure encoded. -/
inductive Stream where
  | decode (a : Nat)
  | encode (n : Nat)
deriving DecidableEq, Repr

/-- Codec load in pixel/s (R197). -/
def Dev.streamLoad (d : Dev) : Stream → Rat
  | .decode a => d.arrLoad a
  | .encode n => d.depLoad n

/-- The streams of a configuration, decodes before encodes, each in ascending number. -/
def Dev.streams (d : Dev) : List Stream :=
  ((List.range 256).filter fun a => d.g .arrKind a == 2).map .decode
    ++ ((List.range 128).filter fun n => (d.g .depBind n).testBit 0 && d.xsSend n).map .encode

/-- The engine in force, 0xFF when unplaced. -/
def Dev.codecOf (d : Dev) : Stream → Nat
  | .decode a => d.g .arrCodec a
  | .encode n => d.g .depXsCodec n

def Dev.placeStream (d : Dev) (s : Stream) (c : Nat) : Dev :=
  match s with
  | .decode a => d.put .arrCodec a c
  | .encode n => d.put .depXsCodec n c

/-- What keeps a stream where it is (R197). -/
def Dev.streamSig (d : Dev) : Stream → List Nat
  | .decode a => [d.g .arrKind a, d.g .arrWidth a, d.g .arrHeight a, d.g .arrRateNum a, d.g .arrRateDen a, d.g .arrScan a,
      d.g .arrSampling a, d.g .arrDepth a, d.g .arrColorimetry a, d.g .arrTransfer a, d.g .arrRange a, d.g .arrXsProfile a]
  | .encode n => [d.g .depWidth n, d.g .depHeight n, d.g .depGroup n, d.g .depXsProfile n,
      d.g .depXsBpp n, d.g .depXsNlx n, d.g .depXsNly n, d.g .depXsPayload n]

def codecLimit : Rat := 1000000000

/-- The streams of a configuration with their loads. -/
def Dev.loads (d : Dev) : List (Stream × Rat) := d.streams.map fun s => (s, d.streamLoad s)

/-- The streams the part holds places for: those of accepted seals, landed or not, and those in force until a landing
ends them (R197). -/
def Dev.heldStreams (d : Dev) : List (Stream × Rat) :=
  let later := d.afterSeals.loads
  later ++ d.loads.filter fun p => !later.any fun q => q.1 == p.1

/-- Streams and load of an engine, among some streams with their loads. -/
def Dev.engineStreams (d : Dev) (ls : List (Stream × Rat)) (c : Nat) : List (Stream × Rat) := ls.filter fun p => d.codecOf p.1 == c
def Dev.codecLoad (d : Dev) (ls : List (Stream × Rat)) (c : Nat) : Rat := ((d.engineStreams ls c).map fun p => p.2).sum

/-- The load a stream stands for among some streams. -/
def loadIn (ls : List (Stream × Rat)) (s : Stream) : Rat := ((ls.find? fun p => p.1 == s).map fun p => p.2).getD 0

/-- The least-loaded engine among the first `n` that is in service and has room, the lowest-numbered on a tie. -/
def Dev.codecFor (d : Dev) (ls : List (Stream × Rat)) (n : Nat) (s : Stream) : Option Nat :=
  let ok := (List.range n).filter fun c =>
    d.g .cdcState c == 0 && (d.engineStreams ls c).length < 16 && decide (d.codecLoad ls c + loadIn ls s ≤ codecLimit)
  ok.find? fun c => ok.all fun k => decide (d.codecLoad ls c ≤ d.codecLoad ls k)

/-- Descending codec load; the sort keeps the order of equal loads. -/
def byLoad (ls : List (Stream × Rat)) (l : List Stream) : List Stream :=
  let rec insert (s : Stream) : List Stream → List Stream
    | [] => [s]
    | t :: r => if loadIn ls s < loadIn ls t then t :: insert s r else s :: t :: r
  l.foldr insert []

/-- Place streams one by one within the first `n` engines; none when one does not fit. -/
def Dev.placeAll (ls : List (Stream × Rat)) (n : Nat) : Dev → List Stream → Option Dev
  | d, [] => some d
  | d, s :: t => match d.codecFor ls n s with
    | none => none
    | some c => Dev.placeAll ls n (d.placeStream s c) t

/-- The widening of n in R197. -/
def Dev.placeWiden (d : Dev) (ls : List (Stream × Rat)) (new : List Stream) : Nat → Nat → Option Dev
  | 0, _ => none
  | fuel + 1, n => if 24 < n then none else match Dev.placeAll ls n d new with
    | some d => some d
    | none => d.placeWiden ls new fuel (n + 1)

/-- Codec placement of a seal: `old` is the configuration before it, `d` the one that will stand.
[DEDUCED, log entry 46] -/
def Dev.codecPlace (old d : Dev) (unplaced : List Stream) : Option Dev :=
  let all := d.streams
  let keeps (s : Stream) : Bool :=
    old.streams.contains s && old.codecOf s != 0xFF && old.streamSig s == d.streamSig s
  let new := all.filter fun s => !keeps s && !(unplaced.contains s && old.streamSig s == d.streamSig s)
  let d := new.foldl (fun d s => d.placeStream s 0xFF) d
  let gone := old.streams.filter fun s => !all.contains s
  let d := gone.foldl (fun d s => d.placeStream s 0xFF) d
  let kept := all.filter keeps
  let top := (kept.map fun s => d.codecOf s + 1).foldl max 0
  let total := ((kept ++ new).map d.streamLoad).sum
  d.placeWiden d.loads (byLoad d.loads new) 25 (max top (total / codecLimit).ceil.toNat)

/-- Streams no engine holds (R203 step 5). -/
def Dev.unplaced (d : Dev) : List Stream := d.streams.filter fun s => d.codecOf s == 0xFF

/-- Place unplaced streams where they fit, over every engine in service (R203). -/
def Dev.placeLoose (d : Dev) (ls : List (Stream × Rat)) (ss : List Stream) : Dev :=
  (byLoad ls ss).foldl (fun d s => match d.codecFor ls 24 s with
    | some c => d.placeStream s c
    | none => d) d

/-- `cdc_streams` and `cdc_load` follow the placement. -/
def Dev.reportCodecs (d : Dev) : Dev :=
  let ls := d.heldStreams
  d.forEach (List.range 24) fun d c =>
    (d.put .cdcStreams c (d.engineStreams ls c).length).put .cdcLoad c (d.codecLoad ls c).floor.toNat

def cdcReg (c off : Nat) : Nat := 0x180000 + 0x1000 * c + off

/-! ## Slices (R199, R202) -/

/-- The lines of a decoded slice as its bytes decode. -/
def Dev.xsLines (d : Dev) (a : Nat) (p : Pic) (bytes : List Byte) (lo hi : Nat) : Pic :=
  let (dx, dy) := chromaDiv p.samp
  let top := 2 ^ d.g .arrDepth a
  let line (k y w : Nat) : List Nat := (List.range w).map fun x => Config.xsDecode bytes k y x % top
  (List.range (hi - lo)).foldl (fun (p : Pic) i =>
    { p with y := p.y.set (lo + i) (line 0 i p.w),
             c1 := p.c1.set ((lo + i) / dy) (line 1 i (p.w / dx)),
             c2 := p.c2.set ((lo + i) / dy) (line 2 i (p.w / dx)) }) p

/-- Since when an engine could do the next slice of a stream; its deadline is 80 ticks later (R198, R199).
[DEDUCED, log entry 165] -/
def Dev.workSince (d : Dev) : Stream → Option Nat
  | .decode a => ((d.arr a).asm).bind fun x => match x.held.find x.next with
    | some (t, _) => some t
    | none => ((d.arr a).recv).map fun y => y.start
  | .encode n => let c := d.dep n
    if c.composing && !c.encodeCut then c.encReady.find c.encNext else none

/-- Engine `c` serves the stream with the earliest deadline: none of its streams has waited longer than since `t`
(R198). [DEDUCED, log entry 165] -/
def Dev.servesNext (d : Dev) (c t : Nat) : Bool :=
  (d.engineStreams d.heldStreams c).all fun p => (d.workSince p.1).all fun u => decide (t ≤ u)

/-- A slice counts for its engine, and as late past its bound (R199, R207). -/
def Dev.countSlice (d : Dev) (now c t : Nat) (bound : Bool) : Dev :=
  let d := d.countReg (cdcReg c 0x10)
  if bound ∧ t + 80 < now then d.countReg (cdcReg c 0x18) else d

/-- Lines of slice `k` that decode: those of its whole precincts ahead of the first loss (R202). -/
def Asm.intact (x : Asm) (k lines : Nat) : Nat :=
  if x.whole (some k) then lines
  else Config.xsIntact ((x.prefix (some k)).map fun p => p.bytes).flatten % (lines + 1)

/-- The decoder could begin slice `k` of the frame, since a tick: it is the next one, the picture header and what the slice
needs are there, and its turn has come. -/
def Dev.decodeDue (d : Dev) (a k lines : Nat) : Option (Asm × Nat) :=
  match (d.arr a).asm, d.workSince (.decode a) with
  | some x, some t =>
    if d.g .arrKind a = 2 ∧ d.g .arrCodec a < 24 ∧ x.sliceLines = some lines ∧ k = x.next ∧ k * lines < x.pic.h
        ∧ x.whole none ∧ d.servesNext (d.g .arrCodec a) t then
      some (x, t)
    else none
  | _, _ => none

/-- Slice `k` is decoded; from line `lost` of it on, a parse failure loses every line, and so does a packet that is
missing. The last slice ends the picture and closes the frame (R68, R202). -/
def Dev.sliceDecoded (e : Env) (d : Dev) (a k lines : Nat) (lost : Option Nat) (parse : Nat) : Dev :=
  match d.decodeDue a k lines with
  | none => d
  | some (x, t) =>
    let lo := k * lines
    let hi := min x.pic.h (lo + lines)
    let ok := min hi (lo + min (lost.getD lines) (x.intact k lines))
    let d := if d.sliced a then d.beginSlice e a k else d
    let bytes := ((x.prefix (some k)).map fun p => p.bytes).flatten
    let y := { x with pic := d.xsLines a x.pic bytes lo ok, next := k + 1,
                      got := (List.range (ok - lo)).foldl (fun (g : Tab (List (Nat × Nat))) i => g.put (lo + i) [(0, x.pic.w)]) x.got }
    let (y, n) := y.concealXs (d.blackOf a) lo hi
    let d := d.updArr a fun s => { s with asm := some y }
    let d := (if parse = 0 then d else d.count .arrXsParseErrors a parse).countConcealed a n
    let d := d.countSlice e.now (d.g .arrCodec a) t ((x.held.find k).any fun h => h.2)
    let d := if d.sliced a then Dev.publishDue e a (sliceCount y.pic.h) 0 d else d
    if hi < x.pic.h then d else d.closeFrame e a

/-- Packets of a departure's frame ahead of the end of slice `k`. -/
def Dev.xsReadyPackets (d : Dev) (n k : Nat) : Nat :=
  d.xsMarkerPackets n + ((List.range (k + 1)).map (d.xsSlicePackets n)).sum

/-- The encoder releases the packets of slice `k` in tick `now` (R199). -/
def Dev.sliceEncoded (now : Nat) (d : Dev) (n k : Nat) : Dev :=
  let c := d.g .depXsCodec n
  match d.workSince (.encode n) with
  | none => d
  | some t =>
    if 24 ≤ c ∨ !d.xsSend n ∨ d.xsSlices n ≤ k ∨ k ≠ (d.dep n).encNext ∨ !d.servesNext c t then d
    else
      let d := (d.countSlice now c t true).updDep n fun x =>
        { x with encNext := k + 1, released := max x.released (d.xsReadyPackets n k), releasedAt := x.releasedAt.put k now }
      if k + 1 < d.xsSlices n then d
      else d.put .depXsFrameBytes n (d.markerBytes n + ((List.range (d.xsSlices n)).map (d.xsSliceBytes n)).sum)

/-! ## Faults and readmission (R203) -/

/-- A codec engine fault. -/
def Dev.codecFaults (e : Env) (d : Dev) (c : Nat) : Dev :=
  if d.g .cdcState c = 1 then d
  else if d.g .cdcState c = 2 then
    ((((d.put .cdcState c 1).count .cdcFaults c).flag .cdcEventFlags c 3).put .cdcReadmit 0 0xFF).answerCode 0x0531
  else
    let ls := d.heldStreams
    let ss := (d.engineStreams ls c).map fun p => p.1
    let d := (((d.put .cdcState c 1).count .cdcFaults c).flag .cdcEventFlags c 0).masterReset (49 + c)
    let d := ss.foldl (fun d s => match s with
      | .decode a => (d.closeFrame e a).closeFrame e a
      | .encode n => d.updDep n fun x => { x with encodeCut := true }) d
    let d := ss.foldl (fun d s => d.placeStream s 0xFF) d
    let d := d.placeLoose ls ss
    let d := if ss.any fun s => d.codecOf s == 0xFF then d.flag .cdcEventFlags c 1 else d
    d.reportCodecs

/-- `cdc_readmit`. -/
def Dev.codecReadmit (d : Dev) (c : Nat) : Dev :=
  if 24 ≤ c ∨ d.g .cdcState c ≠ 1 then d.answerCode 0x0354
  else ((d.put .cdcState c 2).put .cdcReadmit 0 c).answerCode 0

/-- The test of a codec engine ends. -/
def Dev.codecReadmitDone (d : Dev) (c : Nat) (ok : Bool) : Dev :=
  if d.g .cdcState c ≠ 2 then d
  else
    let d := d.put .cdcReadmit 0 0xFF
    if ok then ((d.put .cdcState c 0).flag .cdcEventFlags c 2).reportCodecs
    else ((d.put .cdcState c 1).flag .cdcEventFlags c 3).answerCode 0x0531

end Sys2Proof.Machine
end

