-- ==== Sys2Proof/Machine/Compose.lean ====
section
/-!
DEFINITION. Composition: what a layer selects and shows, line-buffer grants, lockstep sets, blending of a line, misses,
covering and fetch (R96, R102 to R107, R136 to R148, R174).
-/

namespace Sys2Proof.Machine

/-! ## Selection at a commit point (R96, R105, R107) -/

def layOff : Nat := 0
def layFresh : Nat := 1
def layRepeat : Nat := 2
def layHold : Nat := 3
def layPlaceholder : Nat := 4
def layFilled : Nat := 5

/-- The time of a commit point: on the time base, on the undisciplined clock, and the frame period. -/
structure When where
  tb : Rat
  free : Rat
  period : Rat
deriving DecidableEq, Repr

/-- What a layer selects at a commit point. -/
structure Pick where
  ready : Bool
  a : Option Sel
  b : Option Sel
  weight : Nat
  mode : ReadMode
  pair : Option (Rat × Rat)
deriving DecidableEq, Repr

def ReadMode.code : ReadMode → Nat
  | .frame => 0
  | .bridge => 1
  | .slice => 2

/-- How a layer reads its arrival in the frame that opens (R96, R103). -/
def Dev.readModeOf (v : Dev) (n : Nat) : ReadMode :=
  let a := v.g .laySrc n
  if a < 256 ∧ v.g .arrStorage a = 1 ∧ v.g .depGroup (n / 8) = v.g .arrSliceGroup a then
    (if v.g .arrSliceMode a = 3 then .slice else if v.g .arrSliceMode a = 2 then .bridge else .frame)
  else .frame

/-- The layer's context, begun afresh when its source has changed; what it showed stays known (R141, R142). -/
def LayCtx.follow (c : LayCtx) (src : Nat) : LayCtx :=
  if c.src = src then c
  else { src := src, st := c.st, taps := c.taps, grant := c.grant, times := c.times, shown := c.shown, shownB := c.shownB,
         shownTime := c.shownTime, shownSeq := c.shownSeq }

/-- The layer shows a frame, ready: A, and B with it (R141, R142). -/
def LayCtx.shows (c : LayCtx) (s : Sel) (b : Option Sel) : LayCtx :=
  { c with good := some s, shown := some s, shownB := b, shownTime := s.time, shownSeq := s.seq,
           times := c.times.put s.arr s.time }

/-- The caravan in force a layer is a member of. -/
def Dev.layerCaravan (v : Dev) (n : Nat) : Option Nat :=
  (List.range 32).find? fun c => v.g .cvMode c != 0 &&
    [v.g .cvLayer0 c, v.g .cvLayer1 c, v.g .cvLayer2 c, v.g .cvLayer3 c, v.g .cvLayer4 c, v.g .cvLayer5 c,
     v.g .cvLayer6 c, v.g .cvLayer7 c].contains n

/-- The delay of a layer's target time in µs: its caravan's, or its own (R105, R268). -/
def Dev.showDelay (v : Dev) (n : Nat) : Nat :=
  match v.layerCaravan n with
  | some c => v.g .cvDelay c
  | none => v.g .layRcDelay n

/-- Selection of layer `n` of the configuration `v` (R105 to R107, R142). -/
def Dev.pick (v : Dev) (n : Nat) (c : LayCtx) (w : When) : Pick :=
  let a := v.g .laySrc n
  if 256 ≤ a then ⟨false, none, none, 0, .frame, none⟩
  else
    let live := v.g .arrState a == arrLive
    match v.readModeOf n with
    | .frame =>
      let tau := w.tb - (v.showDelay n * 1000 : Nat)
      let sa := v.selectA a tau
      let interp := v.interpolating n && v.g .layLockstep n == 0
      let sb := if interp then v.selectB a tau else none
      let back := match sa, c.times.find a with
        | some s, some t => decide (s.time < t)
        | _, _ => false
      let wt := match sa, sb with
        | some x, some y => (roundUp (64 * ((tau - x.time) / ((y.time : Rat) - x.time)))).toNat
        | _, _ => 0
      let ready := live && sa.isSome && !back
      ⟨ready, if ready then sa else none, if ready then sb else none, if ready then wt else 0, .frame, none⟩
    | m => ⟨live, none, none, 0, m, some (w.free - w.period / 2, w.free + w.period / 2)⟩

/-! ## Slice-locked pictures (R96, R97, R102) -/

/-- The slice log of the frame that pairs with this departure frame. -/
def Dev.paired (v : Dev) (n : Nat) (c : LayCtx) : Option SliceLog :=
  match c.pair with
  | none => none
  | some (lo, hi) => (v.arr (v.g .laySrc n)).logs.find? fun l =>
      decide (lo < (250 * l.start : Nat)) && decide (((250 * l.start : Nat) : Rat) ≤ hi)

/-- The tick slice `k` of a logged frame is overwritten in its slot: by slice k + `arr_slices` of the frame, or by the
first slice of a later frame that takes the slot (R97). `shadow`: as though every frame were written to the ring. -/
def Dev.overwritten (v : Dev) (a : Nat) (l : SliceLog) (k : Nat) (shadow : Bool) : Option Nat :=
  let n := max 1 (v.g .arrSlices a)
  if k + n < sliceCount l.h then l.began.find (k + n)
  else
    let later := (v.arr a).logs.filter fun m => l.start < m.start && (shadow || m.dest == .ring)
    (later.reverse.filterMap fun m => m.began.find (k % n)).head?

/-- Slice `k` is there for a reader at tick `t`: published by then, and its slot, if it has one, still tagged with it
(R94, R102). A skipped frame is nowhere (R92). -/
def Dev.sliceThere (v : Dev) (a : Nat) (l : SliceLog) (k : Nat) (t : Int) : Bool :=
  (match l.pub.find k with
    | none => false
    | some p => decide ((p : Int) ≤ t)) &&
  match l.dest with
  | .room _ => true
  | .ring => (match v.overwritten a l k false with
    | none => true
    | some o => decide (t < (o : Int)))
  | .skip | .pending => false

/-- The picture of a logged frame as far as its slices are published. -/
def SliceLog.pic (l : SliceLog) : Pic :=
  let ks := List.range (sliceCount l.h)
  let sl (k : Nat) : Pic := l.pics.getD k {}
  let rows (f : Pic → List (List Nat)) (per : Nat) : List (List Nat) :=
    (ks.map fun k => f (sl k) ++ List.replicate (per - (f (sl k)).length) []).flatten
  let (_, dy) := chromaDiv l.samp
  { w := l.w, h := l.h, samp := l.samp, depth := l.depth, coding := (sl 0).coding,
    y := rows Pic.y 16, c1 := rows Pic.c1 (16 / dy), c2 := rows Pic.c2 (16 / dy) }

/-! ## Need and grant of a selection (R172, R174) -/

/-- Size of the frame a context is shown from, for its need: the larger of A and B, or the last good frame. -/
def Dev.shownSize (v : Dev) (c : LayCtx) (p : Pick) : Option Pic :=
  match p.a, p.b with
  | some a, some b =>
    let x := v.picOf a
    let y := v.picOf b
    some { x with w := max x.w y.w, h := max x.h y.h }
  | some a, none => some (v.picOf a)
  | none, _ => match c.good with
    | some s => if p.ready then none else (v.roomOf s).map (·.pic)
    | none => none

def Dev.pickNeed (v : Dev) (n : Nat) (c : LayCtx) (p : Pick) (taps : Nat) : Nat :=
  let a := v.g .laySrc n
  let env := v.needFor n (v.g .arrWidth a) (v.g .arrHeight a) (v.g .arrSampling a) (v.g .arrDepth a) taps
  if v.on .layLbReserve n then env
  else match v.shownSize c p with
    | some x => v.needFor n x.w x.h x.samp x.depth taps
    | none => env

/-- A ratio of the selected frame lies below 1/16 (R161). -/
def Dev.pickRatioLow (v : Dev) (n : Nat) (p : Pick) : Bool :=
  match p.a with
  | none => false
  | some s =>
    let x := v.picOf s
    let g := v.geom n x.w x.h x.samp x.depth
    ratioLow g.cw g.dw || ratioLow g.ch g.dh

/-- Grant and taps of a layer with `room` bytes to spare, and the flag it sets: the R174 ladder. -/
def Dev.ladder (v : Dev) (n : Nat) (c : LayCtx) (p : Pick) (room : Nat) : Nat × Nat × Option Nat :=
  let n4 := v.pickNeed n c p 4
  let n2 := v.pickNeed n c p 2
  if v.pickRatioLow n p then (0, 0, some 3)
  else if n4 ≤ room then (n4, 4, if c.taps = 4 then none else some 2)
  else if n2 ≤ room then (n2, 2, if c.taps = 2 then none else some 0)
  else (0, 0, some 1)

/-- A layer with no grant is not ready, and its last good frame is discarded. -/
def Pick.denied (p : Pick) : Pick := { p with ready := false, a := none, b := none, weight := 0 }

/-! ## Lockstep sets (R144) -/

/-- Stale count after this commit point. -/
def staleAfter (c : LayCtx) (p : Pick) (src : Nat) : Nat :=
  if 256 ≤ src ∨ p.ready then 0 else min 255 (c.stale + 1)

/-- The pick is not the frame the layer showed last (R141). -/
def isNew (c : LayCtx) (p : Pick) : Bool :=
  p.ready && (p.a != c.shown || (p.b.isSome && p.b != c.shownB)) || p.pair.isSome

/-- A member is excused (R144). -/
def Dev.excused (v : Dev) (n : Nat) (c : LayCtx) (p : Pick) : Bool :=
  256 ≤ v.g .laySrc n || p.pair.isSome || v.g .layStaleLimit n < staleAfter c p (v.g .laySrc n)

/-- The members of set `k` may change picture together. -/
def Dev.lockstepGo (v : Dev) (k : Nat) (ps : List (Nat × LayCtx × Pick)) : Bool :=
  ps.all fun (n, c, p) => v.g .layLockstep n != k || v.excused n c p || (p.ready && isNew c p)

/-- A ready member of a set held back repeats the frame it showed last from its source; one that no longer holds such a
frame is not ready (R144). -/
def Dev.heldBack (v : Dev) (p : Pick) (c : LayCtx) : Pick :=
  match c.shown with
  | some s => if s.arr = c.src ∧ (v.roomOf s).isSome then { p with a := some s, b := none, weight := 0, pair := none }
    else p.denied
  | none => p.denied

/-! ## Layer states (R141) -/

/-- The state a layer takes, and its context. -/
def Dev.layState (v : Dev) (n : Nat) (c : LayCtx) (p : Pick) (taps grant : Nat) : LayCtx :=
  let src := v.g .laySrc n
  let base := { c with a := p.a, b := p.b, weight := p.weight, mode := p.mode, pair := p.pair, missFrom := none,
                       taps := taps, grant := grant, stale := staleAfter c p src }
  if v.g .depLayers (n / 8) ≤ n % 8 then
    { base with st := layOff, a := none, b := none, good := none, pair := none }
  else if 256 ≤ src then { base with st := layFilled, good := none }
  else if p.ready then
    match p.a with
    | some s =>
      { base.shows s p.b with st := if isNew c p then layFresh else layRepeat }
    | none => { base with st := layFresh }
  else
    let good := if taps = 0 then none else c.good
    let kept := match good with
      | some s => (v.roomOf s).isSome
      | none => false
    { base with st := if base.stale ≤ v.g .layStaleLimit n ∧ kept then layHold else layPlaceholder, good := good }

/-- Report a live layer's new state: objects of R154, R110, R175 and flags of R155, against the state it was in. -/
def Dev.reportLayer (d : Dev) (n : Nat) (c : LayCtx) : Dev :=
  let old := d.g .layState n
  let d := d.putLay n c
  let d := (d.put .layState n c.st).put .layStale n c.stale |>.put .layRcWeight n c.weight
  let d := (d.put .layReadMode n c.mode.code).put .layLbNeed n c.grant |>.put .layLbTaps n c.taps
  let shown := if c.st = layHold then c.good else c.a
  let d := match shown with
    | some s => (d.put .layShownSeq n s.seq).put .layShownTime n s.time
    | none => d
  let d := if c.st = layHold ∧ old ≠ layHold then d.flag .layEventFlags n 0 else d
  let d := if c.st = layPlaceholder ∧ old ≠ layPlaceholder then d.flag .layEventFlags n 1 else d
  if c.st = layFresh ∧ (old = layHold ∨ old = layPlaceholder) then d.flag .layEventFlags n 5 else d

/-! ## What a layer shows (R139, R143) -/

/-- A layer is opaque in the frame (R140). -/
def Dev.opaqueIn (v : Dev) (n : Nat) (c : LayCtx) : Bool :=
  (n % 8 == 0 || v.g .layBlend n == 0 || (v.g .layBlend n == 1 && v.g .layAlpha n == 256))
    && (c.st == layFresh || c.st == layRepeat || c.st == layHold || c.st == layFilled
        || (c.st == layPlaceholder && v.g .layPlaceholder n == 0))

/-- A layer's destination rectangle: left, top, right, bottom (the last two past the edge). -/
def Dev.dstRect (v : Dev) (n : Nat) : Nat × Nat × Nat × Nat :=
  let g := v.geom n 0 0 1 10
  (g.dx, g.dy, g.dx + g.dw, g.dy + g.dh)

/-- Span `k` of a line: first and last column. -/
def Dev.spanCols (v : Dev) (n k : Nat) : Nat × Nat := (16 * k, min (16 * k + 15) (v.g .depWidth (n / 8) - 1))

/-- Layers above `n` in its stack. -/
def Dev.above (v : Dev) (n : Nat) : List Nat := (v.stack (n / 8)).filter fun m => v.g .layZ n < v.g .layZ m

/-- Span `k` of layer `n` on output line `y` is covered (R147). -/
def Dev.covered (v : Dev) (ctx : Nat → LayCtx) (n k y : Nat) : Bool :=
  let (lo, hi) := v.spanCols n k
  (v.above n).any fun m =>
    let (x0, y0, x1, y1) := v.dstRect m
    v.opaqueIn m (ctx m) && x0 ≤ lo && hi < x1 && y0 ≤ y && y < y1

/-- Layer `n` covers some span of a lower layer in the frame. -/
def Dev.coversBelow (v : Dev) (ctx : Nat → LayCtx) (n : Nat) : Bool :=
  let (x0, y0, x1, y1) := v.dstRect n
  v.opaqueIn n (ctx n) &&
    ((v.stack (n / 8)).filter fun m => v.g .layZ m < v.g .layZ n).any fun m =>
      let (u0, v0, u1, v1) := v.dstRect m
      max y0 v0 < min y1 v1 &&
        (List.range (ceilDiv (v.g .depWidth (n / 8)) 16)).any fun k =>
          let (lo, hi) := v.spanCols n k
          x0 ≤ lo && hi < x1 && lo < u1 && u0 ≤ hi

/-- What a layer shows on a line. -/
inductive Show where
  | nothing
  | fill
  | pic (p : Pic) (g : Geom) (taps : Nat)
deriving DecidableEq, Repr

/-- What replaces a layer's lines within a frame (R143). -/
def Dev.replacement (v : Dev) (ctx : Nat → LayCtx) (n : Nat) : Show :=
  if v.g .layPlaceholder n = 0 ∨ v.coversBelow ctx n then .fill else .nothing

/-- A frame shown with its geometry; interpolated with the second frame where there is one (R107). -/
def Dev.showPics (v : Dev) (n : Nat) (a : Pic) (b : Option Pic) (w taps : Nat) : Show :=
  let p := match b with
    | none => a.to12
    | some q => mixPics (v.g .layMotion n) w a.to12 q.to12
  .pic p (v.geom n a.w a.h a.samp a.depth) taps

/-- What layer `n` shows on output line `y`; `late`: its data came too late (R146). -/
def Dev.shows (v : Dev) (ctx : Nat → LayCtx) (n y : Nat) (late : Bool) : Show :=
  let c := ctx n
  let missed := match c.missFrom with
    | some k => decide (k ≤ y)
    | none => false
  if c.st = layOff then .nothing
  else if c.st = layFilled then .fill
  else if c.st = layPlaceholder then (if v.g .layPlaceholder n = 0 then .fill else .nothing)
  else if late || missed then v.replacement ctx n
  else if c.st = layHold then
    match c.good with
    | some s => v.showPics n (v.picOf s) none 0 c.taps
    | none => v.replacement ctx n
  else match c.pair with
    | some _ => match v.paired n c with
      | some l => v.showPics n l.pic none 0 c.taps
      | none => v.replacement ctx n
    | none => match c.a with
      | some s => v.showPics n (v.picOf s) (c.b.map v.picOf) c.weight c.taps
      | none => v.replacement ctx n

/-! ## A miss (R102) -/

/-- Output line `y` of the layer reaches the need time of a source line, as the first line that uses it, and the line's
slice is not there (R97, R102). -/
def Dev.missesAt (v : Dev) (n : Nat) (c : LayCtx) (y : Nat) : Bool :=
  match c.pair with
  | none => false
  | some _ =>
    let (_, y0, _, y1) := v.dstRect n
    if y < y0 ∨ y1 ≤ y ∨ (c.st ≠ layFresh ∧ c.st ≠ layRepeat) then false
    else match v.paired n c with
      | none => true
      | some l =>
        let g := v.geom n l.w l.h l.samp l.depth
        let need := v.lineTick (n / 8) y - 160
        let before := if y = y0 then [] else g.linesUsed c.taps (y - 1 - y0)
        ((g.linesUsed c.taps (y - y0)).filter fun s => !before.contains s).any fun s =>
          !v.sliceThere (v.g .laySrc n) l (s / 16) need

/-! ## A composed line (R139) -/

/-- The luma of a pixel in a departure's coding (R139). -/
def lumaOf (t : Coding) (p : Px) : Nat :=
  if t.rgb then lumaRgb t.colour 4095 p.a p.b p.c else p.a

/-- Draw a layer's pixel over what stands there. -/
def Dev.drawPx (v : Dev) (n : Nat) (t : Coding) (s acc : Px) : Px :=
  let a := v.g .layAlpha n
  if n % 8 = 0 ∨ v.g .layBlend n = 0 then s
  else if v.g .layBlend n = 2 ∧ lumaOf t s ≤ v.g .layKey n then acc
  else blendPx a s acc

/-- Layers of a stack in drawing order: layer 0, then ascending z. -/
def Dev.drawOrder (v : Dev) (n : Nat) : List Nat :=
  let ls := v.stack n
  (List.range 8).map (fun z => ls.filter fun m => (if m % 8 = 0 then 0 else v.g .layZ m) == z) |>.flatten

/-- Compose output line `y` of departure `n`. -/
def Dev.composeLine (v : Dev) (ctx : Nat → LayCtx) (n y : Nat) (late : Nat → Bool) : List Px :=
  let t := v.depCoding n
  let w := v.g .depWidth n
  let canvas := List.replicate w (fillPx (v.g .layFill (8 * n)) t)
  (v.drawOrder n).foldl (fun acc m =>
    let (x0, y0, x1, y1) := v.dstRect m
    if y < y0 ∨ y1 ≤ y then acc
    else
      let f := fillPx (v.g .layFill m) t
      match v.shows ctx m y (late m) with
      | .nothing => acc
      | .fill => (List.range w).map fun x =>
          let u := acc.getD x f
          if x0 ≤ x ∧ x < x1 then v.drawPx m t f u else u
      | .pic p g taps => (List.range w).map fun x =>
          let u := acc.getD x f
          if x0 ≤ x ∧ x < x1 then
            let s := if g.inside (x - x0) (y - y0) then
                convertPx p.codingOf t (v.filterPx m g taps p (x - x0) (y - y0))
              else f
            v.drawPx m t s u
          else u) canvas

/-! ## Fetch (R148) -/

/-- Size and format of a logged frame. -/
def SliceLog.frame (l : SliceLog) : Pic := { w := l.w, h := l.h, samp := l.samp, depth := l.depth }

/-- The frames a context fetches: A, and B with it; the last good frame in HOLD. -/
def Dev.fetchPics (v : Dev) (n : Nat) (c : LayCtx) : List Pic :=
  if c.st = layHold then (c.good.map v.picOf).toList
  else if c.st = layFresh ∨ c.st = layRepeat then
    (match c.pair with
     | some _ => ((v.paired n c).map SliceLog.frame).toList
     | none => (c.a.map v.picOf).toList ++ (c.b.map v.picOf).toList)
  else []

/-- Segments of the lines of one frame that a layer needs for the output lines above line `rows`; `cover`: leave out
covered spans. -/
def Dev.picSegs (v : Dev) (ctx : Nat → LayCtx) (n : Nat) (cover : Bool) (rows : Nat) (p : Pic) : Nat :=
  let g := v.geom n p.w p.h p.samp p.depth
  let spans := List.range (ceilDiv (v.g .depWidth (n / 8)) 16)
  let ys := (List.range g.dh).filter fun j => g.dy + j < rows
  let segs (j : Nat) : List Nat :=
    (spans.map fun k =>
      let (lo, hi) := v.spanCols n k
      let x0 := max lo g.dx
      let x1 := min hi (g.dx + g.dw - 1)
      if x1 < x0 || (cover && !v.on .layFetchAll n && v.covered ctx n k (g.dy + j)) then []
      else
        let (a, b) := g.columns (x0 - g.dx) (x1 - g.dx)
        segmentsOf p.samp p.depth p.w a b).flatten.eraseDups
  let used : List (Nat × List Nat) := (ys.map fun j => (g.linesUsed (ctx n).taps j).map fun s => (s, segs j)).flatten
  let perLine (s : Nat) : Nat := (((used.filter fun u => u.1 == s).map (·.2)).flatten.eraseDups).length
  ((List.range p.h).map perLine).sum

/-- Segments of source lines a layer fetches for the output lines above line `rows`, up to the miss that replaces it. -/
def Dev.fetchSegs (v : Dev) (ctx : Nat → LayCtx) (n : Nat) (cover : Bool) (rows : Nat) : Nat :=
  let c := ctx n
  ((v.fetchPics n c).map (v.picSegs ctx n cover (min rows (c.missFrom.getD rows)))).sum

/-- Segments the stack of a departure fetches for output line `y`, counted for an engine at rank 9 (R158). -/
def Dev.countFetch (d v : Dev) (ctx : Nat → LayCtx) (n y e : Nat) : Dev :=
  if e < 25 then
    d.countReg (0x16001C + 0x1000 * e)
      ((v.stack n).map fun m => v.fetchSegs ctx m true (y + 1) - v.fetchSegs ctx m true y).sum
  else d

/-- At the end of a frame, the fetch of each layer for the lines its live context composed (R148). -/
def Dev.reportFetch (d : Dev) (n : Nat) : Dev :=
  let rows := (d.dep n).liveLines
  (d.stack n).foldl (fun d m =>
    (d.put .layFetchBytes m (64 * d.fetchSegs d.lay m true rows)).put .layFetchFull m (64 * d.fetchSegs d.lay m false rows)) d

end Sys2Proof.Machine
end

