-- ==== Sys2Proof/Machine/SignOps.lean ====
section
/-!
DEFINITION. Signboard: region signatures, tests, verdicts, reactions and the reacted output (R179 to R188).
-/

namespace Sys2Proof.Machine

/-! ## Signature (R181) -/

/-- One bit of CRC-32C, reflected. -/
def crcBit (c : Nat) : Nat := if c % 2 = 1 then (c / 2) ^^^ 0x82F63B78 else c / 2

def crcByte (c b : Nat) : Nat :=
  let x := c ^^^ b
  crcBit (crcBit (crcBit (crcBit (crcBit (crcBit (crcBit (crcBit x)))))))

def crc32c (bs : List Nat) : Nat := bs.foldl crcByte 0xFFFFFFFF ^^^ 0xFFFFFFFF

/-- The bytes of a picture as a region serialises them. -/
def regionBytes (p : Pic) : List Nat :=
  let word (v : Nat) : List Nat := [v % 256, v / 256]
  let px (x y : Nat) : List Nat :=
    let l := word ((p.y.getD y []).getD x 0)
    let c (q : List (List Nat)) (x y : Nat) : List Nat := word ((q.getD y []).getD x 0)
    if p.samp = 1 then (if x % 2 = 0 then l ++ c p.c1 (x / 2) y ++ c p.c2 (x / 2) y else l)
    else if p.samp = 0 then
      (if x % 2 = 0 ∧ y % 2 = 0 then l ++ c p.c1 (x / 2) (y / 2) ++ c p.c2 (x / 2) (y / 2) else l)
    else l ++ c p.c1 x y ++ c p.c2 x y
  ((List.range p.h).map fun y => ((List.range p.w).map fun x => px x y).flatten).flatten

/-! ## Regions (R179, R190) -/

/-- Regions checked in a frame of departure `n`. -/
def Dev.regionsOn (d : Dev) (n : Nat) : List Nat :=
  if d.on .sbEnable n then (List.range 16).filter fun r => d.g .sbrKind (16 * n + r) != 0 else []

/-- A departure that holds freeze stores (R188). -/
def Dev.holdsFreeze (d : Dev) (n : Nat) : Bool :=
  (d.regionsOn n).any fun r => d.g .sbrReaction (16 * n + r) == 2

/-- The output-stage picture of a composed raster, before any reaction. -/
def Dev.outputPic (d : Dev) (n : Nat) (r : Raster) : Pic :=
  outputStage (d.g .depSampling n) (d.g .depDepth n) true 0 0 r

/-- A region's signature. [DESIGN CHOICE, log entry 33] -/
def Dev.signature (d : Dev) (n r : Nat) (p : Pic) : Nat :=
  let i := 16 * n + r
  crc32c (regionBytes (p.crop (d.g .sbrX i) (d.g .sbrY i) (d.g .sbrW i) (d.g .sbrH i)))

/-- Index of the first expected value a signature equals, 0xFF for none (R183). -/
def Dev.matchOf (d : Dev) (i crc : Nat) : Nat :=
  let es := [d.g .sbrExpect0 i, d.g .sbrExpect1 i, d.g .sbrExpect2 i, d.g .sbrExpect3 i].take (d.g .sbrExpectN i)
  let k := es.findIdx (· == crc)
  if k < es.length then k else 0xFF

/-- Age of a shown frame in µs, saturating (R184). -/
def ageUs (opened : Rat) (shown : Nat) : Nat :=
  let a := ((opened - shown) / 1000).floor
  min (2 ^ 32 - 1) a.toNat

/-- The age test of R184. -/
def ageOk (opened : Rat) (shown maxUs : Nat) : Bool := decide (opened - (shown : Nat) ≤ ((maxUs * 1000 : Nat) : Rat))

/-- What the live tests see of a layer. -/
structure Seen where
  st : Nat
  time : Nat
  seq : Nat
  src : Nat
deriving DecidableEq, Repr

/-- Frames since the sequence a layer shows last changed, or its window restarted, counting this frame. -/
def Dev.sinceOf (d : Dev) (lay : Nat) (v : Seen) : Nat :=
  let x := d.seqs.getD lay {}
  if x.src ≠ v.src ∨ x.seq ≠ v.seq then 0 else x.since + 1

/-- What the output showed last of a layer. -/
def Dev.seenLive (d : Dev) (lay : Nat) : Seen :=
  ⟨d.g .layState lay, d.g .layShownTime lay, d.g .layShownSeq lay, d.g .laySrc lay⟩

/-- The sequence test remembers what each layer of a departure showed in the frame that ends. -/
def Dev.noteSeqs (d : Dev) (n : Nat) : Dev :=
  d.forEach (d.stack n) fun d m =>
    let v := d.seenLive m
    { d with seqs := d.seqs.put m { seq := v.seq, src := v.src, since := d.sinceOf m v } }

/-- A region's cause in a frame: the lowest that applies (R182 to R186). `twin`: the two compositions differ in it. -/
def Dev.regionCause (d : Dev) (n r : Nat) (crc : Nat) (v : Seen) (twin : Bool) : Nat :=
  let i := 16 * n + r
  let k := d.g .sbrKind i
  let c := d.dep n
  let window := d.g .sbrSeqWindow i
  let grace := match c.sinceStep with
    | some m => decide (1 ≤ m ∧ m ≤ window)
    | none => false
  firstCode
    [(c.checkerBad, 1), (twin, 2), ((k == 1 || k == 3) && d.matchOf i crc == 0xFF, 3),
     ((k == 2 || k == 3) && !(v.st == layFresh || v.st == layRepeat || v.st == layHold), 4),
     ((k == 2 || k == 3) && !grace && !ageOk c.opened v.time (d.g .sbrAgeMax i), 5),
     ((k == 2 || k == 3) && window ≤ d.sinceOf (8 * n + d.g .sbrLayer i) v, 6)]

/-! ## Live verdict (R187, R188) -/

/-- Codes of `sb_state`. -/
def Dev.sbStateOf (d : Dev) (n : Nat) : Nat :=
  let c := d.dep n
  let has (k : Nat) : Bool := (setBitsOf 16 c.failing).any fun r => d.g .sbrReaction (16 * n + r) == k
  if !d.on .sbEnable n then 0
  else if c.failing = 0 then 1
  else if has 2 then (if d.g .sbFreezeLimit n ≤ c.frozen || c.lastGood.isNone then 5 else 4)
  else if has 1 then 3
  else 2

/-- The departure's output is frozen. -/
def Dev.isFrozen (d : Dev) (n : Nat) : Bool := d.sbStateOf n == 4 || d.sbStateOf n == 5

/-- Bits of the regions whose test fails. -/
def maskOf (rs : List Nat) : Nat := (rs.map fun r => 2 ^ r).sum

/-- The twin composition is compared in a region of the frame: no line of it was replaced (R185). -/
def Dev.compares (d : Dev) (n r : Nat) : Bool := d.g .sbTwinState n == 1 && !(d.dep n).replaced.contains r

/-- One region of a live frame, judged and reported. Answers its cause. [DEDUCED, log entry 34] -/
def Dev.judgeRegion (d : Dev) (n : Nat) (p : Pic) (r : Nat) : Nat × Dev :=
  let i := 16 * n + r
  let v := d.seenLive (8 * n + d.g .sbrLayer i)
  let crc := d.signature n r p
  let twin := d.compares n r && crc != d.signature n r (d.outputPic n (d.dep n).twin)
  let cause := d.regionCause n r crc v twin
  let live := d.g .sbrKind i == 2 || d.g .sbrKind i == 3
  let stale := live && v.st == layHold
  let d := (d.put .sbrCrc i crc).put .sbrMatch i (d.matchOf i crc) |>.put .sbrCause i (cause + 128 * b2n stale)
  let d := if live then d.put .sbrAge i (ageUs (d.dep n).opened v.time) else d
  let d := if d.g .sbTwinState n = 1 ∧ !d.compares n r then d.count .sbTwinSkips n else d
  (cause, d)

/-- Verdict on the live frame of departure `n`, and the reaction it brings or ends. -/
def Dev.liveVerdict (e : Env) (d : Dev) (n : Nat) : Dev :=
  let p := d.outputPic n (d.dep n).raster
  let (bad, d) := (d.regionsOn n).foldl (fun (acc : List Nat × Dev) r =>
    let (cause, d) := acc.2.judgeRegion n p r
    (if cause = 0 then acc.1 else acc.1 ++ [r], d)) ([], d)
  let mask := maskOf bad
  let c := d.dep n
  let wasFrozen := d.isFrozen n
  let d := (d.put .sbFailMask n mask).put .sbVerdictTick n e.tick
  let d :=
    if mask ≠ 0 then
      let d := (d.count .sbFails n).flag .sbEventFlags n 0
      d.putDep n { c with failing := c.failing ||| mask, passRun := 0, frozen := if wasFrozen then c.frozen + 1 else 0 }
    else
      let run := c.passRun + 1
      let good := if d.holdsFreeze n ∧ !wasFrozen then some p else c.lastGood
      let c := { c with passRun := run, frozen := if wasFrozen then c.frozen + 1 else 0, lastGood := good }
      if c.failing ≠ 0 ∧ d.g .sbRecover n ≤ run then
        (d.putDep n { c with failing := 0, frozen := 0 }).flag .sbEventFlags n 1
      else d.putDep n c
  let old := d.g .sbState n
  let st := d.sbStateOf n
  let d := d.put .sbState n st
  if st = 5 ∧ old ≠ 5 then d.flag .sbEventFlags n 6 else d

/-- Verdict on a shadow or dry-run frame: a failure undoes the take (R125 causes 4 and 5, R187). -/
def Dev.shadowVerdict (e : Env) (d : Dev) (n : Nat) (t : Take) : Dev :=
  let v := t.view n d
  let p := v.outputPic n (d.dep n).shadow
  let causes := (d.regionsOn n).map fun r =>
    let c := t.shadow.getD (8 * n + d.g .sbrLayer (16 * n + r)) {}
    v.regionCause n r (d.signature n r p) ⟨c.st, c.shownTime, c.shownSeq, c.src⟩ false
  let d := d.put .sbVerdictTick n e.tick
  if causes.all (· == 0) then d
  else
    let cause := if causes.any fun k => 1 ≤ k && k ≤ 3 then 4 else 5
    ((d.count .sbShadowFails n).flag .sbEventFlags n 2).undo n cause

/-! ## The reacted output (R187) -/

/-- A rectangle of a picture replaced by the output stage of one colour. -/
def Dev.paint (d : Dev) (n : Nat) (p : Pic) (colour x y w h : Nat) : Pic :=
  let px := fillPx colour (d.depCoding n)
  let q := outputStage p.samp p.depth true x y (List.replicate h (List.replicate w px))
  let (dx, dy) := chromaDiv p.samp
  let paste (a b : List (List Nat)) (x y : Nat) : List (List Nat) :=
    (List.range b.length).foldl (fun a j => setRun a (y + j) x (b.getD j [])) a
  { p with y := paste p.y q.y x y, c1 := paste p.c1 q.c1 (x / dx) (y / dy), c2 := paste p.c2 q.c2 (x / dx) (y / dy) }

/-- The 8-pixel border of a failing region, or all of a region narrower or shorter than 16 pixels. -/
def Dev.marker (d : Dev) (n : Nat) (p : Pic) (r : Nat) : Pic :=
  let i := 16 * n + r
  let x := d.g .sbrX i
  let y := d.g .sbrY i
  let w := d.g .sbrW i
  let h := d.g .sbrH i
  let m := d.g .sbMarker n
  if w < 16 ∨ h < 16 then d.paint n p m x y w h
  else
    let p := d.paint n p m x y w 8
    let p := d.paint n p m x (y + h - 8) w 8
    let p := d.paint n p m x (y + 8) 8 (h - 16)
    d.paint n p m (x + w - 8) (y + 8) 8 (h - 16)

/-- What every binding receives of a composed picture under the reaction in force. [DEDUCED, log entry 34] -/
def Dev.reacted (d : Dev) (n : Nat) (p : Pic) : Pic :=
  let c := d.dep n
  let rs := setBitsOf 16 c.failing
  let st := d.sbStateOf n
  if st = 4 then rs.foldl (d.marker n) (c.lastGood.getD p)
  else if st = 5 then rs.foldl (d.marker n) (d.paint n p (d.g .sbBlank n) 0 0 p.w p.h)
  else if st = 3 then
    (rs.filter fun r => d.g .sbrReaction (16 * n + r) == 1).foldl (fun p r =>
      let i := 16 * n + r
      d.paint n p (d.g .sbBlank n) (d.g .sbrX i) (d.g .sbrY i) (d.g .sbrW i) (d.g .sbrH i)) p
  else p

/-! ## When verdicts register -/

/-- The checker test of a departure frame: whether the two CRC units agreed over it, and each with the constant over the
fixed pattern, is free (R182). [DESIGN CHOICE, log entry 134] -/
def Dev.checkerTest (d : Dev) (n : Nat) : Dev :=
  let (faults, d) := d.draw 3
  if faults = 0 then d
  else ((d.updDep n fun c => { c with checkerBad := true }).flag .sbEventFlags n 4).countReg 0x1A4000

/-- Verdicts of one departure at the commit point that ends its frame; the frame stands as its bindings received it,
under the reaction in force while it was sent. [DESIGN CHOICE, log entry 33] -/
def Dev.verdict (e : Env) (d : Dev) (n : Nat) : Dev :=
  if !(d.dep n).composing then d
  else
    let d := d.updDep n fun c => { c with sent := some (d.reacted n (d.outputPic n c.raster)) }
    let d := d.checkerTest n
    let d := if d.on .sbEnable n && d.g .depState n == 2 && (d.dep n).holdPic.isNone then d.liveVerdict e n else d
    let d := match d.takeOf n with
      | some t =>
        if d.on .sbEnable n && (t.phase == TakePhase.preroll || (t.phase == TakePhase.hold && !(d.dep n).shadow.isEmpty)) then
          d.shadowVerdict e n t
        else d
      | none => d
    d.noteSeqs n

/-- Active perturbation slots that skew a group's commit points, and the skew in ticks (R526, R527). -/
def Dev.skewSlots (d : Dev) (g : Nat) : List Nat :=
  (List.range 8).filter fun k => d.g .ptState k == 1 && d.g .ptKind k == 3 && d.g .ptTarget k == g

def Dev.skew (d : Dev) (g : Nat) : Nat := min 4000 ((d.skewSlots g).map fun k => d.g .ptAmount k).sum

/-- The commit point of the frame in progress is due in this tick (R37), by its skew later (R527). -/
def Dev.commitDue (e : Env) (d : Dev) (g : Nat) : Bool :=
  let c := d.group g
  c.started && !c.committed && d.commitInstant g + (250 * d.skew g : Nat) < d.groupNow e g

/-- Rank 4: verdicts on every frame whose commit point is registered in this tick, once. -/
def Dev.dueVerdicts (e : Env) (d : Dev) : Dev :=
  d.forEach (List.range 32) fun d g =>
    if d.commitDue e g && !(d.group g).verdict then
      let d := (d.groupDeps g).foldl (fun d n => d.verdict e n) d
      d.putGroup g { d.group g with verdict := true }
    else d

end Sys2Proof.Machine
end

