-- ==== Sys2Proof/Machine/EngineOps.lean ====
section
/-!
DEFINITION. Composition engines: faults, the spare, readmission and background self-tests (R150 to R153, R185, R203,
R520 to R523).
-/

namespace Sys2Proof.Machine

def engInService : Nat := 0
def engRetired : Nat := 1
def engTesting : Nat := 2
def engSpareIdle : Nat := 3
def engSpareActive : Nat := 4

/-- `dep_state` codes of R51. -/
def depUnbound : Nat := 0
def depArmed : Nat := 1
def depLive : Nat := 2
def depFaulted : Nat := 3

/-- A change of `dep_state` sets bit 0 (R51, R225). -/
def Dev.setDepState (d : Dev) (n v : Nat) : Dev :=
  if d.g .depState n = v then d else (d.put .depState n v).flag .depEventFlags n 0

/-- The spare takes over the departures of an engine: each moves at its own next commit point (R151). -/
def Dev.spareTakes (d : Dev) (e : Nat) (hard : Bool) : Dev :=
  let d := ((d.put .engState 24 engSpareActive).put .engReplaces 24 e).flag .engEventFlags 24 2
  (d.served e).foldl (fun d n => d.updDep n fun c => { c with moveTo := some 24, torn := hard }) d

/-- Without a spare, the departures of an engine enter FAULTED (R152). [DEDUCED, log entry 45] -/
def Dev.faultDeps (d : Dev) (ns : List Nat) : Dev :=
  ns.foldl (fun d n => if d.g .depState n = depArmed ∨ d.g .depState n = depLive then
    (d.updDep n fun c => { c with moveTo := none }).setDepState n depFaulted else d) d

/-- Twin comparison on an engine stops (R185). -/
def Dev.stopTwins (d : Dev) (e : Nat) : Dev :=
  ((d.twinsOn e).filter fun n => d.g .sbTwinState n == 1).foldl
    (fun d n => (d.put .sbTwinState n 2).flag .sbEventFlags n 3) d

/-- The spare serves nobody and is to serve nobody: it is idle again, and takes the lowest-numbered RETIRED engine with
FAULTED departures (R152, R153). -/
def Dev.spareFollow (d : Dev) : Dev :=
  let busy := !(d.served 24).isEmpty || (List.range 128).any fun n => (d.dep n).moveTo == some 24
  let d := if d.g .engState 24 = engSpareActive ∧ !busy then
      (d.put .engState 24 engSpareIdle).put .engReplaces 24 0xFF
    else d
  if d.g .engState 24 ≠ engSpareIdle then d
  else match (List.range 24).find? fun e =>
      d.g .engState e == engRetired && (d.served e).any fun n => d.g .depState n == depFaulted with
    | some e => d.spareTakes e false
    | none => d

/-- A composition engine fault, of the self-test or hard (R150). -/
def Dev.engineFault (d : Dev) (e : Nat) (hard : Bool) : Dev :=
  let st := d.g .engState e
  if st = engRetired ∨ 25 ≤ e then d
  else if st = engTesting then
    (((d.put .engState e engRetired).count .engFaults e).flag .engEventFlags e 4).put .engReadmit 0 0xFF |>.answerCode 0x0530
  else
    let d := (d.undoEngine e).stopTwins e
    let d := ((d.put .engState e engRetired).count .engFaults e).flag .engEventFlags e (b2n hard)
    let d := { d.masterReset (16 + e) with test := { d.test with engRun := d.test.engRun.del e } }
    let d := if e = 24 then
        let moving := (List.range 128).filter fun n => (d.dep n).moveTo == some 24 || d.g .depEngine n == 24
        (d.faultDeps moving).put .engReplaces 24 0xFF
      else if d.g .engState 24 = engSpareIdle then d.spareTakes e hard
      else d.faultDeps (d.served e)
    d.spareFollow.reportEngines

/-- `eng_readmit` (R153). -/
def Dev.engineReadmit (d : Dev) (e : Nat) : Dev :=
  if 25 ≤ e ∨ d.g .engState e ≠ engRetired then d.answerCode 0x0353
  else ((d.put .engState e engTesting).put .engReadmit 0 e).answerCode 0

/-- The full self-test ends (R153). [DEDUCED, log entry 45] -/
def Dev.engineReadmitDone (d : Dev) (e : Nat) (ok : Bool) : Dev :=
  if d.g .engState e ≠ engTesting then d
  else
    let d := d.put .engReadmit 0 0xFF
    if ok then
      let d := (d.served e).foldl (fun d n => if d.g .depState n = depFaulted then d.put .depEngine n 0xFF else d) d
      ((d.put .engState e (if e = 24 then engSpareIdle else engInService)).flag .engEventFlags e 3).spareFollow
    else ((d.put .engState e engRetired).flag .engEventFlags e 4).answerCode 0x0530

/-! ## Background self-tests (R520, R521) -/

/-- Ticks of `bist_period`. -/
def Dev.bistTicks (d : Dev) : Nat := d.g .bistPeriod * 4000

/-- The offset of unit `k` of `n` has passed in a period in which it has not started yet. -/
def Dev.bistDue (now : Nat) (d : Dev) (k n : Nat) (last : Option Nat) : Bool :=
  let p := d.bistTicks
  let off := k * p / n
  d.on .bistEnable && decide (off ≤ now) &&
    match last with
    | none => true
    | some t => decide ((t - off) / p < (now - off) / p)

def Dev.bistStart (now : Nat) (d : Dev) (e : Nat) : Dev :=
  let st := d.g .engState e
  if (st = engInService ∨ st = engSpareIdle ∨ st = engSpareActive) ∧ d.bistDue now e 25 (d.test.engLast.find e) ∧
      (d.test.engRun.find e).isNone then
    { d with test := { d.test with engRun := d.test.engRun.put e now, engLast := d.test.engLast.put e now } }
  else d

/-- The CRCs of a background self-test are compared; a mismatch is a self-test fault. -/
def Dev.bistResult (d : Dev) (e : Nat) (ok : Bool) : Dev :=
  if (d.test.engRun.find e).isNone then d
  else
    let d := { d with test := { d.test with engRun := d.test.engRun.del e } }
    let d := d.count .bistRuns
    if ok then d else (d.flag .bistEventFlags 0 0).engineFault e false

def Dev.codecBist (now : Nat) (d : Dev) (c : Nat) : Dev :=
  if d.g .cdcState c = 0 ∧ d.bistDue now c 24 (d.test.cdcLast.find c) ∧ (d.test.cdcRun.find c).isNone then
    { d with test := { d.test with cdcRun := d.test.cdcRun.put c now, cdcLast := d.test.cdcLast.put c now } }
  else d

def Dev.codecBistResult (e : Env) (d : Dev) (c : Nat) (ok : Bool) : Dev :=
  if (d.test.cdcRun.find c).isNone then d
  else
    let d := { d with test := { d.test with cdcRun := d.test.cdcRun.del c } }
    let d := d.count .bistRuns
    if ok then d else (d.flag .bistEventFlags 0 1).codecFaults e c

/-- A test not finished 50 ms after its start is abandoned. -/
def Dev.bistAbandon (now : Nat) (d : Dev) (codec : Bool) (e : Nat) : Dev :=
  let run := if codec then d.test.cdcRun.find e else d.test.engRun.find e
  match run with
  | none => d
  | some t =>
    if now < t + 200000 then d
    else
      let u := d.test
      let u := if codec then { u with cdcRun := u.cdcRun.del e } else { u with engRun := u.engRun.del e }
      (({ d with test := u }).count .bistSkipped).flag .bistEventFlags 0 2

/-! ## Forced faults (R523) -/

/-- `bist_force_fault`: the fault registers at rank 3 of the next tick. -/
def Dev.forceFault (now : Nat) (d : Dev) (v : Nat) : Dev :=
  let st := d.g .engState v
  let code :=
    if v < 25 then (if st = engInService ∨ st = engSpareIdle ∨ st = engSpareActive then 0 else 0x0353)
    else if 0x80 ≤ v ∧ v < 0x98 then (if d.g .cdcState (v - 0x80) = 0 then 0 else 0x0354)
    else 0x0201
  let d := if code = 0 then { d with test := { d.test with forced := d.test.forced ++ [(v, now + 1)] } } else d
  d.answerCode code

/-- The forced faults that register now, in ascending source number. -/
def Dev.forcedFaults (e : Env) (d : Dev) : Dev :=
  let due := d.test.forced.filter fun (p : Nat × Nat) => p.2 ≤ e.now
  if due.isEmpty then d
  else
    let d := { d with test := { d.test with forced := d.test.forced.filter fun (p : Nat × Nat) => e.now < p.2 } }
    (sortAsc (due.map fun (p : Nat × Nat) => p.1)).foldl (fun d v =>
      if v < 25 then (d.flag .bistEventFlags 0 0).engineFault v false
      else (d.flag .bistEventFlags 0 1).codecFaults e (v - 0x80)) d

/-! ## Perturbation slots (R525 to R527) -/

/-- Largest skew of a group in ticks (R527). -/
def Dev.skewLimit (d : Dev) (g : Nat) : Nat :=
  ((d.tgLine g * (d.g .tgTotalLines g - d.g .tgActiveLines g : Nat)) / 250).floor.toNat - 200

/-- The range of a slot's target and amount (R526). -/
def Dev.ptRangeOk (d : Dev) (k : Nat) : Bool :=
  let t := d.g .ptTarget k
  let a := d.g .ptAmount k
  let code := bitsAt t 0 8
  let inst := bitsAt t 8 8
  let all (n : Nat) : Bool := inst == 0xFF || inst < n
  match d.g .ptKind k with
  | 1 => a ≤ 1023 && (match code with
      | 0 | 1 => all 24
      | 2 => all 8
      | 3 | 6 => inst == 0 || inst == 0xFF
      | 4 => all 25 || (0x80 ≤ inst && inst < 0x90)
      | 5 => all 24
      | 7 => all 8
      | 8 => all 16
      | 9 => all 8 || (0x80 ≤ inst && inst < 0x90)
      | _ => false)
  | 2 => a ≤ 255 && bitsAt t 0 7 < 86 && bitsAt t 7 1 == 0 && (bitsAt t 8 4 < 14 || bitsAt t 8 4 == 0xF)
      && bitsAt t 12 4 == 0
  | 3 => t < 32 && a ≤ 4000
  | 4 => t < 0x400 + 5
  | _ => false

/-- Why `pt_go` 1 is refused (R525). -/
def Dev.armCode (d : Dev) (k : Nat) : Nat :=
  let kind := d.g .ptKind k
  if kind = 0 ∨ 4 < kind ∨ !d.ptRangeOk k then 0x0201
  else if d.g .ptLifetime k = 0 ∨ 2400000000 < d.g .ptLifetime k then 0x0201
  else if kind = 3 ∧ d.skewLimit (d.g .ptTarget k) < d.g .ptAmount k then 0x0240
  else 0

/-- `pt_go` 1. -/
def Dev.armSlot (now : Nat) (d : Dev) (k : Nat) : Dev :=
  let code := if d.g .ptState k = 1 then 0x03D0 else d.armCode k
  if code ≠ 0 then d.answerCode code
  else
    let d := { d with test := { d.test with armed := d.test.armed.put k now } }
    (((d.put .ptState k 1).put .ptLeft k (d.g .ptLifetime k)).flag .ptEventFlags k 0).answerCode 0

/-- A slot ends early: OFF, with bit 2. -/
def Dev.stopSlot (d : Dev) (k : Nat) : Dev :=
  if d.g .ptState k = 1 then ((d.put .ptState k 0).put .ptLeft k 0).flag .ptEventFlags k 2 else d

def Dev.stopSlots (d : Dev) : Dev := d.forEach (List.range 8) Dev.stopSlot

/-- A slot's lifetime has passed. -/
def Dev.expireSlot (now : Nat) (d : Dev) (k : Nat) : Dev :=
  if d.g .ptState k = 1 ∧ d.test.armed.getD k 0 + d.g .ptLifetime k ≤ now then
    ((d.put .ptState k 2).put .ptLeft k 0).flag .ptEventFlags k 1
  else d

/-- `pt_left` counts down, once a tick; how many entries a slot of kind 1 delayed in the tick, or pieces one of kind 2 held
back, is a free value. [DESIGN CHOICE, log entry 151] -/
def Dev.countSlots (now : Nat) (d : Dev) : Dev :=
  d.forEach (List.range 8) fun d k =>
    if d.g .ptState k = 1 then
      let d := d.put .ptLeft k (d.g .ptLifetime k - (now + 1 - d.test.armed.getD k 0))
      if d.g .ptKind k < 3 ∧ d.g .ptAmount k ≠ 0 ∧ d.test.armed.getD k 0 < now then
        let (n, d) := d.draw 16
        d.count .ptCount k n
      else d
    else d

end Sys2Proof.Machine
end

