-- ==== Sys2Proof/Machine/NvOps.lean ====
section
/-!
DEFINITION. The NV store and the Ledger: kept values as pairs of copies, the burst FIFO, Ledger records and their order
(R416, R441 to R445, R478 to R491).
-/

namespace Sys2Proof.Machine

/-! ## Bytes of values and copies (R415, R486) -/

/-- An object's value in the form it travels in. -/
def valueBytes (o : Obj) (v : Nat) (b : List Byte) : List Byte :=
  match o.info.ty with
  | .str | .domain => b
  | t => leBytes t.bytes v

def crcBytes (bs : List Byte) : Nat := crc32c (bs.map BitVec.toNat)

/-- Bytes filled with zeros to a length. -/
def padTo (n : Nat) (bs : List Byte) : List Byte := bs ++ List.replicate (n - bs.length) 0

/-- Bytes of a copy of size code `k`. -/
def copySize (k : Nat) : Nat := 128 * 2 ^ k

/-- A parameter or counter copy: header, entry count and entries, CRC-32C in its last 4 bytes. -/
def copyBytes (seq kind k id : Nat) (body : List Byte) : List Byte :=
  let head := padTo (copySize k - 4) (leBytes 4 seq ++ leBytes 1 kind ++ leBytes 1 k ++ leBytes 2 id ++ body)
  head ++ leBytes 4 (crcBytes head)

/-- A key record copy (R461). -/
def keyCopyBytes (seq : Nat) (body : List Byte) : List Byte :=
  let head := padTo 124 (leBytes 4 seq ++ body)
  head ++ leBytes 4 (crcBytes head)

/-! ## Regions (R478) -/

/-- First page of the counter region and of the key region. [DEDUCED, log entry 71] -/
def counterPage : Nat := 2016
def keyPage : Nat := 928
def pageAt (p : Nat) : Nat := 256 * p

/-- Where the record of a sequence number stands: the slots turn as the example of R485 shows. -/
def ledgerAt (seq : Nat) : Nat := 0x5E000 + 32 * ((seq + 765) % 4096)

/-! ## Selecting a copy (R487) -/

/-- A group of the store is poisoned. -/
def Dev.poisoned (d : Dev) (off n : Nat) : Bool :=
  (List.range (ceilDiv n 16)).any fun g => d.nv.poison.getD (off / 16 + g) false

/-- A copy's bytes and its sequence number, when it is valid. -/
def Dev.copyAt (e : Env) (d : Dev) (off size : Nat) : Option (Nat × List Byte) :=
  let bs := e.mem.readN .nv off size
  if d.poisoned off size || crcBytes (bs.take (size - 4)) != ofLe (bs.drop (size - 4)) then none
  else some (ofLe (bs.take 4), bs)

/-- What the pair at a page gives: the copy in force (false A, true B) and its content, and whether both copies carry one
sequence number and differ. -/
def Dev.pairAt (e : Env) (d : Dev) (page k : Nat) : Option (Bool × Nat × List Byte) × Bool :=
  let size := copySize k
  match d.copyAt e (pageAt page) size, d.copyAt e (pageAt page + size) size with
  | none, none => (none, false)
  | some (s, a), none => (some (false, s, a), false)
  | none, some (s, b) => (some (true, s, b), false)
  | some (s, a), some (t, b) =>
    if s = t then (some (false, s, a), a != b)
    else if asInt 32 ((s + 2 ^ 32 - t) % 2 ^ 32) < 0 then (some (true, t, b), false)
    else (some (false, s, a), false)

/-- A read of bytes of the store meets its poisoned groups: each is counted and its offset recorded (R485). -/
def Dev.meetsPoison (d : Dev) (off n : Nat) : Dev :=
  (((List.range (ceilDiv n 16)).map (off / 16 + ·)).filter fun g => d.nv.poison.getD g false).foldl (fun (d : Dev) g =>
    ((d.count .nvUncorr).later (.put .nvPoisonAddr 0 (16 * g))).flag .nvEventFlags 0 4) d

/-- Both copies of a pair are read. -/
def Dev.meetsPair (d : Dev) (page k : Nat) : Dev := d.meetsPoison (pageAt page) (2 * copySize k)

/-! ## The FIFO (R480, R481, R488) -/

/-- Bursts a write needs. -/
def NvJob.bursts (j : NvJob) : Nat :=
  if j.region = 2 ∨ j.region = 5 then 1 else if j.region = 4 then ceilDiv j.body.length 256 else ceilDiv (copySize j.k) 256

/-- Bursts queued, `nv_queue`. -/
def NvUnit.queued (u : NvUnit) : Nat := u.rest.length + (u.queue.map NvJob.bursts).sum

def Dev.reportNv (d : Dev) : Dev := d.put .nvQueue 0 d.nv.queued

/-- Pages of the parameter region in use. -/
def NvUnit.usedPages (u : NvUnit) : List (Nat × Nat) :=
  (u.pairs.map fun (p : Nat × List NvPair) => p.2.map fun (q : NvPair) => (q.page, 2 ^ q.k)).flatten

def NvUnit.freePages (u : NvUnit) : Nat := 928 - (u.usedPages.map fun (p : Nat × Nat) => p.2).sum

def Dev.reportPages (d : Dev) : Dev :=
  let n := d.nv.freePages
  let low := n < 32 ∧ 32 ≤ d.g .nvParamFree
  let d := d.put .nvParamFree 0 n
  if low then d.flag .nvEventFlags 0 6 else d

/-- The lowest aligned free block of 2^k pages. [DEDUCED, log entry 70] -/
def NvUnit.block (u : NvUnit) (k : Nat) : Option Nat :=
  let used := u.usedPages
  ((List.range (928 / 2 ^ k)).map (2 ^ k * ·)).find? fun p =>
    used.all fun (q, n) => q + n ≤ p || p + 2 ^ k ≤ q

/-- A write that never runs gives back the pair it took. -/
def Dev.jobLost (d : Dev) (j : NvJob) : Dev :=
  if j.fresh ∧ j.region = 0 then
    ({ d with nv := { d.nv with pairs := d.nv.pairs.upd j.id [] fun (l : List NvPair) => l.filter fun (q : NvPair) => q.page != j.page } }).reportPages
  else d

/-- Queue a record write; from a registered power fail on it is refused (R481). -/
def Dev.nvWrite (d : Dev) (j : NvJob) : Dev :=
  if d.nv.failing then ((d.jobLost j).count .nvRefused 0 j.bursts)
  else ({ d with nv := { d.nv with queue := d.nv.queue ++ [j] } }).reportNv

/-- A write of the parameter or key region. -/
def NvJob.inKept (j : NvJob) : Bool :=
  j.region == 0 || j.region == 1 || j.region == 4 || (j.region == 5 && decide (j.id < 0x5E000))

/-- NVWP_N protects a write's region (R488). -/
def NvJob.guarded (j : NvJob) : Bool := j.inKept && !j.forced

/-- The bursts of a write: offsets and bytes, written over the copy not in use (R486, R487).
[DEDUCED, log entry 69] -/
def Dev.jobBursts (e : Env) (d : Dev) (j : NvJob) : List (Nat × List Byte) :=
  if j.region = 2 then [(ledgerAt j.id, j.body)]
  else if j.region = 5 then [(j.id, j.body)]
  else if j.region = 4 then
    (List.range (ceilDiv j.body.length 256)).map fun n => (pageAt j.page + 256 * n, (j.body.drop (256 * n)).take 256)
  else
    let (sel, differ) := d.pairAt e j.page j.k
    let size := copySize j.k
    let (toB, seq) := match sel with
      | none => (false, 1)
      | some (b, s, _) =>
        let both := (d.copyAt e (pageAt j.page) size).isSome && (d.copyAt e (pageAt j.page + size) size).isSome
        let same := both && (differ || (d.copyAt e (pageAt j.page + size) size).map (fun (c : Nat × List Byte) => c.1) == some s && !b)
        (if same then true else !b, (s + 1) % 2 ^ 32)
    let bs := if j.region = 1 then keyCopyBytes seq j.body
      else copyBytes seq (if j.region = 0 then 1 else 2) j.k j.id j.body
    let at_ := pageAt j.page + if toB then size else 0
    (List.range (ceilDiv size 256)).map fun n => (at_ + 256 * n, (bs.drop (256 * n)).take 256)

/-- A pair is freed. [DEDUCED, log entry 70] -/
def Dev.freePair (d : Dev) (index page : Nat) : Dev :=
  ({ d with nv := { d.nv with pairs :=
      let l : List NvPair := (d.nv.pairs.getD index []).filter fun (q : NvPair) => q.page != page
      if l.isEmpty then d.nv.pairs.del index else d.nv.pairs.put index l } }).reportPages

/-! ## Kept values (R416, R486) -/

/-- Kept objects at an index, with their instances. -/
def keptAt (index : Nat) : List (Obj × Nat) :=
  (Obj.all.filter fun o => o.info.kept).flatMap fun o =>
    let n := o.info
    match n.scheme with
    | .one => if n.base = index then [(o, 0)] else []
    | .plus => if n.base ≤ index ∧ index < n.base + n.count then [(o, index - n.base)] else []
    | .quad =>
      if n.base ≤ index ∧ index < n.base + n.count / 4 then
        (List.range 4).map fun r => (o, 4 * (index - n.base) + r)
      else []
    | .region _ =>
      if n.base ≤ index ∧ index < n.base + n.count / 16 then
        (List.range 16).map fun r => (o, 16 * (index - n.base) + r)
      else []

/-- An object differs from its default as kept. -/
def Dev.keptDiffers (d : Dev) (o : Obj) (i : Nat) : Bool :=
  match o.info.ty with
  | .str | .domain => !(d.blob o i).isEmpty
  | _ => d.keptOf o i != o.default i

/-- The entries of an index: subindex, length and value of every kept object away from its default. -/
def Dev.keptEntries (d : Dev) (index : Nat) : List (List Byte) :=
  ((keptAt index).filter fun p => d.keptDiffers p.1 p.2).map fun p =>
    let v := valueBytes p.1 (d.keptOf p.1 p.2) (d.blob p.1 p.2)
    leBytes 1 (p.1.subindex p.2) ++ leBytes 2 v.length ++ v

/-- Size code a set of entries needs. -/
def sizeFor (bytes : Nat) : Nat :=
  ((List.range 5).find? fun k => bytes + 16 ≤ copySize k).getD 4

/-- The size code and the pair in use of an index as it stands. -/
def Dev.pairNeed (d : Dev) (index : Nat) : Nat × Option NvPair :=
  (sizeFor ((d.keptEntries index).map List.length).sum, (d.nv.pairs.getD index []).getLast?)

/-- The parameter region has the pages the record of an index needs (0x0418 otherwise). -/
def Dev.hasPages (d : Dev) (index : Nat) : Bool :=
  match d.pairNeed index with
  | (k, some q) => k ≤ q.k || (d.nv.block k).isSome
  | (k, none) => (d.nv.block k).isSome

/-- Write the record of an index as its objects stand. -/
def Dev.keepIndex (d : Dev) (index : Nat) : Dev :=
  let es := d.keptEntries index
  let body := leBytes 1 es.length ++ leBytes 3 0 ++ es.flatten
  let (k, cur) := d.pairNeed index
  match cur with
  | some q =>
    if k ≤ q.k then
      d.nvWrite { region := 0, id := index, page := q.page, k := q.k, body := body,
                  frees := if es.isEmpty then some q.page else none }
    else match d.nv.block k with
      | none => d
      | some p =>
        let d := ({ d with nv := { d.nv with pairs := d.nv.pairs.put index (d.nv.pairs.getD index [] ++ [(⟨p, k⟩ : NvPair)]) } }).reportPages
        d.nvWrite { region := 0, id := index, page := p, k := k, body := body, fresh := true, frees := some q.page }
  | none =>
    if es.isEmpty then d
    else match d.nv.block k with
      | none => d
      | some p =>
        let d := ({ d with nv := { d.nv with pairs := d.nv.pairs.put index [(⟨p, k⟩ : NvPair)] } }).reportPages
        d.nvWrite { region := 0, id := index, page := p, k := k, body := body, fresh := true }

/-! ## The Ledger (R441 to R444) -/

/-- A record's bytes. -/
def ledgerBytes (seq boot tick kind : Nat) (w : Origin) (mid : List Byte) (detail : Nat) : List Byte :=
  let head := leBytes 4 seq ++ leBytes 2 boot ++ leBytes 6 tick ++ leBytes 1 kind ++ leBytes 1 (w.role + 4 * w.ch)
    ++ leBytes 2 w.cred ++ padTo 8 mid ++ leBytes 4 detail
  head ++ leBytes 4 (crcBytes head)

/-- A new record would overwrite one not acknowledged (R444). -/
def Dev.ledgerFull (d : Dev) (more : Nat) : Bool :=
  let next := d.g .ledgerNextSeq + more
  decide (4096 + d.g .ledgerOldestSeq ≤ next) && decide (d.g .ledgerMarked + 4096 < next)

/-- A request refused to keep unacknowledged records sets bit 3 (R444). -/
def Dev.noteFull (d : Dev) (code : Nat) : Dev := if code = 0x0417 then d.flag .ledgerEventFlags 0 3 else d

/-- Append a record: it takes the next sequence number now. -/
def Dev.ledgerPut (e : Env) (d : Dev) (kind : Nat) (w : Origin) (mid : List Byte) (detail : Nat) : Dev :=
  let seq := d.g .ledgerNextSeq
  let full := decide (4096 + d.g .ledgerOldestSeq ≤ seq)
  let lost := full && decide (d.g .ledgerMarked + 4096 < seq)
  let d := d.put .ledgerNextSeq 0 (seq + 1)
  let d := if full then d.put .ledgerOldestSeq 0 (seq + 1 - 4096) else d
  let d := if lost then (d.count .ledgerLost).flag .ledgerEventFlags 0 1 else d
  let d := if seq + 1 = d.g .ledgerMarked + 3072 then d.flag .ledgerEventFlags 0 0 else d
  d.nvWrite { region := 2, id := seq, page := 0,
              body := ledgerBytes seq (d.g .bootCount % 2 ^ 16) e.tick kind w mid detail }

/-- A record of an event: object, subindex, status and detail. [DEDUCED, log entry 68] -/
def Dev.ledger (e : Env) (d : Dev) (kind : Nat) (w : Origin := {}) (index sub status detail : Nat := 0) : Dev :=
  d.ledgerPut e kind w
    (leBytes 2 index ++ leBytes 1 sub ++ leBytes 1 w.ses ++ leBytes 2 status ++ leBytes 1 (d.g .lcState)) detail

/-- A time mark (R442). -/
def Dev.timeMark (e : Env) (d : Dev) : Dev :=
  ({ d with pwr := { d.pwr with markHour := e.tb / 3600000000000 } }).ledgerPut e 1 {} (leBytes 8 e.tb) 0

/-- The detail of a record about a value: its first 4 bytes, or the CRC of a STR or DOMAIN. -/
def valueDetail (o : Obj) (v : Nat) (b : List Byte) : Nat :=
  match o.info.ty with
  | .str | .domain => crcBytes b
  | _ => v % 2 ^ 32

/-- A kept object takes effect: its Ledger record, then its parameter record (R416, R443). -/
def Dev.keep (e : Env) (d : Dev) (w : Origin) (o : Obj) (i : Nat) : Dev :=
  if !o.info.kept then d
  else
    let det := valueDetail o (d.keptOf o i) (d.blob o i)
    (d.ledger e 0x10 w (o.index i) (o.subindex i) 0 det).keepIndex (o.index i)

/-- Copies of one sequence number differ: copy A is used (R487). -/
def Dev.equalSeq (e : Env) (d : Dev) (index : Nat) : Dev :=
  ((d.ledger e 0x10 {} index 0 0x0552 0).count .nvEqualSeq).flag .nvEventFlags 0 5

/-- The selection made before a pair is updated: poison met, and copies that differ under one number (R487). A key pair
that differs is contested, which R461 tells. -/
def Dev.selectsPair (e : Env) (d : Dev) (j : NvJob) : Dev :=
  if j.region = 0 ∨ j.region = 1 ∨ j.region = 3 then
    let d := d.meetsPair j.page j.k
    if j.region ≠ 1 ∧ (d.pairAt e j.page j.k).2 then d.equalSeq e j.id else d
  else d

/-! ## QUARANTINE (R439, R475) -/

/-- The counter records: 0 `boot_count`, 1 QUARANTINE, 2 next Ledger sequence, 3 boot slots.
[DEDUCED, log entry 71] -/
def Dev.keepCounter (d : Dev) (n : Nat) (v : Nat) : Dev :=
  d.nvWrite { region := 3, id := n, page := counterPage + n,
              body := leBytes 1 1 ++ leBytes 3 0 ++ leBytes 1 0 ++ leBytes 2 8 ++ leBytes 8 v }

/-- The value a counter record gives at start-up. -/
def Dev.counterAt (e : Env) (d : Dev) (n : Nat) : Nat :=
  match (d.pairAt e (counterPage + n) 0).1 with
  | some (_, _, bs) => ofLe ((bs.drop 15).take 8)
  | none => 0

/-- The counter pairs as start-up selects them. -/
def Dev.readCounters (e : Env) (d : Dev) : Dev :=
  (List.range 4).foldl (fun (d : Dev) n =>
    let d := d.meetsPair (counterPage + n) 0
    if (d.pairAt e (counterPage + n) 0).2 then d.equalSeq e n else d) d

end Sys2Proof.Machine
end

