-- ==== Sys2Proof/Machine/SesOps.lean ====
section
/-!
DEFINITION. Sessions as the other blocks see them: who a session is, closing it, abandoning its staging, entering
QUARANTINE (R114, R125, R417 to R420, R439).
-/

namespace Sys2Proof.Machine

/-! ## Who a session is -/

/-- A session as Ledger records name it. -/
def Dev.origin (d : Dev) (s : Nat) : Origin :=
  { role := d.g .sesRole s, ch := d.g .sesChannel s, cred := d.g .sesCred s, ses := s }

/-- The session of a peer. -/
def Dev.sessionOf (d : Dev) (p : Peer) : Option Nat :=
  (d.ses.opened.find? fun (x : Nat × Session) => x.2.peer == p).map fun (x : Nat × Session) => x.1

def Dev.session (d : Dev) (s : Nat) : Option Session := d.ses.opened.find s

def Dev.isOpen (d : Dev) (s : Nat) : Bool := (d.session s).isSome

def Dev.updSession (d : Dev) (s : Nat) (f : Session → Session) : Dev :=
  match d.session s with
  | none => d
  | some x => { d with ses := { d.ses with opened := d.ses.opened.put s (f x) } }

/-! ## Stagings of a session (R114, R130) -/

/-- The staging a session holds: OPEN or HELD and owned by it. -/
def Dev.heldStg (d : Dev) (s : Nat) : Option Nat :=
  ((List.range 15).map (1 + ·)).find? fun k =>
    (d.g .stgState k == stgOpened || d.g .stgState k == stgHeld) && d.g .stgOwner k == s

/-- A staging becomes FREE: no content, no owner. -/
def Dev.freeStg (d : Dev) (k : Nat) : Dev :=
  ((d.putStg k {}).put .stgState k stgFree).put .stgOwner k 0xFFFF |>.put .stgEntries k 0

/-- An OPEN or HELD staging is discarded; takes that name it are undone (R125 cause 10). -/
def Dev.abandonStg (d : Dev) (k : Nat) : Dev :=
  (d.undoWhere 10 fun _ _ t => t.staging == some k).freeStg k

/-! ## Closing (R420) -/

/-- A session closes; `cause` is its row in R420's table, counted from 1. [DEDUCED, log entry 67] -/
def Dev.closeSession (e : Env) (d : Dev) (s cause : Nat) : Dev :=
  match d.session s with
  | none => d
  | some x =>
    let d := match d.heldStg s with
      | some k => (d.abandonStg k).flag .stgEvent k 2
      | none => d
    let d := d.ledger e 0x21 (d.origin s) 0 0 0 cause
    let u := d.ses
    let d := { d with ses := { u with opened := u.opened.del s
                                      assists := u.assists.filter fun a => a.peer != x.peer
                                      held := u.held.filter fun a => a.peer != x.peer
                                      transfers := u.transfers.filter fun t => t.peer != x.peer
                                      trdp := u.trdp.filter fun h => h.peer != x.peer || h.op == 5 } }
    let d := (d.put .sesState s 0).put .sesRole s 0 |>.put .sesChannel s 0 |>.put .sesCred s 0
    (d.put .sesCount 0 (d.g .sesCount - 1)).fire 0x2B0

/-- Close every session that satisfies a test, in ascending number. -/
def Dev.closeWhere (e : Env) (d : Dev) (cause : Nat) (p : Dev → Nat → Session → Bool) : Dev :=
  (d.ses.opened.filter fun (x : Nat × Session) => p d x.1 x.2).foldl (fun d (x : Nat × Session) => d.closeSession e x.1 cause) d

/-- Sessions without a request for `ses_idle` seconds close, before every other control write of the tick. -/
def Dev.expireIdle (e : Env) (d : Dev) : Dev :=
  d.closeWhere e 2 fun d _ x => decide (x.last + d.g .sesIdle * 4000000 ≤ e.now)

/-! ## QUARANTINE (R439) -/

/-- The part enters QUARANTINE: the flag and its counter record, operator and installer sessions closed.
[DEDUCED, log entry 66] -/
def Dev.enterQuarantine (e : Env) (d : Dev) (cause : Nat) : Dev :=
  if d.quarantine then d
  else
    let d := d.put .lcState 0 (d.g .lcState + 128)
    let d := ((d.ledger e 0x31 {} 0 0 0 cause).keepCounter 1 (1 + 256 * cause)).flag .lcEventFlags 0 1
    let d := if cause ≤ 6 then (d.ledger e 0x44 {} 0 0 0 cause).flag .krEventFlags 0 4 else d
    d.stopSlots.closeWhere e 6 fun d s _ => d.g .sesRole s != 3

end Sys2Proof.Machine
end

