-- ==== Sys2Proof/Machine/Access.lean ====
section
/-!
DEFINITION. Who may do what through the dictionary: roles and rights, the life-cycle gate, and a request by an open
session (R5, R411, R432, R436, R440, R462, R501).
-/

namespace Sys2Proof.Machine

/-! ## Rights (R5, R432) -/

def roleOperator : Nat := 1
def roleInstaller : Nat := 2
def roleMaker : Nat := 3

/-- The right a role has to an object. -/
def Obj.right (o : Obj) (role : Nat) : Right :=
  let n := o.info
  if role = roleOperator then n.rOp else if role = roleInstaller then n.rInst
  else if role = roleMaker then n.rMaker else .none

def Right.reads : Right → Bool
  | .r | .rw => true
  | _ => false

def Right.writes : Right → Bool
  | .w | .rw => true
  | _ => false

/-- An object whose Apply column reads "—" is read-only for every role. -/
def Obj.mayWrite (o : Obj) (role : Nat) : Bool := o.info.apply != .ro && (o.right role).writes

/-- The opening objects, reached without a session (R427). -/
def Obj.opening (o : Obj) : Bool := o.info.base == 0x2110

/-! ## Life-cycle gate (R436, R440, R462) -/

def lcBlank : Nat := 0
def lcMaker : Nat := 1
def lcField : Nat := 2
def lcReturn : Nat := 3
def lcEnd : Nat := 4

/-- The gate of the Keyring's objects, by service (R462). -/
def Dev.keyringGate (d : Dev) (o : Obj) : Bool :=
  let lc := d.lc
  match o with
  | .krEventFlags => true
  | .krSelftest => !d.quarantine
  | .krZeroiseAll => !d.quarantine
  | .imgHashEcdsa | .imgHashMldsa | .imgEnrolGo => !d.quarantine && (lc == lcBlank || lc == lcMaker)
  | .rbAdvance => !d.quarantine && (lc == lcMaker || lc == lcField)
  | .nwMeshEnable | .nwEnvLimit => !d.quarantine && (lc == lcBlank || lc == lcMaker)
  | _ => !d.quarantine && lc != lcEnd

/-- Writable in every life-cycle state and in QUARANTINE. -/
def Obj.everWritable (o : Obj) : Bool := o.opening || o == .sesClose || o == .ledgerCursor || o == .ledgerAck

/-- Step 4 of R411: the object is writable in the present life-cycle state. `lc_recover` outside QUARANTINE is left to
its own rule, which refuses it with 0x0633 (R439). -/
def Dev.gate (d : Dev) (o : Obj) : Bool :=
  let lc := d.lc
  let b := o.info.base
  if o.everWritable || o == .lcRecover then true
  else if 0x5400 ≤ b ∧ b ≤ 0x57FF then d.keyringGate o
  else if d.quarantine then false
  else if lc = lcBlank then true
  else if lc = lcEnd then false
  else if 0x5800 ≤ b ∧ b ≤ 0x5BFF ∧ o ≠ .engReadmit ∧ o ≠ .cdcReadmit ∧ o ≠ .pcieLoop then lc != lcField
  else true

/-- Steps 3 and 4 of R411 for a write by a role. -/
def Dev.writeCode (d : Dev) (role : Nat) (o : Obj) : Nat :=
  if !o.mayWrite role then 0x0101 else if !d.gate o then 0x0630 else 0

/-! ## A request by a session (R411, R417, R501) -/

/-- The dictionary answers: step 4 of start-up has ended, and no software reset or sleep entry is on its way (R497, R501,
R509). -/
def Dev.dictReady (d : Dev) : Bool :=
  (d.pwr.ended.find 4).isSome && d.pwr.resetAt.isNone && d.pwr.sleeping.isNone

/-- A session's request is served: its idle time starts again. -/
def Dev.touch (e : Env) (d : Dev) (s : Nat) : Dev :=
  (d.updSession s fun x => { x with last := e.now }).put .sesLastTick s e.tick

/-- The session keeps the code of its last request. -/
def Dev.closeRequest (d : Dev) (s : Nat) : Dev := if d.isOpen s then d.put .sesLastStatus s d.answer.code else d

/-- Session `s` writes instance `i` of object `o`: the checks of R411 ahead of the object's own, then `f`, which answers a
code of its own. -/
def Dev.request (e : Env) (d : Dev) (s : Nat) (o : Obj) (f : Dev → Dev) : Dev :=
  if !d.dictReady then d.answerCode 0x0301
  else if !d.isOpen s then d.answerCode 0x0102
  else
    let d := d.touch e s
    let code := d.writeCode (d.g .sesRole s) o
    (if code = 0 then f (d.answerCode 0) else d.answerCode code).closeRequest s

end Sys2Proof.Machine
end

