-- ==== Sys2Proof/Machine/KeyOps.lean ====
section
/-!
DEFINITION. The Keyring: keys and their attributes, blobs, the commands of the template, self-tests, tampers and
zeroisation (R450 to R477).
-/

namespace Sys2Proof.Machine

/-! ## Attributes (R454, R456, R457) -/

def noKey : Nat := 0xFFFFFFFF

/-- The combinations of algorithm, use and binding the table allows. -/
def attrsOk (alg use bind : Nat) : Bool :=
  match alg, use with
  | 1, 1 => bind / 256 == 1 && bind % 256 < 24
  | 1, 2 => bind / 256 == 2 && bind % 256 < 24
  | 2, 4 => bind / 256 == 3 && (bind % 256 < 24 || bind % 256 == 0xFF)
  | 3, 3 => bind == 0x0500
  | 4, 4 => bind == 0x0400
  | _, _ => false

def Key.attrsOk (k : Key) : Bool :=
  Machine.attrsOk k.alg k.use k.binding && 1 ≤ k.minRole && k.minRole ≤ 3 && k.persist < 2

/-- The fused state that selects the root (R452): `lc_state` without the QUARANTINE bit. -/
def Dev.rootCode (d : Dev) : Nat := d.g .lcState % 128

/-- The header h of a blob. -/
def Dev.keyHead (d : Dev) (num : Nat) (k : Key) : List Byte :=
  [0x45#8, 0x5A#8, 0x4B#8, 0x31#8] ++ leBytes 4 num ++ leBytes 1 k.alg ++ leBytes 1 k.use ++ leBytes 2 k.binding
    ++ leBytes 1 k.minRole ++ leBytes 1 k.persist ++ leBytes 1 d.rootCode ++ [0#8]
    ++ leBytes 8 (Config.serial % 2 ^ 64)

def blobField (b : List Byte) (k n : Nat) : Nat := ofLe ((b.drop k).take n)

/-- The attributes a blob's header states, with a secret. -/
def blobKey (b : List Byte) (secret : Nat) : Key :=
  { alg := blobField b 8 1, use := blobField b 9 1, binding := blobField b 0xA 2, minRole := blobField b 0xC 1,
    persist := blobField b 0xD 1, secret := secret }

/-- Wrap a key with its header: 64 bytes. What the island has wrapped it can unwrap. -/
def Dev.wrapKey (d : Dev) (transport : Option Nat) (num : Nat) (k : Key) : List Byte × Dev :=
  let h := d.keyHead num k
  let lc := if transport.isSome then 0 else d.rootCode
  let body := (List.range 40).map fun i => Config.wrapByte transport lc h k.secret i
  (h ++ body, { d with kr := { d.kr with made := ⟨transport, lc, h, body, k.secret⟩ :: d.kr.made } })

/-- Unwrap a 64-byte blob under the root in force or a transport key; none when the integrity check fails. -/
def Dev.unwrapKey (d : Dev) (transport : Option Nat) (b : List Byte) : Option Key :=
  let h := b.take 24
  let body := b.drop 24
  let lc := if transport.isSome then 0 else d.rootCode
  if b.length ≠ 64 ∨ b.take 4 ≠ [0x45#8, 0x5A#8, 0x4B#8, 0x31#8] ∨ blobField b 0xF 1 ≠ 0 then none
  else if transport.isNone ∧ (blobField b 0xE 1 ≠ d.rootCode ∨ blobField b 0x10 8 ≠ Config.serial % 2 ^ 64) then none
  else
    match d.kr.made.find? fun (w : Wrap) => w.transport == transport && w.lc == lc && w.head == h && w.body == body with
    | some w => some (blobKey b w.secret)
    | none => (Config.unwrap transport lc h body).map (blobKey b)

/-! ## Present and kept keys (R455, R456, R461) -/

def Dev.contested (d : Dev) (num : Nat) : Bool := d.kr.contested.getD num false

def Dev.keyRec (d : Dev) (num : Nat) : Option KeyRec := d.kr.recs.find num

def Dev.keyRevoked (d : Dev) (num : Nat) : Bool :=
  match d.keyRec num with
  | some r => r.revoked
  | none => false

/-- A stored key, unwrapped, while the root is present. -/
def Dev.storedKey (d : Dev) (num : Nat) : Option Key :=
  match d.keyRec num with
  | some r => if r.revoked ∨ d.contested num ∨ d.g .krRootState ≠ 1 then none else d.unwrapKey none r.blob
  | none => none

/-- The key of a number: the one in its slot, or the stored one. -/
def Dev.keyOf (d : Dev) (num : Nat) : Option Key :=
  match d.kr.slots.find num with
  | some k => some k
  | none => d.storedKey num

/-- `kr_q_state`. [DEDUCED, log entry 62] -/
def Dev.keyState (d : Dev) (num : Nat) : Nat :=
  if d.contested num then 4
  else if d.keyRevoked num then 3
  else if (d.kr.slots.find num).isSome then 1
  else if (d.keyRec num).isSome then (if d.g .krRootState = 2 then 5 else 2)
  else 0

/-- `kr_slots_used` and `kr_kept_count` follow. -/
def Dev.reportKeys (d : Dev) : Dev :=
  (d.put .krSlotsUsed 0 d.kr.slots.length).put .krKeptCount 0
    (d.kr.recs.filter fun (p : Nat × KeyRec) => !p.2.revoked).length

def Dev.putSlot (d : Dev) (num : Nat) (k : Key) : Dev :=
  ({ d with kr := { d.kr with slots := d.kr.slots.put num k } }).reportKeys

/-- A stored key that an object in force names is unwrapped into a slot. [DEDUCED, log entry 63] -/
def Dev.needKey (d : Dev) (num : Nat) : Dev :=
  if (d.kr.slots.find num).isSome ∨ 256 ≤ d.kr.slots.length then d
  else match d.storedKey num with
    | some k => d.putSlot num k
    | none => d

/-- Why an object may not name a key, 0 when it may (R455). -/
def Dev.invokeCode (d : Dev) (num role : Nat) (serves : Key → Bool) : Nat :=
  if d.contested num then 0x064E
  else if d.keyRevoked num then 0x064F
  else match d.keyOf num with
    | none => if (d.keyRec num).isSome then 0x0641 else 0x0640
    | some k =>
      if !serves k then 0x0643
      else if role < k.minRole then 0x064C
      else if (d.kr.slots.find num).isNone ∧ 256 ≤ d.kr.slots.length then 0x0644
      else 0

def servesTx (m : Nat) (k : Key) : Bool := k.alg == 1 && k.use == 1 && k.binding == 0x0100 + m
def servesRx (m : Nat) (k : Key) : Bool := k.alg == 1 && k.use == 2 && k.binding == 0x0200 + m
def servesCak (m : Nat) (k : Key) : Bool := k.alg == 2 && k.use == 4 && (k.binding == 0x0300 + m || k.binding == 0x03FF)
def servesCred (k : Key) : Bool := k.alg == 4 && k.use == 4 && k.binding == 0x0400
def servesTransport (k : Key) : Bool := k.alg == 3 && k.use == 3 && k.binding == 0x0500

/-- An object that names a key: its number and the test of what it needs. -/
def namingObject (o : Obj) (i : Nat) : Option (Key → Bool) :=
  match o with
  | .msTxKey0 | .msTxKey1 | .msTxKey2 | .msTxKey3 => some (servesTx i)
  | .msrxKey0 | .msrxKey1 | .msrxKey2 | .msrxKey3 => some (servesRx (i / 8))
  | .msCak => some (servesCak i)
  | .credKey => some servesCred
  | _ => none

/-- The keys objects in force name. -/
def Dev.namedKeys (d : Dev) : List Nat :=
  let per (o : Obj) (n : Nat) : List Nat := (List.range n).map fun i => d.g o i
  ((per .msTxKey0 24 ++ per .msTxKey1 24 ++ per .msTxKey2 24 ++ per .msTxKey3 24
    ++ per .msrxKey0 192 ++ per .msrxKey1 192 ++ per .msrxKey2 192 ++ per .msrxKey3 192
    ++ per .msCak 24 ++ per .credKey 64).filter (· != noKey)).eraseDups

/-! ## The key region (R456, R461, R478, R488) -/

/-- Why a write of the key region is refused: NVWP_N (R488), the hold-up result (R483). -/
def Dev.keyRegionCode (d : Dev) : Nat :=
  if d.on .nvProtect then 0x0611
  else if d.g .nvHoldupState = 2 ∧ d.g .nvHoldupPolicy = 0 then 0x0550
  else 0

/-- The page of a number's pair, or the lowest free one of the 512. -/
def Dev.keyPageOf (d : Dev) (num : Nat) : Option Nat :=
  match d.nv.keyPages.find num with
  | some p => some p
  | none =>
    ((List.range 512).map (keyPage + ·)).find? fun p => d.nv.keyPages.all fun (q : Nat × Nat) => q.2 != p

/-- Write a number's record; `twice` overwrites both copies. -/
def Dev.writeKeyRec (d : Dev) (num : Nat) (r : KeyRec) (twice : Bool) : Dev :=
  match d.keyPageOf num with
  | none => d
  | some p =>
    let j : NvJob := { region := 1, id := num, page := p,
                       body := leBytes 1 (if r.revoked then 2 else 1) ++ r.blob }
    let d := { d with nv := { d.nv with keyPages := d.nv.keyPages.put num p }
                      kr := { d.kr with recs := d.kr.recs.put num r } }
    let d := d.nvWrite j
    (if twice then d.nvWrite j else d).reportKeys

/-! ## Services (R458 to R462, R465, R467, R469) -/

/-- A session's template. -/
def Dev.tpl (d : Dev) (s : Nat) : KeyTpl :=
  match d.session s with
  | some x => x.tpl
  | none => {}

def Dev.updTpl (d : Dev) (s : Nat) (f : KeyTpl → KeyTpl) : Dev := d.updSession s fun x => { x with tpl := f x.tpl }

/-- Bytes drawn from the DRBG: a free value, and one request more (R466). [DESIGN CHOICE, log entry 156] -/
def Dev.drbg (d : Dev) (w : Nat) : Nat × Dev :=
  let (v, d) := d.draw w
  (v, { d with kr := { d.kr with requests := d.kr.requests + 1 } })

def Dev.islandError (d : Dev) : Bool := d.g .krIslandState == 2

/-- The island serves no key now: ERROR, or held after an environmental tamper; and the root, where it is needed. -/
def Dev.serviceCode (d : Dev) (root : Bool) : Nat :=
  if d.islandError then 0x0645
  else if d.kr.hold then 0x0646
  else if root ∧ d.g .krRootState ≠ 1 then 0x0641
  else 0

/-- A Keyring event: its bit, and its Ledger record (R475). -/
def Dev.keyEvent (e : Env) (d : Dev) (bit : Nat) (w : Origin) (status detail : Nat) : Dev :=
  (d.ledger e (0x40 + bit) w 0x5410 9 status detail).flag .krEventFlags 0 bit

/-- A refusal is recorded under the kind of the event it refused; it sets no bit. [DEDUCED, log entry 61] -/
def Dev.keyRefused (e : Env) (d : Dev) (kind : Nat) (w : Origin) (code num : Nat) : Dev :=
  d.ledger e kind w 0x5410 9 code num

def KeyTpl.key (t : KeyTpl) (secret : Nat) : Key :=
  { alg := t.alg, use := t.use, binding := t.binding, minRole := t.minRole, persist := t.persist, secret := secret }

/-- Why a key of these attributes cannot be created under this number. [DEDUCED, log entry 61] -/
def Dev.createCode (d : Dev) (num : Nat) (k : Key) : Nat :=
  if 65535 < num then 0x0201
  else if !k.attrsOk then 0x0642
  else match d.keyState num with
    | 0 =>
      if k.persist = 0 then 0
      else if d.keyRegionCode ≠ 0 then d.keyRegionCode
      else if (d.keyPageOf num).isNone then 0x064B
      else 0
    | 3 => 0x064F
    | 4 => 0x064E
    | _ => 0x064A

def checkBytes (secret : Nat) : List Byte := leBytes 3 (Config.checkValue secret)

/-- Create a key: a kept one is written to its record, a carried one leaves as a blob. [DEDUCED, log entry 62] -/
def Dev.createKey (e : Env) (d : Dev) (s num : Nat) (k : Key) : Dev :=
  let (b, d) := d.wrapKey none num k
  let d := if k.persist = 1 then d.writeKeyRec num ⟨false, b⟩ false
    else d.updTpl s fun t => { t with blob := b }
  (d.updTpl s fun t => { t with kcv := checkBytes k.secret }).keyEvent e 0 (d.origin s) 0 num

/-- Answer a Keyring command: `kr_status` and the sender's answer. -/
def Dev.keyAnswer (d : Dev) (s code : Nat) : Dev := (d.updTpl s fun t => { t with status := code }).answerCode code

/-- Refuse a Keyring command. -/
def Dev.keyRefuse (e : Env) (d : Dev) (s kind code num : Nat) : Dev :=
  (d.keyRefused e kind (d.origin s) code num).keyAnswer s code

/-- The first code of a list that is not 0. -/
def firstFailing : List Nat → Nat
  | [] => 0
  | c :: t => if c = 0 then firstFailing t else c

/-- `kr_cmd` 1. -/
def Dev.krGenerate (e : Env) (d : Dev) (s : Nat) : Dev :=
  let t := d.tpl s
  let code := firstFailing [d.serviceCode true, d.createCode t.num (t.key 0)]
  if code ≠ 0 then d.keyRefuse e s 0x40 code t.num
  else
    let (v, d) := d.drbg 256
    (d.createKey e s t.num (t.key v)).keyAnswer s 0

/-- `kr_cmd` 2: component entry opens, in place of one already open. -/
def Dev.krComponents (e : Env) (d : Dev) (s : Nat) : Dev :=
  let t := d.tpl s
  let code := firstFailing [d.serviceCode true, d.createCode t.num (t.key 0)]
  if code ≠ 0 then d.keyRefuse e s 0x40 code t.num
  else ({ d with kr := { d.kr with comp := some { since := e.now, ses := s, tpl := t, parts := t.parts } } }).keyAnswer s 0

/-- `kr_cmd` 3: the key comes with the attributes of its blob's header. -/
def Dev.krTransport (e : Env) (d : Dev) (s : Nat) : Dev :=
  let t := d.tpl s
  let code := firstFailing [d.serviceCode true, d.invokeCode t.transport (d.g .sesRole s) servesTransport]
  if code ≠ 0 then d.keyRefuse e s 0x40 code t.num
  else match (d.keyOf t.transport).bind fun (k : Key) => d.unwrapKey (some k.secret) t.blob with
    | none => d.keyRefuse e s 0x40 0x0647 t.num
    | some k =>
      let num := blobField t.blob 4 4
      let code := d.createCode num k
      if code ≠ 0 then d.keyRefuse e s 0x40 code num else (d.createKey e s num k).keyAnswer s 0

/-- `kr_cmd` 4. -/
def Dev.krExport (e : Env) (d : Dev) (s : Nat) : Dev :=
  let t := d.tpl s
  let code := firstFailing [d.serviceCode false, d.invokeCode t.num 3 fun _ => true,
    (match d.keyOf t.num with
      | some k => if k.use = 4 then 0 else 0x064D
      | none => 0x0640),
    d.invokeCode t.transport (d.g .sesRole s) servesTransport]
  if code ≠ 0 then d.keyRefuse e s 0x48 code t.num
  else match d.keyOf t.num, d.keyOf t.transport with
    | some k, some w =>
      let (b, d) := d.wrapKey (some w.secret) t.num k
      ((d.updTpl s fun t => { t with blob := b, kcv := checkBytes k.secret }).keyEvent e 8 (d.origin s) 0 t.num).keyAnswer s 0
    | _, _ => d.keyRefuse e s 0x48 0x0640 t.num

/-- `kr_cmd` 5 (R460): the slot is zeroised, associations holding the key become EMPTY, both copies read revoked. -/
def Dev.krRevoke (e : Env) (d : Dev) (s : Nat) : Dev :=
  let t := d.tpl s
  let num := t.num
  let code := firstFailing [d.serviceCode false,
    (match d.keyState num with
      | 0 => 0x0640
      | 3 => 0x064F
      | _ => 0),
    d.keyRegionCode, (if (d.keyPageOf num).isNone then 0x064B else 0)]
  if code ≠ 0 then d.keyRefuse e s 0x43 code num
  else
    let d := d.undoKeys fun k => k == num
    let d := d.emptySas e.now fun x => x.key == num
    let d := { d with io := { d.io with loads := d.io.loads.filter fun (l : KeyLoad) => l.key != num }
                      kr := { d.kr with slots := d.kr.slots.del num, contested := d.kr.contested.del num } }
    let d := d.writeKeyRec num ⟨true, []⟩ true
    (d.keyEvent e 3 (d.origin s) 0 num).keyAnswer s 0

/-- `kr_cmd` 6: a carried blob becomes present. -/
def Dev.krLoad (e : Env) (d : Dev) (s : Nat) : Dev :=
  let t := d.tpl s
  let num := blobField t.blob 4 4
  let code := firstFailing [d.serviceCode true, (if t.blob.length = 64 then 0 else 0x0647),
    (match d.keyState num with
      | 0 => 0
      | 3 => 0x064F
      | 4 => 0x064E
      | _ => 0x064A),
    (if 256 ≤ d.kr.slots.length then 0x0644 else 0)]
  if code ≠ 0 then d.keyRefuse e s 0x40 code num
  else match d.unwrapKey none t.blob with
    | none => d.keyRefuse e s 0x40 0x0647 num
    | some k =>
      if !k.attrsOk ∨ k.persist ≠ 0 then d.keyRefuse e s 0x40 0x0642 num
      else
        let d := (d.putSlot num k).updTpl s fun t => { t with kcv := checkBytes k.secret }
        (d.keyEvent e 0 (d.origin s) 0 num).keyAnswer s 0

/-- Header bytes 0x08 to 0x0F of a key. -/
def Dev.keyAttr (d : Dev) (num : Nat) : Nat :=
  match d.keyOf num, d.keyRec num with
  | some k, _ => ofLe (((d.keyHead num k).drop 8).take 8)
  | none, some r => blobField r.blob 8 8
  | none, none => 0

/-- `kr_cmd` 7. -/
def Dev.krQuery (d : Dev) (s : Nat) : Dev :=
  let code := d.serviceCode false
  if code ≠ 0 then d.keyAnswer s code
  else (d.updTpl s fun t => { t with qState := d.keyState t.num, qAttr := d.keyAttr t.num }).keyAnswer s 0

/-- A write of `kr_cmd`: answered when the pause ends while the island is paused (R458, R465). -/
def Dev.krCommand (e : Env) (d : Dev) (s cmd : Nat) : Dev :=
  if d.g .krIslandState = 1 then { d with kr := { d.kr with waiting := d.kr.waiting ++ [(s, cmd)] } }
  else match cmd with
    | 1 => d.krGenerate e s
    | 2 => d.krComponents e s
    | 3 => d.krTransport e s
    | 4 => d.krExport e s
    | 5 => d.krRevoke e s
    | 6 => d.krLoad e s
    | 7 => d.krQuery s
    | _ => d.answerCode 0x0201

/-! ## Components (R459) -/

def componentTicks : Nat := 600 * 4000000

/-- The components open for entry. -/
def Dev.components (e : Env) (d : Dev) : Option Components :=
  match d.kr.comp with
  | some c => if e.now < c.since + componentTicks then some c else none
  | none => none

/-- A write of `kc_value`. -/
def Dev.kcValue (e : Env) (d : Dev) (s : Nat) (v : List Byte) : Dev :=
  let cred := d.g .sesCred s
  if d.serviceCode true ≠ 0 then d.answerCode (d.serviceCode true)
  else match d.components e with
    | none => ({ d with kr := { d.kr with comp := none } }).answerCode 0x0649
    | some c =>
      if c.creds.contains cred then d.answerCode 0x0648
      else
        let x := ofLe v
        let c := { c with creds := c.creds ++ [cred], values := c.values ++ [x] }
        let d := d.updTpl s fun t => { t with compKcv := checkBytes x }
        if c.values.length < c.parts then
          ({ d with kr := { d.kr with comp := some c } }).answerCode 0
        else
          let secret := c.values.foldl Nat.xor 0
          let k := c.tpl.key secret
          let d := { d with kr := { d.kr with comp := none } }
          let code := d.createCode c.tpl.num k
          if code ≠ 0 then d.keyRefuse e s 0x40 code c.tpl.num
          else ((d.createKey e s c.tpl.num k).updTpl s fun t => { t with finalKcv := checkBytes secret }).answerCode 0

/-! ## Zeroisation (R472) -/

/-- MACs with a secure association that holds a key. -/
def Dev.keyedMacs (d : Dev) : List Nat :=
  (List.range 24).filter fun m => d.io.sas.any fun (p : Nat × Sa) => p.2.st != 0 && chanMac (p.1 / 4) == m

/-- Every volatile key is zeroised: slots, engine key registers, components in entry. Takes that need a key are undone. -/
def Dev.zeroise (e : Env) (d : Dev) : Dev :=
  let macs := d.keyedMacs
  let d := d.undoKeys fun _ => true
  let d := d.emptySas e.now fun _ => true
  let d := { d with io := { d.io with loads := [] }, kr := { d.kr with slots := [], comp := none } }
  (macs.foldl (fun d m => d.flag .msEventFlags m 5) d).reportKeys

/-- Every kept key record is overwritten with zeros. -/
def Dev.eraseKeys (d : Dev) (forced : Bool) : Dev :=
  let d := d.nv.keyPages.foldl (fun d (p : Nat × Nat) =>
    d.nvWrite { region := 4, id := p.1, page := p.2, body := List.replicate 256 0, forced := forced }) d
  ({ d with nv := { d.nv with keyPages := [] }, kr := { d.kr with recs := [], contested := [] } }).reportKeys

/-- A flag bit that is set at the rank of its cause; its source fires. -/
def Dev.flagNow (d : Dev) (o : Obj) (i bit : Nat) : Dev :=
  let (d, fs) := d.setFlags o i (2 ^ bit)
  fs.foldl Dev.fire d

/-! ## Tests (R465, R467) -/

/-- A self-test starts; key services pause. -/
def Dev.startTest (now : Nat) (d : Dev) : Dev :=
  ({ d with kr := { d.kr with test := some now } }).put .krIslandState 0 1

/-- Static associations of a MAC, and their keys in force. -/
def Dev.staticKeys (d : Dev) (m : Nat) : List (Nat × Nat × Nat) :=
  let tx : List Obj := [.msTxKey0, .msTxKey1, .msTxKey2, .msTxKey3]
  let rx : List Obj := [.msrxKey0, .msrxKey1, .msrxKey2, .msrxKey3]
  if d.on .msEnable m ∧ d.g .msMode m = 2 then
    ((List.range 4).map fun an => (m, an, d.g (tx.getD an .msTxKey0) m))
      ++ ((List.range 8).map fun c => (List.range 4).map fun an =>
        (24 + 8 * m + c, an, d.g (rx.getD an .msrxKey0) (8 * m + c))).flatten
  else []

/-- Kept keys named by objects in force are unwrapped, and static associations load them (R469, R500). -/
def Dev.reloadKeys (e : Env) (d : Dev) : Dev :=
  let d := d.namedKeys.foldl Dev.needKey d
  (((List.range 24).map d.staticKeys).flatten.filter fun (p : Nat × Nat × Nat) => (d.kr.slots.find p.2.2).isSome).foldl
    (fun d (p : Nat × Nat × Nat) => d.issueLoad e.now p.1 p.2.1 p.2.2) d

/-! ## Firmware images (R464) -/

/-- The flash slot a kind runs from: 0 core A, 1 core B, 2 island A, 3 island B. -/
def Dev.runningSlot (d : Dev) (kind : Nat) : Nat := 2 * kind + bitsAt (d.g .fwRunning) (4 * kind) 1

/-- `rb_advance`: the counter of a kind rises to the security version of the image running in it. -/
def Dev.rbAdvanceTo (e : Env) (d : Dev) (s kind : Nat) : Dev :=
  let v := (d.pwr.images.getD (d.runningSlot kind) {}).security
  let o : Obj := if kind = 0 then .rbCore else .rbIsland
  let code := d.serviceCode false
  if code ≠ 0 then d.answerCode code
  else if v ≤ d.g o then d.answerCode 0
  else
    let f := if kind = 0 then { d.fuses with rbCore := v } else { d.fuses with rbIsland := v }
    ((({ d with fuses := f }).put o 0 v).ledger e 0x4A (d.origin s) 0x5440 5 0 v).answerCode 0

/-- `img_enrol_go`: both hashes are fused, once. -/
def Dev.imgEnrolNow (d : Dev) : Dev :=
  let a := d.blob .imgHashEcdsa 0
  let b := d.blob .imgHashMldsa 0
  if d.serviceCode false ≠ 0 then d.answerCode (d.serviceCode false)
  else if d.fuses.enrolled then d.answerCode 0x0652
  else if a.length ≠ 48 ∨ b.length ≠ 48 then d.answerCode 0x0201
  else ({ d with fuses := { d.fuses with enrolled := true, ecdsa := a, mldsa := b } }).answerCode 0

/-- `kr_zeroise_all` 0xA5: the record of kind 0x4B names row 7 of R472. -/
def Dev.zeroiseAll (e : Env) (d : Dev) (s : Nat) : Dev :=
  let code := firstFailing [d.serviceCode false, d.keyRegionCode]
  if code ≠ 0 then d.answerCode code
  else (((d.zeroise e).eraseKeys false).ledger e 0x4B (d.origin s) 0x5400 7 0 7).answerCode 0

/-! ## Island mailbox (R476) -/

def mbxBase : Nat := 0x210000

/-- The bytes of `MBX_DATA` a command takes. -/
def Dev.mbxInput (d : Dev) : List Byte :=
  ((List.range 256).map fun w => leBytes 4 (d.reg (mbxBase + 0x100 + 4 * w))).flatten.take (d.reg (mbxBase + 8) % 2048)

def Dev.mbxOutput (d : Dev) (bs : List Byte) : Dev :=
  ((List.range (ceilDiv bs.length 4)).foldl (fun (d : Dev) w =>
    d.putReg (mbxBase + 0x100 + 4 * w) (ofLe ((bs.drop (4 * w)).take 4))) d).putReg (mbxBase + 8) bs.length

def Dev.mbxStatus (d : Dev) (code : Nat) : Dev := (d.putReg (mbxBase + 4) code).answerCode code

/-- Why the island does not serve a mailbox command: QUARANTINE but for status, ERROR, a hold, no root.
[DEDUCED, log entry 117] -/
def Dev.mbxCode (d : Dev) (cmd : Nat) : Nat :=
  if cmd = 1 then 0
  else if 7 < cmd ∨ cmd = 0 then 0x0201
  else if d.quarantine then 0x0630
  else d.serviceCode true

/-- A distributed SAK goes into one transmit and one receive association of a MAC (R333). [PRESUMED, log entry 56] -/
def Dev.loadSak (now : Nat) (d : Dev) (input : List Byte) : Dev :=
  let m := Config.sakField input 0 % 24
  let c := Config.sakField input 1 % 8
  let an := Config.sakField input 2 % 4
  (d.issueLoad now m an noKey).issueLoad now (24 + 8 * m + c) an noKey

/-- The island serves a mailbox command of core firmware. The manual gives no layout for `MBX_DATA`: what it answers is
left open. -/
def Dev.mbxServe (e : Env) (d : Dev) (cmd : Nat) : Dev :=
  let code := d.mbxCode cmd
  if code ≠ 0 then d.mbxStatus code
  else
    let input := d.mbxInput
    let lc := d.rootCode
    if cmd = 5 ∧ !Config.sakOk input then d.mbxStatus 0x0647
    else
      let bs := if cmd = 7 then (List.range 96).map fun k => Config.ledgerSig lc input k
        else (List.range (Config.mailboxLen cmd input % 1025)).map fun k => Config.mailbox cmd lc input k
      let d := if cmd = 5 then d.loadSak e.now input else d
      let d := if cmd = 6 then (d.drbg 256).2 else d
      (d.mbxOutput bs).mbxStatus 0

/-- The sender that stands for the mailbox among waiting requests. -/
def mbxSender : Nat := 0x100

/-- `MBX_CMD`: a command waits, BUSY, while key services are paused. -/
def Dev.mbxCommand (e : Env) (d : Dev) (cmd : Nat) : Dev :=
  if d.g .krIslandState = 1 ∧ cmd ≠ 1 then
    ({ d with kr := { d.kr with waiting := d.kr.waiting ++ [(mbxSender, cmd)] } }).putReg (mbxBase + 4) 0x10000
  else d.mbxServe e cmd

/-- The running slot of a kind changes, on trial or not. -/
def Dev.setRunning (d : Dev) (kind slot : Nat) (trial : Bool) : Dev :=
  let d := d.put .fwRunning 0 (setBits (d.g .fwRunning) (4 * kind) 2 (slot + 2 * b2n trial))
  d.put (if kind = 0 then .imgVerCore else .imgVerIsland) 0 (d.pwr.images.getD (2 * kind + slot) {}).version

/-- The other slot of a kind. -/
def Dev.otherSlot (d : Dev) (kind : Nat) : Nat := 1 - bitsAt (d.g .fwRunning) (4 * kind) 1

/-- An island image swap takes effect: the new image is on trial (R473, R513). -/
def Dev.swapIsland (e : Env) (d : Dev) : Dev :=
  let d := { d with kr := { d.kr with swapping := false } }
  let d := d.setRunning 1 (d.otherSlot 1) true
  ((d.put .fwState 0 0).put .fwStatus 0 0).keyEvent e 9 {} 0 (d.g .imgVerIsland)

/-- A command that waited for the island: the mailbox's, or an open session's with its answer; KR_SELFTEST, command 0, is
served by the tests that ran. -/
def Dev.serveWaiting (e : Env) (d : Dev) (p : Nat × Nat) : Dev :=
  if p.2 = 0 then d
  else if p.1 = mbxSender then d.mbxServe e p.2
  else if d.isOpen p.1 then
    let code := d.writeCode (d.g .sesRole p.1) .krCmd
    (if code = 0 then d.krCommand e p.1 p.2 else d.answerCode code).closeRequest p.1
  else d

/-- A pause has ended: the commands that waited are served or refused, in the order they came. -/
def Dev.serveAllWaiting (e : Env) (d : Dev) : Dev :=
  d.kr.waiting.foldl (Dev.serveWaiting e) { d with kr := { d.kr with waiting := [] } }

/-- The island enters ERROR. -/
def Dev.islandFails (e : Env) (d : Dev) : Dev :=
  let d := d.zeroise e
  let d := if d.kr.swapping then (d.put .fwState 0 0).put .fwStatus 0 0x0534 else d
  let d := ({ d with kr := { d.kr with test := none, swapping := false } }).put .krIslandState 0 2
  let d := (d.ledger e 0x46 {} 0 0 0x0534 0).flag .krEventFlags 0 6
  ((d.put .krSelftestResult 0 0x0534).enterQuarantine e 5).serveAllWaiting e

/-- The tests pass: the pause lifts, an environmental hold ends with its keys reloaded, waiting commands are served. -/
def Dev.islandPasses (e : Env) (d : Dev) : Dev :=
  let held := d.kr.hold
  let d := { d with kr := { d.kr with test := none, hold := false, tested := e.now } }
  let d := (d.put .krIslandState 0 0).put .krSelftestResult 0 0
  let d := if d.kr.swapping then d.swapIsland e else d
  let d := if held then d.reloadKeys e else d
  d.serveAllWaiting e

/-! ## Night Watch (R468 to R470) -/

/-- Detectors: mesh loops 0 to 3, shield 4, voltage 5, temperature 6, clock 7; and the bit of `nw_state` of each.
[DEDUCED, log entry 65] -/
def detBit (det : Nat) : Nat := if det < 5 then det else det + 3

def Dev.nwSet (d : Dev) (det : Nat) (good : Bool) : Dev := d.put .nwState 0 (setBits (d.g .nwState) (detBit det) 1 (b2n good))

def dayTicks : Nat := 86400 * 4000000

/-- First page of the helper-data area of a root. -/
def Dev.helperPage (d : Dev) : Nat := keyPage + 512 + 16 * (d.lc % 2)

/-- Both helper copies of the current root are overwritten. -/
def Dev.eraseHelper (d : Dev) : Dev :=
  d.nvWrite { region := 4, id := d.rootCode, page := d.helperPage, body := List.replicate 4096 0, forced := true }

/-- The unsealing shares of the current root are destroyed: the share-void bit, then both helper copies (R469). -/
def Dev.destroyShares (d : Dev) : Dev :=
  if d.lc = lcBlank ∨ d.lc = lcEnd then d
  else
    let k := d.rootCode
    let d := { d with fuses := { d.fuses with voided := d.fuses.voided.put k true, helper := d.fuses.helper.put k true } }
    d.eraseHelper.put .krRootState 0 2

/-- The detector watches: a mesh loop only while enabled (R468). [DEDUCED, log entry 65] -/
def Dev.watches (d : Dev) (det : Nat) : Bool := det < 8 && (3 < det || (d.g .nwMeshEnable).testBit det)

/-- A tamper of either class: key work is aborted and volatile keys are zeroised. A verification in progress gives no verdict,
and its assist times out (R413). -/
def Dev.tamperBoth (e : Env) (d : Dev) (det : Nat) : Dev :=
  let d := (d.nwSet det false).zeroise e
  { d with ses := { d.ses with openings := d.ses.openings.map fun (o : Opening) => { o with verifying := false } } }

/-- A physical tamper. -/
def Dev.physicalTamper (e : Env) (d : Dev) (det : Nat) : Dev :=
  let d := d.tamperBoth e det
  let d := (d.ledger e 0x42 {} 0 0 0 det).flagNow .krEventFlags 0 2
  d.destroyShares.enterQuarantine e (if d.pwr.started then 3 else 2)

/-- An environmental tamper: services are held until its condition has cleared and the tests have run. -/
def Dev.environmentalTamper (e : Env) (d : Dev) (det : Nat) : Dev :=
  let again := (d.kr.conds.find det).isSome
  let d := { d with kr := { d.kr with conds := d.kr.conds.put det e.now } }
  if again then d
  else
    let d := d.tamperBoth e det
    let d := ((d.ledger e 0x41 {} 0 0 0 det).flagNow .krEventFlags 0 1).count .nwEnvCount
    let recent := e.now :: d.kr.tampers.filter fun t => e.now < t + dayTicks
    let d := { d with kr := { d.kr with hold := true, test := none, tampers := recent } }
    let d := if d.islandError then d else d.put .krIslandState 0 0
    let d := if !d.pwr.started then d.enterQuarantine e 1
      else if d.g .nwEnvLimit ≤ recent.length then d.enterQuarantine e 6
      else d
    d.serveAllWaiting e

/-- The self-test on demand: refused in ERROR and under a hold, waiting while one runs. -/
def Dev.selftest (e : Env) (d : Dev) (s : Nat) : Dev :=
  if d.g .krIslandState = 1 then { d with kr := { d.kr with waiting := d.kr.waiting ++ [(s, 0)] } }
  else
    let code := d.serviceCode false
    if code ≠ 0 then d.answerCode code else (d.startTest e.now).answerCode 0

/-- A condition has been absent for 100 ms: it clears, and with the last one the tests start. -/
def Dev.tamperClears (e : Env) (d : Dev) (det : Nat) : Dev :=
  match d.kr.conds.find det with
  | none => d
  | some since =>
    if e.now < since + 400000 then d
    else
      let d := ({ d with kr := { d.kr with conds := d.kr.conds.del det } }).nwSet det true
      if d.kr.conds.isEmpty ∧ d.kr.hold ∧ !d.islandError then d.startTest e.now else d

end Sys2Proof.Machine
end

