-- ==== Sys2Proof/Machine/PowerOps.lean ====
section
/-!
DEFINITION. Power states as every block asks for them, and the control cores: restarts, handovers, watchdogs (R498, R507,
R511 to R513, R516).
-/

namespace Sys2Proof.Machine

/-! ## Core restarts (R498, R512) -/

/-- New firmware runs 150 ms after a restart. -/
def bootTicks : Nat := 600000

/-- The control cores and their cache are reset and boot from a slot. -/
def Dev.restartCores (now : Nat) (d : Dev) (slot : Nat) (trial : Bool) : Dev :=
  let d := ((d.emptyStacks.masterReset 80).count .coreRestarts).setRunning 0 slot trial
  { d with pwr := { d.pwr with coresAt := now + bootTicks, kicks := [] } }

/-- The boot slot of a kind. -/
def Dev.bootSlot (d : Dev) (kind : Nat) : Nat := bitsAt (d.g .fwBoot) (4 * kind) 1

/-- A restart that is no handover boots the boot slot: a slot on trial is left. [DEDUCED, log entry 83] -/
def Dev.rebootCores (now : Nat) (d : Dev) : Dev := d.restartCores now (d.bootSlot 0) false

/-- What is due at rank 3: the restart of `pwr_cmd` 4, a core handover in the tick after its acceptance; its end once the new firmware runs. -/
def Dev.dueHandover (now : Nat) (d : Dev) : Dev :=
  let d := match d.pwr.rebootAt with
    | some t => if t ≤ now then ({ d with pwr := { d.pwr with rebootAt := none } }).rebootCores now else d
    | none => d
  match d.pwr.handover with
  | some t =>
    if t ≤ now then
      ({ d with pwr := { d.pwr with handover := none } }).restartCores now (d.otherSlot 0) true
    else d
  | none =>
    if d.g .fwState = 2 ∧ !d.kr.swapping ∧ d.pwr.coresAt ≤ now then (d.put .fwState 0 0).put .fwStatus 0 0 else d

/-! ## Watchdogs (R498, R516) -/

/-- The control cores run firmware. -/
def Dev.coresRun (now : Nat) (d : Dev) : Bool := !d.pwr.coresHeld && d.pwr.coresAt ≤ now && (d.pwr.ended.find 3).isSome

/-- A write of `WDT_KICK`. -/
def Dev.kick (now : Nat) (d : Dev) (k v : Nat) : Dev :=
  if v = 0xA5 ∧ d.coresRun now then { d with pwr := { d.pwr with kicks := d.pwr.kicks.put k now } } else d

/-- Core `k` has not kicked within `wdt_ms`. -/
def Dev.dogDue (now : Nat) (d : Dev) (k : Nat) : Bool :=
  k < 4 && d.coresRun now && decide (max (d.pwr.kicks.getD k 0) d.pwr.coresAt + d.g .wdtMs * 4000 ≤ now)

/-- The watchdog restarts the cores; the third time within 600 s they stay in reset. -/
def Dev.dogBites (e : Env) (d : Dev) : Dev :=
  let dogs := e.now :: d.pwr.dogs.filter fun t => e.now < t + 600 * 4000000
  let d := ({ d with pwr := { d.pwr with dogs := dogs } }).rebootCores e.now
  if 3 ≤ dogs.length then ({ d with pwr := { d.pwr with coresHeld := true } }).enterQuarantine e 11 else d

/-! ## Firmware slots (R463, R505, R511 to R513) -/

/-- Length of an image's header. -/
def imageHead : Nat := 0x1D40

/-- Size of a slot of a kind. -/
def slotSize (kind : Nat) : Nat := if kind = 0 then 2 ^ 25 else 2 ^ 20

/-- The rollback counter of a kind. -/
def Dev.rollback (d : Dev) (kind : Nat) : Nat := if kind = 0 then d.fuses.rbCore else d.fuses.rbIsland

/-- An image is rejected: kind 0x47. -/
def Dev.imageRejected (e : Env) (d : Dev) (code kind : Nat) : Dev := d.keyEvent e 7 {} code kind

def fwOp (v : Nat) : Nat := bitsAt v 0 4
def fwKind (v : Nat) : Nat := bitsAt v 4 1
def fwOffset (v : Nat) : Nat := bitsAt v 16 48

/-- Bytes of the Porter area at an offset. -/
def Dev.porterBytes (e : Env) (d : Dev) (off n : Nat) : List Byte := e.mem.readN .dram (d.porterArea.1 + off) n

/-- Why a write of an image is refused. [DEDUCED, log entry 84] [DEDUCED, log entry 166] -/
def Dev.fwWriteCode (e : Env) (d : Dev) (v : Nat) : Nat :=
  let kind := fwKind v
  let off := fwOffset v
  let head := d.porterBytes e off imageHead
  let size := imageHead + blobField head 0xC 4
  if d.g .fwState ≠ 0 then 0x0303
  else if off % 65536 ≠ 0 then 0x0201
  else if d.porterArea.2 < off + imageHead then 0x0601
  else if slotSize kind < size then 0x023E
  else if d.porterArea.2 < off + size then 0x0601
  else if d.serviceCode false ≠ 0 then d.serviceCode false
  else if head.take 4 ≠ [0x45#8, 0x5A#8, 0x49#8, 0x31#8] ∨ blobField head 4 1 ≠ kind
      ∨ !Config.imageOk d.fuses.enrolled d.fuses.ecdsa d.fuses.mldsa (d.porterBytes e off size) then 0x0650
  else if blobField head 5 1 < d.rollback kind then 0x0651
  else 0

/-- `fw_cmd` 1: the other slot of the kind is programmed; until it is done it fails R463. -/
def Dev.fwWrite (e : Env) (d : Dev) (v : Nat) : Dev :=
  let kind := fwKind v
  let code := d.fwWriteCode e v
  if code = 0 then
    let head := d.porterBytes e (fwOffset v) imageHead
    let slot := 2 * kind + d.otherSlot kind
    let d := { d with pwr := { d.pwr with
      writing := some slot
      verified := d.pwr.verified.del slot
      images := d.pwr.images.put slot { version := blobField head 8 4, security := blobField head 5 1, ok := false } } }
    (d.put .fwState 0 1).answerCode 0
  else
    let d := if code = 0x0650 ∨ code = 0x0651 then d.imageRejected e code kind else d
    (if code = 0x0303 then d else d.put .fwStatus 0 code).answerCode code

/-- Programming of a slot ends. -/
def Dev.fwWriteDone (d : Dev) (r : FwResult) : Dev :=
  match d.pwr.writing with
  | none => d
  | some slot =>
    let d := { d with pwr := { d.pwr with writing := none } }
    match r with
    | .ok =>
      let x := d.pwr.images.getD slot {}
      let d := { d with pwr := { d.pwr with verified := d.pwr.verified.put slot true
                                            images := d.pwr.images.put slot { x with ok := true } } }
      (d.put .fwState 0 0).put .fwStatus 0 0
    | .flashFailed => (d.put .fwState 0 0).put .fwStatus 0 0x0653

/-- `fw_cmd` 2: a core handover registers in the next tick, an island swap with its tests, which an island in ERROR or under a
hold refuses (R467, R473). [DEDUCED, log entry 166] -/
def Dev.fwHandover (e : Env) (d : Dev) (v : Nat) : Dev :=
  let kind := fwKind v
  if d.g .fwState ≠ 0 then d.answerCode 0x0303
  else if !d.pwr.verified.getD (2 * kind + d.otherSlot kind) false then (d.put .fwStatus 0 0x0304).answerCode 0x0304
  else if kind = 1 ∧ d.serviceCode false ≠ 0 then (d.put .fwStatus 0 (d.serviceCode false)).answerCode (d.serviceCode false)
  else
    let d := (d.put .fwState 0 2).answerCode 0
    if kind = 0 then { d with pwr := { d.pwr with handover := some (e.now + 1) } }
    else ({ d with kr := { d.kr with swapping := true } }).startTest e.now

/-- `fw_cmd` 3: the running slot becomes the boot slot. -/
def Dev.fwConfirm (d : Dev) (v : Nat) : Dev :=
  let kind := fwKind v
  let slot := bitsAt (d.g .fwRunning) (4 * kind) 1
  if d.g .fwState ≠ 0 then d.answerCode 0x0303
  else if !(d.g .fwRunning).testBit (4 * kind + 1) then (d.put .fwStatus 0 0x0304).answerCode 0x0304
  else
    let d := (d.setRunning kind slot false).put .fwBoot 0 (setBits (d.g .fwBoot) (4 * kind) 1 slot)
    ((d.keepCounter 3 (d.g .fwBoot)).put .fwStatus 0 0).answerCode 0

/-- `fw_cmd` by its operation. -/
def Dev.fwCommand (e : Env) (d : Dev) (v : Nat) : Dev :=
  match fwOp v with
  | 1 => d.fwWrite e v
  | 2 => d.fwHandover e v
  | 3 => d.fwConfirm v
  | _ => d.answerCode 0x0201

/-! ## Power fail (R481, R495) -/

/-- The queued bursts of the NV store are lost; the one started completes. -/
def Dev.nvLose (d : Dev) : Dev :=
  let d := (d.nv.queue ++ d.nv.job.toList).foldl Dev.jobLost d
  { d with nv := { d.nv with queue := [], job := none, rest := [] } }

/-- Power fail registers: queued bursts are discarded and counted. -/
def Dev.powerFails (e : Env) (d : Dev) : Dev :=
  if d.nv.failing then d
  else
    let n := d.nv.queued
    let d := ({ d with nv := { d.nv with failing := true, failedAt := e.now } }).nvLose.reportNv
    let d := { d with pwr := { d.pwr with sleeping := none, wakeHeld := false } }
    if n = 0 then d else (d.count .nvRefused 0 n).flagNow .nvEventFlags 0 1

/-- Bytes of the burst in progress when the store loses its supply: the groups before the one in progress are new, that
one is old, new or poisoned, the rest old (R485); with NVHOLD charged the burst ends whole. -/
def Dev.burstCut (d : Dev) (now : Nat) : Dev :=
  match d.nv.running with
  | none => d
  | some (off, bs, start) =>
    let d := { d with nv := { d.nv with running := none } }
    let groups := ceilDiv bs.length 16
    let clear (d : Dev) (g : Nat) : Dev := { d with nv := { d.nv with poison := d.nv.poison.del (off / 16 + g) } }
    let put (d : Dev) (g : Nat) : Dev := (clear d g).post .nv (off + 16 * g) ((bs.drop (16 * g)).take 16)
    let at_ := if d.nv.failing then d.nv.failedAt else now
    let done := (at_ - start) / 64
    if d.g .nvHoldupState = 1 ∨ groups ≤ done then (List.range groups).foldl put d
    else
      let d := (List.range done).foldl put d
      let (v, d) := d.draw 2
      if v = 0 then d
      else if v = 1 then put d done
      else { d with nv := { d.nv with poison := d.nv.poison.put (off / 16 + done) true } }

end Sys2Proof.Machine
end

