-- ==== Sys2Proof/Machine/Tick.lean ====
section
/-!
DEFINITION. The event tick: ranks, what each tick does at its end, the clock's advance (R32, R38 to R41, R47), and the
form every command's meaning takes: enter the tick at the command's rank, then apply the effect.
-/

namespace Sys2Proof.Machine

/-- The clock one tick later: 100 cycles of 400 MHz, each adding `TB_ADDEND` (R32, R38). [DEDUCED, log entry 14] -/
def Clock.next (c : Clock) : Clock :=
  let f := c.frac + 100 * c.addend
  { c with elapsed := c.elapsed + 1, timebase := (c.timebase + f / 2 ^ 28) % 2 ^ 64, frac := f % 2 ^ 28, rank := 0, place := 0 }

/-- Rank 8 of the tick: Porter settles, due holds release, one delivery pass runs, then MSI-X (R293, R394, R399, R403). -/
def Dev.rank8 (e : Env) (d : Dev) : Dev :=
  ((d.ptrSettle e).passOnce e.now).msixAll

/-- What registers of itself at the ranks after `lo`, up to `hi`: forced faults at rank 3 (R523), looped frames at rank 4 (R330), due verdicts and the rooms of
frames begun in the tick after it (R90), expiries of sessions and of perturbation slots before every control write of rank 7 (R420, R525), and rank 8 as a whole before
rank 9. -/
def Dev.due (e : Env) (d : Dev) (lo hi : Nat) : Dev :=
  let d := if lo < 3 ∧ 3 ≤ hi then (d.forcedFaults e).dueHandover e.now else d
  let d := if lo < 5 ∧ 5 ≤ hi then (((List.range 24).foldl (fun d m => d.receiveLooped e m) d).dueVerdicts e).claimAll else d
  let d := if lo < 7 ∧ 7 ≤ hi then (d.expireIdle e).forEach (List.range 8) fun d k => d.expireSlot e.now k else d
  if lo < 9 ∧ 9 ≤ hi then d.rank8 e else d

/-- Rank 9: statistics and flags of the tick, then every firing in ascending source number (R41).
[DESIGN CHOICE, log entry 15] [DEDUCED, log entry 120] -/
def Dev.rank9 (e : Env) (d : Dev) : Dev :=
  let (d, fs) := (((d.checkersTick.busTick.forEach (List.range 24) Dev.coresDrain).forEach (List.range 4) (Dev.pllSlip e.now)).countSlots e.now).statistics
  d.fireAll e.now fs

/-- The tick boundary: a requested capture latches the tick and the time base of the boundary together (R47), and a
wrap of the tick counter fires in the tick that begins (R38, R45). -/
def Dev.boundary (e : Env) (d : Dev) : Dev :=
  let c := e.clk.next
  let d := if d.time.capArmed then
      { d with time := { d.time with capArmed := false, capTime := c.timebase, capTick := c.tick } }
    else d
  if c.tick = 0 then d.fire 0x073 else d

/-- The rest of the tick. In SLEEP only time passes. -/
def Dev.tickEnd (e : Env) (d : Dev) : Dev :=
  if d.asleep then d else ((d.due e e.clk.rank 9).rank9 e).boundary e

/-- The tick ends and the next one begins. -/
def State.closeTick (s : State) : State :=
  let s := s.run fun e d => d.tickEnd e
  { s with clk := s.clk.next }

/-- Take a command at rank `r`: in the present tick, or in the next when this tick is already past that rank (R40).
What is due at the ranks passed registers on the way. [DESIGN CHOICE, log entry 1] -/
def State.enter (s : State) (r : Nat) : State :=
  let s := if r < s.clk.rank then s.closeTick else s
  let s := s.run fun e d => if d.asleep then d else d.due e s.clk.rank r
  { s with clk := { s.clk with rank := min r 9 } }

/-- A place inside a rank: events that carry a source number apply in ascending number (R41), frame starts after commit
points (R40). One that comes after its place has passed belongs to the next tick. -/
def State.ordered (s : State) (r k : Nat) : State :=
  let s := if r < s.clk.rank ∨ (s.clk.place / 1024 = r ∧ k < s.clk.place % 1024) then s.closeTick else s
  { s with clk := { s.clk with place := 1024 * r + k } }

/-- The meaning of a command that applies an effect at a rank. In SLEEP the main domain is off, and nothing but what wakes
the part reaches it (R507). [DESIGN CHOICE, log entry 1] [DEDUCED, log entry 82] -/
def State.at (s : State) (r : Nat) (f : Env → Dev → Dev) : Out := .next ((s.enter r).run fun e d => if d.asleep then d else f e d)

/-- The meaning of a command of a block that is stopped in STANDBY (R507). -/
def State.running (s : State) (r : Nat) (f : Env → Dev → Dev) : Out := s.at r fun e d => if d.stopped then d else f e d

/-- The meaning of an event that happens only when its condition holds. [DESIGN CHOICE, log entry 3] -/
def Dev.when (d : Dev) (c : Bool) (f : Dev → Dev) : Dev := if c then f d else d

/-! ## Commands of the tick -/

/-- TICK (R40): the tick ends. -/
def execTick (s : State) : Out := .next s.closeTick

/-- TICK_WRAP (R38): the tick that ends is the last of the counter. -/
def execTickWrap (s : State) : Out := .next (if s.clk.tick = 2 ^ 48 - 1 then s.closeTick else s)

/-- TICK_CAPTURE (R47): request a capture. -/
def execTickCapture (s : State) : Out :=
  s.at 7 fun _ d => { d with time := { d.time with capArmed := true } }

/-- TICK_CAPTURE_LATCH (R47): the boundary after the request latches. -/
def execTickCaptureLatch (s : State) : Out := .next (if s.dev.time.capArmed then s.closeTick else s)

/-! ## Time base (R32 to R35) -/

/-- `tb_state` codes of R34. -/
def tbFree : Nat := 0
def tbAcquiring : Nat := 1
def tbLocked : Nat := 2
def tbHoldover : Nat := 3

/-- A locked group out of alignment starts slewing: `tg_state` 2 and source 0x075 (R36). [DEDUCED, log entry 18] -/
def Dev.startSlew (d : Dev) (g : Nat) : Dev :=
  let c := d.group g
  if d.g .tgMode g = 1 ∧ c.started ∧ !c.slewing then
    ((d.putGroup g { c with slewing := true }).put .tgState g 2).fire 0x075
  else d

/-- A change of state of the time base; the first lock puts every locked group out of alignment (R34, R36).
[DEDUCED, log entry 18] [DEDUCED, log entry 43] -/
def Dev.setTbState (d : Dev) (v : Nat) : Dev :=
  if d.g .tbState = v then d
  else
    let d := (d.put .tbState 0 v).fire 0x070
    if v = tbLocked ∧ !d.time.everLocked then
      ({ d with time := { d.time with everLocked := true } }).forEach (List.range 32) Dev.startSlew
    else d

/-- Enter ACQUIRING with a newly selected master. [DEDUCED, log entry 17] -/
def Dev.acquire (now : Nat) (d : Dev) (fromFree : Bool) : Dev :=
  ({ d with time := { d.time with master := true, run := 0, fresh := true, lastSync := now,
                                  acqFromFree := fromFree } }).setTbState tbAcquiring

/-- PTP switched on or off (R34): off enters FREE; on starts the master selection afresh. A write of 1 while PTP is
enabled enables nothing. -/
def Dev.ptpSwitch (d : Dev) (on : Bool) : Dev :=
  if on && d.on .ptpEnable then d
  else
    let d := d.put .ptpEnable 0 (b2n on)
    let d := { d with time := { d.time with master := false, run := 0, fresh := false } }
    if on then d else d.setTbState tbFree

/-- The step of the groups that goes with a step of the time base: cadence kept, phase to slew (R35). -/
def Dev.stepGroups (d : Dev) (delta : Int) : Dev :=
  let d := d.forEach (List.range 32) fun d g =>
    let c := d.group g
    if d.g .tgMode g = 1 ∧ c.started then (d.putGroup g { c with start := c.start + delta }).startSlew g else d
  let d := { d with deps := d.deps.map fun (p : Nat × DepCtx) => (p.1, { p.2 with sinceStep := some 0 }) }
  d.fire 0x072

/-- A value of `TB_ADDEND` within ±500 ppm of nominal (R47). -/
def clampAddend (v : Nat) : Nat := min 671424184 (max 670753096 v)

/-- Step the time base in one cycle. -/
def State.stepBy (s : State) (delta : Int) : State :=
  let s := s.run fun e d => (d.stepGroups delta).forEach (List.range 4) (Dev.stepPhase e.now delta)
  { s with clk := { s.clk with timebase := ofInt 64 (s.clk.timebase + delta) } }

/-- The servo answers an offset that does not step the time base with a new `TB_ADDEND`, a free value within ±500 ppm
(R33, R35). [DESIGN CHOICE, log entry 130] -/
def State.slewBy (s : State) : State :=
  let (v, d) := s.dev.draw 32
  { s with dev := d, clk := { s.clk with addend := clampAddend v } }

/-- Does this offset step the time base (R35)? [DESIGN CHOICE, log entry 128] -/
def Dev.steps (d : Dev) (offset : Int) : Bool :=
  d.g .tbState == tbAcquiring && d.time.fresh && d.g .stepThreshold < offset.natAbs

/-- The effect of a servo result but for the step itself (R34). [DEDUCED, log entry 17]
[DESIGN CHOICE, log entry 128] [DESIGN CHOICE, log entry 129] -/
def Dev.servo (e : Env) (d : Dev) (r : Servo) : Dev :=
  let st := d.g .tbState
  match r with
  | .rejected => d.fire 0x074
  | .selected =>
    if !d.on .ptpEnable then d
    else if st = tbFree then d.acquire e.now true
    else if st = tbHoldover then d.acquire e.now false
    else { d with time := { d.time with master := true, fresh := true, lastSync := e.now } }
  | .lost => { d with time := { d.time with master := false, run := 0 } }
  | .grandmaster =>
    if !d.on .ptpEnable then d
    else
      let d := d.fire 0x071
      if st = tbLocked then d.acquire e.now false
      else { d with time := { d.time with fresh := true } }
  | .sync off =>
    if !d.on .ptpEnable ∨ !d.time.master then d
    else
      let d := d.puti .offsetLast 0 (clampInt (-(2 ^ 31)) (2 ^ 31 - 1) off)
      if st = tbHoldover then d.acquire e.now false
      else if st = tbAcquiring then
        let run := if off.natAbs ≤ 1000 then d.time.run + 1 else 0
        let d := { d with time := { d.time with run := run, fresh := false, lastSync := e.now } }
        if 16 ≤ run then (d.setTbState tbLocked).timeMark e else d
      else { d with time := { d.time with fresh := false, lastSync := e.now } }

/-- `holdover_timeout` has passed without a valid sync (R34). -/
def Dev.holdoverDue (e : Env) (d : Dev) : Bool :=
  (d.g .tbState == tbAcquiring || d.g .tbState == tbLocked)
    && d.time.lastSync + d.g .holdoverTimeout * 4000 < e.now

def Dev.holdover (d : Dev) : Dev :=
  let next := if d.g .tbState = tbAcquiring ∧ d.time.acqFromFree then tbFree else tbHoldover
  ({ d with time := { d.time with run := 0 } }).setTbState next

/-- HOLDOVER_TIMEOUT (R34), rank 5. -/
def execHoldoverTimeout (s : State) : Out := (s.ordered 5 0x070).at 5 fun e d => d.when (d.holdoverDue e) Dev.holdover

/-- SERVO_HANDOFF (R34, R35), rank 9. [DESIGN CHOICE, log entry 19] [DESIGN CHOICE, log entry 130] -/
def execServoHandoff (r : Servo) (s : State) : Out :=
  let t := s.enter 9
  if t.dev.asleep then .next t
  else match r with
    | .sync off =>
      let t := if !t.dev.on .ptpEnable || !t.dev.time.master then t
        else if t.dev.steps off then t.stepBy (-off) else t.slewBy
      .next (t.run fun e d => d.servo e r)
    | _ => .next (t.run fun e d => d.servo e r)

/-- The step amount of `TB_STEP_LO` and `TB_STEP_HI`, signed 64 bits (R47). -/
def Dev.stepAmount (d : Dev) : Int := asInt 64 (d.reg 0x1000C + d.reg 0x10010 * 2 ^ 32)

/-- STEP_GO (R35, R47): accepted only in ACQUIRING, otherwise ignored. [DESIGN CHOICE, log entry 19] -/
def execStepGo (s : State) : Out :=
  let t := s.enter 7
  .next (if t.dev.g .tbState = tbAcquiring ∧ !t.dev.asleep then t.stepBy t.dev.stepAmount else t)

/-- TB_ADDEND (R32, R47). -/
def execTbAddend (v : Nat) (s : State) : Out :=
  let t := s.enter 7
  .next (if t.dev.asleep then t else { t with clk := { t.clk with addend := clampAddend (v % 2 ^ 32) } })

end Sys2Proof.Machine
end

