-- ==== Sys2Proof/Machine/Arrivals.lean ====
section
/-!
DEFINITION. The meanings of the arrivals' own events (R68, R75, R76, R79, R81). Starts, closes, rejections and storage
apply before rank 5 (R40).
-/

namespace Sys2Proof.Machine

/-- FRAME_CLOSE_TIMEOUT (R68): a frame of kind 1 or 2 closes at its time limit. -/
def execFrameCloseTimeout (a : Nat) (s : State) : Out :=
  s.running 4 fun e d => d.when (d.closeDue e a) fun d => d.closeFrame e a

/-- PATH_TIMEOUT (R75). -/
def execPathTimeout (a path : Nat) (s : State) : Out :=
  s.running 4 fun e d => d.when (d.pathSilent e a path) fun d => d.pathDown a path

/-- SOURCE_LOSS (R81), rank 5. -/
def execSourceLoss (a : Nat) (s : State) : Out :=
  (s.ordered 5 (0x100 + a)).running 5 fun e d => d.when (d.lossDue e a) fun d => d.declareLost a

/-- INJECTION_TAKE (R76): the arrival takes the next entry of its ring. -/
def execInjectionTake (a : Nat) (s : State) : Out := s.running 4 fun e d => d.injectTake e a

/-- INJECTION_COPY_DONE (R76): the copy into storage completes; `bytes` is what host memory answered. -/
def execInjectionCopyDone (a : Nat) (bytes audio : List Byte) (s : State) : Out :=
  s.running 4 fun e d => d.injectDone e a bytes audio

/-- GENERATOR_FRAME_DONE (R79). -/
def execGeneratorFrameDone (a : Nat) (s : State) : Out := s.running 4 fun e d => d.generatorDone e a

end Sys2Proof.Machine
end

