-- ==== Sys2Proof/Machine/Audio.lean ====
section
/-!
DEFINITION. The meanings of the audio commands (R235 to R245, R257 to R263).
-/

namespace Sys2Proof.Machine

/-- FRAME_SYNC (R237): the latch point comes at the start of its tick, before any control write; `wire` holds the bits
of the wire interval it ends. -/
def execFrameSync (p : Nat) (wire : List Nat) (s : State) : Out :=
  s.running 4 fun e d => (d.frameSync e p wire).trackersFollow e.now

/-- PORT_LOSS (R235), rank 5. -/
def execPortLoss (p : Nat) (s : State) : Out := (s.ordered 5 (0x0D0 + p)).running 5 fun e d => (d.portLoss e p).trackersFollow e.now

/-- PLL_LOCK (R241). -/
def execPllLock (k : Nat) (s : State) : Out := s.at 9 fun e d => d.pllLocks e k

/-- PLL_LOCK_LOSS (R241). -/
def execPllLockLoss (k : Nat) (s : State) : Out := s.at 9 fun e d => d.pllUnlocks e.now k

/-- PLL_REF_LOSS (R241): AUDCLK without an edge for 10 µs. A slave port that is LOST takes its PLLs to HOLDOVER itself. -/
def execPllRefLoss (k : Nat) (s : State) : Out := s.at 9 fun e d => d.when (d.g .pllRef k < 0x10) fun d => d.pllRefLost e.now k

/-- PLL_REF_RETURN (R241). -/
def execPllRefReturn (k : Nat) (s : State) : Out := s.at 9 fun e d => d.when (d.g .pllRef k < 0x10) fun d => d.pllRefBack e.now k

/-- TRACKER_LOCK (R245): `ratio` is what the tracker measured, 8.24 fixed point. -/
def execTrackerLock (t ratio : Nat) (s : State) : Out := s.running 9 fun e d => d.trackerLocks e.now t ratio

/-- MIX_SAMPLE (R257, R258): destination `n` forms its sample; it feeds an ASRC channel, a send flow or a head. -/
def execMixSample (n : Nat) (s : State) : Out :=
  s.running 9 fun e d =>
    let (out, d) := d.mixSample e n
    if 768 ≤ n ∧ n < 896 then d.asrcFeed e.now (n - 768)
    else if 512 ≤ n ∧ n < 768 then
      match d.sendFeed e (n - 512) with
      | (some (f, body), d) => d.handOver (d.g .nsMac f) 2 { bytes := d.flowFrameLen f + 20, body := body }
          (d.reachable (d.g .nsMac f) (d.g .nsDstIp f))
      | (none, d) => d
    else if 896 ≤ n ∧ n < 960 then d.headFeed ((n - 896) / 8) (n % 8) out
    else d

/-- DUCK_BLOCK (R259). -/
def execDuckBlock (n : Nat) (s : State) : Out := s.running 9 fun e d => d.duckBlock e n

/-- SAMPLE_MISSING (R261): the sample of a network or embedding source that comes to its decision point. -/
def execSampleMissing (ch : Nat) (s : State) : Out := s.running 9 fun e d => d.sampleMissing e ch

/-- FLOW_LOSS (R262), rank 5. -/
def execFlowLoss (f : Nat) (s : State) : Out := (s.ordered 5 0x0E0).running 5 fun e d => d.flowLoss e f

end Sys2Proof.Machine
end

