-- ==== Sys2Proof/Machine/Landing.lean ====
section
/-!
DEFINITION. Parts of sealed stagings land at a commit point (R117, R118), and what a landed change does to each block
(R49, R51, R59, R93, R153, R188, R236, R241, R262, R303, R333, R447).
-/

namespace Sys2Proof.Machine

/-! ## Sealed stagings (R116 to R118) -/

def Entry.same (x y : Entry) : Bool := x.o == y.o && x.i == y.i

/-- A part waits while a staging sealed before it holds an unlanded entry for one of its objects (R118). -/
def Dev.partBlocked (d : Dev) (s g : Nat) : Bool :=
  let es := (d.stg s).entries.filter fun x => x.part == g
  d.sealedStgs.any fun t => (d.stg t).order < (d.stg s).order
    && (d.stg t).entries.any fun y => es.any fun x => x.same y

/-- The part of staging `s` lands at this commit point of group `g`. -/
def Dev.partLands (e : Env) (d : Dev) (s g : Nat) : Bool :=
  let c := d.stg s
  decide (c.sealed < e.now) && (c.entries.any (fun x => x.part == g) || (c.entries.isEmpty && c.anchor == g))
    && !d.partBlocked s g

/-- Objects an entry of the model's own writes: the engine a seal places a departure on. -/
def Entry.own (x : Entry) : Bool := x.o == .depEngine

/-- Landed entries are kept: their Ledger records, then one parameter record an index (R416, R443). -/
def Dev.keepAll (d : Dev) (e : Env) (w : Origin) (es : List Entry) : Dev :=
  let kept := es.filter fun x => x.o.info.kept
  let d := kept.foldl (fun d x =>
    d.ledger e 0x10 w (x.o.index x.i) (x.o.subindex x.i) 0 (valueDetail x.o x.v x.bytes)) d
  ((kept.map fun x => x.o.index x.i).eraseDups).foldl Dev.keepIndex d

/-- The part of staging `s` for group `g` lands. Answers what it changed. -/
def Dev.landPart (e : Env) (d : Dev) (s g : Nat) : List (Obj × Nat) × Dev :=
  let c := d.stg s
  let es := c.entries.filter fun x => x.part == g
  let rest := c.entries.filter fun x => x.part != g
  let changed := (es.filter d.entryChanges).map fun x => (x.o, x.i)
  let w : Origin := { role := c.role, ch := c.ch, cred := c.cred, ses := if s = 0 then 0xFF else d.g .stgOwner s }
  let d := d.overlay es
  let d := d.keepAll e w es
  let d := if es.any fun x => decide (0x2040 ≤ x.o.index x.i) && decide (x.o.index x.i < 0x2080) then d.fire 0x2BD else d
  let d := (d.putStg s { c with entries := rest }).put .stgEntries s ((rest.filter fun x => !x.own).length)
  let d := if rest.isEmpty then ((d.freeStg s).put .stgLandTick s e.tick).flag .stgEvent s 0 else d
  (changed, d)

/-- Every part due at this commit point of group `g` lands, in order of the seals. -/
def Dev.landParts (e : Env) (d : Dev) (g : Nat) : List (Obj × Nat) × Dev :=
  d.sealedStgs.foldl (fun (acc : List (Obj × Nat) × Dev) s =>
    if acc.2.partLands e s g then
      let (ch, d) := acc.2.landPart e s g
      (acc.1 ++ ch, d)
    else acc) ([], d)

/-! ## Whom a change concerns -/

/-- Instances, among `n` at a base index, that changed objects belong to, ascending. -/
def changedAt (ch : List (Obj × Nat)) (base n : Nat) : List Nat :=
  (List.range n).filter fun k => ch.any fun p => p.1.index p.2 == base + k

def touched (ch : List (Obj × Nat)) (o : Obj) (i : Nat) : Bool := ch.contains (o, i)

def anyTouched (ch : List (Obj × Nat)) (os : List Obj) (i : Nat) : Bool := os.any fun o => touched ch o i

/-! ## Arrivals (R49, R59, R93) -/

def arrAlloc : List Obj :=
  [.arrKind, .arrStorage, .arrWidth, .arrHeight, .arrRateNum, .arrRateDen, .arrScan, .arrSampling, .arrDepth,
   .arrColorimetry, .arrTransfer, .arrRange, .arrRooms, .arrSlices]

/-- Objects that name an arrival's source, by its kind. -/
def arrSource (kind : Nat) : List Obj :=
  match kind with
  | 1 | 2 => [.arrMac, .arrDstIp, .arrUdpPort, .arrSrcIp, .arrSsrc, .arrSsrcMatch, .arrPt, .arrMerge, .arrMacB, .arrDstIpB,
              .arrUdpPortB, .arrSrcIpB, .arrXsProfile]
  | 3 => [.arrRing]
  | 4 => [.arrWbDep]
  | 5 => [.arrGen, .arrGenGroup]
  | _ => []

def Dev.landArrival (ch : List (Obj × Nat)) (old d : Dev) (a : Nat) : Dev :=
  let kind := d.g .arrKind a
  let d :=
    if anyTouched ch arrAlloc a then (d.allocate a).toWaiting a
    else if anyTouched ch (arrSource kind) a then d.toWaiting a
    else d
  let fresh := anyTouched ch (arrSource kind) a
  let carried := if fresh then (d.io.carried.del (2 * a)).del (2 * a + 1) else d.io.carried
  let d := { d with io := { d.io with carried := carried } }
  let d := d.joinLeave (old.memberships a) (d.memberships a)
  if kind = 0 ∧ old.g .arrKind a ≠ 0 then d.undoNaming a else d

/-! ## Departures (R51, R125, R153, R210, R211) -/

def depFormat : List Obj :=
  [.depGroup, .depWidth, .depHeight, .depSampling, .depDepth, .depColorimetry, .depTransfer, .depRange]

/-- Objects of a departure whose change undoes its take (R125 cause 8). -/
def depUndo : List Obj := [.depBind, .depGroup, .depWidth, .depHeight, .depLayers]

/-- An engine that composes. -/
def Dev.engineGood (d : Dev) (k : Nat) : Bool :=
  d.g .engState k == engInService || d.g .engState k == engSpareActive

/-- The engine a placed departure comes to: a retired one's departures stand with the spare that replaces it. -/
def Dev.settleEngine (d : Dev) (n : Nat) : Dev :=
  let k := d.g .depEngine n
  if d.g .depBind n = 0 ∨ d.engineGood k then d
  else if d.g .engReplaces 24 = k ∧ d.g .engState 24 = engSpareActive then d.put .depEngine n 24
  else d

/-- What a landing means for departure `n`: `ch` the objects that changed, `old` the state before (R51, R152, R210).
[DEDUCED, log entry 162] -/
def Dev.landDeparture (ch : List (Obj × Nat)) (old d : Dev) (n : Nat) : Dev :=
  let bind := d.g .depBind n
  let was := old.g .depBind n
  let d := d.settleEngine n
  let d := if anyTouched ch [.depEngine] n then
      d.updDep n fun c => { c with moveTo := none, torn := false } else d
  let d :=
    if bind = 0 then
      if was = 0 then d
      else ((d.put .depEngine n 0xFF).updDep n fun c => { boundary := c.boundary, linger := c.linger, capDone := c.capDone, wbPic := c.wbPic }).setDepState n depUnbound
    else if was = 0 ∨ anyTouched ch depFormat n then
      let d := d.updDep n fun c => { c with composing := false, raster := [], shadow := [], packet := 0, lastGood := none }
      if d.g .depState n = depFaulted ∧ !d.engineGood (d.g .depEngine n) then d
      else d.setDepState n (if d.engineGood (d.g .depEngine n) then depArmed else depFaulted)
    else if d.g .depState n = depFaulted ∧ d.engineGood (d.g .depEngine n) then d.setDepState n depLive
    else if anyTouched ch [.depEngine] n ∧ !d.engineGood (d.g .depEngine n) then d.setDepState n depFaulted
    else d
  let d := if bind.testBit 0 ∧ !was.testBit 0 then
      let (v, d) := d.drbg 32
      d.updDep n fun c => { c with extSeq := v }
    else d
  if anyTouched ch depUndo n ∨ (old.g .depState n = depLive ∧ d.g .depState n ≠ depLive) then d.undo n 8 else d

/-- A change of an object of a layer undoes the take that names the layer (R125 cause 8). -/
def Dev.landLayer (d : Dev) (m : Nat) : Dev :=
  match d.takeOf (m / 8) with
  | some t => if t.mask.testBit (m % 8) then d.undo (m / 8) 8 else d
  | none => d

/-! ## Signboard (R185, R188) -/

def Dev.landRegions (ch : List (Obj × Nat)) (d : Dev) (n : Nat) : Dev :=
  let on := maskOf (d.regionsOn n)
  let d := d.updDep n fun c =>
    { c with failing := c.failing &&& on, lastGood := if d.holdsFreeze n then c.lastGood else none }
  let d := if anyTouched ch [.sbEnable, .sbTwin] n then
      d.put .sbTwinState n (if d.on .sbEnable n && d.g .sbTwin n != 0xFF then 1 else 0)
    else d
  d.put .sbState n (d.sbStateOf n)

/-! ## Lanes, MACs and SecYs (R303, R333, R334) -/

def laneLanding : List Obj := [.laneProto, .laneMac, .laneTxInv, .laneRxInv, .laneTxMain, .laneTxPre, .laneTxPost]

def Dev.landLanes (e : Env) (ch : List (Obj × Nat)) (old d : Dev) : Dev :=
  let speed (m : Nat) : Bool := touched ch .ethSpeed m
  let ls := (List.range 48).filter fun i =>
    anyTouched ch laneLanding i || (d.g .laneProto i == 1 && speed (d.g .laneMac i))
  let d := ls.foldl (fun d i => (d.settleLane e.now i 1).linkFollow (old.g .laneMac i)) d
  d

/-- A static key of an association changed: its load is issued; no key leaves it EMPTY (R333).
[DEDUCED, log entry 63] -/
def Dev.landKey (e : Env) (d : Dev) (chan an key : Nat) : Dev :=
  if key = 0xFFFFFFFF then d.emptySa e.now chan an else (d.needKey key).issueLoad e.now chan an key

def Dev.landSecY (e : Env) (ch : List (Obj × Nat)) (d : Dev) (m : Nat) : Dev :=
  let d := if anyTouched ch [.msEnable, .msMode] m then
      let d := { d with io := { d.io with loads := d.io.loads.filter fun (l : KeyLoad) => l.mac != m } }
      (m :: (d.rxChannels m).map (24 + ·)).foldl (fun d c => (List.range 4).foldl (fun d an => d.emptySa e.now c an) d) d
    else d
  let all := anyTouched ch [.msEnable, .msMode] m
  if d.on .msEnable m ∧ d.g .msMode m = 2 then
    let keys : List Obj := [.msTxKey0, .msTxKey1, .msTxKey2, .msTxKey3]
    let d := (List.range 4).foldl (fun d an =>
      let o := keys.getD an .msTxKey0
      if touched ch o m ∨ (all ∧ d.g o m ≠ 0xFFFFFFFF) then d.landKey e m an (d.g o m) else d) d
    let rx : List Obj := [.msrxKey0, .msrxKey1, .msrxKey2, .msrxKey3]
    (List.range 8).foldl (fun d c => (List.range 4).foldl (fun d an =>
      let o := rx.getD an .msrxKey0
      let i := 8 * m + c
      if touched ch o i ∨ (all ∧ d.g o i ≠ 0xFFFFFFFF) then d.landKey e (24 + i) an (d.g o i) else d) d) d
  else d

/-! ## Audio (R236, R241, R244, R262, R263, R269) -/

def Dev.landPort (e : Env) (d : Dev) (p : Nat) : Dev :=
  let d := d.putTdm p (d.portPins p)
  d.setTdm e.now p (if d.on .tdmEnable p then tdmWaiting else tdmOff)

def Dev.landPll (e : Env) (ch : List (Obj × Nat)) (d : Dev) (k : Nat) : Dev :=
  if anyTouched ch [.pllEnable, .pllRef] k then d.pllSwitch e.now k else d.setPll e.now k (d.g .pllState k)

/-- A receive flow changed: its memberships follow (R72, R262). -/
def Dev.landFlow (old d : Dev) (f : Nat) : Dev :=
  ((d.putFlow f {}).setFlow f (if d.on .nrEnable f then 1 else 0)).joinLeave (old.flowMemberships f) (d.flowMemberships f)

def Dev.landSend (d : Dev) (f : Nat) : Dev :=
  let st := if d.on .nsEnable f then 2 else 0
  let (seq, d) := d.drbg 16
  let d := { d with audio := { d.audio with sends := d.audio.sends.put f { seq := seq } } }
  if d.g .nsState f = st then d else (d.put .nsState f st).fire 0x0E1

def Dev.landCaravan (d : Dev) (c : Nat) : Dev :=
  let d := { d with audio := { d.audio with caravans := d.audio.caravans.del c } }
  d.put .cvState c (if d.g .cvMode c = 0 then 0 else 1)

def Dev.landAudio (e : Env) (ch : List (Obj × Nat)) (old d : Dev) : Dev :=
  let d := (changedAt ch 0x4010 16).foldl (Dev.landPort e) d
  let d := (changedAt ch 0x4030 4).foldl (Dev.landPll e ch) d
  let d := (changedAt ch 0x4300 64).foldl (Dev.landFlow old) d
  let d := (changedAt ch 0x4340 64).foldl Dev.landSend d
  let d := (changedAt ch 0x4380 32).foldl Dev.landCaravan d
  let ds := (changedAt ch 0x4200 256).flatMap fun k => (List.range 4).map (4 * k + ·)
  let d := (ds.filter fun n => ch.any fun p => p.2 == n && p.1.index n == 0x4200 + n / 4).foldl (Dev.landDst e.now old) d
  if ch.isEmpty then d else d.trackersFollow e.now

/-! ## Groups (R36) -/

/-- A group whose mode changed counts the frame in progress on the clock it now follows: the frame ends at the same
instant, and the next one starts there (R36). [DESIGN CHOICE, log entry 132] -/
def Dev.changeClock (e : Env) (old d : Dev) (g : Nat) : Dev :=
  let c := d.group g
  if c.started ∧ old.g .tgMode g ≠ d.g .tgMode g then
    d.putGroup g { c with start := d.groupNow e g - (old.groupNow e g - c.start) }
  else d

/-- A commit that changes a group's mode, rate or phase offset (R36). -/
def Dev.landGroup (e : Env) (ch : List (Obj × Nat)) (old d : Dev) (g : Nat) : Dev :=
  let d := d.changeClock e old g
  let c := d.group g
  if d.g .tgMode g = 0 then
    if old.g .tgMode g = 1 ∧ c.slewing then (d.putGroup g { c with slewing := false }).put .tgState g 0 |>.fire 0x076
    else d.put .tgState g 0
  else if anyTouched ch [.tgMode, .tgRateNum, .tgRateDen, .tgPhaseOffset] g then d.startSlew g
  else d

/-! ## Sessions (R420, R434) -/

/-- A landing closes the sessions of credentials it changes and of TRDP MACs it leaves out.
[DEDUCED, log entry 104] -/
def Dev.landSessions (e : Env) (ch : List (Obj × Nat)) (d : Dev) : Dev :=
  let creds := changedAt ch 0x2040 64
  let d := if creds.isEmpty then d else d.closeWhere e 0 fun d s _ => creds.contains (d.g .sesCred s)
  if touched ch .trdpMacs 0 then
    d.closeWhere e 5 fun d _ x => match x.peer with
      | .trdp m _ _ => !(d.g .trdpMacs).testBit m
      | _ => false
  else d

/-! ## Innkeeper (R399, R403) -/

/-- A commit that enables a queue arms it and one that disables it disarms it; a HELD source whose new group has no hold
open is held by nothing and becomes PENDING. [DEDUCED, log entry 153] -/
def Dev.landInk (e : Env) (ch : List (Obj × Nat)) (old d : Dev) : Dev :=
  let qs := (List.range 16).filter fun q => old.g .hqEnable q != d.g .hqEnable q
  let d := qs.foldl (fun d q => d.put .hqArmed q (d.g .hqEnable q)) d
  let ss := (List.range 1024).filter fun s =>
    touched ch .srcCgroup s && (d.src s).st == .held && (d.ink.holds.find (d.g .srcCgroup s)).isNone
  ss.foldl (fun d s => d.putSrc s { d.src s with st := .pending, since := e.now }) d

/-! ## Codec streams (R197, R203) -/

/-- A stream that no configuration in force or sealed holds any more leaves its engine; one that lands on an engine out of
service is placed again where it fits. [DEDUCED, log entry 46] -/
def Dev.settleStreams (d : Dev) : Dev :=
  let later := d.afterSeals.streams
  let now := d.streams
  let d := ((List.range 256).map Stream.decode ++ (List.range 128).map Stream.encode).foldl (fun (d : Dev) s =>
    if d.codecOf s = 0xFF ∨ now.contains s ∨ later.contains s then d else d.placeStream s 0xFF) d
  let astray := now.filter fun s => d.codecOf s != 0xFF && d.g .cdcState (d.codecOf s) != 0
  let d := astray.foldl (fun (d : Dev) s => d.placeStream s 0xFF) d
  d.placeLoose d.heldStreams astray

/-! ## A landing as a whole -/

/-- What follows from the changes of the parts that landed, `old` being the part before them. -/
def Dev.landed (e : Env) (ch : List (Obj × Nat)) (old d : Dev) : Dev :=
  let d := (changedAt ch 0x2210 32).foldl (Dev.landGroup e ch old) d
  let d := (changedAt ch 0x3000 256).foldl (Dev.landArrival ch old) d
  let d := (changedAt ch 0x3400 128).foldl (Dev.landDeparture ch old) d
  let d := (changedAt ch 0x3800 1024).foldl Dev.landLayer d
  let sb := ((changedAt ch 0x3E00 128) ++ (changedAt ch 0x3400 128)).eraseDups
  let d := sb.foldl (Dev.landRegions ch) d
  let composed := (changedAt ch 0x3400 128 ++ (changedAt ch 0x3800 1024).map (· / 8)).eraseDups
  let d := composed.foldl Dev.grantAdmitted d
  let d := Dev.landLanes e ch old d
  let macs := (List.range 24).filter fun m =>
    (changedAt ch 0x2640 24).contains m || (changedAt ch 0x2680 192).any fun c => c / 8 == m
  let d := macs.foldl (Dev.landSecY e ch) d
  let d := Dev.landAudio e ch old d
  let d := if ch.isEmpty then d else (List.range 8).foldl (fun d h => Dev.headFollow e.now old d h) d
  let d := Dev.landInk e ch old (d.landSessions e ch)
  if ch.isEmpty then d
  else (((((List.range 24).foldl Dev.reportMac d.settleStreams).reportRooms).reportEngines).reportCodecs).spareFollow

end Sys2Proof.Machine
end

