-- ==== Sys2Proof/Machine/Checks.lean ====
section
/-!
DEFINITION. The agreement checks of a seal, chapter by chapter in the order of the manual (R116): each on the
configuration `v` as it will stand, a change being measured against `d`, the configuration that stands without the
staging (R118).
-/

namespace Sys2Proof.Machine

/-- A seal's view: what stands without the staging, what will stand with it, its entries, and who seals. -/
structure SealView where
  old : Dev
  v : Dev
  es : List Entry
  /-- role of the sealing session; 3 for staging 0 -/
  role : Nat

/-- The staging changes an object. -/
def SealView.changes (x : SealView) (os : List Obj) (i : Nat) : Bool := os.any fun o => x.old.g o i != x.v.g o i

def hasDup : List Nat → Bool
  | [] => false
  | a :: t => t.contains a || hasDup t

/-! ## Clock Domains, Time Base and the Event Tick (R44, R46, R551) -/

/-- num / den lies from 24,000 / 1,001 to 120. [DEDUCED, log entry 20] -/
def rateOk (num den : Nat) : Bool := 24000 * den ≤ 1001 * num && num ≤ 120 * den

/-- The chapter whose tables hold an object that passes through staging. -/
def Obj.chapter (o : Obj) : Nat :=
  let s := o.info.sub
  match o.info.base with
  | 0x2200 | 0x2210 => 2
  | 0x3000 => if s < 0x10 then 3 else if s ≤ 0x40 then 4 else if s < 0x60 then 5 else 10
  | 0x3400 => if s < 0x10 then 3 else if s < 0x60 then 11 else 10
  | 0x3800 => if 0x40 ≤ s then 8 else if 0x30 ≤ s then 5 else 7
  | 0x3480 => 8
  | 0x3E00 => 9
  | 0x2810 => 11
  | 0x4000 | 0x4010 | 0x4030 | 0x4080 => 12
  | 0x4200 | 0x4300 | 0x4340 | 0x43A0 | 0x43A8 | 0x4380 | 0x43D0 => 13
  | 0x4410 => 14
  | 0x2410 => 15
  | 0x2610 | 0x2640 | 0x2680 => 16
  | 0x4800 | 0x4810 | 0x4820 | 0x4840 | 0x4A00 => 19
  | 0x2000 | 0x2010 | 0x2040 => 21
  | _ => 0

/-- Checks that run when the staging holds an object of one of these chapters (R116). -/
def SealView.part (x : SealView) (cs : List Nat) (checks : List (Bool × Nat)) : List (Bool × Nat) :=
  if x.es.any fun y => cs.contains y.o.chapter then checks else []

def SealView.checksTime (x : SealView) : List (Bool × Nat) :=
  let v := x.v
  let gs := List.range 32
  [(gs.any fun g => !rateOk (v.g .tgRateNum g) (v.g .tgRateDen g), 0x0210),
   (gs.any fun g => v.g .tgTotalLines g ≤ v.g .tgActiveLines g, 0x0211),
   (gs.any fun g => 1000000000 * v.g .tgRateDen g ≤ (v.gi .tgPhaseOffset g).natAbs * v.g .tgRateNum g, 0x0212)]

def SealView.checksPtp (x : SealView) : List (Bool × Nat) :=
  let v := x.v
  [(v.on .ptpEnable && ((List.range 48).any fun i => x.changes [.laneProto, .laneMac] i) && !v.ptpMacsOk, 0x0310)]

/-! ## Streams, Formats and the Matrix (R56 to R58) -/

/-- A raster and its rate, as R56 limits arrivals and departures alike. -/
structure RasterFmt where
  w : Nat
  h : Nat
  samp : Nat
  scan : Nat
  num : Nat
  den : Nat
  colour : Nat
  hlg : Bool

def Dev.rasterFmts (d : Dev) : List RasterFmt :=
  ((List.range 256).map fun a =>
      { w := d.g .arrWidth a, h := d.g .arrHeight a, samp := d.g .arrSampling a, scan := d.g .arrScan a,
        num := d.g .arrRateNum a, den := d.g .arrRateDen a, colour := d.g .arrColorimetry a, hlg := d.on .arrTransfer a })
    ++ (List.range 128).map fun n =>
      let g := d.g .depGroup n
      { w := d.g .depWidth n, h := d.g .depHeight n, samp := d.g .depSampling n, scan := 0,
        num := d.g .tgRateNum g, den := d.g .tgRateDen g, colour := d.g .depColorimetry n, hlg := d.on .depTransfer n }

def RasterFmt.heightOdd (f : RasterFmt) : Bool :=
  ((f.samp == 0 || f.scan != 0) && f.h % 2 == 1) || (f.samp == 0 && f.scan != 0 && f.h % 4 != 0)

/-- Main 422.10 (0) or High 444.12 (1) carries a sampling and depth (R195). -/
def profileOk (profile samp depth : Nat) : Bool :=
  if profile = 0 then samp == 1 && (depth == 8 || depth == 10) else samp == 1 || samp == 2 || samp == 3

/-- Arrivals of a kind. -/
def Dev.kinds (d : Dev) (ks : List Nat) : List Nat := (List.range 256).filter fun a => ks.contains (d.g .arrKind a)

/-- Departures with a binding. -/
def Dev.bound (d : Dev) (bit : Nat) : List Nat := (List.range 128).filter fun n => (d.g .depBind n).testBit bit

/-- Every layer of every stack, ascending. -/
def Dev.layers (d : Dev) : List Nat := ((List.range 128).map d.stack).flatten

/-- The layers that show an arrival. -/
def Dev.shown (d : Dev) : List Nat := d.layers.filter fun m => d.g .laySrc m < 256

/-- R58: HLG is shown only in an HLG departure of BT.2020, which shows nothing else. -/
def Dev.hlgBad (d : Dev) (m : Nat) : Bool :=
  let n := m / 8
  let hlg := d.on .depTransfer n
  d.on .arrTransfer (d.g .laySrc m) != hlg || (hlg && d.g .depColorimetry n != 2)

def SealView.checksStreams (x : SealView) : List (Bool × Nat) :=
  let v := x.v
  let fs := v.rasterFmts
  [(fs.any fun f => f.samp ≤ 1 && f.w % 2 == 1, 0x0221),
   (fs.any RasterFmt.heightOdd, 0x0221),
   (fs.any fun f => !rateOk f.num f.den, 0x0224),
   (fs.any fun f => f.hlg && f.colour != 2, 0x0222),
   (fs.any fun f => 600000000 * f.den < f.w * f.h * f.num, 0x022E),
   ((v.kinds [2]).any fun a => !profileOk (v.g .arrXsProfile a) (v.g .arrSampling a) (v.g .arrDepth a), 0x0223),
   ((v.bound 0).any fun n => v.xsSend n && !profileOk (v.g .depXsProfile n) (v.g .depSampling n) (v.g .depDepth n), 0x0223),
   ((v.kinds [5]).any fun a => v.g .arrSampling a == 0, 0x0223),
   ((v.bound 1).any fun n => v.g .depSampling n == 0 || v.g .depDepth n == 12, 0x0223),
   (v.shown.any v.hlgBad, 0x0222)]

/-! ## Arrivals (R72, R76 to R78, R83, R86) -/

/-- What a path of an arrival, or a receive flow, matches. -/
structure Match where
  mac : Nat
  dst : Nat
  port : Nat
  pt : Nat
  src : Nat
  ssrc : Option Nat

/-- Two matches accept a common packet on one MAC. -/
def Match.meets (p q : Match) : Bool :=
  p.mac == q.mac && p.dst == q.dst && p.port == q.port && p.pt == q.pt
    && (p.src == 0 || q.src == 0 || p.src == q.src)
    && (match p.ssrc, q.ssrc with
      | some a, some b => a == b
      | _, _ => true)

/-- The paths of an arrival of kind 1 or 2. -/
def Dev.arrPaths (d : Dev) (a : Nat) : List Match :=
  let ssrc := if d.on .arrSsrcMatch a then some (d.g .arrSsrc a) else none
  let pt := d.g .arrPt a
  ⟨d.g .arrMac a, d.g .arrDstIp a, d.g .arrUdpPort a, pt, d.g .arrSrcIp a, ssrc⟩ ::
    (if d.on .arrMerge a then [⟨d.g .arrMacB a, d.g .arrDstIpB a, d.g .arrUdpPortB a, pt, d.g .arrSrcIpB a, ssrc⟩] else [])

/-- Two members of a list of owners with their matches overlap. -/
def anyMeet : List (List Match) → Bool
  | [] => false
  | p :: t => (p.any fun a => t.any fun q => q.any a.meets) || anyMeet t

def Dev.macsBad (d : Dev) (a : Nat) : Bool :=
  !d.macReady (d.g .arrMac a) || (d.on .arrMerge a && !d.macReady (d.g .arrMacB a))

/-- R78: the envelope of a loop equals what its departure gives. -/
def Dev.loopBad (d : Dev) (a : Nat) : Bool :=
  let n := d.g .arrWbDep a
  let g := d.g .depGroup n
  d.g .arrWidth a != d.g .depWidth n || d.g .arrHeight a != d.g .depHeight n || d.g .arrSampling a != d.g .depSampling n
    || d.g .arrDepth a != d.g .depDepth n || d.g .arrColorimetry a != d.g .depColorimetry n
    || d.g .arrTransfer a != d.g .depTransfer n || d.g .arrRange a != d.g .depRange n || d.on .arrScan a
    || d.g .arrRateNum a * d.g .tgRateDen g != d.g .tgRateNum g * d.g .arrRateDen a

def Dev.genBad (d : Dev) (a : Nat) : Bool :=
  let g := d.g .arrGenGroup a
  d.on .arrScan a || d.g .arrRateNum a * d.g .tgRateDen g != d.g .tgRateNum g * d.g .arrRateDen a

def SealView.checksArrivals (x : SealView) : List (Bool × Nat) :=
  let v := x.v
  let net := v.kinds [1, 2]
  let inj := v.kinds [3]
  let loops := v.kinds [4]
  let fresh (a : Nat) : Bool := x.changes [.arrKind, .arrRing] a
  [(anyMeet (net.map v.arrPaths), 0x0320),
   (inj.any fun a => fresh a && descKind (x.old.descInForce (v.g .arrRing a)) != 2, 0x0330),
   (inj.any fun a => fresh a && inj.any fun b => b != a && v.g .arrRing b == v.g .arrRing a, 0x0331),
   (loops.any fun a => !(v.g .depBind (v.g .arrWbDep a)).testBit 2, 0x0321),
   (hasDup (loops.map fun a => v.g .arrWbDep a), 0x0321),
   (loops.any fun a => v.on .arrStorage a, 0x0226),
   (loops.any v.loopBad, 0x0223),
   ((v.kinds [5]).any v.genBad, 0x0223),
   (hasDup ((v.kinds [5]).map fun a => v.g .arrGen a), 0x0323),
   (net.any fun a => v.g .arrDstIp a == 0, 0x0201),
   ((v.kinds [1, 2, 3]).any fun a => v.on .arrScan a && v.g .arrDiHigh a ≤ v.g .arrDiLow a, 0x0228),
   (net.any v.macsBad, 0x0312)]

/-! ## Rooms, Slice Rings and Rate Conversion (R87) -/

def SealView.checksRooms (x : SealView) : List (Bool × Nat) :=
  let v := x.v
  [((v.kinds [1, 2, 3, 5]).any fun a => v.on .arrStorage a && (v.g .arrKind a == 3 || v.on .arrScan a), 0x0227)]

/-! ## Layer Composition (R136, R137, R144) -/

/-- The values of `lay_z` above the base are 1 to `dep_layers` − 1, each once. -/
def Dev.zBad (d : Dev) (n : Nat) : Bool :=
  let zs := ((d.stack n).drop 1).map fun m => d.g .layZ m
  hasDup zs || zs.any fun z => z == 0 || d.g .depLayers n ≤ z

def Dev.destBad (d : Dev) (m : Nat) : Bool :=
  let n := m / 8
  let q := d.envGeom m
  q.dw == 0 || q.dh == 0 || d.g .depWidth n < q.dx + q.dw || d.g .depHeight n < q.dy + q.dh

def Dev.cropBad (d : Dev) (m : Nat) : Bool :=
  let a := d.g .laySrc m
  (d.on .layCropW m && d.g .arrWidth a < d.g .layCropX m + d.g .layCropW m)
    || (d.on .layCropH m && d.g .arrHeight a < d.g .layCropY m + d.g .layCropH m)

def Dev.cropOdd (d : Dev) (m : Nat) : Bool :=
  let samp := d.g .arrSampling (d.g .laySrc m)
  (samp ≤ 1 && (d.g .layCropX m % 2 == 1 || d.g .layCropW m % 2 == 1))
    || (samp == 0 && (d.g .layCropY m % 2 == 1 || d.g .layCropH m % 2 == 1))

/-- A lockstep set joins layers of departures in several timing groups. -/
def Dev.lockstepBad (d : Dev) : Bool :=
  let ls := d.layers.filter fun m => d.on .layLockstep m
  ls.any fun m => ls.any fun k =>
    d.g .layLockstep m == d.g .layLockstep k && d.g .depGroup (m / 8) != d.g .depGroup (k / 8)

def SealView.checksLayers (x : SealView) : List (Bool × Nat) :=
  let v := x.v
  [((List.range 128).any v.zBad, 0x0350),
   (v.layers.any v.destBad, 0x022A),
   (v.shown.any v.cropBad, 0x022B),
   (v.shown.any v.cropOdd, 0x0221),
   (v.lockstepBad, 0x0351)]

/-! ## Scaling and Pixel Conversion (R161, R167) -/

/-- The coefficients of a loadable table. -/
def coefs (bs : List Byte) (n : Nat) : List Int := (List.range n).map fun k => asInt 16 (ofLe ((bs.drop (2 * k)).take 2))

/-- A table's bytes are 64 phases of 6 or 4 coefficients from −512 to 511 that sum to 256. -/
def tableOk (kind : Nat) (bs : List Byte) : Bool :=
  let taps := if kind = 0 then 6 else 4
  let cs := coefs bs (64 * taps)
  bs.length == 128 * taps && cs.all (fun c => -512 ≤ c && c ≤ 511)
    && (List.range 64).all fun p => ((cs.drop (p * taps)).take taps).sum == 256

def SealView.checksScaling (x : SealView) : List (Bool × Nat) :=
  let v := x.v
  [(v.shown.any fun m => !v.ratiosOk m, 0x022C),
   ((List.range 8).any fun t => !((v.blob .coefData t).isEmpty && !x.es.any fun y => y.o == .coefData && y.i == t)
      && !tableOk (v.g .coefKind t) (v.blob .coefData t), 0x022D),
   (v.layers.any fun m => (16 ≤ v.g .layCoefH m && v.g .coefKind (v.g .layCoefH m - 16) != 0)
      || (16 ≤ v.g .layCoefV m && v.g .coefKind (v.g .layCoefV m - 16) != 1), 0x022D)]

/-! ## Signboard (R180, R188) -/

/-- Regions of a kind other than 0 of the departures whose `sb_enable` is 1: 16 d + r. -/
def Dev.regionsChecked (d : Dev) : List Nat :=
  (((List.range 128).filter fun n => d.on .sbEnable n).map fun n =>
    ((List.range 16).map (16 * n + ·)).filter fun i => d.on .sbrKind i).flatten

def Dev.regionOutside (d : Dev) (i : Nat) : Bool :=
  let n := i / 16
  d.g .sbrW i == 0 || d.g .sbrH i == 0 || d.g .depWidth n < d.g .sbrX i + d.g .sbrW i
    || d.g .depHeight n < d.g .sbrY i + d.g .sbrH i

def Dev.regionOdd (d : Dev) (i : Nat) : Bool :=
  let samp := d.g .depSampling (i / 16)
  (samp ≤ 1 && (d.g .sbrX i % 2 == 1 || d.g .sbrW i % 2 == 1))
    || (samp == 0 && (d.g .sbrY i % 2 == 1 || d.g .sbrH i % 2 == 1))

def Dev.freezers (d : Dev) : List Nat := (List.range 128).filter d.holdsFreeze

def SealView.checksSign (x : SealView) : List (Bool × Nat) :=
  let v := x.v
  let rs := v.regionsChecked
  [(rs.any v.regionOutside, 0x022A),
   (rs.any v.regionOdd, 0x0221),
   (rs.any fun i => 2 ≤ v.g .sbrKind i && v.g .depLayers (i / 16) ≤ v.g .sbrLayer i, 0x0361),
   (32 < v.freezers.length, 0x040C)]

/-! ## JPEG XS Engines (R196, R205) -/

def SealView.checksCodec (x : SealView) : List (Bool × Nat) :=
  let v := x.v
  [((v.kinds [2]).any fun a => v.on .arrScan a, 0x0223),
   ((v.bound 0).any fun n => v.xsSend n && 8 * v.g .depDepth n * sampC2 (v.g .depSampling n) ≤ v.g .depXsBpp n, 0x0229)]

/-! ## Departures (R209, R214, R215, R220, R221, R223) -/

/-- H_d × L and A of a departure: L_d is their quotient (R209). -/
def Dev.linesOf (d : Dev) (n : Nat) : Nat × Nat :=
  let g := d.g .depGroup n
  (d.g .depHeight n * d.g .tgTotalLines g, d.g .tgActiveLines g)

def Dev.linesBad (d : Dev) (n : Nat) : Bool :=
  let (h, a) := d.linesOf n
  h % a != 0 || 16384 < h / a

def Dev.ld (d : Dev) (n : Nat) : Nat := (d.linesOf n).1 / (d.linesOf n).2

def Dev.headTimingBad (d : Dev) (n : Nat) : Bool :=
  let t := d.g .depHTotal n
  let w := d.g .depWidth n
  t < w + 32 || d.g .depHSyncStart n < w || t < d.g .depHSyncStart n + d.g .depHSyncWidth n
    || d.g .depVSyncStart n < d.g .depHeight n || d.ld n < d.g .depVSyncStart n + d.g .depVSyncWidth n

def Dev.pixelClockBad (d : Dev) (n : Nat) : Bool :=
  let g := d.g .depGroup n
  600000000 * d.g .tgRateDen g < d.g .depHTotal n * d.ld n * d.g .tgRateNum g

/-- `dep_tro` exceeds (L − A) × P / L. -/
def Dev.troBad (d : Dev) (n : Nat) : Bool :=
  let g := d.g .depGroup n
  let l := d.g .tgTotalLines g
  (l - d.g .tgActiveLines g) * 1000000000 * d.g .tgRateDen g < d.g .depTro n * l * d.g .tgRateNum g

def SealView.checksDepartures (x : SealView) : List (Bool × Nat) :=
  let v := x.v
  let net := v.bound 0
  let heads := v.bound 1
  let caps := v.bound 3
  let wb := (v.kinds [4]).map fun a => v.g .arrWbDep a
  [((List.range 128).any v.linesBad, 0x0311),
   (net.any fun n => v.on .depDup n && v.g .depMac n == v.g .depMacB n, 0x0375),
   (hasDup (heads.map fun n => v.g .depHead n), 0x0371),
   (heads.any fun n => (List.range (v.g .depDpMaxLanes n)).any fun k => v.g .laneProto (4 * v.g .depHead n + k) != 2, 0x0376),
   (heads.any v.headTimingBad, 0x0372),
   (heads.any v.pixelClockBad, 0x0373),
   ((v.bound 2).any fun n => !wb.contains n, 0x0370),
   (caps.any fun n => descKind (x.old.descInForce (v.g .depCapRing n)) != 3, 0x0374),
   (hasDup (caps.map fun n => v.g .depCapRing n), 0x0374),
   (net.any fun n => !v.macReady (v.g .depMac n) || (v.on .depDup n && !v.macReady (v.g .depMacB n)), 0x0312),
   (net.any fun n => v.g .depDstIp n == 0, 0x0201),
   ((List.range 128).any fun n => ((v.g .depBind n).testBit 0 || x.changes [.depTro] n) && v.troBad n, 0x0201)]

/-! ## Audio Ports and Sample Clocks (R231, R234, R241, R244) -/

/-- The family of a rate: 0 for 48 and 96 kHz, 1 for 44.1 and 88.2 kHz. -/
def rateFamily (r : Nat) : Nat := if r = 48000 ∨ r = 96000 then 0 else 1

def Dev.slotsBad (d : Dev) (p : Nat) : Bool :=
  d.g .tdmFrameLen p < d.g .tdmSlots p * d.g .tdmSlotWidth p || d.g .tdmFrameLen p ≤ d.g .tdmSlotOffset p
    || d.g .tdmSlotWidth p < d.g .tdmWordLen p

def Dev.bitRate (d : Dev) (p : Nat) : Nat := d.g .tdmFrameLen p * d.g .tdmRate p

/-- AUDCLK[i] runs at a family base within ±1,000 ppm. -/
def audclkIn (i family : Nat) : Bool :=
  let b := familyBase family
  decide (999 * b ≤ 1000 * Config.audclk i) && decide (1000 * Config.audclk i ≤ 1001 * b)

/-- A PLL's reference is outside its family: the media clock on family 1, an AUDCLK at another frequency, or a slave port of
the other family. -/
def Dev.refBad (d : Dev) (k : Nat) : Bool :=
  let r := d.g .pllRef k
  ((r == 2 || r == 3) && !audclkIn (r - 2) (d.g .pllFamily k)) || (r == 1 && d.g .pllFamily k == 1) || (0x10 ≤ r && rateFamily (d.g .tdmRate (r - 0x10)) != d.g .pllFamily k)

def Dev.quads (d : Dev) : List (Nat × Nat × Nat × Nat) := (d.asrcUsed.map d.asrcQuad).eraseDups

def SealView.checksPorts (x : SealView) : List (Bool × Nat) :=
  let v := x.v
  let ps := List.range 16
  let masters := ps.filter fun p => v.g .tdmMode p == 0
  let ks := List.range 4
  let used := v.asrcUsed
  [(ps.any v.slotsBad, 0x0230),
   (masters.any fun p => 49152000 < v.bitRate p, 0x0232),
   (masters.any fun p => 8 * familyBase (v.g .pllFamily (v.g .tdmPll p)) % max 1 (v.bitRate p) != 0, 0x0234),
   (ks.any v.refBad, 0x0231),
   (ks.any fun k => 0x10 ≤ v.g .pllRef k && !(v.on .tdmEnable (v.g .pllRef k - 0x10) && v.g .tdmMode (v.g .pllRef k - 0x10) == 1),
     0x0381),
   (ps.any fun p => rateFamily (v.g .tdmRate p) != v.g .pllFamily (v.g .tdmPll p), 0x0231),
   (ps.any fun p => !v.on .pllEnable (v.g .tdmPll p), 0x0380),
   (used.any fun n => let q := v.asrcQuad n; q.1 == q.2.2.1 && q.2.1 == q.2.2.2, 0x0383),
   (used.any fun n => 4 * v.g .asrcOutRate n < v.g .asrcInRate n || 4 * v.g .asrcInRate n < v.g .asrcOutRate n, 0x0233),
   (16 < v.quads.length, 0x0410)]

/-! ## Audio Routing, Embedding and Caravans (R256 to R267) -/

/-- A packet time of 125 µs, 250 µs, 333⅓ µs or 1 ms. -/
def packetTimeOk (samples rate : Nat) : Bool := [8000, 4000, 3000, 1000].any fun k => samples * k == rate

def audioPayload (enc chans samples : Nat) : Nat := samples * chans * (if enc = 0 then 2 else 3)

def Dev.flowMatches (d : Dev) (f : Nat) : List Match :=
  [⟨d.g .nrMac f, d.g .nrDstIp f, d.g .nrUdpPort f, d.g .nrPt f, d.g .nrSrcIp f, none⟩]

/-- Ranges [first, first + count) of channels overlap, or pass the 256th. -/
def channelsBad (rs : List (Nat × Nat)) : Bool :=
  (rs.any fun r => 256 < r.1 + r.2) ||
    (List.range rs.length).any fun i => (rs.drop (i + 1)).any fun q =>
      let p := rs.getD i (0, 0)
      p.1 < q.1 + q.2 && q.1 < p.1 + p.2

/-- D of R261 lies below its minimum or above 100,000 µs: packet time, 32 sample periods and 250 µs. -/
def delayBad (us samples rate : Nat) : Bool := us * rate < (samples + 32) * 1000000 + 250 * rate || 100000 < us

def Dev.unitDelayBad (d : Dev) (us u : Nat) : Bool :=
  if u < 0x80 then delayBad us (d.g .nrPacketSamples u) (d.g .nrRate u) else delayBad us 0 48000

def Dev.cvVideo (d : Dev) (c : Nat) : List Nat :=
  [d.g .cvLayer0 c, d.g .cvLayer1 c, d.g .cvLayer2 c, d.g .cvLayer3 c, d.g .cvLayer4 c, d.g .cvLayer5 c, d.g .cvLayer6 c,
   d.g .cvLayer7 c].filter (· != 0xFFFF)

def Dev.cvUnits (d : Dev) (c : Nat) : List Nat :=
  [d.g .cvAudio0 c, d.g .cvAudio1 c, d.g .cvAudio2 c, d.g .cvAudio3 c, d.g .cvAudio4 c, d.g .cvAudio5 c, d.g .cvAudio6 c,
   d.g .cvAudio7 c].filter (· != 0xFF)

def SealView.checksAudio (x : SealView) : List (Bool × Nat) :=
  let v := x.v
  let fs := List.range 64
  let nr := fs.filter fun f => v.on .nrEnable f
  let ns := fs.filter fun f => v.on .nsEnable f
  let cs := List.range 32
  [(v.routes.any fun r => v.srcClock r.2 != v.dstClockOf r.1, 0x0384),
   ((List.range 1024).any fun n => hasDup ((v.dstSrcs n).filter (· != 0xFFFF)), 0x0386),
   (fs.any fun f => !packetTimeOk (v.g .nrPacketSamples f) (v.g .nrRate f)
      || 1440 < audioPayload (v.g .nrEncoding f) (v.g .nrChannels f) (v.g .nrPacketSamples f), 0x0235),
   (fs.any fun f => !packetTimeOk (v.g .nsPacketSamples f) (v.g .nsRate f)
      || 1440 < audioPayload (v.g .nsEncoding f) (v.g .nsChannels f) (v.g .nsPacketSamples f), 0x0235),
   (anyMeet (nr.map v.flowMatches ++ (v.kinds [1, 2]).map v.arrPaths), 0x0320),
   (channelsBad (nr.map fun f => (v.g .nrFirst f, v.g .nrChannels f)), 0x0385),
   (fs.any fun f => (v.caravanOf f).isNone && v.unitDelayBad (v.g .nrOffset f) f, 0x0236),
   (channelsBad (ns.map fun f => (v.g .nsFirst f, v.g .nsChannels f)), 0x0385),
   ((List.range 8).any fun i => v.g .embArrival i != 0xFF && v.g .arrKind (v.g .embArrival i) != 3, 0x0388),
   ((List.range 8).any fun i => (v.caravanOf (0x80 + i)).isNone && v.unitDelayBad (v.g .embOffset i) (0x80 + i), 0x0236),
   ((List.range 8).any fun i => v.g .capDeparture i != 0xFF && !(v.g .depBind (v.g .capDeparture i)).testBit 3, 0x0389),
   (cs.any fun c => (v.cvVideo c).any fun m => v.g .depGroup (m / 8) != v.g .cvGroup c, 0x0387),
   (hasDup ((cs.map v.cvVideo).flatten), 0x0387),
   (hasDup ((cs.map v.cvUnits).flatten), 0x0387),
   (cs.any fun c => (v.cvUnits c).any (v.unitDelayBad (v.g .cvDelay c)), 0x0236)]

/-! ## Porter (R278) -/

/-- A staged `ptr_ring` must name a Porter-command ring that no other channel names. [DEDUCED, log entry 144] -/
def SealView.checksPorter (x : SealView) : List (Bool × Nat) :=
  let staged (k : Nat) : Bool := x.es.any fun y => y.o == .ptrRing && y.i == k
  let named (k : Nat) : Bool := staged k || x.v.on .ptrEnable k
  [((List.range 4).any fun k => staged k && (descKind (x.old.descInForce (x.v.g .ptrRing k)) != 1
      || (List.range 4).any fun m => m != k && named m && x.v.g .ptrRing m == x.v.g .ptrRing k), 0x0390)]

/-! ## High-Speed Serial Lanes (R303, R318) -/

/-- The DisplayPort lanes of quad `q` are not its first 1, 2 or 4 lanes, or the quad has no head. -/
def Dev.quadBad (d : Dev) (q : Nat) : Bool :=
  let dp := (List.range 4).filter fun k => d.g .laneProto (4 * q + k) == 2
  dp != [] && (8 ≤ q || !(dp == [0] || dp == [0, 1] || dp == [0, 1, 2, 3]))

def SealView.checksLanes (x : SealView) : List (Bool × Nat) :=
  let v := x.v
  let ls := List.range 48
  [(hasDup ((ls.filter fun i => v.g .laneProto i == 1).map fun i => v.g .laneMac i), 0x0395),
   ((List.range 12).any v.quadBad, 0x0396),
   (ls.any fun i => 63 < v.g .laneTxMain i + v.g .laneTxPre i + v.g .laneTxPost i, 0x023C)]

/-! ## Ethernet Ports and MACsec (R324, R327) -/

def SealView.checksEthernet (x : SealView) : List (Bool × Nat) :=
  let v := x.v
  let long (n : Nat) (b : Bool) : Bool :=
    v.g .ethMaxFrame (if b then v.g .depMacB n else v.g .depMac n) < v.depFrameLen n b (v.largestPayload n)
  [((v.bound 0).any fun n => long n false || (v.on .depDup n && long n true), 0x0229),
   ((List.range 64).any fun f => v.on .nsEnable f && v.g .ethMaxFrame (v.g .nsMac f) < v.flowFrameLen f, 0x0229),
   ((List.range 24).any fun m => decide (v.macShare m < 8 * (v.videoBytes m + v.audioBytes m)), 0x0411)]

/-! ## Innkeeper (R400) -/

/-- Whether ring `r` may serve a host queue: kind 4, owned by the host, in host memory or the Pantry. -/
def Dev.queueRingOk (d : Dev) (r : Nat) : Bool :=
  let ws := d.descInForce r
  descKind ws == 4 && !descCores ws && descLoc ws ≤ 1

def SealView.checksInnkeeper (x : SealView) : List (Bool × Nat) :=
  let v := x.v
  let qs := (List.range 16).filter fun q => v.on .hqEnable q
  [(qs.any fun q => x.changes [.hqEnable, .hqRing] q
      && (!x.old.queueRingOk (v.g .hqRing q) || qs.any fun p => p != q && v.g .hqRing p == v.g .hqRing q), 0x03C0),
   ((List.range 1024).any fun s => (v.g .srcTargets s).testBit 4 && !v.on .hqEnable (v.g .srcQueue s), 0x03C1)]

/-! ## Dictionary, Roles and the Ledger (R416, R434, R444, R483) -/

def p384 : Nat := 2 ^ 384 - 2 ^ 128 - 2 ^ 96 + 2 ^ 32 - 1

/-- The coefficient b of P-384. [PRESUMED, log entry 64] -/
def p384b : Nat :=
  0xB3312FA7E23EE7E4988E056BE3F82D19181D9C6EFE8141120314088F5013875AC656398D8A2ED19D2A85C8EDD3EC2AEF

/-- 0x04, X and Y are a point of P-384: Y² = X³ − 3X + b. [PRESUMED, log entry 64] -/
def onP384 (k : List Byte) : Bool :=
  let x := ofBe ((k.drop 1).take 48)
  let y := ofBe ((k.drop 49).take 48)
  k.length == 97 && k.take 1 == [0x04#8] && x < p384 && y < p384
    && y * y % p384 == (x * x * x + 3 * (p384 - x) + p384b) % p384

/-- The public key of a credential is a point of the curve. Credential 0 holds the enrolment key until it is written
(R435). [DEDUCED, log entry 107] -/
def Dev.credPoint (d : Dev) (c : Nat) : Bool := (c == 0 && (d.blob .credPubkey 0).isEmpty) || onP384 (d.blob .credPubkey c)

/-- Channels a credential's kind can use: ECDSA on 3 and 4, HMAC on 1 and 2. -/
def Dev.credChannelsBad (d : Dev) (c : Nat) : Bool :=
  let ch := d.g .credChannels c
  let k := d.g .credKind c
  (k == 1 && (ch.testBit 1 || ch.testBit 2)) || (k == 2 && (ch.testBit 3 || ch.testBit 4))

/-- A credential would grant maker on channel 3 or 4 in some state. -/
def Dev.makerOpens (d : Dev) (c : Nat) : Bool :=
  d.on .credEnable c && d.g .credKind c == 1 && (d.g .credRoles c).testBit 2
    && ((d.g .credChannels c).testBit 3 || (d.g .credChannels c).testBit 4)
    && (List.range 4).any fun k => (d.g .credStates c).testBit (k + 1)

/-- The staging writes a credential. -/
def SealView.credentials (x : SealView) : Bool :=
  x.es.any fun y => decide (0x2040 ≤ y.o.index y.i) && decide (y.o.index y.i < 0x2080)

def SealView.keptCount (x : SealView) : Nat := (x.es.filter fun y => y.o.info.kept).length

def SealView.checksRoles (x : SealView) : List (Bool × Nat) :=
  let v := x.v
  let cs := List.range 64
  [(x.keptCount != 0 && v.on .nvProtect, 0x0611),
   (x.keptCount != 0 && v.g .ledgerPolicy == 1 && v.ledgerFull (x.keptCount - 1), 0x0417),
   (x.credentials && cs.any fun c => v.g .credKind c == 1 && !v.credPoint c, 0x0206),
   (x.credentials && cs.any v.credChannelsBad, 0x0207),
   (x.credentials && !cs.any v.makerOpens, 0x0634)]

/-! ## Keyring (R455) -/

/-- The first refusal of a key that the staging's objects name. -/
def SealView.invocation (x : SealView) : Nat :=
  let codes := x.es.filterMap fun y => match namingObject y.o y.i with
    | some serves => if y.v = noKey then none else some (x.old.invokeCode y.v x.role serves)
    | none => none
  firstFailing codes

/-- The first failing agreement check, 0 when all pass: of each chapter, when the staging holds an object of its own tables
or one of another chapter that its checks compare (R116). [DEDUCED, log entry 35] -/
def SealView.agree (x : SealView) : Nat :=
  let c := firstCode (x.part [2] x.checksTime ++ x.part [2, 15] x.checksPtp ++ x.part [2, 3, 7, 10] x.checksStreams
    ++ x.part [2, 3, 4, 13, 15] x.checksArrivals ++ x.part [3, 5] x.checksRooms ++ x.part [3, 7] x.checksLayers
    ++ x.part [3, 7, 8] x.checksScaling ++ x.part [3, 9] x.checksSign ++ x.part [3, 10] x.checksCodec
    ++ x.part [2, 3, 11, 15] x.checksDepartures ++ x.part [12] x.checksPorts ++ x.part [3, 4, 12, 13] x.checksAudio
    ++ x.checksPorter ++ x.part [15] x.checksLanes ++ x.part [2, 3, 10, 11, 13, 16] x.checksEthernet ++ x.part [19] x.checksInnkeeper
    ++ x.checksRoles)
  if c ≠ 0 then c else x.invocation

end Sys2Proof.Machine
end

