-- ==== Sys2Proof/Machine/Seal.lean ====
section
/-!
DEFINITION. Seals: admission and placement (R62 to R66, R89, R173, R185, R197, R376), opening, sealing, holding and
abandoning a staging (R114 to R119, R130, R134).
-/

namespace Sys2Proof.Machine

/-! ## Placement on engines (R64) -/

/-- A bound departure that this seal places afresh: it has no engine in force, or its request, raster or timing group
changes. -/
def SealView.afresh (x : SealView) (n : Nat) : Bool :=
  x.v.g .depBind n != 0 && (x.old.g .depBind n == 0 || x.old.g .depEngine n == 0xFF
    || x.changes [.depEngineReq, .depWidth, .depHeight, .depGroup] n)

/-- Departures placed afresh, ascending. -/
def SealView.fresh (x : SealView) : List Nat := (List.range 128).filter x.afresh

/-- The first explicit request for an engine that is RETIRED or TESTING. -/
def SealView.requestBad (x : SealView) : Bool :=
  x.fresh.any fun n =>
    let k := x.v.g .depEngineReq n
    k != 0xFF && (x.v.g .engState k == engRetired || x.v.g .engState k == engTesting)

/-- Kept and explicit placements: the configuration with every automatic departure still without an engine. -/
def SealView.placeFixed (x : SealView) : Dev :=
  (List.range 128).foldl (fun (d : Dev) n =>
    if d.g .depBind n = 0 then d.put .depEngine n 0xFF
    else if x.afresh n then d.put .depEngine n (d.g .depEngineReq n) else d) x.v

/-- The lowest-numbered engine 0 to 23 IN_SERVICE with room in its count and its load. -/
def Dev.engineFor (d : Dev) (n : Nat) : Option Nat :=
  (List.range 24).find? fun k => d.g .engState k == engInService && (d.served k).length < 8
    && decide (d.engineLoad k + d.depLoad n ≤ engineLimit)

/-- Automatic placement in ascending departure number; none when one finds no engine. -/
def Dev.placeAuto : Dev → List Nat → Option Dev
  | d, [] => some d
  | d, n :: t => match d.engineFor n with
    | none => none
    | some k => (d.put .depEngine n k).placeAuto t

/-- The twin of a departure may not stand where it is asked for (R185). -/
def SealView.twinBad (x : SealView) (v : Dev) (n : Nat) : Bool :=
  let k := v.g .sbTwin n
  v.on .sbEnable n && k != 0xFF
    && (x.changes [.sbTwin, .sbEnable] n || x.old.g .depEngine n != v.g .depEngine n)
    && (23 < k || v.g .engState k != engInService || k == v.g .depEngine n)

/-- Departures of an engine with the twins it composes. -/
def Dev.countWithTwins (d : Dev) (k : Nat) : Nat := (d.served k).length + (d.twinsOn k).length

/-- Count before load, engine by engine. -/
def Dev.enginesCode (d : Dev) : Nat :=
  firstCode ((List.range 25).map fun k => [(decide (8 < d.countWithTwins k), 0x0404),
    (decide (engineLimit < d.committedLoad k), 0x0403)]).flatten

/-! ## Stores (R89, R372, R376) -/

/-- Bytes of a freeze store: a room at the departure's raster, in pieces. -/
def Dev.freezeStore (d : Dev) (n : Nat) : Nat :=
  pieces (ceilDiv (d.g .depHeight n * roomPitch (d.g .depSampling n) (d.g .depDepth n) (d.g .depWidth n)) 4096 * 4096)

def Dev.freezeSum (d : Dev) : Nat := (d.freezers.map fun n => 2 * d.freezeStore n).sum

def Dev.storesCode (d : Dev) : Nat :=
  firstCode [(decide (d.g .panSliceKib * 1024 < d.ringSum), 0x0406),
    (decide (d.roomPoolBytes < d.roomSum), 0x0408),
    (decide (d.regionSize (d.g .dramFreezeMib) < d.freezeSum), 0x0413)]

/-- The codec partition holds 128 KiB for each engine that serves a stream. -/
def Dev.codecRoom (d : Dev) : Bool :=
  decide (128 * ((List.range 24).filter fun c => !(d.engineStreams d.loads c).isEmpty).length ≤ d.g .panCodecKib)

/-! ## Admission (R62 to R64) -/

def totalLimit : Rat := 12800000000

/-- Admission: the code, and the configuration with its departures and streams placed. -/
def SealView.admission (x : SealView) : Nat × Dev :=
  if totalLimit < ((List.range 256).map x.v.arrLoad).sum then (0x0401, x.v)
  else if totalLimit < ((List.range 128).map x.v.depLoad).sum then (0x0402, x.v)
  else if x.requestBad then (0x0352, x.v)
  else match x.placeFixed.placeAuto (x.fresh.filter fun n => x.v.g .depEngineReq n == 0xFF) with
    | none => (0x0407, x.v)
    | some v =>
      if (List.range 128).any fun n => x.twinBad v n then (0x0360, v)
      else if v.enginesCode ≠ 0 then (v.enginesCode, v)
      else if (List.range 25).any fun k => decide (poolSize < v.poolNeed k) then (0x040B, v)
      else match Dev.codecPlace x.old v x.old.unplaced with
        | none => (0x0405, v)
        | some v =>
          if !v.codecRoom then (0x0405, v)
          else if v.storesCode ≠ 0 then (v.storesCode, v)
          else (0, v.placeLoose v.loads v.unplaced)

/-- The view of a seal of these entries. [DEDUCED, log entry 35] -/
def Dev.sealView (d : Dev) (es : List Entry) (role : Nat) : SealView :=
  let old := d.afterSeals
  { old := old, v := old.overlay es, es := es, role := role }

/-- Every check of a seal, then admission. -/
def SealView.code (x : SealView) : Nat × Dev :=
  let c := x.agree
  if c ≠ 0 then (c, x.v) else x.admission

/-! ## Parts (R117) -/

/-- The group whose part an entry belongs to. -/
def Dev.partOf (d : Dev) (anchor : Nat) (o : Obj) (i : Nat) : Nat :=
  let k := o.index i
  if 0x3400 ≤ k ∧ k < 0x3480 then d.g .depGroup (k - 0x3400)
  else if 0x3800 ≤ k ∧ k < 0x3C00 then d.g .depGroup ((k - 0x3800) / 8)
  else if 0x2210 ≤ k ∧ k < 0x2230 then k - 0x2210
  else anchor

/-- Departures a staging touches: their own objects, their layers', their regions'. -/
def Entry.depOf (x : Entry) : Option Nat :=
  let k := x.o.index x.i
  if 0x3400 ≤ k ∧ k < 0x3480 then some (k - 0x3400)
  else if 0x3800 ≤ k ∧ k < 0x3C00 then some ((k - 0x3800) / 8)
  else if 0x3E00 ≤ k ∧ k < 0x3E80 then some (k - 0x3E00)
  else none

/-- Only layer objects of one departure, at least one (R119). -/
def layersOfOne (es : List Entry) : Bool :=
  let layer (x : Entry) : Option Nat :=
    let k := x.o.index x.i
    if 0x3800 ≤ k ∧ k < 0x3C00 then some ((k - 0x3800) / 8) else none
  match es with
  | [] => false
  | x :: _ => (layer x).isSome && es.all fun y => layer y == layer x

/-! ## Sealing (R116, R119, R130) -/

/-- Engines the seal places departures on, as entries of the departures' own parts. -/
def SealView.placements (x : SealView) (v : Dev) : List Entry :=
  x.fresh.map fun n => { o := .depEngine, i := n, v := v.g .depEngine n, bytes := [], part := 0 }

/-- Streams are placed from the acceptance of the seal (R197). -/
def Dev.takePlacement (d v : Dev) : Dev := (v.streams.foldl (fun (d : Dev) s => d.placeStream s (v.codecOf s)) d).reportCodecs

/-- The code of a seal goes to the staging and to the departures it touches; a refusal sets `stg_event` bit 1. -/
def Dev.sealAnswer (d : Dev) (k code : Nat) (es : List Entry) : Dev :=
  let d := ((es.filterMap Entry.depOf).eraseDups).foldl (fun d n => d.put .depStatus n code) d
  let d := (d.put .stgLastStatus k code).answerCode code
  if code = 0 then d else (d.flag .stgEvent k 1).noteFull code

/-- The anchor of a staging: `STG0_ANCHOR` for staging 0. -/
def Dev.anchorOf (d : Dev) (k : Nat) : Nat := if k = 0 then d.reg 0x204 % 32 else (d.stg k).anchor

/-- The staging becomes SEALED: its entries take their parts, streams and departures their places. -/
def Dev.sealPass (e : Env) (d : Dev) (k : Nat) (w : Origin) (x : SealView) (v : Dev) : Dev :=
  let c := d.stg k
  let anchor := d.anchorOf k
  let es := (c.entries ++ x.placements v).map fun y => { y with part := d.partOf anchor y.o y.i }
  let c := { c with anchor := anchor, entries := es, role := w.role, ch := w.ch, cred := w.cred, order := d.seals, sealed := e.now }
  let d := ({ d with seals := d.seals + 1 }).putStg k c
  let d := ((d.put .stgState k stgSealed).put .stgSealTick k e.tick).takePlacement v
  d.noteOutsiders x.old x.v (List.range 1024)

/-- The staging becomes HELD. -/
def Dev.holdPass (e : Env) (d : Dev) (k : Nat) (w : Origin) : Dev :=
  let c := d.stg k
  let d := d.putStg k { c with role := w.role, ch := w.ch, cred := w.cred, order := d.seals, sealed := e.now }
  ((({ d with seals := d.seals + 1 }).put .stgState k stgHeld).put .stgSealTick k e.tick)

/-- Seal staging `k`. -/
def Dev.sealStg (e : Env) (d : Dev) (k role : Nat) (w : Origin) : Dev :=
  let es := (d.stg k).entries
  let x := d.sealView es role
  let (code, v) := x.code
  (if code = 0 then d.sealPass e k w x v else d).sealAnswer k code es

/-- Seal staging `k` as HELD. -/
def Dev.holdStg (e : Env) (d : Dev) (k role : Nat) (w : Origin) : Dev :=
  let es := (d.stg k).entries
  let x := d.sealView es role
  let code := if layersOfOne es then x.code.1 else 0x0345
  (if code = 0 then d.holdPass e k w else d).sealAnswer k code es

/-! ## A session's staging (R114, R130) -/

/-- The staging session `s` holds OPEN. -/
def Dev.openStg (d : Dev) (s : Nat) : Option Nat := (d.heldStg s).filter fun k => d.g .stgState k == stgOpened

/-- The lowest FREE staging of 1 to 15 opens for a session, with the anchor the session has written. -/
def Dev.openFor (d : Dev) (s : Nat) : Option (Nat × Dev) :=
  match ((List.range 15).map (1 + ·)).find? fun k => d.g .stgState k == stgFree with
  | none => none
  | some k =>
    let anchor := match d.session s with
      | some x => x.anchor
      | none => 0
    some (k, (((d.putStg k { anchor := anchor }).put .stgState k stgOpened).put .stgOwner k s).put .stgEntries k 0)

/-- `stg_open` 1. -/
def Dev.stgOpenFor (d : Dev) (s : Nat) : Dev :=
  if (d.heldStg s).isSome then d.answerCode 0x0348
  else match d.openFor s with
    | none => d.answerCode 0x0409
    | some (_, d) => d.answerCode 0

/-- `stg_seal` 1 or 2; the session keeps the code as `stg_status`. -/
def Dev.stgSealFor (e : Env) (d : Dev) (s : Nat) (held : Bool) : Dev :=
  let d := match d.openStg s with
    | none => d.answerCode 0x0340
    | some k => if held then d.holdStg e k (d.g .sesRole s) (d.origin s) else d.sealStg e k (d.g .sesRole s) (d.origin s)
  d.updSession s fun x => { x with sealCode := d.answer.code }

/-- `stg_abandon` 1. -/
def Dev.stgAbandonFor (d : Dev) (s : Nat) : Dev :=
  match d.heldStg s with
  | none => d.answerCode 0x0340
  | some k => (d.abandonStg k).answerCode 0

/-! ## The direct staging (R115, R134) -/

/-- Who a Ledger record of staging 0 names: no session and no role (R441). [DEDUCED, log entry 91] -/
def directOrigin : Origin := {}

/-- `STG0_CTRL.SEAL` and `STG0_CTRL.HOLD`. -/
def Dev.stg0Seal (e : Env) (d : Dev) (held : Bool) : Dev :=
  if d.g .stgState 0 ≠ stgOpened then (d.put .stgLastStatus 0 0x0340).answerCode 0x0340
  else if held then d.holdStg e 0 roleMaker directOrigin
  else d.sealStg e 0 roleMaker directOrigin

/-- `STG0_CTRL.ABANDON`. -/
def Dev.stg0Abandon (d : Dev) : Dev :=
  if d.g .stgState 0 = stgOpened ∨ d.g .stgState 0 = stgHeld then (d.abandonStg 0).answerCode 0 else d.answerCode 0x0340

end Sys2Proof.Machine
end

