-- ==== Sys2Proof/Machine/StartOps.lean ====
section
/-!
DEFINITION. Bursts of the NV store, resets and the start-up sequence, power states and wake (R437 to R439, R443, R452,
R478 to R491, R494 to R510).
-/

namespace Sys2Proof.Machine

/-! ## Bursts (R480, R481, R483, R488) -/

/-- Groups of a burst. -/
def burstGroups (bs : List Byte) : Nat := ceilDiv bs.length 16

/-- The hold-up result lets a write run. [DEDUCED, log entry 73] -/
def Dev.holdupLets (d : Dev) (j : NvJob) : Bool := !(j.inKept && d.g .nvHoldupState == 2 && d.g .nvHoldupPolicy == 0)

/-- Queued bursts to a region NVWP_N protects are discarded. -/
def Dev.dropGuarded (d : Dev) : Dev :=
  if !d.on .nvProtect then d
  else
    let gone := d.nv.queue.filter NvJob.guarded
    let held := match d.nv.job with
      | some j => if j.guarded then d.nv.rest.length else 0
      | none => 0
    let n := (gone.map NvJob.bursts).sum + held
    if gone.isEmpty ∧ held = 0 then d
    else
      let d := gone.foldl Dev.jobLost d
      let d := if held = 0 then d
        else { d with nv := { d.nv with rest := [], job := if d.nv.running.isSome then d.nv.job else none } }
      let d := { d with nv := { d.nv with queue := d.nv.queue.filter fun j => !j.guarded } }
      ((d.count .nvDropped 0 n).flag .nvEventFlags 0 2).reportNv

/-- Queued Ledger records that stand right after an offset join its burst, up to 16 groups. [DEDUCED, log entry 69] -/
def ledgerRun (off : Nat) : List NvJob → Nat → List Byte × List NvJob
  | [], _ => ([], [])
  | j :: t, room =>
    if room = 0 ∨ j.region ≠ 2 ∨ ledgerAt j.id ≠ off then ([], j :: t)
    else
      let r := ledgerRun (off + 32) t (room - 1)
      (j.body ++ r.1, r.2)

/-- The next burst: the write under way goes on, or the first write of the FIFO that may run starts.
[DEDUCED, log entry 73] -/
def Dev.nextBurst (e : Env) (d : Dev) : Option (Nat × List Byte) × Dev :=
  match d.nv.rest with
  | b :: t => (some b, { d with nv := { d.nv with rest := t } })
  | [] =>
    match d.nv.queue.find? fun j => d.holdupLets j with
    | none => (none, d)
    | some j =>
      let q := d.nv.queue.erase j
      match d.jobBursts e j with
      | [] => (none, { d with nv := { d.nv with queue := q } })
      | (off, bs) :: t =>
        let r : List Byte × List NvJob := if j.region = 2 then ledgerRun (off + 32) q 7 else ([], q)
        (some (off, bs ++ r.1), { d with nv := { d.nv with queue := r.2, job := some j, rest := t } }.selectsPair e j)

/-- A burst passes its supply check and starts: no power fail, no test, the result of the first test known. -/
def Dev.burstStarts (e : Env) (d : Dev) : Dev :=
  if d.nv.failing ∨ d.nv.testing.isSome ∨ d.g .nvHoldupState = 0 ∨ d.nv.running.isSome then d
  else
    let d := d.dropGuarded
    let (b, d) := d.nextBurst e
    match b with
    | none => d.reportNv
    | some (off, bs) => ({ d with nv := { d.nv with running := some (off, bs, e.now) } }).reportNv

/-- The bytes of a burst stand in the store, and the poison of its groups is gone. -/
def Dev.burstWritten (d : Dev) (off : Nat) (bs : List Byte) : Dev :=
  let gs := (List.range (burstGroups bs)).map (off / 16 + ·)
  let d := gs.foldl (fun (d : Dev) g => { d with nv := { d.nv with poison := d.nv.poison.del g } }) d
  (d.post .nv off bs).count .nvBursts

/-- A write whose last burst is done: the pair it replaces is freed. -/
def Dev.jobDone (d : Dev) : Dev :=
  if d.nv.rest.isEmpty then
    match d.nv.job with
    | none => d
    | some j =>
      let d := { d with nv := { d.nv with job := none } }
      match j.frees with
      | some page => d.freePair j.id page
      | none => d
  else d

/-- The burst in progress ends: 64 ticks a group. [DEDUCED, log entry 74] -/
def Dev.burstEnds (d : Dev) : Dev :=
  match d.nv.running with
  | none => d
  | some (off, bs, _) =>
    ((({ d with nv := { d.nv with running := none } }).burstWritten off bs).jobDone).reportNv

def Dev.burstOver (e : Env) (d : Dev) : Bool :=
  match d.nv.running with
  | none => false
  | some (_, bs, start) => decide (start + 64 * burstGroups bs ≤ e.now)

/-- Nothing waits in the FIFO and no burst runs. -/
def NvUnit.idle (u : NvUnit) : Bool := u.queue.isEmpty && u.rest.isEmpty && u.running.isNone

/-- The FIFO runs out: every queued write that may run is programmed, in order. -/
def State.drainNv : Nat → State → State
  | 0, s => s.run fun _ d => d.burstEnds
  | n + 1, s =>
    if s.dev.nv.idle then s
    else
      let s := s.run fun _ d => d.burstEnds
      (s.run fun e d =>
        let (b, d) := d.dropGuarded.nextBurst e
        match b with
        | none => d
        | some (off, bs) => ((d.burstWritten off bs).jobDone).reportNv).drainNv n

/-! ## Hold-up test and scrubbing (R483, R489) -/

/-- The test starts: before the first burst, and 24 h after the last. -/
def Dev.holdupDue (e : Env) (d : Dev) : Bool :=
  d.nv.testing.isNone && d.nv.running.isNone && !d.nv.failing &&
    match d.nv.tested with
    | none => true
    | some t => decide (t + dayTicks ≤ e.now)

def Dev.holdupStarts (e : Env) (d : Dev) : Dev := { d with nv := { d.nv with testing := some e.now } }

/-- Ticks of the test, 100 us, and of the recharge, 2 ms. -/
def holdupTicks : Nat := 8400

/-- The test and the recharge are over. -/
def Dev.holdupOver (e : Env) (d : Dev) : Bool :=
  match d.nv.testing with
  | some t => decide (t + holdupTicks ≤ e.now)
  | none => false

/-- The test and the recharge end. [DEDUCED, log entry 75] -/
def Dev.holdupEnds (e : Env) (d : Dev) (nf : Nat) : Dev :=
  if !d.holdupOver e then d
  else
    let v := if 1800 ≤ nf then 1 else 2
    let d := ({ d with nv := { d.nv with testing := none, tested := some e.now } }).put .nvHoldupNf 0 nf
    if d.g .nvHoldupState = v then d else (d.put .nvHoldupState 0 v).flag .nvEventFlags 0 0

/-- Groups of the store. -/
def nvGroups : Nat := 32768

/-- A scrub pass ends: 24 h after the last one, and never while a burst is queued. [DEDUCED, log entry 170] -/
def Dev.scrubDue (e : Env) (d : Dev) : Bool := d.nv.queued == 0 && decide (d.nv.scrubbed + dayTicks ≤ e.now)

/-- A scrub pass: corrected groups are written back, poisoned ones reported. [DESIGN CHOICE, log entry 58] -/
def Dev.nvScrub (e : Env) (d : Dev) (corrected uncorrected : List Nat) : Dev :=
  let gone := ((d.nv.poison.map fun (p : Nat × Bool) => p.1) ++ uncorrected.filter (· < nvGroups)).eraseDups
  let mended := (corrected.filter fun g => g < nvGroups && !gone.contains g).eraseDups
  let d := mended.foldl (fun (d : Dev) g =>
    ((d.nvWrite { region := 5, id := 16 * g, page := 0, body := e.mem.readN .nv (16 * g) 16 }).count .nvCorr).flag
      .nvEventFlags 0 3) d
  let d := gone.foldl (fun (d : Dev) g =>
    ({ d with nv := { d.nv with poison := d.nv.poison.put g true } }).meetsPoison (16 * g) 16) d
  ({ d with nv := { d.nv with scrubbed := e.now } }).count .nvScrubs

/-- The level of NVWP_N changes. [DEDUCED, log entry 75] -/
def Dev.nvwp (d : Dev) (low : Bool) : Dev :=
  if d.on .nvProtect = low then d else ((d.put .nvProtect 0 (b2n low)).flag .nvEventFlags 0 7).dropGuarded

/-! ## The Ledger at start-up (R443) -/

/-- Ledger slots with a byte that is not 0, or poisoned. -/
def Dev.ledgerSlots (e : Env) (d : Dev) : List Nat :=
  let at_ (off : Nat) : Option Nat := if 0x5E000 ≤ off ∧ off < 0x7E000 then some ((off - 0x5E000) / 32) else none
  (e.mem.nv.filterMap (fun (c : Host.Cell) => at_ c.1)
    ++ d.nv.poison.filterMap (fun (p : Nat × Bool) => at_ (16 * p.1))).eraseDups

/-- A record of the Ledger as it stands: sequence number, kind and detail. -/
structure LedgerRec where
  seq : Nat
  kind : Nat
  detail : Nat
deriving DecidableEq, Repr

/-- The record of a slot, when its CRC holds. -/
def Dev.ledgerRec (e : Env) (d : Dev) (slot : Nat) : Option LedgerRec :=
  (d.copyAt e (0x5E000 + 32 * slot) 32).map fun (c : Nat × List Byte) =>
    ⟨c.1, blobField c.2 0xC 1, blobField c.2 0x18 4⟩

/-- The records that are valid, and the number of slots that hold none. [DEDUCED, log entry 68] -/
def Dev.ledgerRecs (e : Env) (d : Dev) : List LedgerRec × Nat :=
  let ss := d.ledgerSlots e
  let rs := ss.filterMap (d.ledgerRec e)
  (rs, ss.length - rs.length)

def Dev.ledgerScan (e : Env) (d : Dev) : Dev :=
  let (rs, bad) := d.ledgerRecs e
  let top := (rs.map LedgerRec.seq).foldl max 0
  let low := leastOr (top + 1) (rs.map LedgerRec.seq)
  let acks := rs.filter fun r => r.kind == 0x60
  let last := (acks.map LedgerRec.seq).foldl max 0
  let marked := match acks.find? fun r => r.seq == last with
    | some r => r.detail
    | none => 0
  let d := ((d.put .ledgerNextSeq 0 (top + 1)).put .ledgerOldestSeq 0 low).put .ledgerMarked 0 marked
  let d := if bad = 0 then d else (d.count .ledgerBad 0 bad).flag .ledgerEventFlags 0 2
  (d.nv.poison.filter fun (p : Nat × Bool) => p.2 && 0x5E00 ≤ p.1 && p.1 < 0x7E00).foldl (fun (d : Dev) p => d.meetsPoison (16 * p.1) 16) d

/-! ## Resets (R405, R496) -/

def causePowerOn : Nat := 1
def causePin : Nat := 2
def causeSoftware : Nat := 3
def causeLifeCycle : Nat := 4
def causeRecovery : Nat := 5
def causeWake : Nat := 6
def causeBrownOut : Nat := 7

/-- `RST_SCRATCH`, the register warm resets keep. -/
def scratchReg : Nat := 0x110

/-- Objects Innkeeper saves across SLEEP. -/
def inkRetained : List Obj :=
  [.srcPrio, .srcTargets, .srcQueue, .srcCgroup, .srcMask, .inkGroupBits, .cgCount, .cgTime, .hqEnable, .hqRing, .hqVector,
   .hqArmed]

/-- The state Innkeeper restores on wake: saved sources return PENDING or IDLE, stacks and holds empty. The ticks of their
firings are not among what R405 saves: free values. [DEDUCED, log entry 81] -/
def Dev.inkRestore (old d : Dev) : Dev :=
  let nums := inkRetained.map Obj.ctorIdx
  let saved := old.objs.filter fun (p : Nat × Nat) => nums.contains (p.1 % 1024)
  let os := saved.foldl (fun (t : Tab Nat) (p : Nat × Nat) => t.put p.1 p.2) d.objs
  let d := { d with objs := os }
  old.ink.srcs.foldl (fun (d : Dev) (p : Nat × Src) =>
    if p.2.st = .pending ∨ p.2.st = .held then
      let (first, d) := d.draw 48
      let (span, d) := d.draw 16
      d.putSrc p.1 { st := .pending, count := p.2.count, soft := p.2.soft, fromHold := p.2.fromHold || p.2.st == .held,
                     first := first, last := first + span }
    else d) d

/-- The fuse row of the new state is burnt: its root is a fresh one. -/
def Dev.burnRow (d : Dev) (target : Nat) : Dev :=
  let f := d.fuses
  { d with fuses := { f with lc := target, copies := f.copies.put target 3, voided := f.voided.del target,
                             helper := f.helper.del target }
           pwr := { d.pwr with burning := none } }

/-- A reset that comes while a row is being burnt leaves a free number of its three copies; two count as the row, and the
start-up burns the missing one (R438). [DEDUCED, log entry 155] -/
def Dev.burnCut (d : Dev) : Dev :=
  match d.pwr.burning with
  | none => d
  | some (target, _) =>
    let (v, d) := d.draw 2
    let n := max v (d.fuses.copies.getD target 0)
    if 2 ≤ n then d.burnRow target
    else { d with fuses := { d.fuses with copies := d.fuses.copies.put target n } }

/-- Fuses, NV store, flash and conditions outlast every reset; what a warm one or SLEEP keeps besides. -/
def Dev.afterReset (d : Dev) (cause : Nat) : Dev :=
  let d := d.burnCut
  let n : Dev := {}
  let n := { n with
    drawn := d.drawn
    fuses := d.fuses
    nv := { pairs := d.nv.pairs, keyPages := d.nv.keyPages, poison := d.nv.poison }
    kr := { made := d.kr.made, conds := d.kr.conds, hold := !d.kr.conds.isEmpty }
    pwr := { images := d.pwr.images } }
  let n := n.put .nvProtect 0 (d.g .nvProtect)
  let n := d.kr.conds.foldl (fun (n : Dev) (p : Nat × Nat) => n.nwSet p.1 false) n
  let n := if cause = causePowerOn ∨ cause = causeWake then n else n.putReg scratchReg (d.reg scratchReg)
  if cause = causeWake then (d.inkRestore n).put .nwSleepEvent 0 (d.g .nwSleepEvent) else n

/-- Boot ROM reads fuses and counters as step 1 begins. -/
def Dev.bootReads (e : Env) (d : Dev) (cause start : Nat) : Dev :=
  let q := d.counterAt e 1
  let boot := d.counterAt e 3
  let count := d.counterAt e 0 + 1
  let d := { d with pwr := { d.pwr with began := [(1, start)] } }
  let d := (d.put .lcState 0 (d.fuses.lc + if q = 0 then 0 else 128)).put .suCause 0 cause
  let d := ((d.put .bootCount 0 count).put .fwBoot 0 boot).put .fwRunning 0 boot
  ((d.put .rbCore 0 d.fuses.rbCore).put .rbIsland 0 d.fuses.rbIsland).reportPages

/-- The record of the island's zeroisation by a reset (R472); the first start-up of all has none.
[DEDUCED, log entry 79] -/
def Dev.resetRecord (e : Env) (d : Dev) (cause : Nat) : Dev :=
  if d.g .bootCount = 1 then d
  else d.ledger e 0x4B {} 0 0 0 (if cause = causePowerOn ∨ cause = causeWake then 5 else 4)

/-- A burnt share-void bit with helper data still present: the helper data are overwritten before anything else (R469). -/
def Dev.finishDestroying (e : Env) (d : Dev) : Dev :=
  if d.lc ≠ lcBlank ∧ d.lc ≠ lcEnd ∧ d.fuses.voided.getD d.rootCode false
      ∧ !(e.mem.readN .nv (pageAt d.helperPage) 4096).all (· == 0) then d.eraseHelper
  else d

/-- A reset registers: start-up begins with step 1. -/
def Dev.rebooted (e : Env) (d : Dev) (cause start : Nat) : Dev :=
  (((((d.afterReset cause).bootReads e cause start).finishDestroying e).ledgerScan e).readCounters e).resetRecord e cause

/-- A warm reset: the clock goes on from its nominal rate. [DEDUCED, log entry 72] [DEDUCED, log entry 76] -/
def State.warmReset (s : State) (cause : Nat) : State :=
  let s := s.run fun _ d => (d.burstEnds).nvLose
  let s := s.run fun e d => d.rebooted e cause e.now
  { s with clk := { s.clk with addend := Clock.reset.addend } }

/-- A cold reset: ticks count from power-good again, and only what the NV store holds is left in the memories.
[DEDUCED, log entry 76] -/
def State.coldReset (s : State) (cause : Nat) : State :=
  let s := s.run fun e d => (d.burstCut e.now).nvLose
  let s := { s with clk := Clock.reset, mem := { s.mem with pantry := [], dram := [] } }
  s.run fun e d => d.rebooted e cause e.now

/-- A reset the part makes of itself once the FIFO has run out (R437, R439, R497). [DEDUCED, log entry 72] -/
def State.drainedReset (s : State) (cause : Nat) : State := (s.drainNv (s.dev.nv.queued + 1)).warmReset cause

/-! ## Firmware images at start-up (R463, R506) -/

/-- The image of a flash slot passes R463 against the rollback counter of its kind. -/
def Dev.slotGood (d : Dev) (kind slot : Nat) : Bool :=
  let x := d.pwr.images.getD (2 * kind + slot) {}
  x.ok && decide (d.rollback kind ≤ x.security)

/-- The slot a kind starts from: the boot slot, or the other one when it fails. -/
def Dev.startSlot (d : Dev) (kind : Nat) : Option Nat :=
  let b := d.bootSlot kind
  if d.slotGood kind b then some b else if d.slotGood kind (1 - b) then some (1 - b) else none

/-- A kind is loaded, or left out with its images rejected. -/
def Dev.loadKind (e : Env) (d : Dev) (kind : Nat) : Dev :=
  let b := d.bootSlot kind
  let reject (d : Dev) (s : Nat) : Dev :=
    if d.slotGood kind s then d
    else d.imageRejected e (if (d.pwr.images.getD (2 * kind + s) {}).ok then 0x0651 else 0x0650) kind
  match d.startSlot kind with
  | none => reject (reject d b) (1 - b)
  | some s =>
    let d := reject d b
    let d := if s = b then d else d.put .fwFallback 0 (d.g .fwFallback ||| 2 ^ (4 * kind))
    d.setRunning kind s false

/-- Both copies of the helper data of the current root fail their checks: a group of each is poisoned (R452, R485). -/
def Dev.helperFails (d : Dev) : Bool :=
  d.poisoned (pageAt d.helperPage) 2048 && d.poisoned (pageAt d.helperPage + 2048) 2048

/-- The root of the fused state is rebuilt from its seed and its helper data, or lost (R452). -/
def Dev.rebuildRoot (d : Dev) : Dev :=
  let k := d.rootCode
  if d.lc = lcEnd then d.put .krRootState 0 0
  else if d.lc = lcBlank then d.put .krRootState 0 1
  else
    let lost := d.fuses.voided.getD k false || d.fuses.helper.getD k false || d.helperFails
    (d.meetsPoison (pageAt d.helperPage) 4096).put .krRootState 0 (if lost then 2 else 1)

/-- The cores run firmware from now on, unless they have no image. -/
def Dev.startCores (now : Nat) (d : Dev) (held : Bool) : Dev :=
  { d with pwr := { d.pwr with coresAt := now, coresHeld := held, kicks := [] } }

/-! ## Kept values at start-up (R416, R456, R486, R487) -/

/-- The entries of a copy: subindex and value bytes. -/
def copyEntries : Nat → List Byte → List (Nat × List Byte)
  | 0, _ => []
  | n + 1, b =>
    let len := blobField b 1 2
    (blobField b 0 1, (b.drop 3).take len) :: copyEntries n (b.drop (3 + len))

/-- The record of an index: the newest of its pairs that reads, and whether its copies are of one number and differ. -/
def Dev.keptRecord (e : Env) (d : Dev) (qs : List NvPair) : List (Nat × List Byte) × Bool :=
  match qs.reverse.findSome? fun (q : NvPair) => match d.pairAt e q.page q.k with
    | (some (_, _, b), differ) => some (b, differ)
    | (none, _) => none with
  | none => ([], false)
  | some (b, differ) => (copyEntries (blobField b 8 1) (b.drop 0xC), differ)

/-- A kept value comes into force. -/
def Dev.keptComes (d : Dev) (index : Nat) (x : Nat × List Byte) : Dev × List (Obj × Nat) :=
  match decodeObj index x.1 with
  | none => (d, [])
  | some (o, i) =>
    match o.info.ty with
    | .str | .domain => (d.putBlob o i x.2, [(o, i)])
    | _ =>
      let v := ofLe x.2
      let d := if o.info.apply = .restart then { d with nv := { d.nv with kept := d.nv.kept.put (o.key i) v } } else d
      (d.put o i v, [(o, i)])

/-- Every kept value, and the objects that changed. [DEDUCED, log entry 81] -/
def Dev.keptValues (e : Env) (d : Dev) : Dev × List (Obj × Nat) :=
  d.nv.pairs.foldl (fun (r : Dev × List (Obj × Nat)) (p : Nat × List NvPair) =>
    let (es, differ) := r.1.keptRecord e p.2
    let d := p.2.foldl (fun (d : Dev) (q : NvPair) => d.meetsPair q.page q.k) r.1
    let d := if differ then d.equalSeq e p.1 else d
    es.foldl (fun (r : Dev × List (Obj × Nat)) x =>
      let t := r.1.keptComes p.1 x
      (t.1, r.2 ++ t.2)) (d, r.2)) (d, [])

/-- The key records, as the island reads them (R461). -/
def Dev.keptKeys (e : Env) (d : Dev) : Dev :=
  (d.nv.keyPages.foldl (fun (d : Dev) (p : Nat × Nat) =>
    let d := d.meetsPair p.2 0
    match d.pairAt e p.2 0 with
    | (none, _) => { d with nv := { d.nv with keyPages := d.nv.keyPages.del p.1 } }
    | (some (_, _, b), differ) =>
      let r : KeyRec := if blobField b 4 1 = 2 then ⟨true, []⟩ else ⟨false, (b.drop 5).take 64⟩
      let d := { d with kr := { d.kr with recs := d.kr.recs.put p.1 r } }
      if differ then
        ({ d with kr := { d.kr with contested := d.kr.contested.put p.1 true } }).keyEvent e 5 {} 0 p.1
      else d) d).reportKeys

/-- Departures and streams of the kept values take their engines (R64, R197). [DEDUCED, log entry 85] -/
def Dev.startPlaces (old d : Dev) : Dev :=
  let bound := (List.range 128).filter fun n => d.g .depBind n != 0
  let d := bound.foldl (fun (d : Dev) n => if d.g .depEngineReq n = 0xFF then d else d.put .depEngine n (d.g .depEngineReq n)) d
  let d := bound.foldl (fun (d : Dev) n =>
    if d.g .depEngineReq n = 0xFF then
      match d.engineFor n with
      | some k => d.put .depEngine n k
      | none => d
    else d) d
  (match Dev.codecPlace old d [] with
    | some d => d
    | none => d.placeLoose d.loads d.streams).reportCodecs

/-- The Ledger holds no record of the step into the fused state (R438). [DEDUCED, log entry 80] -/
def Dev.stepUnrecorded (e : Env) (d : Dev) : Bool :=
  d.lc != lcBlank && !(d.ledgerRecs e).1.any fun r => r.kind == 0x30 && r.detail / 256 % 128 == d.rootCode

/-- A CAN FD controller's NMT state changes (R421, R423). [PRESUMED, log entry 103] -/
def Dev.setNmt (d : Dev) (k v : Nat) : Dev :=
  if d.g .canNmtState k = v then d else (d.put .canNmtState k v).flag .canEventFlags k 0

/-- A controller sends a heartbeat message: its NMT state, 0 for boot-up. -/
def Dev.canSends (d : Dev) (k v : Nat) : Dev := { d with ses := { d.ses with sent := (k, v) :: d.ses.sent } }

/-- A controller enters Pre-operational with its boot-up message (R421). -/
def Dev.bootUp (d : Dev) (k : Nat) : Dev := (d.setNmt k 1).canSends k 0

/-- The controllers that are on boot up into Pre-operational. -/
def Dev.bootUpCan (d : Dev) : Dev :=
  d.forEach (List.range 2) fun d k => if d.on .canEnable k then d.bootUp k else d.setNmt k 0

/-- Step 4 ends: kept values come into force together, kept keys are unwrapped. [DEDUCED, log entry 80] -/
def Dev.valuesInForce (e : Env) (d : Dev) : Dev :=
  let d := if d.stepUnrecorded e then
      let (v, d) := d.draw 8
      d.ledger e 0x30 {} 0 0 0 (v + 256 * d.rootCode + 2 ^ 31)
    else d
  let d := d.keptKeys e
  let (n, ch) := d.keptValues e
  let n := Dev.startPlaces d n
  let bound := ((List.range 128).filter fun k => n.g .depEngine k != d.g .depEngine k).map fun k => (Obj.depEngine, k)
  ((Dev.landed e (ch ++ bound) d n).reloadKeys e).bootUpCan

/-! ## Start-up steps (R500 to R504) -/

def stepTimeout (k : Nat) : Nat := [0, 50, 80, 400, 150, 300, 500, 1500, 1200, 120].getD k 0 * 4000

/-- A step has begun and not ended. -/
def Dev.stepRuns (d : Dev) (k : Nat) : Bool := (d.pwr.began.find k).isSome && (d.pwr.ended.find k).isNone

/-- The fitted DRAM is what R373 asks for. -/
def dramFits : Bool :=
  let c := Config.dramFitted 0
  (List.range 8).all (fun k => Config.dramFitted k == c) && [4096, 8192, 16384, 32768, 65536].contains (8 * c)

/-- A departure in force has emitted a frame in which every layer shows a picture or a fill. -/
def Dev.showsFrame (d : Dev) (n : Nat) : Bool :=
  decide (0 < d.g .depFrames n) && (d.stack n).all fun m =>
    d.g .layState m == layFresh || d.g .layState m == layRepeat || d.g .layState m == layFilled

/-- The work of a step is done. -/
def Dev.stepDone (d : Dev) (k : Nat) : Bool :=
  match k with
  | 1 => true
  | 2 => d.kr.test.isNone && !d.kr.hold
  | 3 => (d.startSlot 0).isSome && (d.startSlot 1).isSome && !d.kr.hold
  | 4 => d.g .nvHoldupState != 0 && d.nv.testing.isNone && !d.kr.hold
  | 5 => (List.range 8).all fun c => d.g .dchState c != dchTraining
  | 6 => (List.range 48).all fun i => d.g .laneProto i != 1 || d.g .laneState i == laneUp
  | 7 => !d.on .ptpEnable || d.g .tbState == 2
  | 8 => ((List.range 256).all fun a => d.g .arrKind a == 0 || d.g .arrState a == arrLive)
      && (List.range 64).all fun f => !d.on .nrEnable f || d.g .nrState f == 2
  | 9 => (List.range 128).all fun n => d.g .depBind n == 0 || d.g .depState n == depLive && d.showsFrame n
  | _ => false

/-- A step starts. -/
def Dev.beginStep (e : Env) (d : Dev) (k : Nat) : Dev :=
  let d := { d with pwr := { d.pwr with began := d.pwr.began.put k e.now } }
  match k with
  | 2 => if d.kr.hold then d else d.startTest e.now
  | 5 =>
    if dramFits then
      let d := d.put .dramCapMib 0 (8 * Config.dramFitted 0)
      d.forEach (List.range 8) fun d c => d.setDch c dchTraining
    else d.forEach (List.range 8) fun d c => (d.setDch c dchFailed).flag .dchEventFlags c 3
  | 8 => (List.range 24).foldl (fun (d : Dev) m => d.igmpAnswer m 0) d
  | _ => d

/-- DRAM as training leaves it: the slots of failed channels are unmapped. -/
def Dev.dramReady (e : Env) (d : Dev) : Dev :=
  let failed := (List.range 8).filter fun c => d.g .dchState c == dchFailed
  let d := failed.foldl (fun (d : Dev) c =>
    ((List.range d.stripes).filter (d.onChannel c)).foldl (fun (d : Dev) s => d.setStripe s none) d) d
  let d := d.reportRooms
  if failed.length = 8 then d.enterQuarantine e 12 else d

/-- The work of a step as it ends; `full` when its condition held, otherwise its timeout has expired.
[DEDUCED, log entry 78] -/
def Dev.stepEffect (e : Env) (d : Dev) (k : Nat) (full : Bool) : Dev :=
  match k with
  | 1 => if full then d.keepCounter 0 (d.g .bootCount) else (d.keepCounter 0 (d.g .bootCount)).enterQuarantine e 7
  | 2 => if full then d else d.enterQuarantine e 8
  | 3 =>
    let d := if d.kr.hold then d else (d.rebuildRoot.loadKind e 1).loadKind e 0
    if full then d.startCores e.now false
    else if d.kr.hold ∨ (d.startSlot 1).isNone then
      (d.startCores e.now (d.kr.hold || (d.startSlot 0).isNone)).enterQuarantine e 10
    else (d.startCores e.now true).enterQuarantine e 9
  | 4 => (if full then d.valuesInForce e else d).forEach (List.range 4) (Dev.pllSwitch e.now)
  | 5 =>
    let d := if full then d else
      ((List.range 8).filter fun c => d.g .dchState c == dchTraining).foldl (fun (d : Dev) c =>
        (d.setDch c dchFailed).flag .dchEventFlags c 3) d
    d.dramReady e
  | 9 =>
    if d.pwr.resuming then { d with pwr := { d.pwr with resuming := false } }
    else
      let d := d.ledger e 2 {} 0 0 0 (d.g .suCause)
      { d with pwr := { d.pwr with started := true } }
  | _ => d

/-- The steps that start when one has ended. -/
def Dev.nextSteps (d : Dev) (k : Nat) : List Nat :=
  if d.pwr.resuming then (if k = 6 then [8] else if k = 8 then [9] else [])
  else if k < 4 ∨ k = 7 ∨ k = 8 then [k + 1]
  else if k = 4 then [5, 6]
  else if (k = 5 ∨ k = 6) ∧ (d.pwr.ended.find (11 - k)).isSome then [7]
  else []

/-- A step ends and the next one starts. [DEDUCED, log entry 77] -/
def Dev.endStep (e : Env) (d : Dev) (k : Nat) (full : Bool) : Dev :=
  let d := if full then d else d.put .suExpired 0 (d.g .suExpired ||| 2 ^ (k - 1))
  let d := d.stepEffect e k full
  let next := d.nextSteps k
  let d := ({ d with pwr := { d.pwr with ended := d.pwr.ended.put k e.now } }).put .suStep 0 k
  next.foldl (fun (d : Dev) j => d.beginStep e j) d

def stepNumbers : List Nat := (List.range 9).map (1 + ·)

/-- The lowest step under way whose work is done. -/
def Dev.stepEnding (d : Dev) : Option Nat := stepNumbers.find? fun k => d.stepRuns k && d.stepDone k

/-- The lowest step under way whose timeout has passed. -/
def Dev.stepExpiring (e : Env) (d : Dev) : Option Nat :=
  stepNumbers.find? fun k => d.stepRuns k && decide (d.pwr.began.getD k 0 + stepTimeout k ≤ e.now)

/-! ## Power states (R497, R507 to R510) -/

/-- Start leaving OPERATE: each group's departures stop at its next commit point. -/
def Dev.leaveAll (d : Dev) : Dev := { d.stopSlots with pwr := { d.stopSlots.pwr with leaving := List.range 32 } }

/-- Back to OPERATE: steps 6, 8 and 9 run again. [DEDUCED, log entry 60] -/
def Dev.resume (e : Env) (d : Dev) : Dev :=
  let p := d.pwr
  let d := { d with pwr := { p with resuming := true
                                    began := ((p.began.del 8).del 9).put 6 e.now
                                    ended := ((p.ended.del 6).del 8).del 9 } }
  let idle := (List.range 48).filter fun i => d.laneIdle i
  idle.foldl (fun (d : Dev) i => d.settleLane e.now i 1) ((d.put .pwrState 0 0).trackersFollow e.now)

/-- Why `pwr_cmd` is refused from the present power state. [DEDUCED, log entry 83] -/
def Dev.pwrCode (d : Dev) (v : Nat) : Nat :=
  if !d.pwr.leaving.isEmpty ∨ d.pwr.sleeping.isSome ∨ d.pwr.resetAt.isSome then 0x0301
  else if 4 < v then 0x0201
  else if v = 0 then (if d.stopped then 0 else 0x0302)
  else if v = 1 then (if d.g .pwrState = 0 then 0 else 0x0302)
  else if d.asleep then 0x0302 else 0

/-- `pwr_cmd`. -/
def Dev.pwrCommand (e : Env) (d : Dev) (v : Nat) : Dev :=
  let code := d.pwrCode v
  if code ≠ 0 then d.answerCode code
  else
    let d := d.answerCode 0
    match v with
    | 0 => d.resume e
    | 1 => d.leaveAll
    | 2 =>
      let d := { d with pwr := { d.pwr with sleeping := some e.now } }
      if d.stopped then d else d.leaveAll
    | 3 => { d with pwr := { d.pwr with resetAt := some e.now } }
    | _ => { d with pwr := { d.pwr with rebootAt := some (e.now + 1) } }

/-- Everything sleep entry waits for is done. -/
def Dev.sleepReady (d : Dev) : Bool := d.pwr.sleeping.isSome && d.pwr.leaving.isEmpty && d.nv.idle && !d.nv.failing

/-- The last steps of sleep entry: zeroise, save, PWR_EN_MAIN falls. -/
def Dev.fallAsleep (e : Env) (d : Dev) : Dev :=
  let d := (d.zeroise e).put .pwrState 0 2
  { d with late := [], pwr := { d.pwr with sleeping := none, wakeHeld := false, asleepAt := e.now } }

/-- Wake: start-up with cause 6. The 20 ms for which PWR_EN_MAIN stays low at least pass before the ticks of the start-up
are counted (R540). -/
def State.wakeBy (s : State) (source : Nat) : State :=
  (s.coldReset causeWake).run fun _ d => d.put .pwrWakeSource 0 source

/-- WAKE_N low during sleep entry is held, and wakes the part once it is asleep (R540). -/
def Dev.holdWake (d : Dev) : Dev := { d with pwr := { d.pwr with wakeHeld := true } }

/-- Sleep entry ends: SLEEP, or the wake held during it. -/
def State.endEntry (s : State) : State :=
  if s.dev.sleepReady then
    let held := s.dev.pwr.wakeHeld
    let s := s.run fun e d => d.fallAsleep e
    if held then s.wakeBy 1 else s
  else s

/-- XT32 count since sleep entry. -/
def Dev.xtCount (e : Env) (d : Dev) : Nat := (e.now - d.pwr.asleepAt) * 32768 / 4000000

/-- The word a tamper in SLEEP latches. -/
def Dev.sleepLatch (e : Env) (d : Dev) (det : Nat) : Nat :=
  det % 16 + 16 * b2n (det < 5) + 256 * (d.xtCount e % 2 ^ 24)

/-- A tamper in SLEEP wakes the part into QUARANTINE. -/
def State.sleepTamper (s : State) (det : Nat) : State :=
  let s := s.run fun e d =>
    let d := d.put .nwSleepEvent 0 (d.sleepLatch e det)
    if det < 5 then d else { d with kr := { d.kr with conds := d.kr.conds.put det 0 } }
  (s.wakeBy 4).run fun e d =>
    let v := d.g .nwSleepEvent
    if det < 5 then (((d.ledger e 0x42 {} 0 0 0 v).flagNow .krEventFlags 0 2).destroyShares).enterQuarantine e 4
    else ((d.ledger e 0x41 {} 0 0 0 v).flagNow .krEventFlags 0 1).enterQuarantine e 4

end Sys2Proof.Machine
end

