-- ==== Sys2Proof/Machine/LifeOps.lean ====
section
/-!
DEFINITION. Life-cycle steps, recovery from QUARANTINE and acknowledging the Ledger (R436 to R439, R442, R445, R472).
-/

namespace Sys2Proof.Machine

/-! ## Life-cycle steps (R436, R437) -/

/-- The steps of R436's table, as codes of `lc_state`. -/
def stepAllowed (old new : Nat) : Bool :=
  let n := old / 16 % 4
  match old % 8 with
  | 0 => new == 1
  | 1 => new == 2 || new == 4
  | 2 => new == 3 + 16 * n || new == 4
  | 3 => (n < 3 && new == 2 + 16 * (n + 1)) || new == 4
  | _ => false

/-- Why `lc_step` is refused; a step already on its way is a part that is resetting. [DEDUCED, log entry 90] -/
def Dev.stepCode (d : Dev) : Nat :=
  if d.pwr.burning.isSome then 0x0301
  else if !stepAllowed d.fuses.lc (d.g .lcTarget) then 0x0631
  else if d.g .lcConfirm ≠ Config.serialLow then 0x0632
  else 0

/-- Every OPEN or HELD staging is discarded. -/
def Dev.abandonAll (d : Dev) : Dev :=
  ((List.range 16).filter fun k => d.g .stgState k == stgOpened || d.g .stgState k == stgHeld).foldl Dev.abandonStg d

/-- All helper data are overwritten. -/
def Dev.eraseHelpers (d : Dev) : Dev :=
  d.forEach [0, 1] fun d k =>
    d.nvWrite { region := 4, id := k, page := keyPage + 512 + 16 * k, body := List.replicate 4096 0, forced := true }

/-- Helper data are enrolled for the root of a new state, in two copies: bytes the spec leaves open (R452).
[DEDUCED, log entry 155] -/
def Dev.enrolHelper (d : Dev) (target : Nat) : Dev :=
  if target = lcEnd then d
  else
    let (v, d) := d.draw 16384
    d.nvWrite { region := 4, id := target, page := keyPage + 512 + 16 * (target % 2), body := leBytes 2048 v ++ leBytes 2048 v,
                forced := true }

/-- `lc_step` 1 by session `s`. [DEDUCED, log entry 90] -/
def Dev.lcStepBy (e : Env) (d : Dev) (s : Nat) : Dev :=
  let code := d.stepCode
  let d := d.put .lcLastStatus 0 code
  if code ≠ 0 then d.answerCode code
  else
    let target := d.g .lcTarget
    let d := d.ledger e 0x30 (d.origin s) 0x2000 7 0 (d.fuses.lc + 256 * target)
    let d := (d.closeWhere e 6 fun _ _ _ => true).abandonAll
    let d := (d.zeroise e).flag .lcEventFlags 0 0
    let d := if target = lcEnd then (d.eraseKeys true).eraseHelpers else d
    let d := d.enrolHelper target
    ({ d with pwr := { d.pwr with burning := some (target, e.now) } }).answerCode 0

/-! ## Recovery (R439) -/

/-- `lc_recover` 1. -/
def Dev.lcRecoverNow (d : Dev) : Dev :=
  if !d.quarantine then (d.put .lcLastStatus 0 0x0633).answerCode 0x0633
  else ({ d with pwr := { d.pwr with recovering := true } }).answerCode 0

/-- The tests of a recovery pass: the flag clears. -/
def Dev.recovered (e : Env) (d : Dev) : Dev :=
  let d := { d with pwr := { d.pwr with recovering := false } }
  let d := (d.put .lcLastStatus 0 0).put .lcState 0 d.fuses.lc
  ((d.keepCounter 1 0).ledger e 0x32).flag .lcEventFlags 0 2

/-- The tests of a recovery fail: the part stays in QUARANTINE. -/
def Dev.recoveryFails (d : Dev) : Dev :=
  ({ d with pwr := { d.pwr with recovering := false } }).put .lcLastStatus 0 0x0533

/-! ## The Ledger (R442, R445) -/

/-- `ledger_ack` with sequence number `q`. -/
def Dev.ledgerAckBy (e : Env) (d : Dev) (w : Origin) (q : Nat) : Dev :=
  if d.g .ledgerNextSeq ≤ q ∨ q < d.g .ledgerMarked then d.answerCode 0x0201
  else ((d.ledger e 0x60 w 0x2010 7 0 q).put .ledgerMarked 0 q).answerCode 0

/-- An hour of time base has begun since the last time mark. -/
def Dev.markDue (e : Env) (d : Dev) : Bool := e.tb / 3600000000000 != d.pwr.markHour

end Sys2Proof.Machine
end

