-- ==== Sys2Proof/Machine/OpenOps.lean ====
section
/-!
DEFINITION. Opening a session by challenge and response, lockout, closing and killing, and the dictionary mailbox block
(R417 to R420, R425, R426, R433, R436).
-/

namespace Sys2Proof.Machine

/-! ## Peers and credentials (R410, R417, R433, R436) -/

/-- The channel code of a peer. -/
def channelOf : Peer → Nat
  | .can k _ => 1 + k
  | .trdp _ _ _ => 3
  | .ring _ => 4

/-- Roles that may open in a life-cycle state; in QUARANTINE only maker. [DEDUCED, log entry 86] -/
def Dev.mayOpen (d : Dev) (role : Nat) : Bool :=
  if d.quarantine then role == roleMaker
  else match d.lc with
    | 1 | 2 => 1 ≤ role && role ≤ 3
    | 3 => role == roleInstaller || role == roleMaker
    | _ => role == roleMaker

/-- A credential grants a role on a channel in the present state. In BLANK the test credentials of the boot ROM grant
maker, whatever their numbers. [DEDUCED, log entry 86] [DEDUCED, log entry 87] -/
def Dev.credGrants (d : Dev) (cred role ch : Nat) : Bool :=
  d.mayOpen role &&
    (d.lc == lcBlank || (cred < 64 && d.on .credEnable cred && d.g .credKind cred != 0
      && (d.g .credRoles cred).testBit (role - 1) && (d.g .credChannels cred).testBit ch
      && (d.g .credStates cred).testBit d.lc))

/-- The lowest free session number a peer may take: 32 in all, 4 a CAN FD controller, one a peer. -/
def Dev.freeSession (d : Dev) (p : Peer) : Option Nat :=
  let mine := d.ses.opened.filter fun (x : Nat × Session) => match x.2.peer, p with
    | .can k _, .can k' _ => k == k'
    | _, _ => false
  if (d.sessionOf p).isSome ∨ 4 ≤ mine.length then none
  else (List.range 32).find? fun s => !d.isOpen s

/-- The lockout of a channel lasts 60 s. [DEDUCED, log entry 88] -/
def lockTicks : Nat := 60 * 4000000

def Dev.lockedOut (e : Env) (d : Dev) (ch : Nat) : Bool :=
  match d.ses.locked.find ch with
  | some t => decide (e.now < t + lockTicks)
  | none => false

/-! ## Challenge (R418, R419 step 1) -/

/-- A peer's copy of the opening objects. -/
def Dev.openingOf (d : Dev) (p : Peer) : Opening :=
  match d.ses.openings.find? fun (o : Opening) => o.peer == p with
  | some o => o
  | none => { peer := p }

def Dev.putOpening (d : Dev) (o : Opening) : Dev :=
  { d with ses := { d.ses with openings := o :: d.ses.openings.filter fun (x : Opening) => x.peer != o.peer } }

def Dev.updOpening (d : Dev) (p : Peer) (f : Opening → Opening) : Dev := d.putOpening (f (d.openingOf p))

/-- Whether the island can verify on a channel now: a root for HMAC, and neither ERROR nor a hold (R462). -/
def Dev.verifyCode (d : Dev) (ch : Nat) : Nat := d.serviceCode (ch ≤ 2)

/-- Why a challenge is refused. [DEDUCED, log entry 87] -/
def Dev.challengeCode (e : Env) (d : Dev) (p : Peer) (role cred : Nat) : Nat :=
  let ch := channelOf p
  firstFailing [if role = 0 ∨ 3 < role then 0x0201 else 0,
    if d.credGrants cred role ch then 0 else 0x0620,
    if d.lockedOut e ch then 0x0621 else 0,
    if (d.freeSession p).isNone then 0x0416 else 0,
    d.verifyCode ch]

/-- A challenge for a peer: a fresh nonce in place of an earlier one. -/
def Dev.challenge (e : Env) (d : Dev) (p : Peer) (role cred : Nat) : Dev :=
  let code := d.challengeCode e p role cred
  if code ≠ 0 then (d.updOpening p fun o => { o with result := code }).answerCode code
  else
    let (v, d) := d.drbg 384
    let o : Opening := { peer := p, role := role, cred := cred, chal := leBytes 48 v, chRole := role, chCred := cred,
                         since := some e.now }
    (d.putOpening o).answerCode 0

/-! ## Response and verdict (R419 steps 2 and 3) -/

/-- Bytes of a response: 16 on CAN, 96 otherwise (R418). -/
def responseLength : Peer → Nat
  | .can _ _ => 16
  | _ => 96

def challengeTicks : Nat := 10 * 4000000

/-- The challenge of a peer is outstanding and at most 10 s old. -/
def Opening.live (now : Nat) (o : Opening) : Bool :=
  match o.since with
  | some t => decide (now ≤ t + challengeTicks)
  | none => false

/-- A response is submitted: its challenge accepts no other, and the island verifies it. -/
def Dev.respond (e : Env) (d : Dev) (p : Peer) (resp : List Byte) : Dev :=
  let o := d.openingOf p
  let code := firstFailing [if resp.length = responseLength p then 0 else 0x0204,
    if o.live e.now then 0 else 0x0622, d.verifyCode (channelOf p)]
  if code = 0x0204 then d.answerCode code
  else if code ≠ 0 then (d.putOpening { o with since := none, result := code }).answerCode code
  else
    let a : Assist := { peer := p, since := e.now, index := 0x2110, sub := 5, data := resp }
    let d := d.putOpening { o with since := none, resp := resp, verifying := true }
    { d with ses := { d.ses with assists := d.ses.assists ++ [a] } }

/-- The message M of a challenge (R418). -/
def Opening.message (o : Opening) : List Byte :=
  [0x45#8, 0x5A#8, 0x52#8, 0x31#8] ++ o.chal ++ leBytes 16 Config.serial ++ leBytes 1 (channelOf o.peer)
    ++ leBytes 1 o.chRole ++ leBytes 2 o.chCred

/-- The key a credential's response is verified with on a channel: the boot ROM's in BLANK, the Keyring key for session
verification that it names, or its public key (R433, R435, R436). -/
def Dev.responseKey (d : Dev) (ch cred : Nat) : Option (List Byte) :=
  if d.lc = lcBlank then some ((List.range 97).map (Config.testKey cred))
  else if ch ≤ 2 then
    match d.keyOf (d.g .credKey cred) with
    | some k => if k.alg = 4 then some (leBytes 32 k.secret) else none
    | none => none
  else if cred = 0 ∧ (d.blob .credPubkey 0).isEmpty then some ((List.range 97).map Config.enrolKey)
  else some (d.blob .credPubkey cred)

/-- The island finds the response of a peer good (R418, R419). -/
def Dev.responseOk (d : Dev) (p : Peer) : Bool :=
  let o := d.openingOf p
  match d.responseKey (channelOf p) o.chCred with
  | some key => Config.responseOk (channelOf p ≤ 2) key o.message o.resp
  | none => false

/-- The peer's outstanding assisted request ends. -/
def Dev.assistEnds (d : Dev) (p : Peer) : Dev :=
  { d with ses := { d.ses with assists := d.ses.assists.filter fun a => a.peer != p } }

/-- A session opens under a number. -/
def Dev.openSession (e : Env) (d : Dev) (p : Peer) (n role cred : Nat) : Dev :=
  let d := { d with ses := { d.ses with opened := d.ses.opened.put n { peer := p, last := e.now } } }
  let d := ((d.put .sesState n 1).put .sesRole n role).put .sesChannel n (channelOf p)
  let d := ((d.put .sesCred n cred).put .sesOpenTick n e.tick).put .sesLastTick n e.tick
  let d := ((d.put .sesLastStatus n 0).put .sesCount 0 (d.g .sesCount + 1)).count .credUses cred
  (d.ledger e 0x20 (d.origin n)).fire 0x2B0

/-- A failure: counted, recorded, and with the fifth on its channel within 60 s a lockout. [DEDUCED, log entry 88] -/
def Dev.openFails (e : Env) (d : Dev) (ch role cred : Nat) : Dev :=
  let w : Origin := { role := role, ch := ch, cred := cred }
  let d := (((d.count .sesFailures).fire 0x2B1).ledger e 0x22 w 0 0 0x0623 0x0623)
  let ts := e.now :: (d.ses.failures.getD ch []).filter fun t => decide (e.now < t + lockTicks)
  if 5 ≤ ts.length then
    let d := { d with ses := { d.ses with failures := d.ses.failures.del ch, locked := d.ses.locked.put ch e.now } }
    (d.fire 0x2B2).ledger e 0x23 { role := 0, ch := ch, cred := 0xFFFF }
  else { d with ses := { d.ses with failures := d.ses.failures.put ch ts } }

/-- A mailbox ring that a session may be bound to (R425). -/
def Dev.bindable (d : Dev) (r : Nat) : Bool :=
  (d.ring r).st = .enabled && descKind (d.ring r).cached == 5 && (d.sessionOf (.ring r)).isNone

/-- Why a passing response does not open: no number left since the challenge, a ring no longer to bind to, QUARANTINE
entered since, or the Ledger kept from overwriting (R444). -/
def Dev.passCode (d : Dev) (p : Peer) (role : Nat) : Nat :=
  if (match p with | .ring r => !d.bindable r | _ => false) then 0x03A0
  else if d.quarantine ∧ role ≠ roleMaker then 0x0620
  else if (d.freeSession p).isNone then 0x0416
  else if d.g .ledgerPolicy = 1 ∧ d.ledgerFull 0 then 0x0417
  else 0

/-- The island's verdict on a peer's response. -/
def Dev.openVerdict (e : Env) (d : Dev) (p : Peer) (pass : Bool) : Dev :=
  let o := d.openingOf p
  if !o.verifying then d
  else
    let d := d.assistEnds p
    let finish (d : Dev) (code : Nat) : Dev := (d.putOpening { o with verifying := false, result := code }).answerCode code
    if !pass then finish (d.openFails e (channelOf p) o.chRole o.chCred) 0x0623
    else
      let code := d.passCode p o.chRole
      match d.freeSession p with
      | some n => if code = 0 then finish (d.openSession e p n o.chRole o.chCred) 0 else
          finish (d.noteFull code) code
      | none => finish d code

/-! ## Closing on request (R420) -/

/-- `ses_close` 1 of session `s`. -/
def Dev.sesCloseBy (e : Env) (d : Dev) (s : Nat) : Dev := (d.closeSession e s 1).answerCode 0

/-- `ses_kill` 1 of session `k` by session `s`. -/
def Dev.sesKillBy (e : Env) (d : Dev) (s k : Nat) : Dev :=
  if !d.isOpen k then d.answerCode 0x0305
  else if d.g .sesRole s ≠ roleMaker ∧ d.g .sesRole k = roleMaker then d.answerCode 0x0101
  else (d.closeSession e k 1).answerCode 0

/-- Every session of a CAN FD controller closes (bus-off, NMT reset). -/
def Dev.closeController (e : Env) (d : Dev) (k : Nat) : Dev :=
  d.closeWhere e 3 fun _ _ x => match x.peer with
    | .can c _ => c == k
    | _ => false

/-- The session bound to a ring closes (R347, R420). -/
def Dev.closeRing (e : Env) (d : Dev) (r : Nat) : Dev := d.closeWhere e 4 fun _ _ x => x.peer == .ring r

/-! ## The dictionary mailbox block (R425, R426) -/

def dmbBase : Nat := 0x200000

def Dev.dmbRing (d : Dev) : Nat := d.reg dmbBase % 65536

/-- Status of a mailbox command. -/
def Dev.dmbStatus (d : Dev) (code : Nat) : Dev := (d.putReg (dmbBase + 0x10) code).answerCode code

/-- The ring whose opening runs through the block. -/
def Dev.dmbOpening (d : Dev) : Option Opening :=
  d.ses.openings.find? fun (o : Opening) => match o.peer with
    | .ring _ => true
    | _ => false

/-- `DMB_CMD` 1. -/
def Dev.dmbChallengeNow (e : Env) (d : Dev) : Dev :=
  let r := d.dmbRing
  let role := d.reg (dmbBase + 4) % 4
  let cred := d.reg (dmbBase + 8) % 65536
  let code := d.challengeCode e (.ring r) role cred
  let code := if (code = 0 ∨ code = 0x0416) ∧ !d.bindable r then 0x03A0 else code
  if code ≠ 0 then d.dmbStatus code
  else
    let d := { d with ses := { d.ses with
      openings := d.ses.openings.filter fun (o : Opening) => match o.peer with
        | .ring _ => false
        | _ => true
      assists := d.ses.assists.filter fun (a : Assist) => match a.peer with
        | .ring _ => a.index != 0x2110
        | _ => true } }
    let d := d.challenge e (.ring r) role cred
    let c := (d.openingOf (.ring r)).chal
    let d := (List.range 12).foldl (fun (d : Dev) w =>
      d.putReg (dmbBase + 0x40 + 4 * w) (ofLe ((c.drop (4 * w)).take 4))) d
    (d.putReg (dmbBase + 0x14) (setBits (d.reg (dmbBase + 0x14)) 0 2 1)).dmbStatus 0

/-- The signature of `DMB_RESP`. -/
def Dev.dmbResp (d : Dev) : List Byte :=
  ((List.range 24).map fun w => leBytes 4 (d.reg (dmbBase + 0x80 + 4 * w))).flatten

/-- `DMB_CMD` 2: the response to the outstanding challenge is submitted. -/
def Dev.dmbRespondNow (e : Env) (d : Dev) : Dev :=
  match d.dmbOpening with
  | none => d.dmbStatus 0x0622
  | some o =>
    let d := (d.answerCode 0).respond e o.peer d.dmbResp
    let d := if d.answer.code = 0 then d
      else d.putReg (dmbBase + 0x14) (setBits (d.reg (dmbBase + 0x14)) 0 2 0)
    d.dmbStatus d.answer.code

/-- The verdict as the block shows it. -/
def Dev.dmbVerdict (d : Dev) (r : Nat) : Dev :=
  let code := d.answer.code
  match d.sessionOf (.ring r) with
  | some n => (d.putReg (dmbBase + 0x14) (if code = 0 then 2 + 65536 * n else d.reg (dmbBase + 0x14))).dmbStatus code
  | none => (d.putReg (dmbBase + 0x14) (setBits (d.reg (dmbBase + 0x14)) 0 2 0)).dmbStatus code

/-- `DMB_CMD` 3. [DEDUCED, log entry 89] -/
def Dev.dmbCloseNow (e : Env) (d : Dev) : Dev :=
  match d.sessionOf (.ring d.dmbRing) with
  | some s => (d.closeSession e s 1).dmbStatus 0
  | none => d.dmbStatus 0x0102

end Sys2Proof.Machine
end

