-- ==== Sys2Proof/Machine/Stagings.lean ====
section
/-!
DEFINITION. Commands of stagings, takes and salvos (R114 to R134). A row with a session is that session's write of the
object; a take or salvo row is an accepted write, and the answer is the code its status object holds.
-/

namespace Sys2Proof.Machine

/-! ## Stagings -/

/-- STG_OPEN (R130): `stg_open` 1. -/
def execStgOpen (k : Nat) (s : State) : Out := s.at 7 fun e d => d.request e k .stgOpen fun d => d.stgOpenFor k

/-- STG_SEAL (R116): `stg_seal` 1. -/
def execStgSeal (k : Nat) (s : State) : Out := s.at 7 fun e d => d.request e k .stgSeal fun d => d.stgSealFor e k false

/-- STG_SEAL_HELD (R119): `stg_seal` 2. -/
def execStgSealHeld (k : Nat) (s : State) : Out := s.at 7 fun e d => d.request e k .stgSeal fun d => d.stgSealFor e k true

/-- STG_ABANDON (R130): `stg_abandon` 1. -/
def execStgAbandon (k : Nat) (s : State) : Out := s.at 7 fun e d => d.request e k .stgAbandon fun d => d.stgAbandonFor k

/-- STG0_SEAL (R134). -/
def execStg0Seal (s : State) : Out := s.at 7 fun e d => d.stg0Seal e false

/-- STG0_HOLD (R134). -/
def execStg0Hold (s : State) : Out := s.at 7 fun e d => d.stg0Seal e true

/-- STG0_ABANDON (R134). -/
def execStg0Abandon (s : State) : Out := s.at 7 fun _ d => d.stg0Abandon

/-! ## Takes -/

/-- `tk_go` by its value; the answer is `tk_status`. -/
def Dev.takeWrite (e : Env) (d : Dev) (n v : Nat) (who : Origin) : Dev :=
  let d := match v with
    | 1 => d.takeGo e.tick n who
    | 2 => d.takeCancel e.tick n
    | _ => d.salvoCopy n
  d.answerCode (d.g .tkStatus n)

/-- TAKE (R120): `tk_go` 1. -/
def execTake (n : Nat) (s : State) : Out := s.at 7 fun e d => d.takeWrite e n 1 {}

/-- TAKE_CANCEL (R127): `tk_go` 2. -/
def execTakeCancel (n : Nat) (s : State) : Out := s.at 7 fun e d => d.takeWrite e n 2 {}

/-- SALVO_COPY (R128): `tk_go` 3. -/
def execSalvoCopy (n : Nat) (s : State) : Out := s.at 7 fun e d => d.takeWrite e n 3 {}

/-! ## Salvos -/

/-- `sv_go` by its value; the answer is `sv_status`. -/
def Dev.salvoWrite (e : Env) (d : Dev) (k v : Nat) (who : Origin) : Dev :=
  let d := match v with
    | 1 => d.salvoGo e k who
    | 2 => d.salvoCancel k
    | _ => d.salvoClear k
  d.answerCode (d.g .svStatus k)

/-- SALVO_GO (R128): `sv_go` 1. -/
def execSalvoGo (k : Nat) (s : State) : Out := s.at 7 fun e d => d.salvoWrite e k 1 {}

/-- SALVO_CANCEL (R128): `sv_go` 2. -/
def execSalvoCancel (k : Nat) (s : State) : Out := s.at 7 fun e d => d.salvoWrite e k 2 {}

/-- SALVO_CLEAR (R132): `sv_go` 3. -/
def execSalvoClear (k : Nat) (s : State) : Out := s.at 7 fun e d => d.salvoWrite e k 3 {}

end Sys2Proof.Machine
end

