-- ==== Sys2Proof/Machine/DictOps.lean ====
section
/-!
DEFINITION. Writing an object: the checks of R411 from step 5 on, and what a write of each apply class does
(R6, R115, R411 to R416, R519, R552).
-/

namespace Sys2Proof.Machine

/-! ## Classes of objects -/

/-- Flag words: write 1 clears. -/
def Obj.isFlags : Obj → Bool
  | .arrEventFlags | .stgEvent | .tkEventFlags | .layEventFlags | .engEventFlags | .layLbFlags | .sbEventFlags
  | .cdcEventFlags | .depEventFlags | .headEventFlags | .tdmEventFlags | .pllEventFlags | .asrcEventFlags | .nrEventFlags
  | .cvEventFlags | .napEventFlags | .ptrEventFlags | .laneEventFlags | .ethEventFlags | .msEventFlags | .pcieEventFlags
  | .bmEventFlags | .panEventFlags | .dchEventFlags | .canEventFlags | .lcEventFlags | .ledgerEventFlags | .krEventFlags
  | .nvEventFlags | .bistEventFlags | .ptEventFlags => true
  | _ => false

/-- Test and perturbation objects: a write is recorded as kind 0x11 (R416, R442, R519). -/
def Obj.isTest (o : Obj) : Bool :=
  match o with
  | .laneTest | .laneLoop | .lanePattern | .laneUser | .laneTestRate | .laneInject | .laneInjectPeriod
  | .tdmLoop | .ethLoop | .dchLoop => true
  | o => decide (0x5800 ≤ o.info.base) && decide (o.info.base < 0x5C00)

/-- Objects that core firmware completes (R413). -/
def Obj.isAssisted : Obj → Bool
  | .ptpEnable | .ptpMac | .ptpProfile | .stepThreshold | .ptpMasterAllowed | .holdoverTimeout | .ptpDomain
  | .msMode | .msCak => true
  | _ => false

/-- STR and DOMAIN objects. -/
def Obj.isBytes (o : Obj) : Bool := o.info.ty == .str || o.info.ty == .domain

/-- The number a fixed-type value carries. -/
def Obj.number (o : Obj) (data : List Byte) : Nat := if o.isBytes then 0 else ofLe data

/-! ## Step 5: the form of a value (R415) -/

/-- Length and UTF-8. [DEDUCED, log entry 119] -/
def Obj.formCode (o : Obj) (data : List Byte) : Nat :=
  match o.info.ty with
  | .str => if 32 < data.length then 0x0204 else if utf8Valid data then 0 else 0x0205
  | .domain =>
    let (exact, longest) := o.lengths
    if longest < data.length ∨ (exact ≠ 0 ∧ data.length ≠ exact)
      ∨ (o == .credPubkey ∧ data.length ≠ 97) then 0x0204 else 0
  | t => if data.length = t.bytes then 0 else 0x0204

/-! ## Step 6: ranges and own checks (R552) -/

/-- A range admits a value of a width. -/
def Range.admits (r : Range) (w v : Nat) : Bool :=
  match r with
  | .any => true
  | .span lo hi => lo ≤ v && v ≤ hi
  | .spanOr lo hi x => (lo ≤ v && v ≤ hi) || v == x
  | .oneOf xs => xs.contains v
  | .mask m => clearMask v m == 0
  | .signed lo hi => lo ≤ asInt w v && asInt w v ≤ hi
  | .signedOr lo hi x => asInt w v == x || lo ≤ asInt w v && asInt w v ≤ hi

/-- The value lies in the object's range; a BOOL is 0 or 1. -/
def Obj.rangeFails (o : Obj) (v : Nat) : Nat :=
  if o.isBytes then 0
  else if (o.info.ty = .bool ∧ 1 < v) ∨ !o.range.admits o.info.ty.width v then o.rangeCode
  else 0

/-- A VLAN tag: none, or bit 12 clear and a VID up to 4,094. -/
def tagOk (v : Nat) : Bool := v == 0xFFFF || (!v.testBit 12 && v % 4096 ≤ 4094)

/-- The partition sizes kept for the next start-up, one of them as written. -/
def Dev.panSum (d : Dev) (o : Obj) (v : Nat) : Nat :=
  (([.panSliceKib, .panRingKib, .panPorterKib, .panCodecKib] : List Obj).map fun x => if x == o then v else d.keptOf x 0).sum

/-- An installer writes only credentials that grant operator alone, before and after (R434).
[DEDUCED, log entry 94] -/
def Dev.credCode (d : Dev) (role : Nat) (o : Obj) (i v : Nat) : Nat :=
  if role = roleMaker then 0
  else
    let after := if o == .credRoles then v else d.g .credRoles i
    if 1 < d.g .credRoles i ∨ 1 < after then 0x0101 else 0

/-- An object's own check, as its chapter gives it. -/
def Dev.ownCode (d : Dev) (role : Nat) (o : Obj) (i v : Nat) : Nat :=
  match o with
  | .layZ => if i % 8 = 0 ∧ v ≠ 0 ∨ i % 8 ≠ 0 ∧ v = 0 then 0x0201 else 0
  | .ptpEnable => if v = 1 ∧ !d.ptpMacsOk then 0x0310 else 0
  | .ptpMac => if d.on .ptpEnable ∧ !(d.macReady (d.g .ptpMac) && d.macReady v) then 0x0310 else 0
  | .depTag | .depTagB | .nsTag => if tagOk v then 0 else 0x0201
  | .dstSrc0 | .dstSrc1 | .dstSrc2 | .dstSrc3 | .dstSrc4 | .dstSrc5 | .dstSrc6 | .dstSrc7 | .dstDuckKey =>
    if v < 960 ∨ v = 0xFFFF then 0 else 0x0201
  | .dramCoreMib | .dramPorterMib | .dramFreezeMib => if v % 2 = 0 then 0 else 0x0201
  | .panSliceKib | .panRingKib | .panPorterKib | .panCodecKib => if 49152 < d.panSum o v then 0x0414 else 0
  | .ptKind | .ptTarget | .ptAmount | .ptLifetime => if d.g .ptState i = 1 then 0x03D0 else 0
  | .credKind | .credRoles | .credChannels | .credStates | .credEnable | .credPubkey | .credKey | .credLabel =>
    d.credCode role o i v
  | .ledgerAck => if d.g .ledgerNextSeq ≤ v ∨ v < d.g .ledgerMarked then 0x0201 else 0
  | _ => 0

/-! ## Step 7: the NV store takes the value (R416, R444, R483, R486) -/

/-- The object with a value written, wherever its apply class holds it. -/
def Dev.withValue (d : Dev) (o : Obj) (i v : Nat) (b : List Byte) : Dev :=
  if o.isBytes then d.putBlob o i b
  else if o.info.apply = .restart then { d with nv := { d.nv with kept := d.nv.kept.put (o.key i) v } }
  else d.put o i v

def Dev.keepFails (d : Dev) (o : Obj) (i v : Nat) (b : List Byte) : Nat :=
  let full := d.g .ledgerPolicy == 1 && d.ledgerFull 0
  if o.info.kept then
    firstCode [(d.on .nvProtect, 0x0611), (d.g .nvHoldupState == 2 && d.g .nvHoldupPolicy == 0, 0x0550),
      (!(d.withValue o i v b).hasPages (o.index i), 0x0418), (full, 0x0417)]
  else if o.isTest ∧ full then 0x0417
  else 0

/-! ## Step 8: staging room (R115) -/

/-- Entries a staging holds for an object already. -/
def Dev.stagedIn (d : Dev) (k : Nat) (o : Obj) (i : Nat) : Bool := (d.stg k).entries.any fun x => x.o == o && x.i == i

def Dev.entriesHeld (d : Dev) (k : Nat) : Nat := ((d.stg k).entries.filter fun x => !x.own).length

/-- An entry more in staging `k` passes neither limit. -/
def Dev.entryRoom (d : Dev) (k : Nat) (o : Obj) (i : Nat) : Bool :=
  d.stagedIn k o i ||
    (decide (d.entriesHeld k < 4096) && decide (((List.range 16).map d.entriesHeld).sum < 16384))

/-- Why a staged write of session `s` finds no room. -/
def Dev.roomFails (d : Dev) (s : Nat) (o : Obj) (i : Nat) : Nat :=
  match d.heldStg s with
  | some k =>
    if d.g .stgState k = stgHeld then 0x0348 else if d.entryRoom k o i then 0 else 0x040A
  | none => match ((List.range 15).map (1 + ·)).find? fun k => d.g .stgState k == stgFree with
    | none => 0x0409
    | some k => if d.entryRoom k o i then 0 else 0x040A

/-- A write enters staging `k`, in place of an earlier one to the same object. -/
def Dev.stageIn (d : Dev) (k : Nat) (x : Entry) : Dev :=
  let c := d.stg k
  let es := c.entries.filter fun y => !x.same y
  let d := d.putStg k { c with entries := es ++ [x] }
  d.put .stgEntries k (d.entriesHeld k)

/-- A staged write of session `s`. -/
def Dev.stageFor (d : Dev) (s : Nat) (o : Obj) (i v : Nat) (b : List Byte) : Dev :=
  let x : Entry := { o := o, i := i, v := v, bytes := b, part := 0 }
  match d.openStg s with
  | some k => d.stageIn k x
  | none => match d.openFor s with
    | some (k, d) => d.stageIn k x
    | none => d

/-! ## Apply class now: objects whose write acts -/

/-- `stg_anchor`: of the staging held, and of the next one the session opens. -/
def Dev.anchorFor (d : Dev) (s v : Nat) : Dev :=
  let d := d.updSession s fun x => { x with anchor := v }
  match d.heldStg s with
  | some k => d.putStg k { d.stg k with anchor := v }
  | none => d

/-- Objects a session sees a copy of: the key template (R474). -/
def Dev.actTemplate (d : Dev) (s : Nat) (o : Obj) (v : Nat) (b : List Byte) : Option Dev :=
  match o with
  | .krNum => some (d.updTpl s fun t => { t with num := v })
  | .krAlg => some (d.updTpl s fun t => { t with alg := v })
  | .krUse => some (d.updTpl s fun t => { t with use := v })
  | .krBinding => some (d.updTpl s fun t => { t with binding := v })
  | .krMinRole => some (d.updTpl s fun t => { t with minRole := v })
  | .krPersist => some (d.updTpl s fun t => { t with persist := v })
  | .krTransport => some (d.updTpl s fun t => { t with transport := v })
  | .krBlob => some (d.updTpl s fun t => { t with blob := b })
  | .kcParts => some (d.updTpl s fun t => { t with parts := v })
  | _ => none

/-- Services that act for a session, and are reached only through one. -/
def Dev.actSession (e : Env) (d : Dev) (s : Nat) (o : Obj) (i v : Nat) (b : List Byte) : Option Dev :=
  match o with
  | .stgOpen => some (d.stgOpenFor s)
  | .stgSeal => some (d.stgSealFor e s (v == 2))
  | .stgAbandon => some (d.stgAbandonFor s)
  | .stgAnchor => some (d.anchorFor s v)
  | .sesClose => some (d.sesCloseBy e s)
  | .sesKill => some (d.sesKillBy e s i)
  | .lcStep => some (d.lcStepBy e s)
  | .krSelftest => some (d.selftest e s)
  | .krZeroiseAll => some (d.zeroiseAll e s)
  | .krCmd => some (d.krCommand e s v)
  | .kcValue => some (d.kcValue e s b)
  | .rbAdvance => some (d.rbAdvanceTo e s (v - 1))
  | .imgEnrolGo => some d.imgEnrolNow
  | _ => d.actTemplate s o v b

/-- Objects whose write acts on the part, whoever writes. [DEDUCED, log entry 105] -/
def Dev.actPart (e : Env) (d : Dev) (w : Origin) (o : Obj) (i v : Nat) : Option Dev :=
  match o with
  | .ptpEnable => some (d.ptpSwitch (v != 0))
  | .tkGo => some (d.takeWrite e i v w)
  | .svGo => some (d.salvoWrite e i v w)
  | .engReadmit => some (d.engineReadmit v)
  | .cdcReadmit => some (d.codecReadmit v)
  | .headRetrain => some (d.retrainHead e.now i)
  | .ptrEnable => some (d.ptrSetEnable i v)
  | .ptrDeadTime => some (d.ptrSetDead e.now i v)
  | .ptrCtl => some (if v = 1 then d.ptrAbort i else d.ptrResume i)
  | .laneRecal => some (d.recalLane e.now i)
  | .laneTest => some ((d.put .laneTest i v).testFollow e.now i)
  | .laneLoop => some ((d.put .laneLoop i v).testFollow e.now i)
  | .laneInject => some (d.injectOne i)
  | .ethLoop => some ((d.put .ethLoop i v).linkFollow i)
  | .msTxAn =>
    let r := d.switchAn e.now i v false
    some (r.2.answerCode r.1)
  | .dchCmd => some (d.dchCommand e.now i v)
  | .dchLoop => some (d.dchLoopTo i v)
  | .srcPend => some (if v = 1 then d.pendSet e.now i else d.pendClr i)
  | .lcRecover => some d.lcRecoverNow
  | .ledgerAck => some (d.ledgerAckBy e w v)
  | .pwrCmd => some (d.pwrCommand e v)
  | .fwCmd => some (d.fwCommand e v)
  | .bistForceFault => some (d.forceFault e.now v)
  | .ptGo => some (if v = 1 then d.armSlot e.now i else d.stopSlot i)
  | _ => none

/-- A plain value comes into force. -/
def Dev.setPlain (e : Env) (d : Dev) (o : Obj) (i v : Nat) (b : List Byte) : Dev :=
  if o.isFlags then d.clearFlags o i v
  else if o.isBytes then d.putBlob o i b
  else
    let old := d
    let d := d.put o i v
    if o.info.base = 0x4200 then Dev.landDst e.now old d i else d

/-- A write of apply class now acts; the answer holds its code. -/
def Dev.act (e : Env) (d : Dev) (w : Origin) (o : Obj) (i v : Nat) (b : List Byte) : Dev :=
  match (if w.ses < 32 then d.actSession e w.ses o i v b else none) with
  | some d => d
  | none => match d.actPart e w o i v with
    | some d => d
    | none => d.setPlain e o i v b

/-- What an accepted write leaves in the store and the Ledger. -/
def Dev.recorded (e : Env) (d : Dev) (w : Origin) (o : Obj) (i v : Nat) (b : List Byte) : Dev :=
  if d.answer.code ≠ 0 then d
  else
    let d := if o.isTest ∧ !o.info.kept then d.ledger e 0x11 w (o.index i) (o.subindex i) 0 (valueDetail o v b) else d
    d.keep e w o i

/-- A write of apply class boundary waits for its departure's next commit point, in place of an earlier one.
[DEDUCED, log entry 92] -/
def Dev.holdBoundary (d : Dev) (w : Origin) (o : Obj) (i v : Nat) : Dev :=
  d.updDep (i / 8) fun c =>
    { c with boundary := c.boundary.filter (fun h => !(h.o == o && h.i == i)) ++ [{ o := o, i := i, v := v, who := w }] }

/-- A write that has passed every check applies under its apply class; a staged one is the caller's. -/
def Dev.applyWrite (e : Env) (d : Dev) (w : Origin) (o : Obj) (i v : Nat) (b : List Byte) : Dev :=
  match o.info.apply with
  | .boundary => d.holdBoundary w o i v
  | .restart => (d.withValue o i v b).recorded e w o i v b
  | .now => (d.act e w o i v b).recorded e w o i v b
  | _ => d

/-! ## A write without a session: register fields and rows of accepted writes (R23, R115, R519) -/

/-- Who a Ledger record of a register write names: no one (R519). [DEDUCED, log entry 91] -/
def registerOrigin : Origin := {}

/-- A register field writes its object directly: dropped where the object refuses the value. -/
def Dev.directWrite (e : Env) (d : Dev) (o : Obj) (i v : Nat) : Dev :=
  let code := firstFailing [o.rangeFails v, d.ownCode roleMaker o i v, d.keepFails o i v []]
  let d := (d.noteFull code).answerCode code
  if code ≠ 0 then d else d.applyWrite e registerOrigin o i v []

/-- A staged field enters staging 0 while it is FREE or OPEN; otherwise the write is dropped. -/
def Dev.directStage (d : Dev) (o : Obj) (i v : Nat) : Dev :=
  let code := firstFailing [o.rangeFails v, d.ownCode roleMaker o i v]
  let st := d.g .stgState 0
  if code ≠ 0 then d.answerCode code
  else if st ≠ stgFree ∧ st ≠ stgOpened then (d.put .stgLastStatus 0 0x0340).answerCode 0x0340
  else if !d.entryRoom 0 o i then d.answerCode 0x040A
  else
    let d := if st = stgFree then (d.putStg 0 {}).put .stgState 0 stgOpened else d
    (d.stageIn 0 { o := o, i := i, v := v, bytes := [], part := 0 }).answerCode 0

/-- A field of a register takes a value. [DEDUCED, log entry 92] [DEDUCED, log entry 109] -/
def Dev.fieldWrite (e : Env) (d : Dev) (o : Obj) (i v : Nat) : Dev :=
  if o.info.apply = .commit then d.directStage o i v else d.directWrite e o i v

end Sys2Proof.Machine
end

