-- ==== Sys2Proof/Machine/ReadOps.lean ====
section
/-!
DEFINITION. Reading an object: the value in force, or what is computed at the read (R38, R412, R415, R422, R427, R445, R446).
-/

namespace Sys2Proof.Machine

/-! ## Values computed at the read -/

/-- `error_register` (R422). -/
def Dev.errorBits (d : Dev) : Nat :=
  let down := (List.range 25).any (fun k => d.g .engState k == engRetired) || (List.range 24).any (fun c => d.g .cdcState c == 1)
    || (List.range 8).any (fun c => d.g .dchState c == dchFailed) || d.quarantine
  let sign := (List.range 128).any fun n => decide (1 < d.g .sbState n)
  b2n down + 128 * b2n sign

/-- Durations of steps 1 to 9 in ms; 0 for one that has not ended (R515). -/
def Dev.stepTimes (d : Dev) : List Byte :=
  (stepNumbers.map fun k => leBytes 4 (match d.pwr.began.find k, d.pwr.ended.find k with
    | some a, some b => (b - a) / 4000
    | _, _ => 0)).flatten

/-- Versions of core A, core B, island A and island B (R515). -/
def Dev.slotVersions (d : Dev) : List Byte :=
  ((List.range 4).map fun k => leBytes 4 (d.pwr.images.getD k {}).version).flatten

/-- `coef_data`: set 0 at ratio 1 until a table is loaded (R176). [DESIGN CHOICE, log entry 106] -/
def Dev.coefBytes (d : Dev) (t : Nat) : List Byte :=
  match d.blob .coefData t with
  | [] =>
    let (lo, n) : Int × Nat := if d.g .coefKind t = 0 then (-2, 6) else (-1, 4)
    ((List.range 64).map fun ph => ((autoCoef lo n ph 1).map fun c => leBytes 2 (ofInt 16 c)).flatten).flatten
  | bs => bs

/-- The device serial (R446). -/
def serialBytes : List Byte := leBytes 16 Config.serial

/-! ## The Ledger window (R443, R445) -/

/-- The record of a sequence number, when the store holds it, and whether its slot holds a bad record. -/
def Dev.recordAt (e : Env) (d : Dev) (seq : Nat) : Option (List Byte) × Bool :=
  let bs := e.mem.readN .nv (ledgerAt seq) 32
  if bs.all (· == 0) then (none, false)
  else if d.poisoned (ledgerAt seq) 32 || crcBytes (bs.take 28) != ofLe (bs.drop 28) then (none, true)
  else (if ofLe (bs.take 4) = seq then some bs else none, false)

/-- Whole records from a sequence number on, at most `room`, and the bad ones skipped. [DEDUCED, log entry 95] -/
def Dev.windowFrom (e : Env) (d : Dev) : List Nat → Nat → List (List Byte) × Nat
  | [], _ => ([], 0)
  | q :: t, room =>
    if room = 0 then ([], 0)
    else match d.recordAt e q with
      | (some bs, _) =>
        let r := Dev.windowFrom e d t (room - 1)
        (bs :: r.1, r.2)
      | (none, bad) =>
        let r := Dev.windowFrom e d t room
        (r.1, r.2 + b2n bad)

/-- `ledger_window` for session `s`, which keeps it for the signature. [DEDUCED, log entry 95] -/
def Dev.readWindow (e : Env) (d : Dev) (s : Nat) : List Byte × Dev :=
  let start := max (d.g .ledgerCursor) (d.g .ledgerOldestSeq)
  let qs := (List.range (d.g .ledgerNextSeq - start)).map (start + ·)
  let (rs, bad) := d.windowFrom e qs 32
  let bs := rs.flatten
  let d := if bad = 0 then d else (d.count .ledgerBad 0 bad).flag .ledgerEventFlags 0 2
  (bs, d.updSession s fun x => { x with window := bs })

/-! ## Reading (R412) -/

/-- Objects whose read the island completes. -/
def Obj.islandRead (o : Obj) : Bool := o == .ledgerWindowSig || o == .krLedgerPub

/-- Why a read is refused past the checks of R411. -/
def Dev.readFails (d : Dev) (o : Obj) : Nat :=
  match o with
  | .ledgerWindowSig => if d.lc = lcEnd then 0x0635 else d.serviceCode true
  | .krLedgerPub => d.serviceCode true
  | _ => 0

/-- A session's copy of the staging objects and of the key template. -/
def Dev.sessionValue (e : Env) (d : Dev) (s : Nat) (o : Obj) : Option (List Byte) :=
  let t := d.tpl s
  match o with
  | .sesSelf => some (leBytes 1 s)
  | .stgOpen => some (leBytes 1 ((d.heldStg s).getD 0xFF))
  | .stgAnchor => some (leBytes 1 (match d.heldStg s with
      | some k => (d.stg k).anchor
      | none => ((d.session s).map fun (x : Session) => x.anchor).getD 0))
  | .stgStatus => some (leBytes 2 (((d.session s).map fun (x : Session) => x.sealCode).getD 0))
  | .krNum => some (leBytes 4 t.num)
  | .krAlg => some (leBytes 1 t.alg)
  | .krUse => some (leBytes 1 t.use)
  | .krBinding => some (leBytes 2 t.binding)
  | .krMinRole => some (leBytes 1 t.minRole)
  | .krPersist => some (leBytes 1 t.persist)
  | .krTransport => some (leBytes 4 t.transport)
  | .krBlob => some t.blob
  | .krStatus => some (leBytes 2 t.status)
  | .krKcv => some t.kcv
  | .krQState => some (leBytes 1 t.qState)
  | .krQAttr => some (leBytes 8 t.qAttr)
  | .kcParts => some (leBytes 1 t.parts)
  | .kcKcv => some t.compKcv
  | .kcKcvFinal => some t.finalKcv
  | .kcCount => some (leBytes 1 (match d.components e with
      | some c => c.values.length
      | none => 0))
  | .ledgerWindowSig =>
    let w := ((d.session s).map fun (x : Session) => x.window).getD []
    some ((List.range 96).map fun k => Config.ledgerSig d.rootCode (serialBytes ++ w) k)
  | _ => none

/-- A peer's copy of the opening objects. -/
def Dev.openingValue (d : Dev) (p : Peer) (o : Obj) : Option (List Byte) :=
  let x := d.openingOf p
  match o with
  | .openRole => some (leBytes 1 x.role)
  | .openCred => some (leBytes 2 x.cred)
  | .openGo => some (leBytes 1 0)
  | .openChal => some x.chal
  | .openResp => some x.resp
  | .openResult => some (leBytes 2 x.result)
  | _ => none

/-- Values of the part that are computed at the read. -/
def Dev.partValue (e : Env) (d : Dev) (o : Obj) (i : Nat) : Option (List Byte) :=
  match o with
  | .tickNow => some (leBytes 6 e.tick)
  | .timeNow => some (leBytes 8 e.tb)
  | .errorRegister => some (leBytes 1 d.errorBits)
  | .devSerial => some serialBytes
  | .coefData => some (d.coefBytes i)
  | .credPubkey =>
    if i = 0 ∧ (d.blob .credPubkey 0).isEmpty then some ((List.range 97).map Config.enrolKey) else none
  | .mcCount48 => some (leBytes 4 (mediaCount e.tb 48000))
  | .mcCount96 => some (leBytes 4 (mediaCount e.tb 96000))
  | .tdmClock => some (leBytes 1 (d.portClock i))
  | .dstClock => some (leBytes 1 (d.dstClockOf i).1)
  | .suStepMs => some d.stepTimes
  | .fwSlotVer => some d.slotVersions
  | .krLedgerPub => some ((List.range 97).map fun k => Config.ledgerPub d.rootCode k)
  | .imgHashEcdsa => some (if d.fuses.enrolled then d.fuses.ecdsa else d.blob .imgHashEcdsa 0)
  | .imgHashMldsa => some (if d.fuses.enrolled then d.fuses.mldsa else d.blob .imgHashMldsa 0)
  | _ => none

/-- The bytes of an object for a peer, and what the read leaves behind. -/
def Dev.readObj (e : Env) (d : Dev) (p : Peer) (s : Option Nat) (o : Obj) (i : Nat) : List Byte × Dev :=
  match o, s with
  | .ledgerWindow, some k => d.readWindow e k
  | _, _ =>
    let mine := match s with
      | some k => d.sessionValue e k o
      | none => none
    (match mine.or ((d.openingValue p o).or (d.partValue e o i)) with
      | some bs => bs
      | none => valueBytes o (d.g o i) (d.blob o i), d)

end Sys2Proof.Machine
end

