-- ==== Sys2Proof/Machine/ServeOps.lean ====
section
/-!
DEFINITION. Serving a dictionary request: the order of the checks, who is answered and how, requests that wait, segmented
transfers, and requests of mailbox rings (R360, R410 to R413, R421, R424, R430, R465, R480).
-/

namespace Sys2Proof.Machine

/-! ## Whom the engine hears (R410, R421, R424) -/

/-- A request of this peer reaches the engine: USDO in Pre-operational and Operational, TRDP on the MACs served. -/
def Dev.hears (d : Dev) (p : Peer) : Bool :=
  match p with
  | .can k _ => d.g .canNmtState k == 1 || d.g .canNmtState k == 2
  | .trdp m _ _ => (d.g .trdpMacs).testBit m
  | .ring _ => true

/-- The CiA 301 abort code of a status (R430). -/
def abortCode (code : Nat) (read : Bool) : Nat :=
  if code = 0 then 0
  else if code = 0x0101 then (if read then 0x06010001 else 0x06010002)
  else if code = 0x0102 ∨ code / 256 = 6 then 0x06010000
  else if code = 0x0202 then 0x06020000
  else if code = 0x0203 then 0x06090011
  else if code = 0x0204 then 0x06070010
  else if code = 0x0712 then 0x05040000
  else match code / 256 with
    | 2 => 0x06090030
    | 3 => 0x08000022
    | 4 => 0x08000020
    | 5 => 0x06060000
    | _ => 0x08000000

/-! ## A mailbox entry (R360) -/

/-- What an entry asks: a read or a write, its object, and the capacity or the length. -/
structure MailReq where
  op : Nat
  inl : Bool
  index : Nat
  sub : Nat
  len : Nat
  data : Nat
  space : Nat
deriving DecidableEq, Repr

def mailReq (t : Taken) : MailReq :=
  { op := entryByte t 0, inl := (entryByte t 1).testBit 0, index := entryField t 8 2, sub := entryByte t 2,
    len := entryField t 0xA 2, data := entryField t 0x10 8, space := entryByte t 0x18 % 8 }

/-- Why an entry cannot be served at all. [DEDUCED, log entry 96] -/
def Dev.mailCode (d : Dev) (q : MailReq) : Nat :=
  if q.op ≠ 1 ∧ q.op ≠ 2 then 0x0201
  else if 1024 < q.len ∨ (q.inl ∧ 32 < q.len) then 0x0204
  else if q.inl then 0
  else if 2 < q.space then 0x0201
  else match (d.window q.space).2.2 with
    | some sz => if sz < q.data + q.len then 0x0601 else 0
    | none => 0

/-- The value a write entry carries; `rest` is what host memory answered for its buffer. [DEDUCED, log entry 96] -/
def Dev.mailData (e : Env) (d : Dev) (q : MailReq) (t : Taken) (rest : List Byte) : List Byte :=
  if q.inl then (t.bytes.drop 0x20).take q.len
  else
    let (sp, base, size) := d.window q.space
    match size with
    | none => padTo q.len (rest.take q.len)
    | some _ => e.mem.readN sp (base + q.data) q.len

/-- Complete the oldest entry taken from a mailbox ring with the answer: a read value goes to the buffer or into the
entry ahead of the record. -/
def Dev.mailDone (d : Dev) (r : Nat) : Dev :=
  match (d.ring r).taken with
  | [] => d
  | t :: _ =>
    let q := mailReq t
    let ws := (d.ring r).cached
    let a := d.answer
    let bs := if q.op = 1 ∧ a.code = 0 then a.bytes else []
    let long := decide (q.len < bs.length)
    let code := if long then 0x0204 else a.code
    let bs := if long then [] else bs
    let d := { d with answer := { a with code := code } }
    let d :=
      if bs.isEmpty then d
      else if q.inl then d.postLoc (descLoc ws) (descBase ws + t.index % 2 ^ descN ws * 64 + 0x20) bs
      else
        let (sp, base, _) := d.window q.space
        d.post sp (base + q.data) bs
    let n := if code ≠ 0 then 0 else if q.op = 1 then bs.length else q.len
    d.ringComplete r t code n (ofLe (bs.take 8))

/-! ## TRDP message data (R424) -/

/-- The head at the start of a request's payload. -/
def trdpHead (p : Peer) (port : Nat) (b : List Byte) : TrdpHead :=
  let f := fun at_ n => ofLe ((b.drop at_).take n)
  { peer := p, port := port, op := f 0 1, role := f 1 1, sub := f 2 1, tag := f 4 4, index := f 8 2, length := f 10 2, cred := f 14 2 }

/-- Why a payload cannot be served: a reserved field not 0, an unknown `op`, or fewer bytes than its head states.
[DEDUCED, log entry 154] -/
def trdpCode (h : TrdpHead) (b : List Byte) : Nat :=
  if b.length < 16 ∨ b.getD 3 0 ≠ 0 ∨ ofLe ((b.drop 12).take 2) ≠ 0 ∨ h.op = 0 ∨ 5 < h.op
    ∨ (h.op ≠ 3 ∧ (h.role ≠ 0 ∨ h.cred ≠ 0)) then 0x0201
  else if (h.op = 2 ∨ h.op = 4) ∧ b.length < 16 + h.length then 0x0204
  else 0

/-- The payload of a reply. -/
def trdpReplyBytes (h : TrdpHead) (code : Nat) (data : List Byte) : List Byte :=
  leBytes 1 h.op ++ leBytes 1 h.role ++ leBytes 1 h.sub ++ leBytes 1 0 ++ leBytes 4 h.tag ++ leBytes 2 h.index
    ++ leBytes 2 data.length ++ leBytes 2 code ++ leBytes 2 h.cred ++ data

/-- Wire bytes of a reply ahead of its payload: preamble and gap, Ethernet, IPv4, UDP, the message data header of
IEC 61375-2-3 and the frame check. [PRESUMED, log entry 161] -/
def trdpOverhead : Nat := 20 + 14 + 20 + 8 + 116 + 4

/-- The reply to a request leaves in queue 0 of its MAC: a value read longer than the capacity is refused.
[DEDUCED, log entry 154] -/
def Dev.trdpSend (d : Dev) (h : TrdpHead) : Dev :=
  let a := d.answer
  let data := if a.code = 0 ∧ (h.op = 1 ∨ h.op = 3) then a.bytes else []
  let long := decide (h.op = 1 ∧ h.length < data.length)
  let code := if long then 0x0204 else a.code
  let bytes := trdpReplyBytes h code (if long then [] else data)
  let d := { d with answer := { a with code := code } }
  match h.peer with
  | .trdp m ip sid =>
    d.handOver m 0 { bytes := trdpOverhead + bytes.length, body := .trdp ip h.port sid bytes } (d.reachable m ip)
  | _ => d

/-- The answer goes back to the oldest request of a TRDP peer. -/
def Dev.trdpReply (d : Dev) (p : Peer) : Dev :=
  match d.ses.trdp.find? fun (h : TrdpHead) => h.peer == p with
  | some h => ({ d with ses := { d.ses with trdp := d.ses.trdp.erase h } }).trdpSend h
  | none => d

/-! ## Answering (R411, R424, R430) -/

/-- The answer goes to the peer: a USDO refusal as its abort code, a TRDP reply counted, a mailbox entry completed.
[DEDUCED, log entry 97] -/
def Dev.reply (d : Dev) (p : Peer) (read : Bool) : Dev :=
  match p with
  | .can _ _ => { d with answer := { d.answer with word := abortCode d.answer.code read } }
  | .trdp _ _ _ => (d.count .trdpRequests).trdpReply p
  | .ring r => d.mailDone r

/-- Refuse a request. -/
def Dev.refuse (d : Dev) (p : Peer) (s : Option Nat) (read : Bool) (code : Nat) : Dev :=
  let d := d.answerCode code
  let d := match s with
    | some k => d.closeRequest k
    | none => d
  d.reply p read

/-- Steps 1 and 2: the peer may ask for the object, which exists. A mailbox ring without a session may ask for nothing
(R360). [DEDUCED, log entry 89] -/
def targetCode (p : Peer) (s : Option Nat) (index sub : Nat) (read : Bool) : Nat :=
  let open_ := index == 0x2110 || (read && decide (0x1000 ≤ index) && decide (index < 0x2000))
  if s.isNone ∧ !(open_ && channelOf p != 4) then 0x0102
  else if !indexExists index then 0x0202
  else if (decodeObj index sub).isNone then 0x0203
  else 0

/-- The role a request carries: without a session, none but what every role has. -/
def Dev.roleOf (d : Dev) (s : Option Nat) : Nat :=
  match s with
  | some k => d.g .sesRole k
  | none => roleOperator

/-! ## Writes (R411, R413, R419) -/

/-- Steps 3 to 8. -/
def Dev.writeFails (d : Dev) (s : Option Nat) (o : Obj) (i : Nat) (data : List Byte) : Nat :=
  let role := d.roleOf s
  let v := o.number data
  firstFailing [d.writeCode role o, o.formCode data, o.rangeFails v, d.ownCode role o i v, d.keepFails o i v data,
    match s with
      | some k => if o.info.apply = .commit then d.roomFails k o i else 0
      | none => 0]

/-- A write of the opening objects, each peer's own. -/
def Dev.writeOpening (e : Env) (d : Dev) (p : Peer) (o : Obj) (v : Nat) (data : List Byte) : Dev :=
  match o with
  | .openRole => d.updOpening p fun x => { x with role := v }
  | .openCred => d.updOpening p fun x => { x with cred := v }
  | .openGo =>
    let x := d.openingOf p
    let d := d.challenge e p x.role x.cred
    match p with
    | .trdp _ _ _ => if d.answer.code = 0 then { d with answer := { bytes := (d.openingOf p).chal } } else d
    | _ => d
  | .openResp => d.respond e p data
  | _ => d

/-- A write that passed every check. -/
def Dev.passWrite (e : Env) (d : Dev) (p : Peer) (s : Option Nat) (o : Obj) (i : Nat) (data : List Byte) : Dev :=
  let v := o.number data
  let d := d.answerCode 0
  if o.opening then d.writeOpening e p o v data
  else match s with
    | none => d
    | some k =>
      if o.isAssisted ∧ !d.coresRun e.now then
        { d with ses := { d.ses with
          assists := d.ses.assists ++ [{ peer := p, since := e.now, index := o.index i, sub := o.subindex i, data := data }] } }
      else if o.info.apply = .commit then d.stageFor k o i v data
      else d.applyWrite e (d.origin k) o i v data

/-- The peer has a request under assist. -/
def Dev.assisting (d : Dev) (p : Peer) : Bool := d.ses.assists.any fun a => a.peer == p

/-- Objects whose accepted write is followed at once by a record of the NV store: a kept value, a Ledger record, a key. -/
def Obj.records (o : Obj) : Bool :=
  if o.info.kept then o.info.apply == .now || o.info.apply == .restart
  else o.isTest || [.openResp, .sesClose, .ledgerAck, .lcStep, .krCmd, .krZeroiseAll, .rbAdvance].contains o

/-- A write needs a record now and the burst FIFO is full (R480); or the island is paused and the object is its own
(R465). [DEDUCED, log entry 93] -/
def Dev.mustWait (d : Dev) (o : Obj) (read : Bool) : Bool :=
  let island := if read then o.islandRead
    else [.openGo, .openResp, .krCmd, .krSelftest, .krZeroiseAll, .kcValue, .rbAdvance, .imgEnrolGo].contains o
  (d.g .krIslandState == 1 && island)
    || (!read && o.records && decide (256 ≤ d.nv.queued))

/-- The request waits. [DEDUCED, log entry 93] -/
def Dev.holdRequest (d : Dev) (w : Waiting) : Dev := { d with ses := { d.ses with held := d.ses.held ++ [w] } }

/-- An accepted request is answered, unless an assist or the island's pause keeps it. -/
def Dev.settle (d : Dev) (p : Peer) (s : Option Nat) (waits : Nat) : Dev :=
  if d.assisting p ∨ waits < d.kr.waiting.length then d
  else
    let d := match s with
      | some k => d.closeRequest k
      | none => d
    d.reply p false

/-- Serve a write. -/
def Dev.serveWrite (e : Env) (d : Dev) (p : Peer) (index sub : Nat) (data : List Byte) : Dev :=
  let s := d.sessionOf p
  if !d.dictReady then d.refuse p none false 0x0301
  else
    let d := match s with
      | some k => d.touch e k
      | none => d
    let code := targetCode p s index sub false
    match decodeObj index sub with
    | none => d.refuse p s false code
    | some (o, i) =>
      if code ≠ 0 then d.refuse p s false code
      else
        let code := d.writeFails s o i data
        if code ≠ 0 then
          (d.noteFull code).refuse p s false code
        else if d.mustWait o false then d.holdRequest ⟨p, index, sub, some data⟩
        else (d.passWrite e p s o i data).settle p s d.kr.waiting.length

/-! ## Reads (R412) -/

/-- Serve a read. -/
def Dev.serveRead (e : Env) (d : Dev) (p : Peer) (index sub : Nat) : Dev :=
  let s := d.sessionOf p
  if !d.dictReady then d.refuse p none true 0x0301
  else
    let d := match s with
      | some k => d.touch e k
      | none => d
    let code := targetCode p s index sub true
    match decodeObj index sub with
    | none => d.refuse p s true code
    | some (o, i) =>
      if code ≠ 0 then d.refuse p s true code
      else if !(o.right (d.roleOf s)).reads then d.refuse p s true 0x0101
      else if d.mustWait o true then d.holdRequest ⟨p, index, sub, none⟩
      else
        let code := d.readFails o
        if code ≠ 0 then d.refuse p s true code
        else
          let (bs, d) := d.readObj e p s o i
          let d := { d with answer := { bytes := bs, word := ofLe (bs.take 8) } }
          let d := match s with
            | some k => d.closeRequest k
            | none => d
          d.reply p true

/-- A request of a peer: behind those of its own that wait. -/
def Dev.serve (e : Env) (d : Dev) (w : Waiting) : Dev :=
  if !d.hears w.peer then d
  else if d.assisting w.peer ∨ d.ses.held.any (fun (x : Waiting) => x.peer == w.peer) then d.holdRequest w
  else match w.data with
    | some bs => d.serveWrite e w.peer w.index w.sub bs
    | none => d.serveRead e w.peer w.index w.sub

/-- A request in a TRDP message: OPEN acts as `open_role`, `open_cred` and `open_go`, RESPOND as `open_resp`, CLOSE as
`ses_close` (R424). -/
def Dev.serveTrdp (e : Env) (d : Dev) (m ip port sid : Nat) (b : List Byte) : Dev :=
  let p : Peer := .trdp m ip sid
  let h := trdpHead p port b
  let code := trdpCode h b
  let waits := d.assisting p || d.ses.held.any fun (x : Waiting) => x.peer == p
  let data := (b.drop 16).take h.length
  if !d.hears p then d
  else if code ≠ 0 then
    let d := match d.sessionOf p with
      | some k => (d.answerCode code).closeRequest k
      | none => d.answerCode code
    (d.count .trdpRequests).trdpSend h
  else
    let hs := if waits then d.ses.trdp else d.ses.trdp.filter fun (x : TrdpHead) => x.peer != p
    let d := { d with ses := { d.ses with trdp := hs ++ [h] } }
    match h.op with
    | 1 => d.serve e ⟨p, h.index, h.sub, none⟩
    | 2 => d.serve e ⟨p, h.index, h.sub, some data⟩
    | 3 => (d.updOpening p fun x => { x with role := h.role, cred := h.cred }).serve e ⟨p, 0x2110, 3, some [1#8]⟩
    | 4 => d.serve e ⟨p, 0x2110, 5, some data⟩
    | _ => d.serve e ⟨p, 0x2100, 4, some [1#8]⟩

/-- A message of ComId 72,561 that the MAC passed to the cores reaches the engine: a read after rank 7, any other request at
rank 7 (R412, R424). -/
def State.takeTrdp (s : State) (m : Nat) (body : EthBody) (passed : Bool) : Out :=
  match body with
  | .trdpMd ip port sid comId b =>
    if passed ∧ comId = 72561 ∧ b.length ≤ 1040 then
      s.at (if b.getD 0 0 = 1 then 8 else 7) fun e d => d.serveTrdp e m ip port sid b
    else .next s
  | _ => .next s

/-- The requests that wait are served again, in the order they came. -/
def Dev.serveHeld (e : Env) (d : Dev) : Dev :=
  let ws := d.ses.held
  ws.foldl (fun d w => d.serve e w) { d with ses := { d.ses with held := [] } }

/-- After an event that may let waiting requests go on: they are accepted at the next rank 7. -/
def State.thenHeld (s : State) : Out :=
  if s.dev.ses.held.isEmpty ∨ 256 ≤ s.dev.nv.queued ∨ s.dev.g .krIslandState = 1 then .next s
  else s.at 7 fun e d => d.serveHeld e

/-! ## Segmented transfers (R421) -/

def Dev.transferOf (d : Dev) (p : Peer) : Option Transfer := d.ses.transfers.find? fun (t : Transfer) => t.peer == p

def Dev.dropTransfer (d : Dev) (p : Peer) : Dev :=
  { d with ses := { d.ses with transfers := d.ses.transfers.filter fun (t : Transfer) => t.peer != p } }

/-- No segment for `can_usdo_timeout`. -/
def Dev.transferDue (e : Env) (d : Dev) (p : Peer) : Bool :=
  match d.transferOf p, p with
  | some t, .can k _ => decide (t.last + d.g .canUsdoTimeout k * 4000 ≤ e.now)
  | _, _ => false

/-- A transfer ends with 0x0712 and changes nothing. -/
def Dev.transferFails (d : Dev) (p : Peer) : Dev := (d.dropTransfer p).refuse p (d.sessionOf p) false 0x0712

/-- A segment arrives; the last one makes the write. -/
def Dev.segment (e : Env) (d : Dev) (p : Peer) (index sub : Nat) (data : List Byte) (last : Bool) : Dev :=
  if !d.hears p then d
  else if d.transferDue e p then d.transferFails p
  else
    let before := match d.transferOf p with
      | some t => if t.index = index ∧ t.sub = sub then t.data else []
      | none => []
    let all := before ++ data
    let d := d.dropTransfer p
    if last then d.serve e ⟨p, index, sub, some all⟩
    else
      let d := match d.sessionOf p with
        | some k => d.touch e k
        | none => d
      { d with ses := { d.ses with transfers := d.ses.transfers ++ [⟨p, index, sub, all, e.now⟩] } }

/-! ## Assists (R413) -/

/-- The peer's assisted request has waited 100 ms. -/
def Dev.assistDue (e : Env) (d : Dev) (p : Peer) : Bool :=
  match d.ses.assists.find? fun a => a.peer == p with
  | some a => decide (a.since + 400000 ≤ e.now)
  | none => false

/-- It fails with 0x0711 and changes nothing; a response under verification is given up. -/
def Dev.assistFails (e : Env) (d : Dev) (p : Peer) : Dev :=
  let response := d.ses.assists.any fun a => a.peer == p && a.index == 0x2110
  let d := (d.assistEnds p).fire 0x2B3
  let d := if response then d.updOpening p fun o => { o with verifying := false, result := 0x0711 } else d
  let d := match p with
    | .ring r => if response then (d.answerCode 0x0711).dmbVerdict r else d.refuse p (d.sessionOf p) false 0x0711
    | _ => d.refuse p (d.sessionOf p) false 0x0711
  d.serveHeld e

/-- A verdict that the island reaches goes to its peer. -/
def Dev.verdictReply (e : Env) (d : Dev) (p : Peer) (pass : Bool) : Dev :=
  if !(d.openingOf p).verifying ∨ pass ≠ d.responseOk p then d
  else
    let d := d.openVerdict e p pass
    (match p with
      | .ring r => d.dmbVerdict r
      | _ => d.reply p false).serveHeld e

end Sys2Proof.Machine
end

