-- ==== Sys2Proof/Machine/Dictionary.lean ====
section
/-!
DEFINITION. Commands of the dictionary engine, its sessions and its channels (R410 to R425).
-/

namespace Sys2Proof.Machine

/-! ## Requests -/

/-- OBJECT_READ (R412): after rank 7. -/
def execObjectRead (p : Peer) (index sub : Nat) (s : State) : Out :=
  s.at 8 fun e d => d.serve e ⟨p, index, sub, none⟩

/-- OBJECT_WRITE (R411). -/
def execObjectWrite (p : Peer) (index sub : Nat) (data : List Byte) (s : State) : Out :=
  s.at 7 fun e d => d.serve e ⟨p, index, sub, some data⟩

/-- PTP_ENABLE (R34): an accepted write of `ptp_enable`. -/
def execPtpEnable (on : Bool) (s : State) : Out := s.at 7 fun e d => d.directWrite e .ptpEnable 0 (b2n on)

/-- ASSIST_TIMEOUT (R413). -/
def execAssistTimeout (p : Peer) (s : State) : Out :=
  s.at 7 fun e d => d.when (d.assistDue e p) fun d => d.assistFails e p

/-! ## Sessions -/

/-- OPEN_GO (R419): `open_go` 1, with the role and the credential the peer has written. -/
def execOpenGo (p : Peer) (s : State) : Out := s.at 7 fun e d => d.serve e ⟨p, 0x2110, 3, some [1#8]⟩

/-- OPEN_RESP (R419): `open_resp`. -/
def execOpenResp (p : Peer) (resp : List Byte) (s : State) : Out :=
  s.at 7 fun e d => d.serve e ⟨p, 0x2110, 5, some resp⟩

/-- OPEN_VERDICT (R419): the island's finding on the response (R418); a verdict it does not reach changes nothing. -/
def execOpenVerdict (p : Peer) (pass : Bool) (s : State) : Out := s.at 7 fun e d => d.verdictReply e p pass

/-- LOCKOUT_END (R419). -/
def execLockoutEnd (ch : Nat) (s : State) : Out :=
  s.at 7 fun e d => d.when (!d.lockedOut e ch) fun d => { d with ses := { d.ses with locked := d.ses.locked.del ch } }

/-- SES_CLOSE (R420): `ses_close` 1. -/
def execSesClose (k : Nat) (s : State) : Out := s.at 7 fun e d => d.request e k .sesClose fun d => d.sesCloseBy e k

/-- SES_KILL (R420): `ses_kill` 1 of session `k` by session `by_`. -/
def execSesKill (by_ k : Nat) (s : State) : Out :=
  s.at 7 fun e d => d.request e by_ .sesKill fun d => d.sesKillBy e by_ k

/-- SESSION_IDLE (R420): what is due at rank 7 closes the sessions whose idle time has run out. -/
def execSessionIdle (k : Nat) (s : State) : Out :=
  s.at 7 fun e d => d.closeWhere e 2 fun d n x => n == k && decide (x.last + d.g .sesIdle * 4000000 ≤ e.now)

/-! ## CANopen FD -/

/-- BUS_OFF (R420, R423). -/
def execBusOff (k : Nat) (s : State) : Out :=
  s.at 7 fun e d => d.when (d.on .canEnable k) fun d =>
    ((d.closeController e k).count .canBusOffs k).flag .canEventFlags k 1

/-- NMT reset: the controller's sessions close, and it boots up into Pre-operational (R421). -/
def Dev.nmtReset (e : Env) (d : Dev) (k : Nat) : Dev :=
  d.when (d.g .canNmtState k != 0) fun d => (d.closeController e k).bootUp k

/-- NMT_RESET_NODE (R421). -/
def execNmtResetNode (k : Nat) (s : State) : Out := s.at 7 fun e d => d.nmtReset e k

/-- NMT_RESET_COMMUNICATION (R421). -/
def execNmtResetCommunication (k : Nat) (s : State) : Out := s.at 7 fun e d => d.nmtReset e k

/-- The NMT state a command leads to, by its CiA 301 command specifier: start, stop, enter Pre-operational. -/
def nmtTarget (cmd : Nat) : Option Nat :=
  if cmd = 1 then some 2 else if cmd = 2 then some 3 else if cmd = 128 then some 1 else none

/-- NMT_COMMAND (R421). [PRESUMED, log entry 103] -/
def execNmtCommand (k cmd : Nat) (s : State) : Out :=
  s.at 7 fun _ d => match nmtTarget cmd with
    | some v => d.when (d.g .canNmtState k != 0) fun d => d.setNmt k v
    | none => d

/-- USDO_SEGMENT (R421). -/
def execUsdoSegment (p : Peer) (index sub : Nat) (data : List Byte) (last : Bool) (s : State) : Out :=
  s.at 7 fun e d => d.segment e p index sub data last

/-- USDO_ABORT (R421). -/
def execUsdoAbort (p : Peer) (s : State) : Out :=
  s.at 7 fun _ d => d.when (d.transferOf p).isSome fun d => d.transferFails p

/-- USDO_TIMEOUT (R421). -/
def execUsdoTimeout (p : Peer) (s : State) : Out :=
  s.at 7 fun e d => d.when (d.transferDue e p) fun d => d.transferFails p

/-- HEARTBEAT (R422): the controller sends its NMT state every `heartbeat_time` ms. -/
def execHeartbeat (k : Nat) (s : State) : Out :=
  s.at 9 fun e d =>
    d.when (d.g .canNmtState k != 0 && d.on .heartbeatTime
        && decide ((d.ses.beats.getD k 0) + d.g .heartbeatTime * 4000 ≤ e.now)) fun d =>
      (({ d with ses := { d.ses with beats := d.ses.beats.put k e.now } }).canSends k (d.g .canNmtState k)).answerWord
        (d.g .canNmtState k)

/-! ## The dictionary mailbox block (R425) -/

/-- DMB_CHALLENGE: `DMB_CMD` 1. -/
def execDmbChallenge (s : State) : Out := s.at 7 fun e d => d.dmbChallengeNow e

/-- DMB_RESPOND: `DMB_CMD` 2. -/
def execDmbRespond (s : State) : Out := s.at 7 fun e d => d.dmbRespondNow e

/-- DMB_CLOSE: `DMB_CMD` 3. -/
def execDmbClose (s : State) : Out := s.at 7 fun e d => d.dmbCloseNow e

end Sys2Proof.Machine
end

