-- ==== Sys2Proof/Machine/Engines.lean ====
section
/-!
DEFINITION. The meanings of engine faults, readmission, self-tests, perturbation and late responses (R150 to R153, R371,
R520 to R525).
-/

namespace Sys2Proof.Machine

/-- ENGINE_HARD_FAULT (R150), rank 3. -/
def execEngineHardFault (eng : Nat) (s : State) : Out := (s.ordered 3 (0x080 + eng)).running 3 fun _ d => d.engineFault eng true

/-- LATE_RESPONSE (R371): a response of an earlier epoch is dropped and counted. -/
def execLateResponse (m : Nat) (s : State) : Out :=
  s.at 9 fun _ d => d.when (0 < d.bus.older.getD m 0) fun d => d.lateResponse m

/-- ENGINE_BIST_START (R520). -/
def execEngineBistStart (eng : Nat) (s : State) : Out := s.running 9 fun e d => d.bistStart e.now eng

/-- ENGINE_BIST_RESULT (R520), rank 3. -/
def execEngineBistResult (eng : Nat) (ok : Bool) (s : State) : Out := (s.ordered 3 (0x080 + eng)).running 3 fun _ d => d.bistResult eng ok

/-- BIST_ABANDON (R520). -/
def execBistAbandon (codec : Bool) (eng : Nat) (s : State) : Out := s.running 9 fun e d => d.bistAbandon e.now codec eng

/-- CODEC_BIST_START (R521). -/
def execCodecBistStart (c : Nat) (s : State) : Out := s.running 9 fun e d => d.codecBist e.now c

/-- CODEC_BIST_RESULT (R521), rank 3. -/
def execCodecBistResult (c : Nat) (ok : Bool) (s : State) : Out := (s.ordered 3 (0x0A0 + c)).running 3 fun e d => d.codecBistResult e c ok

/-- ENG_READMIT (R153). -/
def execEngReadmit (eng : Nat) (s : State) : Out := s.at 7 fun e d => d.directWrite e .engReadmit 0 eng

/-- ENG_READMIT_DONE (R153). -/
def execEngReadmitDone (eng : Nat) (ok : Bool) (s : State) : Out := s.at 9 fun _ d => d.engineReadmitDone eng ok

/-- BIST_FORCE_FAULT (R523). -/
def execBistForceFault (v : Nat) (s : State) : Out := s.at 7 fun e d => d.directWrite e .bistForceFault 0 v

/-- PT_ARM (R525). -/
def execPtArm (k : Nat) (s : State) : Out := s.at 7 fun e d => d.directWrite e .ptGo k 1

/-- PT_STOP (R525). -/
def execPtStop (k : Nat) (s : State) : Out := s.at 7 fun e d => d.directWrite e .ptGo k 2

/-- PT_EXPIRY (R525). -/
def execPtExpiry (k : Nat) (s : State) : Out := s.at 7 fun e d => d.expireSlot e.now k

end Sys2Proof.Machine
end

