-- ==== Sys2Proof/Machine/Ethernet.lean ====
section
/-!
DEFINITION. The meanings of the Ethernet, MACsec and codec delivery commands (R199, R203, R322 to R335, R339).
-/

namespace Sys2Proof.Machine

/-- RECEIVE_FRAME (R325): what a lane receives is ignored while the MAC's loop-back is on (R330). A TRDP request that
reaches the cores goes on to the dictionary engine (R410, R424). -/
def execReceiveFrame (m : Nat) (f : EthFrame) (s : State) : Out :=
  let u := s.enter 4
  let t := u.run fun e d => if d.asleep then d else d.when (!d.on .ethLoop m) fun d => d.receive e m f
  t.takeTrdp m f.body ((t.dev.mac m).control == (u.dev.mac m).control + 1)

/-- TRANSMIT_FRAME (R326): the control cores may hand over a frame first; then the MAC sends from its queues. -/
def execTransmitFrame (m : Nat) (fw : Option FwFrame) (s : State) : Out :=
  s.at 9 fun e d =>
    let d := match fw with
      | some f => d.firmwareFrame m f
      | none => d
    d.transmit e m

/-- ARP_REFRESH (R323): the entry of a next hop is refreshed every 60 s. -/
def execArpRefresh (m ip : Nat) (s : State) : Out :=
  s.at 9 fun e d =>
    let c := d.mac m
    match c.arp.find ip with
    | some (a, t) => d.when (t + 240000000 ≤ e.now) fun d => d.putMac m { c with arp := c.arp.put ip (a, e.now) }
    | none => d

/-- MS_TX_AN (R334): a write of `ms_tx_an`, by a session or by firmware. -/
def execMsTxAn (m an : Nat) (fw : Bool) (s : State) : Out :=
  s.at 7 fun e d =>
    if fw then
      let (code, d) := d.switchAn e.now m an true
      d.answerCode code
    else d.directWrite e .msTxAn m an

/-- KEY_LOAD_COMPLETE (R333): no load leaves the key port while the island is paused (R465). -/
def execKeyLoadComplete (m : Nat) (s : State) : Out :=
  s.at 9 fun e d => match if d.g .krIslandState = 1 then none else d.dueLoad e.now m with
    | none => d
    | some l => ({ d with io := { d.io with loads := d.io.loads.erase l } }).loadDone e.now l

/-- SA_RETIRE (R334): `ch` is a receive channel, 8 m + c. -/
def execSaRetire (ch an : Nat) (s : State) : Out :=
  s.at 9 fun e d => d.when (d.retireDue e.now (24 + ch) an) fun d => d.emptySa e.now (24 + ch) an

/-- ETH_LOOP (R330): an accepted write of `eth_loop`. -/
def execEthLoop (m v : Nat) (s : State) : Out :=
  s.at 7 fun e d => d.directWrite e .ethLoop m v

/-- TS_ID_POP (R339): a read of `TS_ID` pops the oldest entry and latches its timestamp. -/
def execTsIdPop (m : Nat) (s : State) : Out :=
  s.at 8 fun _ d =>
    let r := d.popStamp m
    r.2.answerWord r.1

/-- LINK_FAULT_RECEIVED (R322): what a lane receives is ignored while the MAC's loop-back is on (R330). -/
def execLinkFaultReceived (m : Nat) (s : State) : Out :=
  s.at 9 fun e d => d.when (!d.on .ethLoop m) fun d => (d.putMac m { d.mac m with fault := some e.now }).linkFollow m

/-- LINK_FAULT_CLEARED (R322): 1 ms without a fault sequence. -/
def execLinkFaultCleared (m : Nat) (s : State) : Out :=
  s.at 9 fun e d => match (d.mac m).fault with
    | none => d
    | some t => d.when (t + 4000 ≤ e.now) fun d => (d.putMac m { d.mac m with fault := none }).linkFollow m

/-- SLICE_DECODE_DONE (R199, R202): of a slice of the height the codestream gives. -/
def execSliceDecodeDone (a k lines : Nat) (lost : Option Nat) (parseErrors : Nat) (s : State) : Out :=
  s.running 4 fun e d => d.sliceDecoded e a k lines lost parseErrors

/-- SLICE_ENCODE_DONE (R199). -/
def execSliceEncodeDone (dep k : Nat) (s : State) : Out := s.running 9 fun e d => d.sliceEncoded e.now dep k

/-- CODEC_FAULT (R203), rank 3. -/
def execCodecFault (c : Nat) (s : State) : Out := (s.ordered 3 (0x0A0 + c)).running 3 fun e d => d.codecFaults e c

/-- CDC_READMIT (R203). -/
def execCdcReadmit (c : Nat) (s : State) : Out := s.at 7 fun e d => d.directWrite e .cdcReadmit 0 c

/-- CDC_READMIT_DONE (R203). -/
def execCdcReadmitDone (c : Nat) (ok : Bool) (s : State) : Out := s.at 9 fun _ d => d.codecReadmitDone c ok

end Sys2Proof.Machine
end

