-- ==== Sys2Proof/Machine/FrameOps.lean ====
section
/-!
DEFINITION. A frame of a timing group and of its departures: frame start and slew, composed lines, write-back, capture
and network send (R36, R102, R122, R123, R143, R146, R149, R209 to R214, R220, R221, R358, R359).
-/

namespace Sys2Proof.Machine

/-! ## Capture (R221, R358, R359) -/

/-- Pictures run: OPERATE, and start-up has trained the DRAM (R501, R507). -/
def Dev.picturesRun (d : Dev) : Bool := d.g .pwrState == 0 && d.pwr.leaving.isEmpty && (d.pwr.ended.find 5).isSome

/-- The taken entry of a capture. -/
def Dev.capEntry (d : Dev) (c : Capture) : Option Taken := (d.ring c.ring).taken.find? fun t => t.index == c.index

/-- Media counts at 48 kHz whose instants fall in [F, F + P): the first, and how many. -/
def captureSpan (f : Nat) (p : Rat) : Nat × Nat :=
  let lo := ceilDiv (f * 48000) 1000000000
  let hi := (-((-(((f : Nat) : Rat) + p) * 48000 / 1000000000).floor)).toNat
  (lo, hi - lo)

/-- The surface an entry names for a departure's frame. -/
def Dev.captureSurf (d : Dev) (n : Nat) (t : Taken) (p : Pic) : Surf :=
  { addr := entryField t 8 8, pitch := bitsAt (entryField t 16 4) 0 24, space := bitsAt (entryField t 16 4) 24 3,
    fmt := { samp := p.samp, depth := p.depth, linear := true, argb := false }, coding := d.depCoding n,
    h := p.h, w := p.w, x := 0, y := 0, rw_ := p.w, rh := p.h }

/-- The entry is too small for the frame (R358). -/
def captureSmall (s : Surf) (t : Taken) (samples : Nat) : Bool :=
  s.pitch < s.lineBytes || s.pitch % 4 != 0 || entryField t 0x14 4 < s.h * s.pitch
    || ((entryByte t 1).testBit 0 && entryField t 0x28 2 < samples)

/-- Audio samples of a captured frame that starts at F (R359). -/
def Dev.captureCount (d : Dev) (n f : Nat) : Nat × Nat := captureSpan f (d.period (d.g .depGroup n))

/-- The entry of the frame in progress is there and too small for the frame: it receives no data and completes at once
(R221 step 3). [DEDUCED, log entry 44] -/
def Dev.capCheck (d : Dev) (n : Nat) : Dev :=
  let c := d.dep n
  match c.capture with
  | none => d
  | some x => match d.capEntry x with
    | none => d
    | some t =>
      let p : Pic := { w := d.g .depWidth n, h := d.g .depHeight n, samp := d.g .depSampling n, depth := d.g .depDepth n }
      if c.composing ∧ c.frame = x.frame ∧ !t.bytes.isEmpty ∧ captureSmall (d.captureSurf n t p) t (d.captureCount n c.f).2 then
        (d.updDep n fun c => { c with capture := none }).ringComplete x.ring t 0x040D 0 0
      else d

/-- The read of an entry a departure has taken is answered. -/
def Dev.capAnswer (d : Dev) (r index : Nat) : Dev :=
  ((List.range 128).filter fun n => (d.dep n).capture.any fun x => x.ring == r && x.index == index).foldl Dev.capCheck d

/-- The departure's ring has an entry to take for its next frame, or the frame is skipped (R221 steps 1 and 2). Host
memory answers the read with ENTRY_FETCH. [DEDUCED, log entry 44] -/
def Dev.captureTake (e : Env) (d : Dev) (n : Nat) : Dev :=
  let frame := (d.g .depFrames n + 1) % 2 ^ 32
  let r := d.g .depCapRing n
  let sends := d.g .depState n == depLive || (d.g .depState n == depArmed && d.picturesRun)
  if !((d.g .depBind n).testBit 3 && sends && frame % max 1 (d.g .depCapEvery n) == 0) then d
  else
    let c := d.ring r
    if c.st = .enabled ∧ c.nonempty ∧ (d.dep n).capture.isNone then
      let (_, d) := d.takeAhead e r
      d.updDep n fun x => { x with capture := some { ring := r, index := c.c, f := 0, frame := frame } }
    else (d.count .depCapSkips n).flag .depEventFlags n 2

/-- The audio block of a capture: 8 channels of the destinations of the departure's embedding slot; silence without
one. -/
def Dev.captureAudio (d : Dev) (n lo count : Nat) : List Byte :=
  let slot := (List.range 8).find? fun i => d.g .capDeparture i == n
  ((List.range count).map fun k => ((List.range 8).map fun ch =>
    let v := match slot with
      | some i => (((d.dst (960 + 8 * i + ch)).kept.find? fun (p : Nat × Nat) => p.1 == lo + k).map fun (p : Nat × Nat) => p.2).getD 0
      | none => 0
    leBytes 4 v).flatten).flatten

/-- Posts of a capture that lie inside the space's window. -/
def Dev.postWindow (d : Dev) (space : Nat) (ps : List Post) : Dev :=
  let (_, base, size) := d.window space
  { d with posts := d.posts ++ ps.filter fun p => match size with
      | none => true
      | some z => base ≤ p.addr && p.addr < base + z }

/-- CAPTURE_COMPLETE: the writes of the oldest captured frame are accepted, and its entry completes. -/
def Dev.capComplete (e : Env) (d : Dev) (n : Nat) : Dev :=
  match (d.dep n).capDone with
  | [] => d
  | (x, p) :: rest =>
    match d.capEntry x with
    | none => d.updDep n fun c => { c with capDone := rest }
    | some t =>
      if t.bytes.isEmpty then d
      else
        let d := d.updDep n fun c => { c with capDone := rest }
        let s := d.captureSurf n t p
        let (lo, count) := d.captureCount n x.f
        if captureSmall s t count then d.ringComplete x.ring t 0x040D 0 0
        else
          let (sp, base, _) := d.window s.space
          let byte (a : Nat) : Byte := e.mem.read sp (base + a)
          let d := d.postWindow s.space (s.unitPosts sp base byte p []).flatten
          let audio := (entryByte t 1).testBit 0
          let bs := if audio then d.captureAudio n lo count else []
          let at_ := base + entryField t 0x20 8
          let d := d.postWindow s.space ((List.range bs.length).map fun k => ⟨sp, at_ + k, bs.getD k 0⟩)
          let v1 := x.frame + (if audio then count else 0) % 2 ^ 16 * 2 ^ 32 + fmtCode p.samp p.depth * 2 ^ 48
          (d.ringComplete x.ring t 0 x.f v1).count .depCapFrames n

/-! ## Frame start (R36, R210) -/

/-- The next frame of a group starts in this tick. [DESIGN CHOICE, log entry 16] -/
def Dev.startDue (e : Env) (d : Dev) (g : Nat) : Bool :=
  let c := d.group g
  g < 32 && (!c.started || (c.committed && decide (c.start + c.period ≤ d.groupNow e g)))

/-- The latest start of ST 2059-1 alignment, moved by the phase offset, at or before an instant. -/
def Dev.alignedBefore (d : Dev) (g : Nat) (t : Rat) : Rat :=
  let p := d.tgPeriod g
  let o : Rat := (d.gi .tgPhaseOffset g : Int)
  o + (((t - o) / p).floor : Int) * p

/-- How far a frame start lies after the nearest alignment. [DESIGN CHOICE, log entry 131] -/
def Dev.alignError (d : Dev) (g : Nat) (t : Rat) : Rat :=
  let p := d.tgPeriod g
  let r := t - d.alignedBefore g t
  if p / 2 < r then r - p else r

/-- The period of a frame: while slewing, changed toward alignment by no more than the slew limit.
[DESIGN CHOICE, log entry 131] -/
def Dev.framePeriod (d : Dev) (g : Nat) (start : Rat) : Rat :=
  let p := d.tgPeriod g
  if (d.group g).slewing then
    let m := p * (d.g .tgSlewLimit g : Nat) / 1000000
    p - max (-m) (min m (d.alignError g start))
  else p

/-- Where the next frame starts: where the frame in progress ends; a locked group's first frame at an alignment. -/
def Dev.nextStart (e : Env) (d : Dev) (g : Nat) : Rat :=
  let c := d.group g
  if c.started then c.start + c.period
  else if d.g .tgMode g = 1 then d.alignedBefore g (d.groupNow e g)
  else d.groupNow e g

/-- A group whose frame start meets the alignment has ended its slew. -/
def Dev.endSlew (d : Dev) (g : Nat) (start : Rat) : Dev :=
  let c := d.group g
  if c.slewing ∧ d.alignError g start = 0 then
    ((d.putGroup g { c with slewing := false }).put .tgState g 1).fire 0x076
  else if !c.started ∧ d.g .tgMode g = 1 then d.put .tgState g 1
  else d

/-- A departure starts its frame: ARMED goes LIVE, the frame is counted, F is stamped (R51, R210). -/
def Dev.startDep (e : Env) (d : Dev) (g : Nat) (start : Rat) (n : Nat) : Dev :=
  let d := if d.g .depState n = depArmed ∧ d.picturesRun then d.setDepState n depLive else d
  if d.g .depState n = depLive ∨ d.g .depState n = depFaulted then
    let f := (d.toTb e g start).floor.toNat
    let d := (d.count .depFrames n).put .depFrameTime n f
    d.updDep n fun c =>
      { c with f := f, frame := (d.g .depFrames n + 1) % 2 ^ 32, origin := d.toFree e g start, composing := true, sent := none, raster := [], twin := [], shadow := [],
               liveLines := 0, wbQueue := 0, capQueue := 0, wbAbandoned := false, packet := 0, lineAt := [], encNext := 0, encReady := [],
               releasedAt := [], released := 0, encodeCut := false,
               checkerBad := false, replaced := [] }
  else d.updDep n fun c => { c with composing := false }

/-- What a head signals of its departure's format (R219): sampling, range, colorimetry and depth in MSA MISC0; BT.2020 in the
VSC SDP, which MISC1 then announces; and for HLG its EOTF in the HDR static metadata SDP, every mastering field 0. -/
def Dev.signal (d : Dev) (n : Nat) : Signal :=
  let samp := d.g .depSampling n
  let full := d.on .depRange n
  let wide := d.g .depColorimetry n == 2
  let bits := d.g .depDepth n / 2 - 3
  { misc0 := (if samp = 1 then 2 else if samp = 2 then 4 else 0) + 8 * b2n (!full) + 16 * b2n (d.g .depColorimetry n == 1)
      + 32 * bits
    misc1 := if wide then 0x40 else 0
    vsc := if wide then
        [(if samp = 1 then 0x20 else if samp = 2 then 0x10 else 0) + (if samp = 3 then 6 else 7), bits + 0x80 * b2n (!full), 0]
      else []
    hdr := if d.on .depTransfer n then 3 :: List.replicate 25 0 else [] }

/-- A head sends video from line 0 of a frame its departure starts while it is ACTIVE, otherwise the idle pattern
(R218). -/
def Dev.startHead (d : Dev) (h : Nat) : Dev :=
  match d.headOwner h with
  | none => d
  | some n =>
    let on := d.g .headState h == headActive && (d.dep n).composing
    if on then d.putHead h { d.head h with video := true, signal := some (d.signal n) } else d.stopVideo h

/-- An arrival whose frame starts with a group's, by its generator or by the departure it loops (R68). -/
def Dev.startArrival (e : Env) (d : Dev) (g : Nat) (start : Rat) (a : Nat) : Dev :=
  let f := (d.toTb e g start).floor.toNat
  let n := d.g .arrWbDep a
  let gen := d.g .arrKind a == 5 && d.g .arrGenGroup a == g && d.picturesRun
  let loops := d.g .arrKind a == 4 && n < 128 && d.g .depGroup n == g && (d.g .depBind n).testBit 2
    && d.g .depState n == depLive
  if gen || loops then ((d.rejectBehind a).frameStart e a 0 f 0 (d.g .arrWidth a) (d.g .arrHeight a)).claimDue a
  else d

/-- FRAME_START: the group's next frame starts. [DESIGN CHOICE, log entry 16] [DEDUCED, log entry 43] -/
def Dev.startFrame (e : Env) (d : Dev) (g : Nat) : Dev :=
  let start := d.nextStart e g
  let d := d.endSlew g start
  let d := if (d.group g).started then d else (d.groupDeps g).foldl Dev.switchTables d
  let period := d.framePeriod g start
  let d := d.putGroup g { d.group g with started := true, start := start, period := period, committed := false,
                                         verdict := false }
  let d := d.count .tgFrameCount g
  let d := (d.groupDeps g).foldl (fun d n => (d.startDep e g start n).capCheck n) d
  let d := (List.range 256).foldl (fun d a => d.startArrival e g start a) d
  ((List.range 8).filter fun h => (d.headOwner h).any fun n => d.g .depGroup n == g).foldl Dev.startHead d

/-! ## Composed lines (R102, R139, R143, R146, R149) -/

/-- The first miss of a layer in a frame: its lines are replaced from this one on, and the arrival counts it (R102). -/
def Dev.missLine (d : Dev) (m y : Nat) : Dev :=
  let c := d.lay m
  if c.missFrom.isNone && d.missesAt m c y then
    let a := c.src
    let d := (d.putLay m { c with missFrom := some y }).flag .layEventFlags m 3
    (d.count .arrSliceMisses a).updArr a fun x => { x with missed := insertAsc m (x.missed.filter (· != m)) }
  else d

/-- A layer's lines come from a source on this line. -/
def Dev.fetches (d : Dev) (m y : Nat) : Bool :=
  let (_, y0, _, y1) := d.dstRect m
  let st := (d.lay m).st
  y0 ≤ y && y < y1 && (st == layFresh || st == layRepeat || st == layHold)

/-- A late line of a layer (R146). -/
def Dev.lateLine (d : Dev) (e m : Nat) : Dev :=
  let d := (d.count .layLateLines m).flag .layEventFlags m 2
  if e < 25 then d.countReg (0x160018 + 0x1000 * e) else d

/-- Regions of a line that a replaced layer lies in: the twin comparison of the frame skips them (R185). -/
def Dev.replacedRegions (d : Dev) (n y m : Nat) : List Nat :=
  let (x0, _, x1, _) := d.dstRect m
  (d.regionsOn n).filter fun r =>
    let i := 16 * n + r
    d.g .sbrY i ≤ y && y < d.g .sbrY i + d.g .sbrH i && d.g .sbrX i < x1 && x0 < d.g .sbrX i + d.g .sbrW i

/-- A slice or bridge reader shows its paired frame, unless it misses or shows no picture; a frame read from its ring
slots is no last good frame (R96, R103, R142). -/
def Dev.showsPaired (v : Dev) (m : Nat) (c : LayCtx) : LayCtx :=
  if c.pair.isNone ∨ c.missFrom.isSome ∨ (c.st ≠ layFresh ∧ c.st ≠ layRepeat) then c
  else match v.paired m c with
    | none => c
    | some l =>
      let sel (r : Nat) : Sel := { arr := c.src, gen := (v.arr c.src).gen, room := r, seq := l.seq, time := l.time }
      match l.dest with
      | .room r => c.shows (sel r) none
      | _ => { c.shows (sel 0) none with good := none, shown := none }

/-- The live context shows it, and reports it. -/
def Dev.showPaired (d : Dev) (m : Nat) : Dev :=
  let c := d.showsPaired m (d.lay m)
  let d := d.putLay m c
  if c.pair.isNone ∨ (c.st ≠ layFresh ∧ c.st ≠ layRepeat) then d
  else (d.put .layShownSeq m c.shownSeq).put .layShownTime m c.shownTime

/-- A line of the shadow or dry run: a miss of a layer the take names counts for its arrival (R122, R123).
[DEDUCED, log entry 41] -/
def Dev.shadowLine (d : Dev) (n y : Nat) (t : Take) : Dev :=
  let v := t.view n d
  let t := (v.stack n).foldl (fun (t : Take) m =>
    let c := t.shadow.getD m {}
    let c := if c.missFrom.isNone && v.missesAt m c y then { c with missFrom := some y } else c
    { t with shadow := t.shadow.put m (v.showsPaired m c) }) t
  let d := (setBitsOf 8 t.mask).foldl (fun d l =>
    let c := t.shadow.getD (8 * n + l) {}
    if c.missFrom = some y ∧ c.src < 256 then
      (d.count .arrSliceMisses c.src).updArr c.src fun x =>
        { x with missed := insertAsc (8 * n + l) (x.missed.filter (· != 8 * n + l)) }
    else d) d
  let ctx (m : Nat) : LayCtx := t.shadow.getD m {}
  let line := v.composeLine ctx n y fun _ => false
  ((d.putTake n t).countFetch v ctx n y (d.g .depEngine n)).updDep n fun c => { c with shadow := c.shadow ++ [line] }

/-- The frame a looping arrival does not store gives its room back. -/
def Dev.dropLoop (d : Dev) (a : Nat) : Dev :=
  let c := d.arr a
  match c.recv, c.asm with
  | some x, _ => (d.freeRoom a x.dest).updArr a fun c => { c with recv := none }
  | none, some x => (d.freeRoom a x.dest).updArr a ArrCtx.next
  | none, none => d

/-- The arrival that loops a departure. -/
def Dev.loopOf (d : Dev) (n : Nat) : Option Nat :=
  (List.range 256).find? fun a => d.g .arrKind a == 4 && d.g .arrWbDep a == n

/-- Write-back of the frame is abandoned (R149, R220). [DEDUCED, log entry 40] -/
def Dev.abandonWb (d : Dev) (n : Nat) : Dev :=
  let d := (d.updDep n fun c => { c with wbAbandoned := true }).count .depWbAbandoned n |>.flag .depEventFlags n 1
  match d.loopOf n with
  | some a => d.dropLoop a
  | none => d

/-- Capture of the frame is abandoned: its entry completes with 0x0720 (R221). -/
def Dev.abandonCap (d : Dev) (n : Nat) (x : Capture) : Dev :=
  let d := d.updDep n fun c => { c with capture := none }
  let d := (d.count .depCapAbandoned n).flag .depEventFlags n 3
  match d.capEntry x with
  | some t => d.ringComplete x.ring t 0x0720 0 0
  | none => d

/-- A composed line goes into the queues of write-back and capture, 32 lines each (R149, R221). -/
def Dev.queueLine (d : Dev) (n wbDrained capDrained : Nat) : Dev :=
  let c := d.dep n
  let q := c.wbQueue - min c.wbQueue wbDrained
  let k := c.capQueue - min c.capQueue capDrained
  let wb := (d.g .depBind n).testBit 2 && !c.wbAbandoned
  let d :=
    if !wb then d
    else if 32 ≤ q then d.abandonWb n
    else d.updDep n fun c => { c with wbQueue := q + 1 }
  match c.capture with
  | none => d
  | some x => if 32 ≤ k then d.abandonCap n x else d.updDep n fun c => { c with capQueue := k + 1 }

/-- Line `y` is the next line of the frame, and its blending may begin (R146). -/
def Dev.lineDue (e : Env) (d : Dev) (n y : Nat) : Bool :=
  let c := d.dep n
  n < 128 && c.composing && !(d.group (d.g .depGroup n)).committed && c.raster.length == y && y < d.g .depHeight n
    && decide (d.lineTick n y - 80 ≤ (e.now : Int))

/-- The lines of a frame the encoder needs for slice `k`: to the end of the first precinct of the next slice, or of the
frame (R199). -/
def Dev.xsNeeds (d : Dev) (n k : Nat) : Nat := min (d.g .depHeight n) (16 * (k + 1) + 2 ^ d.g .depXsNly n)

/-- A composed line joins the frame; the slices it completes can be encoded. -/
def Dev.addLine (e : Env) (d : Dev) (n : Nat) (l : List Px) : Dev :=
  let rows := (d.dep n).raster.length + 1
  let ks := if d.xsSend n then (List.range (d.xsSlices n)).filter fun k => d.xsNeeds n k == rows else []
  d.updDep n fun c => { c with raster := c.raster ++ [l], lineAt := c.lineAt ++ [e.now],
                               encReady := ks.foldl (fun (t : Tab Nat) k => t.put k e.now) c.encReady }

/-- Layer 0's fill over a whole line. -/
def Dev.fillLine (d : Dev) (n : Nat) : List Px :=
  List.replicate (d.g .depWidth n) (fillPx (d.g .layFill (8 * n)) (d.depCoding n))

/-- The twin engine composes line `y` of the live context again, from the same selections and storage (R185).
[DEDUCED, log entry 157] -/
def Dev.twinLine (d : Dev) (n y : Nat) : Dev :=
  if d.g .sbTwinState n = 1 then
    (d.countFetch d d.lay n y (d.g .sbTwin n)).updDep n fun c =>
      { c with twin := c.twin ++ [d.composeLine d.lay n y fun _ => false] }
  else d

/-- The live context composes line `y`: misses and late lines first (R102, R146). -/
def Dev.liveLine (e : Env) (d : Dev) (n y : Nat) (late : List Nat) : Dev :=
  let d := d.forEach (d.stack n) fun d m => (d.missLine m y).showPaired m
  let lateNow := (d.stack n).filter fun m => late.contains (m % 8) && d.fetches m y
  let d := d.forEach lateNow fun d m => d.lateLine (d.g .depEngine n) m
  let gone := (d.stack n).filter fun m => lateNow.contains m || ((d.lay m).missFrom.isSome && d.fetches m y)
  let rs := (gone.map (d.replacedRegions n y)).flatten
  let d := d.updDep n fun c => { c with replaced := (c.replaced ++ rs).eraseDups, liveLines := c.liveLines + 1 }
  ((d.countFetch d d.lay n y (d.g .depEngine n)).addLine e n (d.composeLine d.lay n y fun m => lateNow.contains m)).twinLine n y

/-- The shadow or dry run composes line `y` when the departure's take has one. -/
def Dev.shadowRun (d : Dev) (n y : Nat) : Dev :=
  match d.takeOf n with
  | none => d
  | some t => if t.phase = .preroll ∨ t.phase = .hold then d.shadowLine n y t else d

/-- OUTPUT_LINE: line `y` of departure `n` is composed. `late`: layers whose data came too late.
[DEDUCED, log entry 38] -/
def Dev.outputLine (e : Env) (d : Dev) (n y : Nat) (late : List Nat) (wbDrained capDrained : Nat) : Dev :=
  if d.g .depState n = depFaulted then d.addLine e n (d.fillLine n)
  else if (d.dep n).torn then ((d.addLine e n (d.fillLine n)).twinLine n y).queueLine n wbDrained capDrained
  else
    let d := match (d.dep n).holdPic with
      | some r => d.addLine e n (r.getD y (d.fillLine n))
      | none => d.liveLine e n y late
    (d.shadowRun n y).queueLine n wbDrained capDrained

/-! ## End of a frame (R148, R220, R221) -/

/-- At its commit point a departure's frame is whole: fetch is reported, write-back and capture have their frame. -/
def Dev.endFrame (d : Dev) (n : Nat) : Dev :=
  let c := d.dep n
  if !c.composing then d
  else
    let d := d.reportFetch n
    let live := d.g .depState n == depLive
    let whole := c.raster.length == d.g .depHeight n
    let pic := c.sent.getD (d.outputPic n c.raster)
    let wb := (d.g .depBind n).testBit 2 && live && !c.wbAbandoned
    let d :=
      if !wb then d
      else if c.wbPic.isSome ∨ !whole then d.abandonWb n
      else d.updDep n fun c => { c with wbPic := some pic }
    match c.capture with
    | none => d
    | some x =>
      if live && whole then
        d.updDep n fun c => { c with capture := none, capDone := c.capDone ++ [({ x with f := c.f }, pic)] }
      else d.abandonCap n x

/-- WRITE_BACK_COMPLETE: the loop arrival stores the frame. [DEDUCED, log entry 40] -/
def Dev.wbComplete (e : Env) (d : Dev) (n : Nat) : Dev :=
  match (d.dep n).wbPic with
  | none => d
  | some p =>
    let d := d.updDep n fun c => { c with wbPic := none }
    match d.loopOf n with
    | some a => d.wholeFrame e a p
    | none => d

/-! ## Network send (R211 to R214) -/

/-- E(k) of the next packet, ns on the undisciplined clock; with wide pacing that of its group. -/
def Dev.packetTime (d : Dev) (n : Nat) : Rat :=
  let c := d.dep n
  let g := d.g .depGroup n
  let b := max 1 (d.g .depBurst n)
  let k := if d.g .depPacing n = 1 then c.packet / b * b else c.packet
  let trs := d.period g * d.g .tgActiveLines g / ((d.g .tgTotalLines g * d.framePackets n : Nat) : Rat)
  c.origin + (d.g .depTro n : Nat) + k * trs

/-- A packet of the frame is still to be sent. -/
def Dev.packetLeft (d : Dev) (n : Nat) : Bool :=
  let c := d.dep n
  n < 128 && (d.g .depBind n).testBit 0 && c.composing && c.packet < d.framePackets n
    && !(c.encodeCut && c.released ≤ c.packet)

/-- The tick the data of packet `k` came into the line store, or was released by its codec engine. -/
def Dev.packetReady (d : Dev) (n k : Nat) : Option Nat :=
  let c := d.dep n
  if d.xsSend n then c.releasedAt.find ((d.xsPlace n k).1.getD 0)
  else
    let unit := k / max 1 (d.linePackets n)
    c.lineAt[if d.g .depSampling n = 0 then 2 * unit + 1 else unit]?

/-- The picture every binding receives of the frame in progress. -/
def Dev.sentPic (d : Dev) (n : Nat) : Pic :=
  let c := d.dep n
  c.sent.getD (d.reacted n (d.outputPic n c.raster))

/-- Headers of packet `k` of the frame on path A or B (R210, R211, R214). -/
def Dev.packetRtp (d : Dev) (n k : Nat) (pathB : Bool) : RtpOut :=
  let c := d.dep n
  { srcIp := d.g .ethIp (if pathB then d.g .depMacB n else d.g .depMac n)
    dstIp := if pathB then d.g .depDstIpB n else d.g .depDstIp n
    dscp := d.g .depDscp n
    ttl := d.g .ethTtl (if pathB then d.g .depMacB n else d.g .depMac n)
    tag := if pathB then d.g .depTagB n else d.g .depTag n
    srcPort := d.g .depSrcPort n
    dstPort := if pathB then d.g .depUdpPortB n else d.g .depUdpPort n
    pt := d.g .depPt n
    ssrc := d.g .depSsrc n
    seq := c.extSeq % 2 ^ 16
    ts := c.f * 9 / 100000 % 2 ^ 32
    marker := k + 1 == d.framePackets n }

/-- Payload of packet `k` of an ST 2110-20 frame: its row header and the samples of its pixels (R212). -/
def Dev.videoBody (d : Dev) (n k : Nat) (r : RtpOut) : TxBody :=
  let c := max 1 (d.linePackets n)
  let (b, px) := pgroup (d.g .depSampling n) (d.g .depDepth n)
  let two := d.g .depSampling n == 0
  let row := (if two then 2 else 1) * (k / c)
  let x := k % c * (d.payloadMax n / b * px)
  let w := min (d.payloadMax n / b * px) (d.g .depWidth n - x)
  let p := (d.sentPic n).crop x row w (if two then 2 else 1)
  .video r ((d.dep n).extSeq / 2 ^ 16)
    { length := d.packetPayload n k, row := row, offset := x, continuation := false, field := false } (p.y ++ p.c1 ++ p.c2)

/-- Payload of packet `k` of a JPEG XS frame: the payload header of slice mode and codestream bytes; the frame's last
packet ends with the end-of-codestream marker (R200, R201). [PRESUMED, log entry 138] -/
def Dev.xsBody (d : Dev) (n k : Nat) (r : RtpOut) : TxBody :=
  let (unit, i) := d.xsPlace n k
  let len := d.packetPayload n k
  let at_ := i * d.g .depXsPayload n
  let p := d.sentPic n
  let lines := match unit with
    | none => []
    | some s => (p.crop 0 0 p.w (d.xsNeeds n s)).y ++ (p.crop 0 0 p.w (d.xsNeeds n s)).c1 ++ (p.crop 0 0 p.w (d.xsNeeds n s)).c2
  let bytes := (List.range len).map fun j => Config.xsByte (d.xsParams n) lines (unit.elim 0 (· + 1)) (at_ + j)
  .xs r { t := true, k := true, l := r.marker, i := 0, f := (d.dep n).frame % 32,
          sep := unit.elim 2047 (· % 2047), p := i % 2048 }
    (if r.marker then bytes.take (len - 2) ++ [0xFF, 0x11] else bytes)

/-- The next packet goes to the MAC, and its copy to the second one. -/
def Dev.sendPacket (d : Dev) (n : Nat) : Dev :=
  let c := d.dep n
  let pay := d.packetPayload n c.packet
  let send (d : Dev) (b : Bool) : Dev :=
    let m := if b then d.g .depMacB n else d.g .depMac n
    let r := d.packetRtp n c.packet b
    let body := if d.xsSend n then d.xsBody n c.packet r else d.videoBody n c.packet r
    (d.handOver m 1 { bytes := d.depFrameLen n b pay + 20, dep := some n, body := body } (d.reachable m r.dstIp)).count
      (if b then .depPktsB else .depPktsA) n
  let d := send d false
  let d := if d.on .depDup n then send d true else d
  d.updDep n fun c => { c with packet := c.packet + 1, extSeq := (c.extSeq + 1) % 2 ^ 32 }

/-- The tick the next packet falls due in. -/
def Dev.packetTick (d : Dev) (n : Nat) : Int := (d.packetTime n).floor / 250

/-- PACKET_DUE: the next packet is due, and its data was there by then. -/
def Dev.packetDue (e : Env) (d : Dev) (n : Nat) : Bool :=
  d.packetLeft n && (d.packetReady n (d.dep n).packet).any (fun t => decide ((t : Int) ≤ d.packetTick n))
    && decide (d.packetTick n ≤ (e.now : Int))

/-- LATE_PACKET_HANDOVER: the data of the next packet came after the tick it fell due in. -/
def Dev.packetLate (d : Dev) (n : Nat) : Bool :=
  d.packetLeft n && (d.packetReady n (d.dep n).packet).any fun t => decide (d.packetTick n < (t : Int))

end Sys2Proof.Machine
end

