-- ==== Sys2Proof/Machine/SliceOps.lean ====
section
/-!
DEFINITION. Slice modes at a commit point: readers, margins, lead windows, fallback, bridge and relock (R97, R98, R100 to
R104).
-/

namespace Sys2Proof.Machine

/-! ## Readers (R97, R101, R104, R120) -/

/-- A reader of an arrival: a layer, the configuration it reads under, and the taps of its vertical filter. -/
structure Reader where
  layer : Nat
  view : Dev
  taps : Nat
deriving DecidableEq, Repr

/-- Layers of bound departures that select an arrival. -/
def Dev.liveReaders (d : Dev) (a : Nat) : List Nat :=
  ((List.range 128).filter fun n => d.g .depBind n != 0).flatMap fun n => (d.stack n).filter fun m => d.g .laySrc m == a

/-- Layers outstanding takes name that are to select an arrival. -/
def Dev.takeReaders (d : Dev) (a : Nat) : List (Nat × Nat) :=
  d.takes.flatMap fun (p : Nat × Take) =>
    ((setBitsOf 8 p.2.mask).filter fun l => p.2.srcs.getD l 0x100 == a).map fun l => (p.1, 8 * p.1 + l)

/-- Layers that select an arrival in an accepted seal that has still to land, and in no configuration in force. -/
def Dev.sealReaders (d : Dev) (a : Nat) : List Nat :=
  (d.afterSeals.liveReaders a).filter fun m => !(d.liveReaders a).contains m

/-- Every reader, from the tick its seal or take is accepted (R101): live, sealed, named by a take. -/
def Dev.readers (d : Dev) (a : Nat) : List Reader :=
  let live : List Reader := (d.liveReaders a).map fun m => ⟨m, d, (d.lay m).taps⟩
  let later : List Reader := (d.sealReaders a).map fun m => ⟨m, d.afterSeals, 4⟩
  let take : List Reader := (d.takeReaders a).flatMap fun (p : Nat × Nat) =>
    match d.takeOf p.1 with
    | some t => [⟨p.2, t.view p.1 d, (t.shadow.getD p.2 {}).taps⟩]
    | none => []
  live ++ later ++ take

/-- A reader in a departure of the slice group. -/
def Dev.inGroup (d : Dev) (a : Nat) (r : Reader) : Bool := d.g .depGroup (r.layer / 8) == d.g .arrSliceGroup a

/-- The lowest layer of some readers, 0 for none. -/
def lowestLayer (rs : List Reader) : Nat := leastOr 0 (rs.map fun r => r.layer)

/-! ## Margins (R97) -/

/-- The slice log of the frame paired with the departure frame that ends. -/
def Dev.pairedEnded (d : Dev) (a n : Nat) (period : Rat) : Option SliceLog :=
  let t := (d.dep n).openFree
  (d.arr a).logs.find? fun l =>
    decide (t - period / 2 < (250 * l.start : Nat)) && decide (((250 * l.start : Nat) : Rat) ≤ t + period / 2)

/-- Output lines of a reader, and the source lines each uses: with 2 taps in fallback, otherwise with 4 (R165). -/
def Reader.uses (r : Reader) (w h samp depth : Nat) : List (Nat × List Nat) :=
  let g := r.view.geom r.layer w h samp depth
  (List.range g.dh).map fun j => (g.dy + j, g.linesUsed (if r.taps = 2 then 2 else 4) j)

/-- Slices of a logged frame a reader uses: each with its first and last output line. -/
def Reader.slices (r : Reader) (l : SliceLog) : List (Nat × Nat × Nat) :=
  let uses := r.uses l.w l.h l.samp l.depth
  (List.range (sliceCount l.h)).filterMap fun k =>
    match (uses.filter fun u => u.2.any fun s => s / 16 == k).map fun u => u.1 with
    | [] => none
    | ys => some (k, leastOr 0 ys, ys.foldl max 0)

/-- The least of some margins. -/
def leastOf (l : List Int) : Option Int :=
  match l with
  | [] => none
  | v :: t => some (t.foldl min v)

/-- Margins of one reader in the frame that ends, in ticks, and what stays open: the early margin over the slices it used,
and the late margin over those whose slot has been overwritten by now, in this frame or an earlier one. A pair that
straddles a commit point counts in the frame of its later tick (R97). -/
structure Margins where
  early : Option Int
  late : Option Int
  pending : List Unspent
deriving DecidableEq, Repr

/-- The late margin of a slice used earlier, once its slot is overwritten. -/
def Dev.spent (d : Dev) (a : Nat) (u : Unspent) : Option Int :=
  ((d.arr a).logs.find? fun l => l.start == u.start).bind fun l =>
    (d.overwritten a l u.slice true).map fun o => (o : Int) - u.need

def Dev.marginsOf (d : Dev) (now a : Nat) (period : Rat) (r : Reader) : Margins :=
  let n := r.layer / 8
  let need (y : Nat) : Int := d.lineTick n y - 160
  let used : List (SliceLog × Nat × Nat × Nat) :=
    if !(d.dep n).composing then []
    else match d.pairedEnded a n period with
      | none => []
      | some l => (r.slices l).map fun s => (l, s)
  let now' : List Unspent := used.map fun (l, k, _, last) => ⟨r.layer, l.start, k, need last⟩
  let before := (d.arr a).unspent.filter fun u => u.layer == r.layer
  { early := leastOf (used.map fun (l, k, first, _) => need first - ((l.pub.getD k now : Nat) : Int))
    late := leastOf ((before ++ now').filterMap (d.spent a))
    pending := (before ++ now').filter fun u =>
      (d.spent a u).isNone && (d.arr a).logs.any fun l => l.start == u.start }

/-- What the frame that ends shows of an arrival: its readers in the group with their margins. -/
structure Measured where
  arr : Nat
  rows : List (Nat × Margins)
deriving DecidableEq, Repr

/-- Arrivals with slice rings whose slice group is `g`. -/
def Dev.sliceArrivals (d : Dev) (g : Nat) : List Nat :=
  (List.range 256).filter fun a => d.g .arrKind a != 0 && d.g .arrStorage a == 1 && d.g .arrSliceGroup a == g

/-- Measure every arrival of a slice group, before the parts of the commit point land. [DEDUCED, log entry 31] -/
def Dev.measure (now : Nat) (d : Dev) (g : Nat) : List Measured :=
  (d.sliceArrivals g).map fun a =>
    ⟨a, ((d.readers a).filter (d.inGroup a)).map fun r => (r.layer, d.marginsOf now a (d.group g).period r)⟩

/-- `arr_margin_early` and `arr_margin_late` take the least margins of the frame; late margins still open are kept.
[DEDUCED, log entry 31] -/
def Dev.recordMargins (d : Dev) (x : Measured) : Dev :=
  let ms := x.rows.map fun (p : Nat × Margins) => p.2
  let fit (v : Int) : Int := clampInt (-(2 ^ 31)) (2 ^ 31 - 1) v
  let d := match leastOf (ms.filterMap Margins.early) with
    | some v => d.puti .arrMarginEarly x.arr (fit v)
    | none => d
  let d := match leastOf (ms.filterMap Margins.late) with
    | some v => d.puti .arrMarginLate x.arr (fit v)
    | none => d
  d.updArr x.arr fun c => { c with unspent := (ms.map Margins.pending).flatten }

/-! ## Lead windows (R98) -/

/-- The rates of an arrival's envelope and of a departure's group are equal (R101). -/
def Dev.sameRate (d : Dev) (a g : Nat) : Bool := !d.rateDiffers a g

/-- A window is evaluated for the reader. -/
def Dev.windowed (d : Dev) (a : Nat) (r : Reader) : Bool :=
  let n := r.layer / 8
  r.view.g .depHeight n == d.g .arrHeight a && d.sameRate a (r.view.g .depGroup n)

/-- The reader's lead window is empty; lines count in units of the line period. -/
def Dev.windowEmpty (d : Dev) (a : Nat) (r : Reader) : Bool :=
  d.windowed a r &&
    let uses := r.uses (d.g .arrWidth a) (d.g .arrHeight a) (d.g .arrSampling a) (d.g .arrDepth a)
    let slots := d.g .arrSlices a
    let los : List Int := uses.map fun u => ((16 * (u.2.foldl max 0 / 16) + 15 : Nat) : Int) - (u.1 : Nat)
    let his : List Int := uses.map fun u => ((16 * (leastOr 0 u.2 / 16 + slots) : Nat) : Int) - (u.1 : Nat)
    !uses.isEmpty && decide (his.foldl min (his.headD 0) < los.foldl max (los.headD 0))

/-! ## Fallback, bridge, relock (R101, R103, R104) -/

/-- Readers outside the slice group that a seal or a take has brought since the last commit point. -/
def Dev.outsidersNow (d : Dev) (a : Nat) : List Nat :=
  let v := d.afterSeals
  let now := d.liveReaders a ++ v.liveReaders a ++ (d.takeReaders a).map fun (p : Nat × Nat) => p.2
  (d.arr a).outsiders.filter fun m => now.contains m

/-- The cause of a fallback and the lowest layer it holds for, 0 for none. -/
def Dev.fallbackCause (d : Dev) (a : Nat) (x : Measured) : Nat × Nat :=
  let guard : Int := (d.g .arrSliceGuard a : Nat)
  let rs := (d.readers a).filter (d.inGroup a)
  let below (f : Margins → Option Int) : List Nat :=
    (x.rows.filter fun (p : Nat × Margins) => (f p.2).any fun v => decide (v < guard)).map fun (p : Nat × Margins) => p.1
  let early := below Margins.early
  let late := below Margins.late
  let missed := (d.arr a).missed
  let out := d.outsidersNow a
  let empty := rs.filter (d.windowEmpty a)
  if !early.isEmpty then (1, leastOr 0 early)
  else if !late.isEmpty then (2, leastOr 0 late)
  else if !missed.isEmpty then (3, leastOr 0 missed)
  else if !out.isEmpty then (4, leastOr 0 out)
  else if !empty.isEmpty then (5, lowestLayer empty)
  else if !d.sameRate a (d.g .arrSliceGroup a) then (6, lowestLayer rs)
  else (0, 0)

/-- The margins of every reader of the frame were at least twice the guard. -/
def Dev.goodFrame (d : Dev) (a : Nat) (x : Measured) : Bool :=
  let need : Int := (2 * d.g .arrSliceGuard a : Nat)
  !x.rows.isEmpty && x.rows.all fun (p : Nat × Margins) =>
    p.2.early.any (fun v => decide (need ≤ v)) && p.2.late.all fun v => decide (need ≤ v)

/-- The conditions of R104 hold. -/
def Dev.relocks (d : Dev) (a run : Nat) : Bool :=
  let rs := d.readers a
  let n := d.g .arrRelockFrames a
  n != 0 && n ≤ run && !rs.isEmpty && rs.all (fun r => d.inGroup a r && !d.windowEmpty a r)
    && d.sameRate a (d.g .arrSliceGroup a)

/-- One arrival's slice mode at a commit point of its slice group. -/
def Dev.sliceMode (d : Dev) (x : Measured) : Dev :=
  let a := x.arr
  let mode := d.g .arrSliceMode a
  let run := if mode ≠ 3 ∧ d.goodFrame a x then (d.arr a).relockRun + 1 else 0
  let d1 :=
    if mode = 3 then
      let (cause, m) := d.fallbackCause a x
      if cause = 0 then d
      else (d.setSliceMode a 2 (cause + 16 * m)).count .arrFallbacks a
    else if mode = 2 then d.setSliceMode a 1 (d.g .arrSliceCause a)
    else if mode = 1 ∧ d.relocks a run then d.setSliceMode a 3 8
    else d
  d1.updArr a fun c => { c with relockRun := if d1.g .arrSliceMode a = 3 then 0 else run, missed := [], outsiders := [] }

/-- The slice modes of a group, with what its ended frame measured; an arrival a part has brought into the group has
measured nothing. -/
def Dev.sliceModes (d : Dev) (g : Nat) (ms : List Measured) : Dev :=
  (d.sliceArrivals g).foldl (fun d a =>
    match ms.find? fun x => x.arr == a with
    | some x => (d.recordMargins x).sliceMode x
    | none => d.sliceMode ⟨a, []⟩) d

end Sys2Proof.Machine
end

