-- ==== Sys2Proof/Machine/CommitOps.lean ====
section
/-!
DEFINITION. What a commit point does: parts land, headroom, takes and salvos act, frames are selected, grants, lockstep,
caravans, layer states (R37, R115, R118, R122 to R126, R129, R141, R144, R151, R174, R270, R508).
-/

namespace Sys2Proof.Machine

/-- When the commit point of the frame in progress registers: its instant, by its skew later (R37, R527). -/
def Dev.commitWhen (e : Env) (d : Dev) (g : Nat) : When :=
  let t := d.commitInstant g + (250 * d.skew g : Nat)
  ⟨d.toTb e g t, d.toFree e g t, (d.group g).period⟩

/-! ## Writes of apply class boundary (R115, R416) -/

def Dev.landBoundary (e : Env) (d : Dev) (n : Nat) : Dev :=
  let hs := (d.dep n).boundary
  if hs.isEmpty then d
  else
    let d := d.updDep n fun c => { c with boundary := [] }
    hs.foldl (fun d (h : Held) => (d.put h.o h.i h.v).keep e h.who h.o h.i) d

/-! ## STANDBY (R508) -/

/-- On the way to STANDBY a group's departures enter ARMED at its commit point; with the last group every arrival enters
WAITING and the blocks stop. -/
def Dev.leaveGroup (now : Nat) (d : Dev) (g : Nat) : Dev :=
  if !d.pwr.leaving.contains g then d
  else
    let d := ((d.groupDeps g).filter fun n => d.g .depBind n != 0).foldl (fun d n =>
      ((d.undo n 8).setDepState n depArmed).updDep n fun c => { c with composing := false }) d
    let rest := d.pwr.leaving.filter (· != g)
    let d := { d with pwr := { d.pwr with leaving := rest } }
    if rest.isEmpty then
      let d := ((List.range 256).filter fun a => d.g .arrKind a != 0).foldl Dev.toWaiting d
      let d := (d.put .pwrState 0 1).trackersFollow now
      (List.range 48).foldl (fun (d : Dev) i => if d.laneIdle i then d.settleLane now i 1 else d) d
    else d

/-! ## Moves to the spare (R151, R152) -/

def Dev.moveDep (d : Dev) (n : Nat) : Dev :=
  match (d.dep n).moveTo with
  | none => d
  | some k =>
    let d := (d.put .depEngine n k).updDep n fun c => { c with moveTo := none, torn := false }
    if d.g .depState n = depFaulted then d.setDepState n depLive else d

/-! ## Hold buffers (R123) -/

/-- The hold buffer an engine uses, by the engine it belongs to: the spare uses that of the engine it replaces
(R123, R151). -/
def Dev.bufferOf (d : Dev) (e : Nat) : Nat := if e = 24 then d.g .engReplaces 24 else e

/-- The hold buffer of an engine is free (R123). [DEDUCED, log entry 38] -/
def Dev.bufferFree (d : Dev) (e : Nat) : Bool :=
  let b := d.bufferOf e
  !(d.takes.any fun (p : Nat × Take) =>
      d.bufferOf (d.g .depEngine p.1) == b && (p.2.phase == .capture || p.2.phase == .hold))
    && !((List.range 128).any fun n => d.bufferOf (d.g .depEngine n) == b && (d.dep n).holdPic.isSome)

/-! ## Headroom (R124, R129) -/

/-- A take drops its shadow; its rooms are held until the commit point is over. -/
def Dev.dropShadow (d : Dev) (n : Nat) (t : Take) : Dev :=
  let held := (t.shadow.map fun (p : Nat × LayCtx) => p.2.holds).flatten
  (d.putTake n { t with shadow := [] }).updDep n fun c => { c with linger := c.linger ++ held, shadow := [] }

/-- The phase of a take that is to capture from this commit point of group `g`: a departure of another group captures
at once where its engine's hold buffer is free; one of group `g` acts next in this commit point (R124). -/
def Dev.capturePhase (d : Dev) (g n : Nat) : TakePhase :=
  if d.g .depGroup n ≠ g ∧ d.bufferFree (d.g .depEngine n) then .capture else .armed

/-- A warm take becomes a cold take: in ARMED, or, from PREROLL or past a salvo's arm point, capturing from here.
[DEDUCED, log entry 39] -/
def Dev.convertTake (g : Nat) (d : Dev) (n : Nat) (t : Take) : Dev :=
  let p := if t.phase = .preroll ∨ (t.salvo.isSome ∧ t.reached) then d.capturePhase g n else .armed
  let d := d.dropShadow n { t with warm := false, phase := p, wait := 0 }
  (((d.put .tkState n p.code).put .tkKind n 2).count .tkColds n).flag .tkEventFlags n 2

/-- The other members of a converted salvo member's group land at the second commit point after: a warm one pre-rolls
from the next, a cold one captures up to it. -/
def Dev.delayMember (g : Nat) (d : Dev) (n : Nat) (t : Take) : Dev :=
  let d := d.dropShadow n { t with phase := .armed }
  let p := if t.warm then .armed else d.capturePhase g n
  let wait := if t.warm ∧ d.g .depGroup n = g then 1 else 0
  ((d.takeOf n).elim d fun u => d.putTake n { u with phase := p, wait := wait }).put .tkState n p.code

/-- Convert the take of departure `n` at a commit point of group `g`. -/
def Dev.convert (g : Nat) (d : Dev) (n : Nat) : Dev :=
  match d.takeOf n with
  | none => d
  | some t =>
    let d := d.convertTake g n t
    match t.salvo with
    | none => d
    | some s =>
      if !t.reached then d
      else (d.takes.filter fun (p : Nat × Take) =>
          p.2.salvo == some s && p.1 != n && d.g .depGroup p.1 == d.g .depGroup n && p.2.reached).foldl
        (fun d (p : Nat × Take) => d.delayMember g p.1 p.2) d

/-- The latest accepted warm take of an engine. -/
def Dev.latestWarm (d : Dev) (e : Nat) : Option Nat :=
  let ts := (d.engineTakes e).filter fun p => p.2.warm
  let top := ts.foldl (fun m p => max m p.2.order) 0
  (ts.find? fun p => p.2.order == top).map fun p => p.1

/-- Convert warm takes of one engine, latest accepted first, until its loads fit. -/
def Dev.headroom (g e : Nat) : Nat → Dev → Dev
  | 0, d => d
  | fuel + 1, d =>
    if d.committedLoad e + d.shadowLoad e ≤ engineLimit then d
    else match d.latestWarm e with
      | none => d
      | some n => Dev.headroom g e fuel (d.convert g n)

/-- Every engine is checked at a commit point of group `g`. [DEDUCED, log entry 39] -/
def Dev.headrooms (d : Dev) (g : Nat) : Dev := (List.range 25).foldl (fun d e => Dev.headroom g e 128 d) d

/-! ## Takes act (R122, R123, R129) -/

/-- Members of a salvo in this group reach their arm point (R129). -/
def Dev.armSalvo (w : When) (d : Dev) (g s : Nat) : Dev :=
  let ms := d.takes.filter fun (p : Nat × Take) => p.2.salvo == some s && !p.2.reached && d.g .depGroup p.1 == g
  let t : Rat := (d.g .svTime s : Nat)
  if ms.isEmpty ∨ w.tb + d.tgPeriod g < t then d
  else
    let late := decide (t ≤ w.tb)
    let cold := ms.any fun (p : Nat × Take) => !p.2.warm
    let d := ms.foldl (fun d (p : Nat × Take) =>
      d.putTake p.1 { p.2 with reached := true, late := late, wait := if p.2.warm && cold then 1 else 0 }) d
    if d.g .svState s = 1 then d.put .svState s 2 else d

/-- A HELD staging lands with the take that names it (R119). -/
def Dev.landHeld (e : Env) (d : Dev) (s : Nat) : List (Obj × Nat) × Dev :=
  let c := d.stg s
  let w : Origin := { role := c.role, ch := c.ch, cred := c.cred, ses := if s = 0 then 0xFF else d.g .stgOwner s }
  let changed := (c.entries.filter d.entryChanges).map fun x => (x.o, x.i)
  let d := (d.overlay c.entries).keepAll e w c.entries
  (changed, ((d.freeStg s).put .stgLandTick s e.tick).flag .stgEvent s 0)

/-- A shadow's layer comes into force: what the output showed last stays as the live context knows it (R141, R142). -/
def LayCtx.landed (s live : LayCtx) : LayCtx :=
  { s with times := live.times, shown := live.shown, shownB := live.shownB, shownTime := live.shownTime,
           shownSeq := live.shownSeq }

/-- A take lands: its held staging, its sources and its shadow come into force together (R119, R122, R123).
[DEDUCED, log entry 36] -/
def Dev.landTake (e : Env) (d : Dev) (n : Nat) (t : Take) : Dev :=
  let d := match t.staging with
    | some s => (d.landHeld e s).2
    | none => d
  let d := (setBitsOf 8 t.mask).foldl (fun d l =>
    (d.put .laySrc (8 * n + l) (t.srcs.getD l 0x100)).keep e t.who .laySrc (8 * n + l)) d
  let d := d.forEach (t.shadow.map fun (p : Nat × LayCtx) => p.1) fun d m =>
    let c := t.shadow.getD m {}
    (d.putLay m (c.landed (d.lay m))).put .layLbNeed m c.grant
  let d := { d.dropTake n with landedAt := d.landedAt.put n e.tick }
  let d := ((d.put .tkState n 0).put .tkKind n 0).put .tkLandTick n e.tick
  let d := ((d.count .tkLanded n).flag .tkEventFlags n 0).updDep n fun c => { c with shadow := [] }
  match t.salvo with
  | none => d
  | some s =>
    let d := if t.late then (d.count .svLate s).flag .tkEventFlags n 3 else d
    d.salvoDrop s n

/-- A take moves to a phase. -/
def Dev.phase (d : Dev) (n : Nat) (t : Take) (p : TakePhase) : Dev :=
  (d.putTake n { t with phase := p }).put .tkState n p.code

/-- The take of departure `n` acts at a commit point of its group. -/
def Dev.takeActs (e : Env) (d : Dev) (n : Nat) : Dev :=
  match d.takeOf n with
  | none => d
  | some t =>
    if !t.reached then d
    else match t.phase with
      | .armed =>
        if t.wait ≠ 0 then d.putTake n { t with wait := t.wait - 1 }
        else if t.warm then d.phase n t .preroll
        else if d.bufferFree (d.g .depEngine n) then d.phase n t .capture
        else d
      | .preroll => d.landTake e n t
      | .capture => (d.updDep n fun c => { c with holdPic := some c.raster }).phase n t .hold
      | .hold => d.landTake e n t

/-- Departures of a group with an outstanding take, in order of acceptance. -/
def insertTake (p : Nat × Take) : List (Nat × Take) → List (Nat × Take)
  | [] => [p]
  | q :: r => if p.2.order ≤ q.2.order then p :: q :: r else q :: insertTake p r

def Dev.takeOrder (d : Dev) (g : Nat) : List Nat :=
  ((d.takes.filter fun (p : Nat × Take) => d.g .depGroup p.1 == g).foldr insertTake []).map fun p => p.1

/-! ## Selection and grants (R174) -/

/-- What a layer's selection has come to: its context before, the pick, and its grant and taps. -/
structure Selected where
  layer : Nat
  before : LayCtx
  pick : Pick
  grant : Nat
  taps : Nat
deriving DecidableEq, Repr

/-- A live layer selects, and takes its grant. -/
def Dev.selectLive (w : When) (d : Dev) (m : Nat) : Selected × Dev :=
  let c := (d.lay m).follow (d.g .laySrc m)
  let p := d.pick m c w
  let e := d.g .depEngine (m / 8)
  let room := poolSize - (d.grants e - d.g .layLbNeed m)
  let (grant, taps, bit) := if 256 ≤ d.g .laySrc m then (0, 4, none) else d.ladder m c p room
  let p := if taps = 0 then p.denied else p
  let d := match bit with
    | some b => d.flag .layLbFlags m b
    | none => d
  (⟨m, c, p, grant, taps⟩, d.put .layLbNeed m grant)

/-- A layer of a shadow or dry run selects, and takes its grant. [DEDUCED, log entry 42] -/
def Dev.selectShadow (w : When) (d : Dev) (n m : Nat) : Dev :=
  match d.takeOf n with
  | none => d
  | some t =>
    let v := t.view n d
    let c := (t.shadow.getD m (d.lay m)).follow (v.g .laySrc m)
    let p := v.pick m c w
    let room := poolSize - (d.grants (d.g .depEngine n) - d.shadowGrant n m t)
    let (grant, taps, bit) := if 256 ≤ v.g .laySrc m then (0, 4, none) else v.ladder m c p room
    let p := if taps = 0 then p.denied else p
    let d := match bit with
      | some b => d.flag .layLbFlags m b
      | none => d
    d.putTake n { t with shadow := t.shadow.put m (v.layState m c p taps grant) }

/-! ## Lockstep sets and caravans (R144, R270) -/

/-- Sets hold their members together. [DEDUCED, log entry 42] -/
def Dev.lockstep (d : Dev) (ss : List Selected) : List Selected × Dev :=
  let rows := ss.map fun s => (s.layer, s.before, s.pick)
  ss.foldl (fun (acc : List Selected × Dev) s =>
    let k := d.g .layLockstep s.layer
    if k = 0 ∨ d.lockstepGo k rows ∨ d.excused s.layer s.before s.pick ∨ !s.pick.ready then (acc.1 ++ [s], acc.2)
    else (acc.1 ++ [{ s with pick := d.heldBack s.pick s.before }], acc.2.flag .layEventFlags s.layer 4)) ([], d)

/-- Members of a caravan: layers, then flows and slots. -/
def Dev.cvLayers (d : Dev) (c : Nat) : List Nat :=
  [d.g .cvLayer0 c, d.g .cvLayer1 c, d.g .cvLayer2 c, d.g .cvLayer3 c, d.g .cvLayer4 c, d.g .cvLayer5 c,
   d.g .cvLayer6 c, d.g .cvLayer7 c]

def Dev.cvAudios (d : Dev) (c : Nat) : List Nat :=
  [d.g .cvAudio0 c, d.g .cvAudio1 c, d.g .cvAudio2 c, d.g .cvAudio3 c, d.g .cvAudio4 c, d.g .cvAudio5 c,
   d.g .cvAudio6 c, d.g .cvAudio7 c]

/-- One lockstep caravan decides for the frame that starts at `f` on the time base. Answers the layers held back. Samples of
the silent frame lapse unheard, but for the 32 the ramp takes: presentation time goes on. [DEDUCED, log entry 41] -/
def Dev.caravanDecides (f : Nat) (d : Dev) (ss : List Selected) (c : Nat) : List Nat × Dev :=
  let ctx := d.audio.caravans.getD c {}
  let audio := d.cvAudios c
  let under (k : Nat) : Bool :=
    if k < 8 then
      match ss.find? fun s => s.layer == (d.cvLayers c).getD k 0xFFFF with
      | some s => d.g .laySrc s.layer < 256 && !s.pick.ready
      | none => false
    else
      let u := audio.getD (k - 8) 0xFF
      u != 0xFF && (d.flow u).missed
  let runs := (List.range 16).map fun k => if under k then ctx.runs.getD k 0 + 1 else 0
  let limit := d.g .cvExcuse c
  let fresh := runs.any fun r => r == limit + 1
  let paused := (List.range 16).any fun k => under k && runs.getD k 0 ≤ limit
  let was := d.g .cvState c == 2
  let units := audio.filter (· != 0xFF)
  let ctx := { ctx with runs := runs
                        silent := if paused then (if was then ctx.silent else some f) else ctx.silent
                        back := if paused then none else if was then some f else ctx.back }
  let d := { d with audio := { d.audio with caravans := d.audio.caravans.put c ctx } }
  let d := d.put .cvState c (if paused then 2 else 1)
  let d := if paused ∧ !was then d.flag .cvEventFlags c 0 else if !paused ∧ was then d.flag .cvEventFlags c 1 else d
  let d := if fresh then d.flag .cvEventFlags c 2 else d
  let d := units.foldl (fun d u => d.putFlow u { d.flow u with missed := false }) d
  (if paused then d.cvLayers c else [], d)

/-- Lockstep caravans of a group decide; ready video members of a paused one repeat. -/
def Dev.caravans (f : Nat) (d : Dev) (g : Nat) (ss : List Selected) : List Selected × Dev :=
  ((List.range 32).filter fun c => d.g .cvMode c == 2 && d.g .cvGroup c == g).foldl
    (fun (acc : List Selected × Dev) c =>
      let (held, d) := acc.2.caravanDecides f acc.1 c
      (acc.1.map fun s => if held.contains s.layer && s.pick.ready then { s with pick := d.heldBack s.pick s.before } else s, d))
    (ss, d)

/-! ## Layer states (R141, R154, R175) -/

/-- `lay_predec` of a layer in the frame: the factors of R162. -/
def Dev.predecOf (d : Dev) (m : Nat) (c : LayCtx) : Nat :=
  if 256 ≤ c.src then 0x11
  else
    let g := match (if c.st = layHold then c.good else c.a) with
      | some s =>
        let p := d.picOf s
        d.geom m p.w p.h p.samp p.depth
      | none => d.envGeom m
    g.dH + 16 * g.dV

/-- Regions that check a layer live (R184). -/
def Dev.liveRegions (d : Dev) (m : Nat) : List Nat :=
  (d.regionsOn (m / 8)).filter fun r =>
    2 ≤ d.g .sbrKind (16 * (m / 8) + r) && d.g .sbrLayer (16 * (m / 8) + r) == m % 8

/-- A layer that enters HOLD sets `sbr_stale` of the regions that check it, and bit 5 (R184, R192). -/
def Dev.noteStale (d : Dev) (m : Nat) : Dev :=
  let rs := d.liveRegions m
  let d := d.forEach rs fun d r =>
    let i := 16 * (m / 8) + r
    d.put .sbrCause i (d.g .sbrCause i ||| 128)
  if rs.isEmpty then d else d.flag .sbEventFlags (m / 8) 5

/-- The layer takes its state for the frame that opens. -/
def Dev.openLayer (d : Dev) (s : Selected) : Dev :=
  let c := d.layState s.layer s.before s.pick s.taps s.grant
  let old := d.g .layState s.layer
  let d := (d.reportLayer s.layer c).put .layPredec s.layer (d.predecOf s.layer c)
  if c.st = layHold ∧ old ≠ layHold then d.noteStale s.layer else d

/-- A layer above the stack, or of an unbound departure, is OFF. -/
def Dev.closeLayer (d : Dev) (m : Nat) : Dev :=
  if d.g .layState m = layOff ∧ (d.lays.find m).isNone then d
  else
    let d := { d with lays := d.lays.del m }
    (((((d.put .layState m layOff).put .layStale m 0).put .layRcWeight m 0).put .layReadMode m 0).put .layLbNeed m 0).put
      .layLbTaps m 4

/-- A live layer that is not composed in the frame that opens holds nothing (R91, R123, R152). -/
def LayCtx.rest (c : LayCtx) : LayCtx :=
  { c with a := none, b := none, weight := 0, pair := none, missFrom := none, st := layOff }

def Dev.restLayer (d : Dev) (m : Nat) : Dev := if (d.lays.find m).isSome then d.updLay m LayCtx.rest else d

/-- Every layer of the group's departures selects, and the contexts of the next frame open. -/
def Dev.openFrame (w : When) (now f : Nat) (d : Dev) (g : Nat) : Dev :=
  let deps := d.groupDeps g
  let on := deps.filter fun n => d.g .depBind n != 0
  let off := (deps.flatMap fun n => ((List.range 8).map (8 * n + ·)).filter fun m =>
    d.g .depBind n == 0 || d.g .depLayers n ≤ m % 8)
  let d := off.foldl Dev.closeLayer d
  let composed := on.filter fun n => d.g .depState n != depFaulted && !d.holding n
  let live := composed.flatMap d.stack
  let d := ((on.filter fun n => !composed.contains n).flatMap d.stack).foldl Dev.restLayer d
  let (ss, d) := live.foldl (fun (acc : List Selected × Dev) m =>
    let (s, d) := acc.2.selectLive w m
    (acc.1 ++ [s], d)) ([], d)
  let running := d.takes.filter fun (p : Nat × Take) =>
    d.g .depGroup p.1 == g && (p.2.phase == .preroll || p.2.phase == .hold)
  let d := running.foldl (fun d (p : Nat × Take) => ((p.2.view p.1 d).stack p.1).foldl (fun d m => d.selectShadow w p.1 m) d) d
  let (ss, d) := d.lockstep ss
  let (ss, d) := d.caravans f g ss
  let d := ss.foldl Dev.openLayer d
  -- rooms held from the frame that ends by layers that turn to the ring (R104)
  let left (n : Nat) : List Sel :=
    (ss.filter fun s => s.layer / 8 == n && s.pick.pair.isSome).flatMap fun s => s.before.holds
  deps.foldl (fun d n => d.updDep n fun c =>
    { c with opened := w.tb, openFree := w.free, openTick := now, linger := left n,
             sinceStep := match c.sinceStep with
               | some k => if k < 256 then some (k + 1) else none
               | none => none }) d

/-! ## The commit point -/

/-- A departure that is not LIVE or FAULTED sends the idle pattern (R210). [DEDUCED, log entry 84] -/
def Dev.idleHead (d : Dev) (h : Nat) : Dev :=
  match d.headOwner h with
  | none => d
  | some n =>
    if d.g .depState n = depLive ∨ d.g .depState n = depFaulted then d
    else d.stopVideo h

/-- Count the commit points a perturbation slot has moved (R528). -/
def Dev.countSkews (d : Dev) (g : Nat) : Dev := (d.skewSlots g).foldl (fun d k => d.count .ptCount k) d

/-- COMMIT_POINT of group `g`: frames end, parts land, the headroom check runs, takes act, slice modes and layer states
follow, captures take their entries. -/
def Dev.commitPoint (e : Env) (d : Dev) (g : Nat) : Dev :=
  let w := d.commitWhen e g
  let measured := d.measure e.now g
  let deps := d.groupDeps g
  let d := deps.foldl Dev.endFrame (d.countSkews g)
  let d := (d.putGroup g { d.group g with committed := true }).put .tgLastCommit g e.tick
  let d := deps.foldl (fun d n => (d.moveDep n).updDep n fun c => { c with holdPic := none }) d
  let (ch, d1) := d.landParts e g
  let d := Dev.landed e ch d d1
  let d := deps.foldl (fun d n => d.landBoundary e n) d
  let d := d.leaveGroup e.now g
  let d := (d.groupDeps g).foldl Dev.switchTables d
  let d := d.headrooms g
  let d := (List.range 32).foldl (fun d s => d.armSalvo w g s) d
  let d := (d.takeOrder g).foldl (fun d n => d.takeActs e n) d
  let d := d.sliceModes g measured
  let f := (d.toTb e g ((d.group g).start + (d.group g).period)).floor.toNat
  let d := d.openFrame w e.now f g
  let d := (d.groupDeps g).foldl (fun d n => d.captureTake e n) d
  let d := (List.range 256).foldl Dev.releaseOld d
  let d := (List.range 8).foldl Dev.idleHead d
  (d.reportRooms).reportEngines

end Sys2Proof.Machine
end

