-- ==== Sys2Proof/Machine/Frames.lean ====
section
/-!
DEFINITION. Meanings of the commands of frames: frame starts, commit points, composed lines, write-back, capture, packets
of departures.
-/

namespace Sys2Proof.Machine

/-- FRAME_START (R36, R210), rank 6, after every commit point of the tick. -/
def execFrameStart (g : Nat) (s : State) : Out :=
  (s.ordered 6 1).at 6 fun e d => d.when (d.startDue e g) fun d => d.startFrame e g

/-- COMMIT_POINT (R37, R118), rank 6. -/
def execCommitPoint (g : Nat) (s : State) : Out :=
  (s.ordered 6 0).at 6 fun e d => d.when (g < 32 && d.commitDue e g) fun d => d.commitPoint e g

/-- OUTPUT_LINE (R139, R146), rank 9. -/
def execOutputLine (n y : Nat) (late : List Nat) (wbDrained capDrained : Nat) (s : State) : Out :=
  s.running 9 fun e d => d.when (d.lineDue e n y) fun d => d.outputLine e n y late wbDrained capDrained

/-- WRITE_BACK_COMPLETE (R68, R220), rank 4. -/
def execWriteBackComplete (n : Nat) (s : State) : Out := s.running 4 fun e d => d.wbComplete e n

/-- CAPTURE_COMPLETE (R221, R358), rank 9. -/
def execCaptureComplete (n : Nat) (s : State) : Out := s.running 9 fun e d => d.capComplete e n

/-- PACKET_DUE (R213), rank 9. -/
def execPacketDue (n : Nat) (s : State) : Out :=
  s.running 9 fun e d => d.when (d.packetDue e n) fun d => d.sendPacket n

/-- LATE_PACKET_HANDOVER (R213), rank 9. -/
def execLatePacketHandover (n : Nat) (s : State) : Out :=
  s.running 9 fun _ d => d.when (d.packetLate n) fun d => ((d.sendPacket n).count .depTxLate n).flag .depEventFlags n 4

end Sys2Proof.Machine
end

