-- ==== Sys2Proof/Machine/Heads.lean ====
section
/-!
DEFINITION. The meanings of the DisplayPort head events (R216 to R218, R311). They register at rank 9.
-/

namespace Sys2Proof.Machine

/-- IRQ_HPD (R217, R218). -/
def execIrqHpd (h : Nat) (status : List Byte) (s : State) : Out := s.at 9 fun e d => d.irqHpd e.now h status

/-- UNPLUG (R217). -/
def execUnplug (h : Nat) (s : State) : Out := s.at 9 fun e d => d.unplugHead e.now h

/-- PLUG (R217). -/
def execPlug (h : Nat) (caps edid : List Byte) (s : State) : Out := s.at 9 fun e d => d.plugHead e.now h caps edid

/-- LINK_TRAINING_DONE (R218). -/
def execLinkTrainingDone (h : Nat) (r : TrainResult) (s : State) : Out := s.at 9 fun e d => d.trainingDone e.now h r

/-- HEAD_RETRY (R216). -/
def execHeadRetry (h : Nat) (s : State) : Out := s.at 9 fun e d => d.headRetry e.now h

/-- HEAD_RETRAIN (R218). -/
def execHeadRetrain (h : Nat) (s : State) : Out := s.at 7 fun e d => (d.retrainHead e.now h).answerCode 0

/-- AUX_TIMEOUT (R311). -/
def execAuxTimeout (h : Nat) (s : State) : Out := s.at 9 fun e d => d.auxSilent e.now h

/-- DPCD_POLL (R311). -/
def execDpcdPoll (h : Nat) (answered : Bool) (s : State) : Out := s.at 9 fun e d => d.dpcdPoll e.now h answered

/-- DP_ABSENCE_TIMEOUT (R311). -/
def execDpAbsenceTimeout (h : Nat) (s : State) : Out := s.at 9 fun e d => d.absenceTimeout e.now h

end Sys2Proof.Machine
end

