-- ==== Sys2Proof/Machine/Innkeeper.lean ====
section
/-!
DEFINITION. The meanings of Innkeeper's commands (R390, R391, R396, R397, R399, R403).
-/

namespace Sys2Proof.Machine

/-- The masks of sources take a value: each that changes is a write of its `src_mask`. -/
def Dev.maskSources (e : Env) (d : Dev) (xs : List Nat) (v : Nat) : Dev :=
  (xs.filter fun x => d.g .srcMask x != v).foldl (fun d x => d.directWrite e .srcMask x v) d

/-- The sources a 32-bit word `w` of bits names. -/
def wordSources (w bits : Nat) : List Nat := (setBitsOf 32 bits).map (32 * w + ·)

/-- INK_MASK_SET (R390). -/
def execInkMaskSet (w bits : Nat) (s : State) : Out :=
  s.at 7 fun e d => d.maskSources e (wordSources w bits) 1

/-- INK_MASK_CLR (R390). -/
def execInkMaskClr (w bits : Nat) (s : State) : Out :=
  s.at 7 fun e d => d.maskSources e (wordSources w bits) 0

/-- INK_PEND_SET (R390). -/
def execInkPendSet (w bits : Nat) (s : State) : Out :=
  s.at 7 fun e d => (wordSources w bits).foldl (Dev.pendSet e.now) d

/-- INK_PEND_CLR (R390). -/
def execInkPendClr (w bits : Nat) (s : State) : Out :=
  s.at 7 fun _ d => (wordSources w bits).foldl Dev.pendClr d

/-- INK_FIRE (R391): a firing registered at rank 9 of the tick. -/
def execInkFire (x : Nat) (s : State) : Out := s.at 7 fun _ d => d.fire x

/-- INK_CLAIM (R396): core `t` reads its own register, after the delivery pass of the tick. -/
def execInkClaim (t : Nat) (s : State) : Out :=
  s.at 8 fun e d =>
    let (w, d) := (d.passOnce e.now).claim t
    d.answerWord w

/-- INK_COMPLETE (R397). -/
def execInkComplete (t x : Nat) (s : State) : Out := s.at 7 fun _ d => d.completeSrc t x

/-- HOLD_RELEASE (R399): rank 8, before the pass. -/
def execHoldRelease (g : Nat) (s : State) : Out :=
  s.at 8 fun e d => d.when (d.holdDue e.now g) fun d => d.holdEnd e.now g

/-- HQ_ARM (R403): the host's write, which QUARANTINE drops (R23, R408). -/
def execHqArm (bits : Nat) (s : State) : Out :=
  s.at 7 fun _ d =>
    if d.quarantine then d.barDrop else (setBitsOf 16 bits).foldl (fun d q => d.put .hqArmed q 1) d

end Sys2Proof.Machine
end

