-- ==== Sys2Proof/Machine/Keyring.lean ====
section
/-!
DEFINITION. Commands of the Keyring, Night Watch and the island mailbox (R458 to R476). Rows with a session are that
session's write of the object.
-/

namespace Sys2Proof.Machine

/-! ## Keys -/

/-- KR_GENERATE (R458): `kr_cmd` 1. -/
def execKrGenerate (k : Nat) (s : State) : Out := s.at 7 fun e d => d.request e k .krCmd fun d => d.krCommand e k 1

/-- KR_IMPORT_COMPONENTS (R459): `kr_cmd` 2. -/
def execKrImportComponents (k : Nat) (s : State) : Out := s.at 7 fun e d => d.request e k .krCmd fun d => d.krCommand e k 2

/-- KR_IMPORT_TRANSPORT (R458): `kr_cmd` 3. -/
def execKrImportTransport (k : Nat) (s : State) : Out := s.at 7 fun e d => d.request e k .krCmd fun d => d.krCommand e k 3

/-- KR_EXPORT (R458): `kr_cmd` 4. -/
def execKrExport (k : Nat) (s : State) : Out := s.at 7 fun e d => d.request e k .krCmd fun d => d.krCommand e k 4

/-- KR_REVOKE (R460): `kr_cmd` 5. -/
def execKrRevoke (k : Nat) (s : State) : Out := s.at 7 fun e d => d.request e k .krCmd fun d => d.krCommand e k 5

/-- KR_LOAD (R456): `kr_cmd` 6. -/
def execKrLoad (k : Nat) (s : State) : Out := s.at 7 fun e d => d.request e k .krCmd fun d => d.krCommand e k 6

/-- KR_QUERY (R458): `kr_cmd` 7. -/
def execKrQuery (k : Nat) (s : State) : Out := s.at 7 fun e d => d.request e k .krCmd fun d => d.krCommand e k 7

/-- A session's write that the island serves: it waits while the island is paused (R465). -/
def Dev.onIsland (d : Dev) (k index sub : Nat) (data : List Byte) (f : Dev → Dev) : Dev :=
  match d.session k with
  | some x => if d.g .krIslandState = 1 then d.holdRequest ⟨x.peer, index, sub, some data⟩ else f d
  | none => d

/-- KC_VALUE (R459): 32 bytes. -/
def execKcValue (k : Nat) (v : List Byte) (s : State) : Out :=
  s.at 7 fun e d => d.request e k .kcValue fun d =>
    if v.length ≠ 32 then d.answerCode 0x0204 else d.onIsland k 0x5420 2 v fun d => d.kcValue e k v

/-- COMPONENT_TIMEOUT (R459). -/
def execComponentTimeout (k : Nat) (s : State) : Out :=
  s.at 7 fun e d => match d.kr.comp with
    | some c => d.when (c.ses == k && decide (c.since + componentTicks ≤ e.now)) fun d =>
      { d with kr := { d.kr with comp := none } }
    | none => d

/-- KR_ZEROISE_ALL (R472). -/
def execKrZeroiseAll (k : Nat) (s : State) : Out :=
  s.at 7 fun e d => d.request e k .krZeroiseAll fun d =>
    d.onIsland k 0x5400 7 [0xA5#8] fun d => d.zeroiseAll e k

/-! ## Tests and the DRBG (R465 to R467) -/

/-- KR_SELFTEST (R465): an accepted write of `kr_selftest`. -/
def execKrSelftest (s : State) : Out := s.at 7 fun e d => d.selftest e 0xFF

/-- PERIODIC_SELFTEST (R465): 24 h after the last tests. -/
def execPeriodicSelftest (s : State) : Out :=
  s.at 9 fun e d => d.when (d.g .krIslandState == 0 && !d.kr.hold && decide (d.kr.tested + dayTicks ≤ e.now)) fun d =>
    d.startTest e.now

/-- ISLAND_SELFTEST_DONE (R465, R467): an end in failure registers at rank 3. -/
def execIslandSelftestDone (pass : Bool) (s : State) : Out :=
  ((s.enter (if pass then 7 else 3)).run fun e d =>
    if d.asleep ∨ d.kr.test.isNone then d else if pass then d.islandPasses e else d.islandFails e).thenHeld

/-- ENTROPY_TEST_FAILURE (R467). -/
def execEntropyTestFailure (s : State) : Out :=
  ((s.enter 3).run fun e d =>
    if d.asleep then d else d.when (!d.islandError) fun d => (d.count .esFailures).islandFails e).thenHeld

/-- DRBG_RESEED (R466): after 2^20 requests or 1 h. -/
def execDrbgReseed (s : State) : Out :=
  s.at 9 fun e d => d.when (decide (2 ^ 20 ≤ d.kr.requests) || decide (d.kr.reseeded + 3600 * 4000000 ≤ e.now)) fun d =>
    ({ d with kr := { d.kr with requests := 0, reseeded := e.now } }).count .drbgReseeds

/-! ## Images (R464) -/

/-- IMG_ENROL (R464): `img_enrol_go` 1. -/
def execImgEnrol (k : Nat) (s : State) : Out :=
  s.at 7 fun e d => d.request e k .imgEnrolGo fun d =>
    d.onIsland k 0x5440 8 [1#8] fun d => d.imgEnrolNow

/-- RB_ADVANCE (R464): `rb_advance`, of the core's counter (kind 0) or the island's (kind 1). -/
def execRbAdvance (k kind : Nat) (s : State) : Out :=
  s.at 7 fun e d => d.request e k .rbAdvance fun d =>
    d.onIsland k 0x5440 5 (leBytes 1 (kind + 1)) fun d => d.rbAdvanceTo e k kind

/-! ## Night Watch (R468 to R471) -/

/-- PHYSICAL_TAMPER (R469, R471): mesh loops 0 to 3 and the shield 4. In SLEEP it wakes the part. -/
def execPhysicalTamper (det : Nat) (s : State) : Out :=
  if s.dev.asleep ∧ s.dev.watches det ∧ det < 5 then .next (s.sleepTamper det)
  else s.at 1 fun e d => d.when (d.watches det && det < 5) fun d => d.physicalTamper e det

/-- ENVIRONMENTAL_TAMPER (R469, R471): voltage 5, temperature 6, clock 7. In SLEEP it wakes the part. -/
def execEnvironmentalTamper (det : Nat) (s : State) : Out :=
  if s.dev.asleep ∧ s.dev.watches det ∧ 4 < det then .next (s.sleepTamper det)
  else ((s.enter 1).run fun e d =>
    if d.asleep then d else d.when (d.watches det && 4 < det) fun d => d.environmentalTamper e det).thenHeld

/-- TAMPER_CLEAR (R469). -/
def execTamperClear (det : Nat) (s : State) : Out := s.at 1 fun e d => d.tamperClears e det

/-! ## Island mailbox (R476): commands of core firmware -/

/-- MBX_STATUS_SNAPSHOT. -/
def execMbxStatusSnapshot (s : State) : Out := s.at 7 fun e d => d.mbxCommand e 1

/-- MBX_MKA_KEY_DERIVATION. -/
def execMbxMkaKeyDerivation (s : State) : Out := s.at 7 fun e d => d.mbxCommand e 2

/-- MBX_ICV_COMPUTE. -/
def execMbxIcvCompute (s : State) : Out := s.at 7 fun e d => d.mbxCommand e 3

/-- MBX_ICV_CHECK. -/
def execMbxIcvCheck (s : State) : Out := s.at 7 fun e d => d.mbxCommand e 4

/-- MBX_SAK_UNWRAP_LOAD. -/
def execMbxSakUnwrapLoad (s : State) : Out := s.at 7 fun e d => d.mbxCommand e 5

/-- MBX_SAK_GENERATE. -/
def execMbxSakGenerate (s : State) : Out := s.at 7 fun e d => d.mbxCommand e 6

/-- MBX_LEDGER_SIGNATURE. -/
def execMbxLedgerSignature (s : State) : Out := s.at 7 fun e d => d.mbxCommand e 7

end Sys2Proof.Machine
end

