-- ==== Sys2Proof/Machine/Lanes.lean ====
section
/-!
DEFINITION. The meanings of lane, quad and test commands (R304 to R317). A lane's own changes register at rank 9, writes
at rank 7 (R313).
-/

namespace Sys2Proof.Machine

/-- LANE_ATTEMPT (R308). -/
def execLaneAttempt (i : Nat) (s : State) : Out := s.at 9 fun e d => d.laneAttempt e.now i

/-- LANE_UP (R306). -/
def execLaneUp (i : Nat) (s : State) : Out := s.at 9 fun e d => d.laneReachesUp e.now i

/-- SIGNAL_LOSS (R307): signal detect falls, or block lock is lost. -/
def execSignalLoss (i : Nat) (detect : Bool) (s : State) : Out :=
  s.at 9 fun e d =>
    let d := d.laneLoses e.now i
    if detect then d.putLane i { d.lane i with cdr := false } else d

/-- QUAD_PLL_LOSS (R305). -/
def execQuadPllLoss (q : Nat) (s : State) : Out := s.at 9 fun _ d => d.quadLoss q

/-- QUAD_PLL_LOCK (R305). -/
def execQuadPllLock (q : Nat) (s : State) : Out := s.at 9 fun e d => d.quadLock e.now q

/-- EQ_FREEZE (R309). -/
def execEqFreeze (i : Nat) (s : State) : Out :=
  s.at 9 fun _ d => d.when (d.g .laneProto i == 1 && d.g .laneState i == laneUp && !(d.lane i).frozen) fun d =>
    (d.putLane i { d.lane i with frozen := true }).count .laneFreezes i

/-- EQ_RESUME (R309). -/
def execEqResume (i : Nat) (s : State) : Out :=
  s.at 9 fun _ d => d.putLane i { d.lane i with frozen := false }

/-- READAPTATION (R310). -/
def execReadaptation (i : Nat) (s : State) : Out := s.at 9 fun e d => d.readapt e.now i

/-- LANE_RECAL (R312). -/
def execLaneRecal (i : Nat) (s : State) : Out := s.at 7 fun e d => d.recalLane e.now i

/-- RECAL_ATTEMPT_FAILED (R312). -/
def execRecalAttemptFailed (i : Nat) (s : State) : Out := s.at 9 fun e d => d.recalFails e.now i

/-- LANE_TEST (R314, R315): an accepted write of `lane_test`. -/
def execLaneTest (i v : Nat) (s : State) : Out :=
  s.at 7 fun e d => d.directWrite e .laneTest i v

/-- LANE_LOOP (R314, R317): an accepted write of `lane_loop`. -/
def execLaneLoop (i v : Nat) (s : State) : Out :=
  s.at 7 fun e d => d.directWrite e .laneLoop i v

/-- LANE_INJECT (R316). -/
def execLaneInject (i : Nat) (s : State) : Out := s.at 7 fun e d => d.directWrite e .laneInject i 1

/-- CHECKER_CLEAR (R315). -/
def execCheckerClear (i : Nat) (s : State) : Out := s.at 7 fun _ d => d.checkerClears i

/-- CHECKER_LOCK (R315). -/
def execCheckerLock (i : Nat) (s : State) : Out := s.at 9 fun _ d => d.checkerLocks i

/-- CHECKER_LOCK_LOSS (R315). -/
def execCheckerLockLoss (i : Nat) (s : State) : Out := s.at 9 fun _ d => d.checkerUnlocks i

/-- FAR_END_SLIP (R317). -/
def execFarEndSlip (i : Nat) (s : State) : Out :=
  s.at 9 fun _ d => d.when (d.g .laneState i == laneTest && d.g .laneLoop i == 3) fun d =>
    (d.count .laneFeSlips i).flag .laneEventFlags i 4

end Sys2Proof.Machine
end

