-- ==== Sys2Proof/Machine/LifeCycle.lean ====
section
/-!
DEFINITION. Commands of the life cycle and the Ledger (R437, R439, R442, R445).
-/

namespace Sys2Proof.Machine

/-- LC_STEP (R437): `lc_step` 1 of session `k`. -/
def execLcStep (k : Nat) (s : State) : Out := s.at 7 fun e d => d.request e k .lcStep fun d => d.lcStepBy e k

/-- LC_FUSE_BURNT (R437): the part resets into the new state, cause 4. -/
def execLcFuseBurnt (s : State) : Out :=
  let t := s.enter 3
  .next (match t.dev.pwr.burning with
    | some (target, _) => if t.dev.asleep then t else (t.run fun _ d => d.burnRow target).drainedReset 4
    | none => t)

/-- LC_RECOVER (R439): an accepted write of `lc_recover`. -/
def execLcRecover (s : State) : Out := s.at 7 fun _ d => d.lcRecoverNow

/-- LC_RECOVER_RESULT (R439): on a pass the part resets into its fused state, cause 5. -/
def execLcRecoverResult (pass : Bool) (s : State) : Out :=
  let t := s.enter 3
  .next (
    if t.dev.asleep ∨ !t.dev.pwr.recovering then t
    else if pass then (t.run fun e d => d.recovered e).drainedReset 5
    else t.run fun _ d => d.recoveryFails)

/-- LEDGER_ACK (R445): an accepted write of `ledger_ack`. -/
def execLedgerAck (q : Nat) (s : State) : Out := s.at 7 fun e d => d.ledgerAckBy e {} q

/-- LEDGER_TIME_MARK (R442). -/
def execLedgerTimeMark (s : State) : Out := s.at 9 fun e d => d.when (d.markDue e) fun d => d.timeMark e

end Sys2Proof.Machine
end

