-- ==== Sys2Proof/Machine/Memory.lean ====
section
/-!
DEFINITION. Commands of Bus Matrix, Pantry and DRAM (R373 to R381).
-/

namespace Sys2Proof.Machine

/-- DCH_EVACUATE (R379). -/
def execDchEvacuate (c : Nat) (s : State) : Out := s.at 7 fun e d => d.directWrite e .dchCmd c 1

/-- STRIPE_MOVED (R379): in the tick of the last acknowledgement. -/
def execStripeMoved (c : Nat) (s : State) : Out := s.at 9 fun e d => d.stripeMoved e.now c

/-- DCH_RETRAIN (R380). -/
def execDchRetrain (c : Nat) (s : State) : Out := s.at 7 fun e d => d.directWrite e .dchCmd c 2

/-- DCH_TRAINING_DONE (R378). -/
def execDchTrainingDone (c : Nat) (ok : Bool) (s : State) : Out := s.at 9 fun _ d => d.dchTrainingDone c ok

/-- DCH_READMIT (R380). -/
def execDchReadmit (c : Nat) (s : State) : Out := s.at 7 fun e d => d.directWrite e .dchCmd c 3

/-- DCH_LOOP (R381). -/
def execDchLoop (c v : Nat) (s : State) : Out := s.at 7 fun e d => d.directWrite e .dchLoop c v

/-- MR4_POLL (R373). -/
def execMr4Poll (c rate : Nat) (s : State) : Out := s.at 9 fun e d => d.mr4Poll e.now c rate

/-- MEMORY_SCRUB (R375). -/
def execMemoryScrub (ch corrected uncorrected : Nat) (s : State) : Out :=
  s.at 9 fun _ d => d.memoryScrub ch corrected uncorrected

end Sys2Proof.Machine
end

