-- ==== Sys2Proof/Machine/Porter.lean ====
section
/-!
DEFINITION. The meanings of Porter's commands (R280, R290, R293, R296, R297). A channel starts the entry at the head of
its ring after rank 7, in ascending channel number; completions of rank 8 follow. The operand of COPY, FILL and BLEND holds the bytes of host memory the command reads.
-/

namespace Sys2Proof.Machine

/-- PORTER_NOP: NOP, and every reserved operation, which is refused. -/
def execPorterNop (k : Nat) (s : State) : Out :=
  (s.ordered 8 k).running 8 fun e d => d.when (d.ptrReady k && (d.ptrHeadOp k).any fun o => o == 0 || 3 < o) fun d =>
    d.ptrBegin e k [] false

/-- PORTER_COPY. -/
def execPorterCopy (k : Nat) (host : List Byte) (s : State) : Out :=
  (s.ordered 8 k).running 8 fun e d => d.when (d.ptrReady k && (d.ptrHeadOp k).any (· == 1)) fun d => d.ptrBegin e k host false

/-- PORTER_FILL. -/
def execPorterFill (k : Nat) (host : List Byte) (s : State) : Out :=
  (s.ordered 8 k).running 8 fun e d => d.when (d.ptrReady k && (d.ptrHeadOp k).any (· == 2)) fun d => d.ptrBegin e k host false

/-- PORTER_BLEND. -/
def execPorterBlend (k : Nat) (host : List Byte) (s : State) : Out :=
  (s.ordered 8 k).running 8 fun e d => d.when (d.ptrReady k && (d.ptrHeadOp k).any (· == 3)) fun d => d.ptrBegin e k host false

/-- PORTER_COMPLETION: rank 8 of the tick in which the last write is accepted, or a read returned poison. -/
def execPorterCompletion (k : Nat) (poisoned : Bool) (s : State) : Out := 
  (s.ordered 8 (4 + k)).running 8 fun e d => d.when (if poisoned then d.ptrReads k else d.ptrMoved e.now k) fun d => d.ptrFinish k poisoned

/-- PORTER_ABORT: `ptr_ctl` 1. -/
def execPorterAbort (k : Nat) (s : State) : Out := s.at 7 fun _ d => d.ptrAbort k

/-- PORTER_RESUME: `ptr_ctl` 2. -/
def execPorterResume (k : Nat) (s : State) : Out := s.at 7 fun _ d => d.ptrResume k

end Sys2Proof.Machine
end

