-- ==== Sys2Proof/Machine/HostOps.lean ====
section
/-!
DEFINITION. The host's side of the part: ring commands, doorbells, fetching entries, resets of the endpoint, the Pantry
window (R343 to R354, R360).
-/

namespace Sys2Proof.Machine

def ringCmdStatus : Nat := 0x30004
def ringSel : Nat := 0x30008

/-- The code of a ring command or window write is left in `RING_CMD_STATUS`. -/
def Dev.ringStatus (d : Dev) (code : Nat) : Dev := (d.putReg ringCmdStatus code).answerCode code

/-! ## Ring commands (R345, R352) -/

def Dev.setRing (d : Dev) (r : Nat) (st : RingState) : Dev := d.putRing r { d.ring r with st := st }

/-- In QUARANTINE a command may name only the host's own mailbox rings; enable goes by the descriptor in the window. -/
def Dev.ringBarred (d : Dev) (r : Nat) (enable : Bool) : Bool :=
  d.quarantine && !quarRing (if enable then d.desc r else d.descInForce r)

/-- Op 1. -/
def Dev.ringEnable (d : Dev) (r : Nat) : Dev :=
  let code := if d.ringBarred r true then 0x03A2 else d.enableCode r
  if code ≠ 0 then d.ringStatus code
  else (d.putRing r { d.ring r with st := .enabled, cached := d.desc r }).ringStatus 0

/-- Op 2: a session bound to the ring closes (R420). -/
def Dev.ringDisable (e : Env) (d : Dev) (r : Nat) : Dev :=
  if d.ringBarred r false then d.ringStatus 0x03A2
  else if (d.ring r).st = .disabled then d.ringStatus 0x03A0
  else ((d.setRing r .disabled).closeRing e r).ringStatus 0

/-- Op 3. -/
def Dev.ringReset (d : Dev) (r : Nat) : Dev :=
  if d.ringBarred r false then d.ringStatus 0x03A2
  else if (d.ring r).st ≠ .disabled then d.ringStatus 0x03A0
  else (d.putRing r { d.ring r with p := 0, c := 0 }).ringStatus 0

/-- Op 4. -/
def Dev.ringClear (d : Dev) (r : Nat) : Dev :=
  if d.ringBarred r false then d.ringStatus 0x03A2
  else if (d.ring r).st ≠ .error then d.ringStatus 0x03A0
  else (d.setRing r .enabled).ringStatus 0

/-- `RING_CMD` by its operation. -/
def Dev.ringCommand (e : Env) (d : Dev) (r op : Nat) : Dev :=
  match op with
  | 1 => d.ringEnable r
  | 2 => d.ringDisable e r
  | 3 => d.ringReset r
  | 4 => d.ringClear r
  | _ => d.ringStatus 0x0201

/-- A write of word `w` of the window (R349). [DESIGN CHOICE, log entry 102] -/
def Dev.descWrite (d : Dev) (w v : Nat) : Dev :=
  let r := d.reg ringSel % 65536
  if (d.ring r).st ≠ .disabled then d.ringStatus 0x03A0
  else ({ d with descs := d.descs.put r ((d.desc r).set (w % 16) (v % 2 ^ 32)) }).ringStatus 0

/-! ## Doorbells (R345, R353) -/

/-- The index a doorbell carries, by its byte enables; none with any other. -/
def doorbellIndex (v be : Nat) : Option (Nat × Nat) :=
  if be = 0xF then some (v % 2 ^ 32, 0)
  else if be = 0xFF then some (v % 2 ^ 32, v / 2 ^ 32 % 2 ^ 32)
  else none

/-- The rule of the ring's kind accepts an index. -/
def Ring.accepts (c : Ring) (v : Nat) : Bool :=
  if descKind c.cached = 4 then decide ((v + 2 ^ 32 - c.c) % 2 ^ 32 ≤ c.held)
  else decide ((v + 2 ^ 32 - c.c) % 2 ^ 32 ≤ 2 ^ descN c.cached)

/-- The ring takes a doorbell from this sender with this index. -/
def Dev.bellOk (d : Dev) (w : Who) (r v hi : Nat) : Bool :=
  let c := d.ring r
  let owner := match w with
    | .host => !descCores c.cached
    | .core _ => descCores c.cached
  hi == 0 && c.st != .disabled && owner && c.accepts v

/-- A rejected doorbell is counted, and sets bit 1 of its group's flags. [DEDUCED, log entry 98] -/
def Dev.bellRejected (d : Dev) (r : Nat) : Dev :=
  (d.count .pcieDbRejects).later (.groupFlag (descGroup (d.descInForce r)) 2)

/-- A doorbell. -/
def Dev.doorbell (d : Dev) (w : Who) (r v be : Nat) : Dev :=
  match doorbellIndex v be with
  | none => d
  | some (x, hi) =>
    let c := d.ring r
    let ok := d.bellOk w r x hi
    if w = .host ∧ d.quarantine ∧ !(quarRing c.cached && ok) then d
    else if !ok then d.bellRejected r
    else if descKind c.cached = 4 then d.putRing r { c with c := x }
    else d.putRing r { c with p := x }

/-- What a read of a ring's doorbell in BAR 2 answers; such a read changes nothing and is no command of the table. -/
def Dev.doorbellRead (d : Dev) (r : Nat) : Nat := (d.ring r).p + 2 ^ 32 * (d.ring r).c

/-! ## Fetching an entry (R354) -/

/-- The 64 bytes of the entry at C: what the host answered, or what the location holds. -/
def Dev.entryBytes (e : Env) (d : Dev) (r : Nat) (bytes : List Byte) : List Byte :=
  let c := d.ring r
  let ws := c.cached
  if descLoc ws = 0 then padTo 64 (bytes.take 64)
  else
    let (sp, at_) := d.locAt (descLoc ws) (descBase ws + c.c % 2 ^ descN ws * 64)
    e.mem.readN sp at_ 64

/-- The fetch failed: the ring enters ERROR, nothing is taken (R354); the read counts as one of poisoned data, or as a failed
read of host memory (R346, R375). -/
def Dev.ringFail (d : Dev) (r : Nat) : Dev :=
  let d := d.putRing r { d.ring r with st := .error }
  (d.ringFlag r 2).poisonRead (d.locAt (descLoc (d.ring r).cached) 0).1

/-- An entry taken ahead whose bytes are still to come (R76, R221). -/
def Dev.entryPending (d : Dev) (r : Nat) : Option Taken := (d.ring r).taken.find? fun t => t.bytes.isEmpty

/-- The consumer of a ring takes an entry now. Porter's commands do not flow in QUARANTINE (R278). Entries of frame-injection and capture rings are taken by INJECTION_TAKE
and at commit points. -/
def Dev.consumerReady (d : Dev) (r : Nat) : Bool :=
  let idle := (d.ring r).taken.isEmpty
  match descKind (d.ring r).cached with
  | 1 => idle && !d.stopped && !d.quarantine && (List.range 4).any fun k => d.g .ptrRing k == r && d.ptrReady k
  | 5 => idle
  | _ => false

/-- A read of an entry taken ahead fails: the entry is not taken after all. -/
def Dev.untake (d : Dev) (r : Nat) (t : Taken) : Dev :=
  let d := (d.ringForget r t).injectUntake r t.index
  let c := d.ring r
  let d := d.putRing r { c with c := (c.c + 2 ^ 32 - 1) % 2 ^ 32 }
  let mine (x : Capture) : Bool := x.ring == r && x.index == t.index
  { d with deps := d.deps.map fun (p : Nat × DepCtx) =>
      (p.1, { p.2 with capture := p.2.capture.filter fun x => !mine x
                       capDone := p.2.capDone.filter fun (x : Capture × Pic) => !mine x.1 }) }

/-- Serve the request of a mailbox entry just taken. -/
def Dev.mailServe (e : Env) (d : Dev) (r : Nat) (t : Taken) (rest : List Byte) : Dev :=
  let p : Peer := .ring r
  let q := mailReq t
  let s := d.sessionOf p
  let code := if s.isNone then 0x0102 else d.mailCode q
  if code ≠ 0 then d.refuse p s (q.op == 1) code
  else d.serve e ⟨p, q.index, q.sub, if q.op = 1 then none else some (d.mailData e q t rest)⟩

/-- ENTRY_FETCH: the read of the entry at C answers `bytes`, or fails. For a mailbox write without INLINE the bytes past
the entry are those of its buffer in host memory. -/
def Dev.entryFetch (e : Env) (d : Dev) (r : Nat) (bytes : List Byte) (ok : Bool) : Dev :=
  let c := d.ring r
  match d.entryPending r with
  | some t =>
    if !ok then (d.untake r t).ringFail r
    else
      let t := { t with bytes := padTo 64 (bytes.take 64) }
      let d := d.putRing r { c with taken := c.taken.map fun x => if x.index = t.index then t else x }
      (d.indexBack c.cached ((t.index + 1) % 2 ^ 32)).injectAnswer r t |>.capAnswer r t.index
  | none =>
    if c.st ≠ .enabled ∨ !c.nonempty ∨ !d.consumerReady r then d
    else if !ok then d.ringFail r
    else
      let d := d.ringTake r (d.entryBytes e r bytes)
      match descKind c.cached, (d.ring r).taken with
      | 5, t :: _ => d.mailServe e r t (bytes.drop 64)
      | _, _ => d

/-- The entry at C of a mailbox ring asks to read. -/
def Dev.fetchReads (e : Env) (d : Dev) (r : Nat) (bytes : List Byte) : Bool :=
  descKind (d.ring r).cached == 5 && ((d.entryBytes e r bytes).getD 0 0).toNat == 1

/-! ## Resets of the endpoint (R347, R371) -/

/-- The ring is owned by the host. -/
def Dev.hostRing (d : Dev) (r : Nat) : Bool := !descCores (d.ring r).cached

/-- Captures into host rings end with nothing more written, no completion. -/
def Dev.dropCaptures (d : Dev) (n : Nat) : Dev :=
  let c := d.dep n
  let mine := (c.capture.toList ++ c.capDone.map fun (x : Capture × Pic) => x.1).filter fun x => d.hostRing x.ring
  let d := mine.foldl (fun (d : Dev) x => match d.capEntry x with
    | some t => d.ringForget x.ring t
    | none => d) d
  d.updDep n fun c => { c with capture := c.capture.filter fun x => !d.hostRing x.ring
                               capDone := c.capDone.filter fun (x : Capture × Pic) => !d.hostRing x.1.ring }

/-- A Porter command of a host ring ends as an abort, its completion dropped. -/
def Dev.dropPorter (d : Dev) (k : Nat) : Dev :=
  match (d.chan k).job with
  | none => d
  | some j =>
    let r := d.g .ptrRing k
    if !d.hostRing r then d
    else
      let posts := d.posts
      let (v, d) := d.draw 32
      let units := (j.units.take (v % (j.units.length + 1))).flatten
      let d := (d.ringForget r j.entry).ptrClose k j.entry 0x0394 false
      let d := d.putChan k { d.chan k with stopped := true }
      { d with posts := posts ++ units }.flag .ptrEventFlags k 4

/-- An injection that reads host memory loses its reads: its frame is not stored. [DEDUCED, log entry 100] -/
def Dev.dropInjection (d : Dev) (a : Nat) : Dev :=
  match (d.arr a).inject with
  | none => d
  | some j =>
    if !j.entry.bytes.isEmpty ∧ bitsAt (entryField j.entry 16 4) 24 3 ≠ 2 then d
    else
      let d := ((d.arr a).asm.toList).foldl (fun (d : Dev) x => d.freeRoom a x.dest) (d.ringForget j.ring j.entry)
      d.updArr a fun c => { c with asm := none, inject := none }

/-- Every outstanding read of host memory fails, and counts (R346, R347). -/
def Dev.failReads (d : Dev) : Dev :=
  let n := d.bus.hostReads
  let d := { d with bus := { d.bus with hostReads := 0 } }
  if n = 0 then d else (d.count .pcieReadFails 0 n).flag .pcieEventFlags 0 2

/-- An FLR (0), a hot reset (1), DL_Down (2) or a fall of PERST_N (3), which acts as a hot reset.
[DEDUCED, log entry 100] -/
def Dev.pcieReset (e : Env) (d : Dev) (kind : Nat) : Dev :=
  let d := (List.range 256).foldl Dev.dropInjection d
  let d := (List.range 128).foldl Dev.dropCaptures d
  let d := (List.range 4).foldl Dev.dropPorter d
  let rs := (d.rings.filter fun (p : Nat × Ring) => p.2.st != .disabled && !descCores p.2.cached).map fun (p : Nat × Ring) => p.1
  let d := rs.foldl (fun (d : Dev) r => (d.setRing r .disabled).closeRing e r) d
  let d := { d with ink := { d.ink with msixMasked := [], msixPba := [] }
                    regs := d.regs.filter fun (p : Nat × Nat) => p.1 < 0x38000 || 0x40000 ≤ p.1 }
  let d := if kind = 2 then ((d.put .pcieLinkSpeed 0 0).put .pcieLinkWidth 0 0).flag .pcieEventFlags 0 0 else d
  ((d.failReads.masterReset 79).count .pcieFlrs).flag .pcieEventFlags 0 1

/-- The link trains up. -/
def Dev.pcieLinkUp (d : Dev) (speed width : Nat) : Dev :=
  ((d.put .pcieLinkSpeed 0 speed).put .pcieLinkWidth 0 width).flag .pcieEventFlags 0 0

/-! ## The Pantry window (R344) -/

/-- Bytes [o, o + n) lie within a partition. [DEDUCED, log entry 99] -/
def withinPart (o n : Nat) (p : Nat × Nat) : Bool := p.1 ≤ o && decide (o + n ≤ p.1 + p.2)

/-- What a read of `n` bytes of BAR 4 answers; such a read changes nothing and is no command of the table. -/
def Dev.windowRead (e : Env) (d : Dev) (o n : Nat) : List Byte :=
  (List.range n).map fun k => if d.quarantine ∨ 50331648 ≤ o + k then 0 else e.mem.read .pantry (o + k)

/-- A BAR 4 write. [DEDUCED, log entry 99] -/
def Dev.windowWrite (d : Dev) (o : Nat) (bs : List Byte) : Dev :=
  if 50331648 ≤ o then d
  else if !d.quarantine && (withinPart o bs.length d.ringPart || withinPart o bs.length d.scratchPart) then d.post .pantry o bs
  else (d.count .pcieBar4Drops).flag .pcieEventFlags 0 4

end Sys2Proof.Machine
end

