-- ==== Sys2Proof/Machine/RegMap.lean ====
section
/-!
DEFINITION. The register map of BAR 0: which field of which object stands at which address, its access and its bits
(R22, and the register tables of the chapters).
-/

namespace Sys2Proof.Machine

/-! ## Fields (R7) -/

/-- What a write of a field does. -/
inductive Acc where
  /-- read only: writes are ignored -/
  | ro
  /-- a write is a write of the object -/
  | rw
  /-- a flag word: writing 1 clears -/
  | w1c
  /-- writing 1 gives the object the value; reads 0 -/
  | w1s (v : Nat)
deriving DecidableEq, Repr

/-- Bits [lo + n - 1 : lo] of a register show bits of an object from `sh` on. -/
structure Field where
  lo : Nat
  n : Nat
  o : Obj
  i : Nat
  acc : Acc
  sh : Nat := 0
deriving DecidableEq, Repr

def fRo (lo n : Nat) (o : Obj) (i : Nat) : Field := { lo := lo, n := n, o := o, i := i, acc := .ro }
def fRw (lo n : Nat) (o : Obj) (i : Nat) : Field := { lo := lo, n := n, o := o, i := i, acc := .rw }
def fFlags (n : Nat) (o : Obj) (i : Nat) : Field := { lo := 0, n := n, o := o, i := i, acc := .w1c }
def fGo (bit : Nat) (o : Obj) (i v : Nat) : Field := { lo := bit, n := 1, o := o, i := i, acc := .w1s v }
def fWord (o : Obj) (i : Nat) : List Field := [fRo 0 32 o i]

/-- A counter of a row of counters four bytes apart. -/
def counterAt (os : List Obj) (k i : Nat) : List Field :=
  match os[k]? with
  | some o => fWord o i
  | none => []

/-! ## Blocks -/

/-- Identity and global (R134, R446, R516). -/
def globalFields (a : Nat) : List Field :=
  match a with
  | 0x008 => [fRo 0 8 .lcState 0]
  | 0x00C => fWord .bootCount 0
  | 0x100 => [fRo 0 4 .suStep 0, fRo 4 4 .suCause 0, fRo 8 9 .suExpired 0]
  | 0x104 => [fRo 0 2 .pwrState 0]
  | 0x10C => [fRo 0 6 .fwRunning 0]
  | 0x208 => [fRo 0 2 .stgState 0]
  | 0x20C => [fRo 0 16 .stgLastStatus 0]
  | 0x210 => [fRo 0 13 .stgEntries 0]
  | _ => []

/-- Time base and tick (R47). -/
def timeFields (a : Nat) : List Field :=
  if a = 0x000 then fWord .timeNow 0
  else if a = 0x014 then [fRw 1 1 .ptpEnable 0, fRo 2 2 .tbState 0]
  else if a = 0x018 then fWord .tickNow 0
  else if 0x100 ≤ a ∧ a < 0x180 then fWord .tgLastCommit ((a - 0x100) / 4)
  else []

/-- Fields of source `s` (R407). -/
def sourceFields (s : Nat) : List Field :=
  [fRw 0 8 .srcPrio s, fRw 8 5 .srcTargets s, fRw 16 4 .srcQueue s, fRw 24 8 .srcCgroup s]

/-- Innkeeper (R407, R408). -/
def inkFields (a : Nat) : List Field :=
  if a = 0x0000 then [fRo 0 4 .inkGroupBits 0]
  else if a = 0x0004 then fWord .inkLost 0
  else if a = 0x0008 then fWord .inkBadComplete 0
  else if a = 0x0010 then fWord .inkRecords 0
  else if 0x1000 ≤ a ∧ a < 0x2000 then sourceFields ((a - 0x1000) / 4)
  else if 0x2000 ≤ a ∧ a < 0x2400 then
    let t := (a - 0x2000) / 0x100
    match a % 0x100 with
    | 0x08 => [fRo 0 9 .tgtRunning t]
    | 0x0C => [fRo 0 16 .tgtPresented t]
    | 0x10 => [fRo 0 5 .tgtDepth t]
    | _ => []
  else if a = 0x2400 then [fRo 0 9 .tgtRunning 4]
  else if 0x3000 ≤ a ∧ a < 0x3200 then
    let g := (a - 0x3000) / 8
    if a % 8 = 0 then [fRw 0 16 .cgCount g, fRo 16 1 .cgHold g] else [fRw 0 22 .cgTime g]
  else if 0x4000 ≤ a ∧ a < 0x4200 then
    let q := (a - 0x4000) / 0x20
    match a % 0x20 with
    | 0x00 => [fRw 0 1 .hqEnable q, fRw 16 11 .hqVector q]
    | 0x04 => [fRw 0 16 .hqRing q]
    | 0x08 => fWord .hqFull q
    | _ => []
  else []

/-- Ring engine (R363). -/
def ringFields (a : Nat) : List Field := if a = 0x018 then fWord .pcieDbRejects 0 else []

/-- Porter channel `k` (R300). -/
def porterFields (k a : Nat) : List Field :=
  match a with
  | 0x000 => [fRw 0 1 .ptrEnable k, fRw 1 1 .ptrHalt k, fGo 2 .ptrCtl k 1, fGo 3 .ptrCtl k 2]
  | 0x004 => [fRw 0 16 .ptrRing k]
  | 0x008 => [fRw 0 10 .ptrDeadTime k]
  | 0x00C => [fRo 0 3 .ptrState k, fRo 16 16 .ptrLastStatus k]
  | 0x010 => [fFlags 5 .ptrEventFlags k]
  | 0x014 => fWord .ptrDone k
  | 0x018 => fWord .ptrErrors k
  | 0x01C => fWord .ptrStalls k
  | 0x020 => fWord .ptrBytesRead k
  | 0x028 => fWord .ptrBytesWritten k
  | _ => []

/-- `bm_prio` of targets 0 to 13, in order. -/
def prioObjs : List Obj :=
  [.bmPrio0, .bmPrio1, .bmPrio2, .bmPrio3, .bmPrio4, .bmPrio5, .bmPrio6, .bmPrio7, .bmPrio8, .bmPrio9, .bmPrio10,
   .bmPrio11, .bmPrio12, .bmPrio13]

/-- Bus matrix (R385). -/
def matrixFields (a : Nat) : List Field :=
  if a = 0x000 then [fRo 0 13 .bmInflight 0]
  else if a = 0x004 then [fRo 0 13 .bmInflightHwm 0]
  else if a = 0x008 then fWord .bmLateResp 0
  else if a = 0x00C then fWord .bmResets 0
  else if a = 0x010 then [fFlags 3 .bmEventFlags 0]
  else if 0x100 ≤ a ∧ a < 0x138 then [fRw 0 7 .bmPark ((a - 0x100) / 4)]
  else if 0x200 ≤ a ∧ a < 0x358 then [fRw 0 13 .bmMaxOut ((a - 0x200) / 4)]
  else if 0x400 ≤ a ∧ a < 0x6B0 then
    let m := (a - 0x400) / 8
    let os := if a % 8 = 0 then prioObjs.take 8 else prioObjs.drop 8
    os.zipIdx.map fun (p : Obj × Nat) => fRw (4 * p.2) 4 p.1 m
  else []

/-- DRAM controller and Pantry (R386). -/
def dramFields (a : Nat) : List Field :=
  if a = 0x000 then fWord .panCorr 0
  else if a = 0x004 then fWord .panUncorr 0
  else if a = 0x00C then [fFlags 2 .panEventFlags 0]
  else if a = 0x400 then [fRo 0 16 .dramRate 0]
  else if a = 0x404 then fWord .dramCapMib 0
  else if 0x100 ≤ a ∧ a < 0x300 then
    let c := (a - 0x100) / 0x40
    match a % 0x40 with
    | 0x00 => [fRo 0 3 .dchState c]
    | 0x04 => [fGo 0 .dchCmd c 1, fGo 1 .dchCmd c 2, fGo 2 .dchCmd c 3, fRw 4 2 .dchLoop c]
    | 0x08 => fWord .dchCorr c
    | 0x0C => fWord .dchUncorr c
    | 0x10 => [fRo 0 12 .dchStripesUsed c]
    | 0x14 => [fRo 0 12 .dchMigLeft c]
    | 0x1C => [fFlags 5 .dchEventFlags c]
    | _ => []
  else []

/-- NV store (R492). -/
def nvFields (a : Nat) : List Field :=
  match a with
  | 0x000 => [fRo 0 2 .nvHoldupState 0, fRo 4 1 .nvProtect 0, fRo 16 9 .nvQueue 0]
  | 0x004 => fWord .nvHoldupNf 0
  | 0x008 => [fRw 0 1 .nvHoldupPolicy 0]
  | 0x00C => [fRo 0 10 .nvParamFree 0]
  | 0x010 => fWord .nvBursts 0
  | 0x014 => fWord .nvRefused 0
  | 0x018 => fWord .nvDropped 0
  | 0x01C => fWord .nvCorr 0
  | 0x020 => fWord .nvUncorr 0
  | 0x024 => [fRo 0 19 .nvPoisonAddr 0]
  | 0x028 => fWord .nvEqualSeq 0
  | 0x02C => fWord .nvScrubs 0
  | 0x030 => [fFlags 8 .nvEventFlags 0]
  | _ => []

/-- Lane `i` (R320). -/
def laneFields (i a : Nat) : List Field :=
  match a with
  | 0x000 => [fRw 0 2 .laneProto i, fRw 4 5 .laneMac i, fRw 12 1 .laneTxInv i, fRw 13 1 .laneRxInv i, fGo 16 .laneRecal i 1]
  | 0x004 => [fRw 0 6 .laneTxMain i, fRw 8 4 .laneTxPre i, fRw 16 5 .laneTxPost i]
  | 0x008 => [fRo 0 3 .laneState i, fRo 8 4 .laneCause i]
  | 0x020 => fWord .laneAttempts i
  | 0x024 => [fFlags 6 .laneEventFlags i]
  | 0x028 => fWord .laneFreezes i
  | 0x040 => [fRw 0 2 .laneTest i, fRw 4 3 .lanePattern i, fRw 12 2 .laneLoop i]
  | 0x044 => [fRw 0 25 .laneTestRate i]
  | 0x054 => [fGo 0 .laneInject i 1]
  | 0x058 => [fRw 0 32 .laneInjectPeriod i]
  | 0x060 => fWord .laneChkErrors i
  | 0x070 => fWord .laneFeSlips i
  | _ => []

/-- MAC `m` (R339). -/
def macFields (m a : Nat) : List Field :=
  if a = 0x000 then [fRo 0 1 .ethLink m]
  else if a = 0x004 then [fFlags 5 .ethEventFlags m]
  else if a = 0x008 then [fFlags 6 .msEventFlags m]
  else if a = 0x010 then fWord .ethTxFrames m
  else if a = 0x018 then fWord .ethRxFrames m
  else if 0x020 ≤ a ∧ a < 0x040 then
    counterAt [.ethRxFcs, .ethRxOversize, .ethRxUnmatched, .ethRxCtlOverflow, .ethTxDropDown, .ethTxUnresolved,
      .ethFecUncorrected, .ethTsOverflow] ((a - 0x020) / 4) m
  else if 0x040 ≤ a ∧ a < 0x058 then
    counterAt [.msTxNokey, .msRxUntagged, .msRxBad, .msRxReplay, .msRxNosa, .msTxPnExhausted] ((a - 0x040) / 4) m
  else []

/-- Head `h` (R228). -/
def headFields (h a : Nat) : List Field :=
  match a with
  | 0x000 => [fRo 0 3 .headState h]
  | 0x004 => [fRo 0 3 .headLinkRate h, fRo 4 3 .headLinkLanes h]
  | 0x008 => [fRo 0 1 .headHpd h]
  | 0x00C => [fGo 0 .headRetrain h 1, fRw 1 1 .headDownspread h]
  | 0x010 => [fFlags 6 .headEventFlags h]
  | 0x014 => fWord .headRetrains h
  | 0x018 => [fRo 0 3 .headLastFail h]
  | _ => []

/-- Arrival `n` (R85). -/
def arrFields (n a : Nat) : List Field :=
  if 0x040 ≤ a then
    counterAt [.arrFrames, .arrOutside, .arrIncomplete, .arrConcealed, .arrPktsA, .arrPktsB, .arrDups, .arrLate]
      ((a - 0x040) / 4) n
  else match a with
  | 0x000 => [fRo 0 2 .arrState n]
  | 0x004 => fWord .arrSeq n
  | 0x008 => fWord .arrFrameTime n
  | 0x018 => [fFlags 9 .arrEventFlags n]
  | 0x01C => [fRo 0 2 .arrPathState n]
  | 0x020 => fWord .arrRtpOffset n
  | _ => []

/-- Layer `m`, 8 d + l (R157). -/
def layFields (m a : Nat) : List Field :=
  match a with
  | 0x00 => [fRw 0 9 .laySrc m]
  | 0x04 => [fRw 0 13 .layCropX m, fRw 16 12 .layCropY m]
  | 0x08 => [fRw 0 13 .layCropW m, fRw 16 12 .layCropH m]
  | 0x0C => [fRw 0 13 .layDstX m, fRw 16 12 .layDstY m]
  | 0x10 => [fRw 0 13 .layDstW m, fRw 16 12 .layDstH m]
  | 0x14 => [fRw 0 3 .layZ m, fRw 4 2 .layBlend m, fRw 8 1 .layPlaceholder m, fRw 9 1 .layFetchAll m,
      fRw 16 6 .layLockstep m]
  | 0x18 => [fRw 0 9 .layAlpha m]
  | 0x1C => [fRw 0 12 .layKey m]
  | 0x20 => [{ fRw 0 12 .layFill m with sh := 0 }, { fRw 16 12 .layFill m with sh := 16 }]
  | 0x24 => [{ fRw 0 12 .layFill m with sh := 32 }]
  | 0x28 => [fRw 0 8 .layStaleLimit m, fRo 8 8 .layStale m]
  | 0x2C => [fRo 0 3 .layState m]
  | 0x30 => [fRw 0 20 .layRcDelay m]
  | 0x34 => [fRw 0 1 .layRcMode m, fRw 4 12 .layMotion m, fRo 16 7 .layRcWeight m, fRo 24 2 .layReadMode m]
  | 0x38 => fWord .layFetchBytes m
  | 0x3C => [fFlags 6 .layEventFlags m]
  | _ => []

/-- Departure `n`'s own registers (R227). -/
def depFields (n a : Nat) : List Field :=
  if 0x040 ≤ a then
    counterAt [.depPktsA, .depPktsB, .depTxLate, .depWbAbandoned, .depCapFrames, .depCapSkips, .depCapAbandoned]
      ((a - 0x040) / 4) n
  else match a with
  | 0x000 => [fRo 0 2 .depState n]
  | 0x004 => [fRw 0 4 .depBind n]
  | 0x008 => [fRw 0 5 .depGroup n]
  | 0x00C => [fRw 0 8 .depEngineReq n]
  | 0x010 => [fRw 0 13 .depWidth n, fRw 16 12 .depHeight n]
  | 0x014 => [fRw 0 2 .depSampling n, fRw 4 2 .depDepth n, fRw 8 2 .depColorimetry n, fRw 12 1 .depTransfer n,
      fRw 13 1 .depRange n, fRw 16 4 .depLayers n]
  | 0x018 => [fRw 0 14 .depHTotal n, fRw 16 14 .depHSyncStart n]
  | 0x01C => [fRw 0 10 .depHSyncWidth n]
  | 0x020 => [fRw 0 14 .depVSyncStart n, fRw 16 6 .depVSyncWidth n, fRw 24 2 .depSyncPol n]
  | 0x024 => [fRw 0 3 .depHead n, fRw 4 3 .depDpMaxRate n, fRw 8 3 .depDpMaxLanes n]
  | 0x028 => [fRo 0 5 .depEngine n]
  | 0x02C => fWord .depFrames n
  | 0x030 => fWord .depFrameTime n
  | 0x038 => [fFlags 5 .depEventFlags n]
  | _ => []

/-- Engine `k` (R158). -/
def engFields (k a : Nat) : List Field :=
  match a with
  | 0x000 => [fRo 0 3 .engState k]
  | 0x004 => [fRo 0 5 .engReplaces k]
  | 0x008 => [fRo 0 4 .engDeps k]
  | 0x00C => fWord .engLoad k
  | 0x010 => fWord .engShadow k
  | 0x014 => [fFlags 5 .engEventFlags k]
  | _ => []

/-- Codec engine `c` (R207). -/
def codecFields (c a : Nat) : List Field :=
  match a with
  | 0x000 => [fRo 0 2 .cdcState c]
  | 0x004 => [fRo 0 5 .cdcStreams c]
  | 0x008 => fWord .cdcLoad c
  | 0x00C => [fFlags 4 .cdcEventFlags c]
  | _ => []

/-- Signboard (R193): status only. -/
def signFields (a : Nat) : List Field :=
  if a < 0x2000 then
    let n := a / 0x40
    match a % 0x40 with
    | 0x00 => [fRo 0 3 .sbState n]
    | 0x04 => [fRo 0 16 .sbFailMask n]
    | 0x08 => [fFlags 7 .sbEventFlags n]
    | 0x0C => fWord .sbVerdictTick n
    | _ => []
  else if a < 0x4000 then fWord .sbrCrc ((a - 0x2000) / 4)
  else []

/-- TDM port `p` (R251). -/
def tdmFields (p a : Nat) : List Field :=
  match a with
  | 0x000 => [fRw 0 1 .tdmEnable p, fRw 1 1 .tdmMode p, fRw 2 2 .tdmPll p, fRw 4 2 .tdmFsShape p, fRw 6 2 .tdmPolarity p,
      fRw 8 1 .tdmTxIdle p, fRw 10 2 .tdmLoop p]
  | 0x004 => [fRw 0 17 .tdmRate p]
  | 0x008 => [fRw 0 11 .tdmFrameLen p, fRw 16 6 .tdmSlots p, fRw 24 6 .tdmSlotWidth p]
  | 0x00C => [fRw 0 8 .tdmSlotOffset p, fRw 8 6 .tdmWordLen p]
  | 0x010 => [fRw 0 32 .tdmTxMask p]
  | 0x014 => [fRw 0 32 .tdmRxMask p]
  | 0x018 => [fRo 0 2 .tdmState p, fRo 8 8 .tdmClock p]
  | 0x01C => [fFlags 4 .tdmEventFlags p]
  | 0x020 => fWord .tdmFrames p
  | 0x024 => fWord .tdmMalformed p
  | 0x028 => fWord .tdmLastLatch p
  | _ => []

/-- PLL `k` (R252). -/
def pllFields (k a : Nat) : List Field :=
  match a with
  | 0x000 => [fRw 0 1 .pllEnable k, fRw 1 1 .pllFamily k, fRw 8 5 .pllRef k, fRw 16 1 .pllMclkOut k]
  | 0x004 => [fRw 0 10 .pllPull k]
  | 0x008 => [fRo 0 3 .pllState k]
  | 0x00C => fWord .pllOffset k
  | 0x010 => fWord .pllPhaseErr k
  | 0x014 => fWord .pllSlips k
  | 0x018 => [fFlags 2 .pllEventFlags k]
  | _ => []

/-- ASRC channel `n` (R252). -/
def asrcFields (n a : Nat) : List Field :=
  match a with
  | 0x00 => [fRw 0 8 .asrcInClock n, fRw 8 8 .asrcOutClock n]
  | 0x04 => [fRw 0 17 .asrcInRate n]
  | 0x08 => [fRw 0 17 .asrcOutRate n]
  | 0x0C => [fRo 0 2 .asrcState n, fRo 8 4 .asrcTracker n]
  | 0x10 => fWord .asrcRatio n
  | 0x14 => [fFlags 1 .asrcEventFlags n]
  | _ => []

/-- Audio routing status, from 0x001D_0000 (R276). -/
def routeFields (a : Nat) : List Field :=
  if a < 0x0800 then
    let f := a / 0x20
    match a % 0x20 with
    | 0x00 => [fRo 0 2 .nrState f]
    | 0x04 => fWord .nrPkts f
    | 0x08 => fWord .nrLate f
    | 0x0C => fWord .nrUnderruns f
    | 0x10 => [fFlags 3 .nrEventFlags f]
    | _ => []
  else if 0x1000 ≤ a ∧ a < 0x1800 then
    let f := (a - 0x1000) / 0x20
    match a % 0x20 with
    | 0x00 => [fRo 0 2 .nsState f]
    | 0x04 => fWord .nsPkts f
    | _ => []
  else if 0x2000 ≤ a ∧ a < 0x2200 then
    let c := (a - 0x2000) / 0x10
    match a % 0x10 with
    | 0x0 => [fRo 0 2 .cvState c]
    | 0x4 => [fFlags 3 .cvEventFlags c]
    | _ => []
  else if a = 0x3100 then [fFlags 2 .napEventFlags 0]
  else []

/-- Audio (R251, R252, R276). -/
def audioFields (a : Nat) : List Field :=
  if a < 0x4000 then tdmFields (a / 0x400) (a % 0x400)
  else if a < 0x4400 then pllFields ((a - 0x4000) / 0x100) (a % 0x100)
  else if 0x8000 ≤ a ∧ a < 0x9000 then asrcFields ((a - 0x8000) / 0x20) (a % 0x20)
  else if 0x10000 ≤ a then routeFields (a - 0x10000)
  else []

/-- Island mailbox block (R476). -/
def islandFields (a : Nat) : List Field :=
  match a with
  | 0x800 => [fRo 0 2 .krIslandState 0, fRo 2 2 .krRootState 0]
  | 0x804 => [fRo 0 9 .krSlotsUsed 0]
  | 0x808 => [fRo 0 11 .nwState 0]
  | 0x80C => fWord .nwEnvCount 0
  | 0x810 => [fFlags 10 .krEventFlags 0]
  | _ => []

/-- Test and perturbation (R530). -/
def testFields (a : Nat) : List Field :=
  if a = 0x000 then [fRw 0 1 .bistEnable 0, fRw 16 16 .bistPeriod 0]
  else if a = 0x008 then fWord .bistRuns 0
  else if a = 0x00C then fWord .bistSkipped 0
  else if a = 0x010 then [fFlags 3 .bistEventFlags 0]
  else if 0x100 ≤ a ∧ a < 0x300 then
    let k := (a - 0x100) / 0x40
    match a % 0x40 with
    | 0x00 => [fRw 0 3 .ptKind k, fRw 16 16 .ptTarget k]
    | 0x04 => [fRw 0 16 .ptAmount k]
    | 0x08 => [fRw 0 32 .ptLifetime k]
    | 0x0C => [fGo 0 .ptGo k 1, fGo 1 .ptGo k 2]
    | 0x10 => [fRo 0 2 .ptState k]
    | 0x14 => fWord .ptLeft k
    | 0x18 => fWord .ptCount k
    | 0x1C => [fFlags 3 .ptEventFlags k]
    | _ => []
  else []

/-- A departure's window: its own registers, then its layers (R22). -/
def windowFields (n a : Nat) : List Field :=
  if a < 0x200 then depFields n a else layFields (8 * n + (a - 0x200) / 0x40) (a % 0x40)

/-- A quad's window: lanes at 0x800 + 0x800 n (R320). -/
def quadFields (q a : Nat) : List Field :=
  if 0x800 ≤ a ∧ a < 0x2800 then laneFields (4 * q + (a - 0x800) / 0x800) (a % 0x800) else []

/-- Blocks up to the lanes. -/
def lowFields (a : Nat) : List Field :=
  if a < 0x10000 then globalFields a
  else if a < 0x20000 then timeFields (a - 0x10000)
  else if a < 0x30000 then inkFields (a - 0x20000)
  else if a < 0x40000 then ringFields (a - 0x30000)
  else if a < 0x41000 then porterFields ((a - 0x40000) / 0x400) (a % 0x400)
  else if 0x50000 ≤ a ∧ a < 0x60000 then matrixFields (a - 0x50000)
  else if 0x60000 ≤ a ∧ a < 0x70000 then dramFields (a - 0x60000)
  else if 0x70000 ≤ a ∧ a < 0x80000 then nvFields (a - 0x70000)
  else if 0x80000 ≤ a ∧ a < 0xB0000 then quadFields ((a - 0x80000) / 0x4000) (a % 0x4000)
  else if 0xC0000 ≤ a ∧ a < 0xD8000 then macFields ((a - 0xC0000) / 0x1000) (a % 0x1000)
  else if 0xE0000 ≤ a ∧ a < 0xE8000 then headFields ((a - 0xE0000) / 0x1000) (a % 0x1000)
  else []

/-- The blocks from the arrivals on. -/
def highFields (a : Nat) : List Field :=
  if a < 0x140000 then arrFields ((a - 0x100000) / 0x400) (a % 0x400)
  else if a < 0x160000 then windowFields ((a - 0x140000) / 0x400) (a % 0x400)
  else if a < 0x179000 then engFields ((a - 0x160000) / 0x1000) (a % 0x1000)
  else if 0x180000 ≤ a ∧ a < 0x198000 then codecFields ((a - 0x180000) / 0x1000) (a % 0x1000)
  else if 0x1A0000 ≤ a ∧ a < 0x1C0000 then signFields (a - 0x1A0000)
  else if 0x1C0000 ≤ a ∧ a < 0x200000 then audioFields (a - 0x1C0000)
  else if 0x210000 ≤ a ∧ a < 0x220000 then islandFields (a - 0x210000)
  else if 0x300000 ≤ a ∧ a < 0x400000 then testFields (a - 0x300000)
  else []

/-- The object fields of the register at a BAR 0 address, lowest bit first. -/
def fieldsAt (a : Nat) : List Field :=
  if a % 4 ≠ 0 then [] else if a < 0x100000 then lowFields a else highFields a

/-! ## Pairs that a read latches (R47, R85, R193, R227, R251, R300, R320, R339) -/

/-- What a read of a LO register latches: the address that shows it, the object, and the first and number of its bits. -/
structure Hold1 where
  addr : Nat
  o : Obj
  i : Nat
  sh : Nat
  n : Nat
deriving DecidableEq, Repr

/-- The HI word right above a LO register. -/
def hiOf (a : Nat) (o : Obj) (i n : Nat) : List Hold1 := [⟨a + 4, o, i, 32, n⟩]

def latchesLow (a : Nat) : List Hold1 :=
  if a = 0x10000 then hiOf a .timeNow 0 32
  else if a = 0x10018 then hiOf a .tickNow 0 16
  else if 0x10100 ≤ a ∧ a < 0x10180 then [⟨a + 0x80, .tgLastCommit, (a - 0x10100) / 4, 32, 16⟩]
  else if 0x40000 ≤ a ∧ a < 0x41000 then
    let k := (a - 0x40000) / 0x400
    if a % 0x400 = 0x020 then hiOf a .ptrBytesRead k 32
    else if a % 0x400 = 0x028 then hiOf a .ptrBytesWritten k 32 else []
  else if 0x80000 ≤ a ∧ a < 0xB0000 then
    let q := (a - 0x80000) / 0x4000
    let b := a % 0x4000
    let i := 4 * q + (b - 0x800) / 0x800
    if 0x800 ≤ b ∧ b < 0x2800 ∧ b % 0x800 = 0x060 then
      [⟨a + 4, .laneChkErrors, i, 32, 32⟩, ⟨a + 8, .laneChkBits, i, 0, 32⟩, ⟨a + 12, .laneChkBits, i, 32, 32⟩]
    else []
  else if 0xC0000 ≤ a ∧ a < 0xD8000 then
    let m := (a - 0xC0000) / 0x1000
    if a % 0x1000 = 0x010 then hiOf a .ethTxFrames m 32
    else if a % 0x1000 = 0x018 then hiOf a .ethRxFrames m 32 else []
  else []

def latchesHigh (a : Nat) : List Hold1 :=
  if 0x100000 ≤ a ∧ a < 0x140000 then
    let n := (a - 0x100000) / 0x400
    if a % 0x400 = 0x008 then
      [⟨a + 4, .arrFrameTime, n, 32, 32⟩, ⟨a + 8, .arrFrameTick, n, 0, 32⟩, ⟨a + 12, .arrFrameTick, n, 32, 16⟩]
    else []
  else if 0x140000 ≤ a ∧ a < 0x160000 then
    if a % 0x400 = 0x030 then hiOf a .depFrameTime ((a - 0x140000) / 0x400) 32 else []
  else if 0x1A0000 ≤ a ∧ a < 0x1A2000 then
    if a % 0x40 = 0x0C then hiOf a .sbVerdictTick ((a - 0x1A0000) / 0x40) 16 else []
  else if 0x1C0000 ≤ a ∧ a < 0x1C4000 then
    if a % 0x400 = 0x028 then hiOf a .tdmLastLatch ((a - 0x1C0000) / 0x400) 16 else []
  else []

/-- What a read of a register latches. -/
def latchesAt (a : Nat) : List Hold1 := if a < 0x100000 then latchesLow a else latchesHigh a

/-! ## Fate of host writes (R22, R23, R345) -/

/-- The ranges marked "dropped" in R22. -/
def droppedRange (a : Nat) : Bool :=
  a < 0x2F000 || (0x40000 ≤ a && a < 0xB0000) || (0xC0000 ≤ a && a < 0xD8000) || (0xE0000 ≤ a && a < 0xE8000)
    || (0x100000 ≤ a && a < 0x179000) || (0x180000 ≤ a && a < 0x198000) || (0x1A0000 ≤ a && a < 0x200000)
    || (0x300000 ≤ a && a < 0x400000)

/-- What QUARANTINE leaves open to the host: both mailboxes, and the ring engine's registers of R345. -/
def quarantineOpen (a : Nat) : Bool :=
  (0x200000 ≤ a && a < 0x220000) || a == 0x30000 || a == 0x30008 || (0x30200 ≤ a && a < 0x30240)

end Sys2Proof.Machine
end

