-- ==== Sys2Proof/Machine/RegOps.lean ====
section
/-!
DEFINITION. Reads and writes of BAR 0 registers: fields of objects, registers without an object, latches, and the fate
of a host write (R7, R9, R22, R23, R47, R345, R519).
-/

namespace Sys2Proof.Machine

/-! ## Fields of objects -/

/-- The number an object shows in a register. `dep_depth` is coded 0, 1, 2 for 8, 10, 12 (R227); a port without a
tracker shows tracker 0 (R252). -/
def Dev.regValue (e : Env) (d : Dev) (o : Obj) (i : Nat) : Nat :=
  let v := match d.partValue e o i with
    | some bs => ofLe bs
    | none => d.g o i
  if o = .depDepth then (v - 8) / 2 else if o = .asrcTracker ∧ v = 0xFF then 0 else v

/-- The bits a field shows. [DEDUCED, log entry 111] -/
def Field.read (f : Field) (e : Env) (d : Dev) : Nat :=
  match f.acc with
  | .w1s _ => 0
  | _ => bitsAt (d.regValue e f.o f.i) f.sh f.n * 2 ^ f.lo

/-- `lay_fill` as the layer will have it: what waits for the commit point, or else the value in force.
[DEDUCED, log entry 110] -/
def Dev.fillDue (d : Dev) (m : Nat) : Nat :=
  match (d.dep (m / 8)).boundary.find? fun h => h.o == .layFill && h.i == m with
  | some h => h.v
  | none => d.g .layFill m

/-- The value an object takes when a field is written `v`. -/
def Field.value (f : Field) (d : Dev) (v : Nat) : Nat :=
  if f.o = .depDepth then 8 + 2 * v
  else if f.o = .layFill then setBits (d.fillDue f.i) f.sh f.n v
  else v

/-- A word written to a register reaches one of its fields. [DEDUCED, log entry 110] -/
def Field.write (f : Field) (e : Env) (d : Dev) (w : Nat) : Dev :=
  let v := bitsAt w f.lo f.n
  match f.acc with
  | .ro => d
  | .rw => d.fieldWrite e f.o f.i (f.value d v)
  | .w1c => d.clearFlags f.o f.i v
  | .w1s x => if v = 0 then d else d.fieldWrite e f.o f.i x

/-! ## Bits without an object -/

/-- The sources of word `w` that satisfy a test, as bits. -/
def sourceWord (w : Nat) (p : Nat → Bool) : Nat :=
  (((List.range 32).filter fun b => p (32 * w + b)).map (2 ^ ·)).sum

/-- The word of four bytes at an offset of a byte string. -/
def wordAt (bs : List Byte) (off : Nat) : Nat := ofLe ((bs.drop off).take 4)

/-- Identity and global: part, stepping, serial (R446). -/
def globalBits (a : Nat) : Nat :=
  if a = 0x000 then 0x7256
  else if a = 0x004 then 0xB0
  else if 0x010 ≤ a ∧ a < 0x020 then wordAt serialBytes (a - 0x010)
  else 0

/-- Time base (R47). [DEDUCED, log entry 111] -/
def Dev.timeBits (e : Env) (d : Dev) (a : Nat) : Nat :=
  match a with
  | 0x008 => e.clk.addend
  | 0x020 => b2n d.time.capArmed
  | 0x024 => bitsAt d.time.capTime 0 32
  | 0x028 => bitsAt d.time.capTime 32 32
  | 0x02C => bitsAt d.time.capTick 0 32
  | 0x030 => bitsAt d.time.capTick 32 16
  | _ => 0

/-- Innkeeper's words of sources (R407). -/
def Dev.sourceBits (d : Dev) (a : Nat) : Nat :=
  let w := a % 0x80 / 4
  let pend (s : Nat) : Bool := (d.src s).st == .pending || (d.src s).st == .held
  if a < 0x180 then sourceWord w pend
  else if a < 0x200 then sourceWord w fun s => (d.src s).st == .held
  else if a < 0x300 then sourceWord w pend
  else if a < 0x400 then sourceWord w fun s => d.on .srcMask s
  else if a < 0x480 then sourceWord w fun s => (d.src s).st == .active
  else sourceWord w fun s => d.ink.lostBits.getD s false

/-- The bits of queues 0 to 15 that satisfy a test. -/
def queueBits (p : Nat → Bool) : Nat := (((List.range 16).filter p).map (2 ^ ·)).sum

/-- Innkeeper's host page (R408). -/
def Dev.pageBits (d : Dev) (a : Nat) : Nat :=
  if a = 0x000 then queueBits fun q => d.on .hqArmed q
  else if a = 0x004 then queueBits fun q => (d.queueRing q).nonempty
  else if a = 0x008 then queueBits fun q => d.ink.waiting.getD q false
  else if 0x010 ≤ a ∧ a < 0x090 then
    let c := d.queueRing ((a - 0x010) / 8)
    if a % 8 = 0 then c.p else c.c
  else 0

/-- Innkeeper. -/
def Dev.inkBits (d : Dev) (a : Nat) : Nat :=
  if 0x100 ≤ a ∧ a < 0x500 then d.sourceBits a else if 0xF000 ≤ a then d.pageBits (a - 0xF000) else 0

def RingState.code : RingState → Nat
  | .disabled => 0
  | .enabled => 1
  | .error => 2

/-- Ring engine (R363). [DEDUCED, log entry 114] -/
def Dev.ringBits (d : Dev) (a : Nat) : Nat :=
  let r := d.reg ringSel % 65536
  let c := d.ring r
  if a = 0x00C then c.st.code + 16 * descKind c.cached
  else if a = 0x010 then c.p
  else if a = 0x014 then c.c
  else if 0x040 ≤ a ∧ a < 0x140 then d.groupEvents.getD ((a - 0x040) / 4) 0
  else if 0x200 ≤ a ∧ a < 0x240 then (d.desc r).getD ((a - 0x200) / 4) 0
  else if 0x7000 ≤ a ∧ a < 0x7100 then sourceWord ((a - 0x7000) / 4) fun v => d.ink.msixPba.getD v false
  else if 0x8000 ≤ a ∧ a % 16 = 12 then b2n (d.ink.msixMasked.getD ((a - 0x8000) / 16) true)
  else 0

/-- Mapped data capacity, MiB (R377). -/
def Dev.mappedMib (d : Dev) : Nat := 2 * ((List.range d.stripes).filter fun s => (d.stripeAt s).isSome).length

/-- NV store (R492). -/
def Dev.nvBits (d : Dev) (a : Nat) : Nat :=
  if a = 0x000 then 2 ^ 5 * b2n d.nv.running.isSome + 2 ^ 6 * b2n d.nv.testing.isSome else 0

/-- Lane `i` (R320). -/
def Dev.laneBits (d : Dev) (i a : Nat) : Nat :=
  let c := d.lane i
  if a = 0x008 then 2 ^ 16 * b2n c.cdr + 2 ^ 17 * b2n c.block + 2 ^ 18 * b2n c.frozen
  else if a = 0x00C then c.ctle % 16
  else if 0x010 ≤ a ∧ a < 0x01C then
    ofLe ((List.range 4).map fun t => BitVec.ofInt 8 (c.dfe.getD (a - 0x010 + t) 0))
  else if 0x048 ≤ a ∧ a < 0x054 then wordAt (padTo 10 (d.blob .laneUser i)) (a - 0x048)
  else if a = 0x05C then b2n c.locked
  else 0

/-- MAC `m`: the timestamp FIFO (R339). -/
def Dev.macBits (d : Dev) (m a : Nat) : Nat :=
  let c := d.mac m
  match a with
  | 0x100 => c.stamps.length
  | 0x108 => bitsAt c.popped.2 0 32
  | 0x10C => bitsAt c.popped.2 32 32
  | _ => 0

/-- Head `h`: the sink's EDID and DPCD capabilities (R228). -/
def Dev.headBits (d : Dev) (h a : Nat) : Nat :=
  if 0x100 ≤ a ∧ a < 0x500 then wordAt (d.blob .headEdid h) (a - 0x100)
  else if 0x500 ≤ a ∧ a < 0x510 then wordAt (d.blob .headDpcdCaps h) (a - 0x500)
  else 0

/-- What a register shows beside fields of objects, where the machine computes it. -/
def Dev.shownBits (e : Env) (d : Dev) (a : Nat) : Nat :=
  if a < 0x10000 then globalBits a
  else if a < 0x20000 then d.timeBits e (a - 0x10000)
  else if a < 0x30000 then d.inkBits (a - 0x20000)
  else if a < 0x40000 then d.ringBits (a - 0x30000)
  else if a < 0x41000 then (if a % 0x400 = 0x030 then (d.chan ((a - 0x40000) / 0x400)).tag else 0)
  else if a = 0x60408 then d.mappedMib
  else if 0x70000 ≤ a ∧ a < 0x80000 then d.nvBits (a - 0x70000)
  else if 0x80000 ≤ a ∧ a < 0xB0000 then
    let b := a % 0x4000
    if 0x800 ≤ b ∧ b < 0x2800 then d.laneBits (4 * ((a - 0x80000) / 0x4000) + (b - 0x800) / 0x800) (b % 0x800) else 0
  else if 0xC0000 ≤ a ∧ a < 0xD8000 then d.macBits ((a - 0xC0000) / 0x1000) (a % 0x1000)
  else if 0xE0000 ≤ a ∧ a < 0xE8000 then d.headBits ((a - 0xE0000) / 0x1000) (a % 0x1000)
  else if 0x1D3000 ≤ a ∧ a < 0x1D3080 then wordAt (padTo 128 (d.blob .napActive)) (a - 0x1D3000)
  else if a = 0x210800 then 2 ^ 4 * b2n d.quarantine + 2 ^ 5 * b2n (!d.kr.conds.isEmpty)
  else 0

/-! ## Reading -/

/-- Fields of objects, then bits without one, then what was written or latched there. An offset between words is
reserved and reads as 0 (R9, R22). -/
def Dev.regWord (e : Env) (d : Dev) (a : Nat) : Nat :=
  if a % 4 ≠ 0 then 0
  else (((fieldsAt a).map fun f => f.read e d).sum + d.shownBits e a + d.reg a + d.latch.getD a 0) % 2 ^ 32

/-- A read of a LO register latches the words that go with it (R47). -/
def Dev.latchFrom (e : Env) (d : Dev) (a : Nat) : Dev :=
  let t := (latchesAt a).foldl (fun (t : Tab Nat) h => t.put h.addr (bitsAt (d.regValue e h.o h.i) h.sh h.n)) d.latch
  { d with latch := t }

/-- Registers whose value no command shows, `DCH_BYTES`: the bytes a channel moved in the last millisecond. Their width in
bits. -/
def openRegister (a : Nat) : Option Nat :=
  if 0x60100 ≤ a ∧ a < 0x60300 ∧ a % 0x40 = 0x18 then some 32
  else none

/-- The MAC whose `TS_ID` stands at an address. -/
def stampAt (a : Nat) : Option Nat :=
  if 0xC0000 ≤ a ∧ a < 0xD8000 ∧ a % 0x1000 = 0x104 then some ((a - 0xC0000) / 0x1000) else none

/-- The core whose `INK_CLAIM` stands at an address. -/
def claimAt (a : Nat) : Option Nat :=
  if 0x22000 ≤ a ∧ a < 0x22400 ∧ a % 0x100 = 0 then some ((a - 0x22000) / 0x100) else none

/-- A read of the register at `a` by `w`: the word, and what it leaves behind. Only core t claims at its own
`INK_CLAIM`, after the delivery pass of the tick (R396). [DESIGN CHOICE, log entry 57] -/
def Dev.regRead (e : Env) (d : Dev) (w : Who) (a : Nat) : Nat × Dev :=
  match claimAt a, stampAt a, openRegister a with
  | some t, _, _ => if w = .core t then (d.passOnce e.now).claim t else (0, d)
  | _, some m, _ => d.popStamp m
  | _, _, some n => d.draw n
  | _, _, _ => (d.regWord e a, d.latchFrom e a)

/-! ## Registers without an object: writing -/

/-- `STG0_CTRL`: the bits act lowest first (R134). [DEDUCED, log entry 109] -/
def Dev.stg0Control (e : Env) (d : Dev) (v : Nat) : Dev :=
  let d := if v.testBit 0 then d.stg0Seal e false else d
  let d := if v.testBit 1 then d.stg0Abandon else d
  if v.testBit 2 then d.stg0Seal e true else d

/-- Identity and global (R134, R516). `WDT_KICK` takes writes only from the cores. -/
def Dev.globalPut (e : Env) (d : Dev) (w : Who) (a v : Nat) : Dev :=
  match a with
  | 0x108 => match w with
    | .core k => d.kick e.now k (v % 256)
    | .host => d
  | 0x110 => d.putReg a v
  | 0x200 => d.stg0Control e v
  | 0x204 => d.putReg a (v % 32)
  | _ => d

/-- Time base (R47); `TB_ADDEND` and `STEP_GO` act on the clock. -/
def Dev.timePut (d : Dev) (a v : Nat) : Dev :=
  match a with
  | 0x00C | 0x010 => d.putReg (0x10000 + a) v
  | 0x020 => if v.testBit 0 then { d with time := { d.time with capArmed := true } } else d
  | _ => d

/-- Innkeeper (R390, R391, R397, R403, R407). -/
def Dev.inkPut (e : Env) (d : Dev) (a v : Nat) : Dev :=
  let w := a % 0x80 / 4
  if a = 0x000C then d.fire (v % 1024)
  else if 0x200 ≤ a ∧ a < 0x280 then (wordSources w v).foldl (Dev.pendSet e.now) d
  else if 0x280 ≤ a ∧ a < 0x300 then (wordSources w v).foldl Dev.pendClr d
  else if 0x300 ≤ a ∧ a < 0x380 then d.maskSources e (wordSources w v) 1
  else if 0x380 ≤ a ∧ a < 0x400 then d.maskSources e (wordSources w v) 0
  else if 0x480 ≤ a ∧ a < 0x500 then
    { d with ink := { d.ink with lostBits := (wordSources w v).foldl (fun (t : Tab Bool) s => t.del s) d.ink.lostBits } }
  else if 0x2000 ≤ a ∧ a < 0x2400 ∧ a % 0x100 = 4 then d.completeSrc ((a - 0x2000) / 0x100) (v % 1024)
  else if a = 0xF000 then (setBitsOf 16 v).foldl (fun (d : Dev) q => d.put .hqArmed q 1) d
  else d

/-- A vector's control word; one that is unmasked sends what it held pending (R403). -/
def Dev.msixControl (d : Dev) (v x : Nat) : Dev :=
  let m := x.testBit 0
  let d := { d with ink := { d.ink with msixMasked := d.ink.msixMasked.put v m } }
  if !m && d.ink.msixPba.getD v false then
    ({ d with ink := { d.ink with msixPba := d.ink.msixPba.del v } }).sendMsix v
  else d

/-- Ring engine (R349, R352, R362, R363). -/
def Dev.ringPut (e : Env) (d : Dev) (a v : Nat) : Dev :=
  if a = 0x000 then d.ringCommand e (v % 65536) (bitsAt v 16 3)
  else if a = 0x008 then d.putReg ringSel (v % 65536)
  else if 0x040 ≤ a ∧ a < 0x140 then
    let g := (a - 0x040) / 4
    { d with groupEvents := d.groupEvents.put g (clearMask (d.groupEvents.getD g 0) v) }
  else if 0x200 ≤ a ∧ a < 0x240 then d.descWrite ((a - 0x200) / 4) v
  else if 0x8000 ≤ a then
    if a % 16 = 12 then d.msixControl ((a - 0x8000) / 16) v else d.putReg (0x30000 + a) v
  else d

/-- `LANE_USER` word `w`: `lane_user` is written with the bytes changed, checked and recorded as a write of it (R519). -/
def Dev.userWord (e : Env) (d : Dev) (i w v : Nat) : Dev :=
  let old := padTo 10 (d.blob .laneUser i)
  let new := (old.take (4 * w) ++ leBytes 4 v ++ old.drop (4 * w + 4)).take 10
  let code := d.keepFails .laneUser i 0 new
  if code ≠ 0 then d.answerCode code else (d.answerCode 0).applyWrite e registerOrigin .laneUser i 0 new

/-- Lane `i`, with its registers from `base` (R320). `LANE_TEST.INVERT` has no object. [DEDUCED, log entry 113] -/
def Dev.lanePut (e : Env) (d : Dev) (i base a v : Nat) : Dev :=
  match a with
  | 0x040 => d.putReg (base + a) (v % 512 / 256 * 256)
  | 0x048 => d.userWord e i 0 v
  | 0x04C => d.userWord e i 1 v
  | 0x050 => d.userWord e i 2 v
  | 0x05C => if v.testBit 1 then d.checkerClears i else d
  | _ => d

/-- Dictionary mailbox (R426). [DEDUCED, log entry 112] -/
def Dev.dmbPut (e : Env) (d : Dev) (a v : Nat) : Dev :=
  if a = 0x000 then d.putReg dmbBase (v % 65536)
  else if a = 0x004 then d.putReg (dmbBase + 4) (v % 4)
  else if a = 0x008 then d.putReg (dmbBase + 8) (v % 65536)
  else if a = 0x00C then
    match v % 4 with
    | 1 => d.dmbChallengeNow e
    | 2 => d.dmbRespondNow e
    | 3 => d.dmbCloseNow e
    | _ => d
  else if 0x080 ≤ a ∧ a < 0x0E0 then d.putReg (dmbBase + a) v
  else d

/-- Island mailbox (R476): the host may issue command 1 alone. [DEDUCED, log entry 112] -/
def Dev.mbxPut (e : Env) (d : Dev) (w : Who) (a v : Nat) : Dev :=
  if a = 0x000 then
    if w = .host ∧ v % 256 ≠ 1 then d.mbxStatus 0x0102 else d.mbxCommand e (v % 256)
  else if a = 0x008 then (if v % 2048 ≤ 1024 then d.putReg (mbxBase + 8) (v % 2048) else d)
  else if 0x100 ≤ a ∧ a < 0x500 then d.putReg (mbxBase + a) v
  else d

/-- A word reaches what stands at an address beside fields of objects. -/
def Dev.shownPut (e : Env) (d : Dev) (w : Who) (a v : Nat) : Dev :=
  if a < 0x10000 then d.globalPut e w a v
  else if a < 0x20000 then d.timePut (a - 0x10000) v
  else if a < 0x30000 then d.inkPut e (a - 0x20000) v
  else if a < 0x40000 then d.ringPut e (a - 0x30000) v
  else if 0x80000 ≤ a ∧ a < 0xB0000 then
    let b := a % 0x4000
    if 0x800 ≤ b ∧ b < 0x2800 then
      d.lanePut e (4 * ((a - 0x80000) / 0x4000) + (b - 0x800) / 0x800) (a - b % 0x800) (b % 0x800) v
    else d
  else if 0x200000 ≤ a ∧ a < 0x210000 then d.dmbPut e (a - 0x200000) v
  else if 0x210000 ≤ a ∧ a < 0x220000 then d.mbxPut e w (a - 0x210000) v
  else if a = 0x300004 then d.fieldWrite e .bistForceFault 0 (v % 256)
  else d

/-- A register takes a word: its fields, lowest first, then what has no object. -/
def Dev.regWrite (e : Env) (d : Dev) (w : Who) (a v : Nat) : Dev :=
  if a % 4 ≠ 0 then d
  else ((fieldsAt a).foldl (fun (d : Dev) (f : Field) => f.write e d v) d).shownPut e w a v

/-! ## Fate of a write (R22, R23, R343, R345) -/

/-- A host write that enables only some bytes, or that the part's state bars, is dropped and counted.
[DEDUCED, log entry 108] -/
def Dev.hostBarred (d : Dev) (a be : Nat) : Bool :=
  be != 15 || (d.quarantine && !quarantineOpen a) || (droppedRange a && d.hostDrops)

/-- `TB_ADDEND` and `TB_CTRL.STEP_GO` act on the clock ahead of the register's other fields (R47).
[DEDUCED, log entry 115] -/
def State.clockWrite (s : State) (a v : Nat) : State :=
  if a = 0x10008 then { s with clk := { s.clk with addend := clampAddend v } }
  else if a = 0x10014 ∧ v.testBit 0 ∧ s.dev.g .tbState = tbAcquiring then s.stepBy s.dev.stepAmount
  else s

/-- An accepted write. [DEDUCED, log entry 115] -/
def State.regWrite (s : State) (w : Who) (a v : Nat) : State :=
  (s.clockWrite a v).run fun e d => d.regWrite e w a v

end Sys2Proof.Machine
end

