-- ==== Sys2Proof/Machine/Registers.lean ====
section
/-!
DEFINITION. Reads and writes of BAR 0 registers that have no command of their own (R22, R23, R47).
-/

namespace Sys2Proof.Machine

/-- REGISTER_WRITE (R23): by the host under the fate of R22, by a core always; an incomplete dword of a core is dropped. -/
def execRegisterWrite (w : Who) (addr v be : Nat) (s : State) : Out :=
  let t := s.enter 7
  .next (if t.dev.asleep then t
    else if w = .host then
      (if t.dev.hostBarred addr be then t.run fun _ d => d.barDrop else t.regWrite w addr v)
    else if be ≠ 15 then t
    else t.regWrite w addr v)

/-- LATCHED_READ (R47): a read of a register, rank 8; a LO register latches what goes with it. -/
def execLatchedRead (w : Who) (addr : Nat) (s : State) : Out :=
  s.at 8 fun e d =>
    let r := d.regRead e w addr
    r.2.answerWord r.1

end Sys2Proof.Machine
end

