-- ==== Sys2Proof/Machine/Rings.lean ====
section
/-!
DEFINITION. Commands of the PCIe endpoint and the rings (R344, R347 to R354, R362).
-/

namespace Sys2Proof.Machine

/-- PCIE_RESET (R347), rank 3. -/
def execPcieReset (kind : Nat) (s : State) : Out := s.at 3 fun e d => d.pcieReset e kind

/-- PCIE_LOOP (R348): an accepted write of `pcie_loop`. [DEDUCED, log entry 105] -/
def execPcieLoop (v : Nat) (s : State) : Out := s.at 7 fun e d => d.directWrite e .pcieLoop 0 v

/-- PCIE_LINK_UP (R362). -/
def execPcieLinkUp (speed width : Nat) (s : State) : Out := s.at 9 fun _ d => d.pcieLinkUp speed width

/-- PANTRY_WINDOW_WRITE (R344). -/
def execPantryWindowWrite (offset : Nat) (bytes : List Byte) (s : State) : Out :=
  s.at 7 fun _ d => d.windowWrite offset bytes

/-- RING_ENABLE (R352). -/
def execRingEnable (r : Nat) (s : State) : Out := s.at 7 fun _ d => d.ringEnable r

/-- RING_DISABLE (R352). -/
def execRingDisable (r : Nat) (s : State) : Out := s.at 7 fun e d => d.ringDisable e r

/-- RING_RESET (R352). -/
def execRingReset (r : Nat) (s : State) : Out := s.at 7 fun _ d => d.ringReset r

/-- RING_CLEAR_ERROR (R352). -/
def execRingClearError (r : Nat) (s : State) : Out := s.at 7 fun _ d => d.ringClear r

/-- RING_DESC_WRITE (R349). -/
def execRingDescWrite (word v : Nat) (s : State) : Out := s.at 7 fun _ d => d.descWrite word v

/-- DOORBELL (R353). -/
def execDoorbell (w : Who) (r v be : Nat) (s : State) : Out := s.at 7 fun _ d => d.doorbell w r v be

/-- ENTRY_FETCH (R354): a mailbox read is served after rank 7 (R412). -/
def execEntryFetch (r : Nat) (bytes : List Byte) (ok : Bool) (s : State) : Out :=
  s.at (if s.dev.fetchReads ⟨s.clk, s.mem⟩ r bytes then 8 else 7) fun e d => d.entryFetch e r bytes ok

end Sys2Proof.Machine
end

