-- ==== Sys2Proof/Machine/Startup.lean ====
section
/-!
DEFINITION. Commands of the NV store, of resets, start-up and power states, and of firmware (R478 to R516).
-/

namespace Sys2Proof.Machine

/-! ## NV store -/

/-- NV_BURST (R481); with room in the FIFO, requests held for it go on (R480). -/
def execNvBurst (s : State) : Out :=
  ((s.enter 9).run fun e d => if d.asleep then d else d.burstStarts e).thenHeld

/-- NV_BURST_DONE (R480). -/
def execNvBurstDone (s : State) : Out := s.at 9 fun e d => d.when (d.burstOver e) Dev.burstEnds

/-- HOLDUP_TEST (R483). -/
def execHoldupTest (s : State) : Out := s.at 9 fun e d => d.when (d.holdupDue e) (Dev.holdupStarts e)

/-- HOLDUP_TEST_DONE (R483): the capacitance measured, nF. -/
def execHoldupTestDone (nf : Nat) (s : State) : Out := s.at 9 fun e d => d.holdupEnds e nf

/-- NV_SCRUB (R489): the groups corrected and those found uncorrectable. -/
def execNvScrub (corrected uncorrected : List Nat) (s : State) : Out :=
  s.at 9 fun e d => d.when (d.scrubDue e) fun d => d.nvScrub e corrected uncorrected

/-- NVWP_CHANGE (R488): sampled at the tick's start, ahead of its rank 7. -/
def execNvwpChange (low : Bool) (s : State) : Out := s.at 0 fun _ d => d.nvwp low

/-! ## Resets (R495 to R498) -/

/-- POWER_ON (R496): cause 1. -/
def execPowerOn (s : State) : Out := .next (s.coldReset causePowerOn)

/-- PIN_RESET (R497): cause 2, rank 3. -/
def execPinReset (s : State) : Out :=
  let t := s.enter 3
  .next (if t.dev.asleep then t else t.warmReset causePin)

/-- POWER_FAIL (R495), rank 2. -/
def execPowerFail (s : State) : Out := s.at 2 fun e d => d.powerFails e

/-- BROWN_OUT (R495): cause 7, 10 ms after a power fail. -/
def execBrownOut (s : State) : Out :=
  let t := s.enter 3
  .next (if !t.dev.asleep ∧ t.dev.nv.failing ∧ t.dev.nv.failedAt + 40000 ≤ t.clk.elapsed then t.warmReset causeBrownOut else t)

/-- SOFTWARE_RESET (R497): `pwr_cmd` 3. -/
def execSoftwareReset (s : State) : Out := s.at 7 fun e d => d.pwrCommand e 3

/-- A software reset accepted in an earlier tick has found the FIFO empty. -/
def Dev.resetDue (now : Nat) (d : Dev) : Bool :=
  !d.asleep && d.nv.queued == 0 &&
    match d.pwr.resetAt with
    | some t => decide (t < now)
    | none => false

/-- SOFTWARE_RESET_REGISTER (R497): cause 3, rank 3. -/
def execSoftwareResetRegister (s : State) : Out :=
  let t := s.enter 3
  .next (if t.dev.resetDue t.clk.elapsed then t.warmReset causeSoftware else t)

/-- CORE_RESTART (R498): `pwr_cmd` 4; it registers at the next rank 3. -/
def execCoreRestart (s : State) : Out := s.at 7 fun e d => d.pwrCommand e 4

/-- WDT_KICK (R498, R516): core `k` writes `v`. -/
def execWdtKick (k v : Nat) (s : State) : Out := s.at 7 fun e d => d.kick e.now k v

/-- WATCHDOG_EXPIRY (R498), rank 3. -/
def execWatchdogExpiry (k : Nat) (s : State) : Out := s.at 3 fun e d => d.when (d.dogDue e.now k) fun d => d.dogBites e

/-! ## Start-up (R500) -/

/-- STARTUP_STEP_END: the lowest step whose work is done. -/
def execStartupStepEnd (s : State) : Out :=
  s.at 9 fun e d => match d.stepEnding with
    | some k => d.endStep e k true
    | none => d

/-- STARTUP_STEP_EXPIRY: the lowest step whose timeout has passed. -/
def execStartupStepExpiry (s : State) : Out :=
  s.at 9 fun e d => match d.stepExpiring e with
    | some k => d.endStep e k false
    | none => d

/-! ## Power states (R507 to R510) -/

/-- PWR_OPERATE: `pwr_cmd` 0. -/
def execPwrOperate (s : State) : Out := s.at 7 fun e d => d.pwrCommand e 0

/-- PWR_STANDBY: `pwr_cmd` 1. -/
def execPwrStandby (s : State) : Out := s.at 7 fun e d => d.pwrCommand e 1

/-- PWR_SLEEP: `pwr_cmd` 2. -/
def execPwrSleep (s : State) : Out := s.at 7 fun e d => d.pwrCommand e 2

/-- SLEEP_ENTRY_DONE. -/
def execSleepEntryDone (s : State) : Out := .next ((s.enter 9).endEntry)

/-- A wake source of the mask wakes the part from SLEEP. -/
def State.wakeIf (s : State) (bit source : Nat) (c : Bool) : Out :=
  .next (if s.dev.asleep ∧ (s.dev.g .pwrWakeMask).testBit bit ∧ c then s.wakeBy source else s)

/-- WAKE_PIN. -/
def execWakePin (s : State) : Out :=
  if s.dev.pwr.sleeping.isSome then
    .next (if (s.dev.g .pwrWakeMask).testBit 0 then s.run fun _ d => d.holdWake else s)
  else s.wakeIf 0 1 true

/-- CAN_WAKE. -/
def execCanWake (s : State) : Out := s.wakeIf 1 2 true

/-- WAKE_TIMER. -/
def execWakeTimer (s : State) : Out :=
  let n := s.dev.g .pwrWakeAfter
  s.wakeIf 2 3 (n != 0 && decide (s.dev.pwr.asleepAt + n * 4000000 ≤ s.clk.elapsed))

/-! ## Firmware (R511 to R513) -/

/-- FW_WRITE: `fw_cmd` 1. -/
def execFwWrite (v : Nat) (s : State) : Out := s.at 7 fun e d => d.fwWrite e v

/-- FW_WRITE_DONE. -/
def execFwWriteDone (r : FwResult) (s : State) : Out := s.at 9 fun _ d => d.fwWriteDone r

/-- FW_HANDOVER: `fw_cmd` 2. -/
def execFwHandover (v : Nat) (s : State) : Out := s.at 7 fun e d => d.fwHandover e v

/-- FW_CONFIRM: `fw_cmd` 3. -/
def execFwConfirm (v : Nat) (s : State) : Out := s.at 7 fun _ d => d.fwConfirm v

end Sys2Proof.Machine
end

