-- ==== Sys2Proof/Machine/Dispatch.lean ====
section
/-!
DEFINITION. One arm per command: a direct call of its meaning.
-/

namespace Sys2Proof.Machine

def exec (i : Instr) (s : State) : Host.Outcome State Fault Refusal :=
  match i with
  | .tick => Sys2Proof.Machine.execTick s
  | .tickWrap => Sys2Proof.Machine.execTickWrap s
  | .frameStart g => Sys2Proof.Machine.execFrameStart g s
  | .commitPoint g => Sys2Proof.Machine.execCommitPoint g s
  | .outputLine d y lateLayers wbDrained capDrained => Sys2Proof.Machine.execOutputLine d y lateLayers wbDrained capDrained s
  | .writeBackComplete d => Sys2Proof.Machine.execWriteBackComplete d s
  | .captureComplete d => Sys2Proof.Machine.execCaptureComplete d s
  | .ptpEnable on => Sys2Proof.Machine.execPtpEnable on s
  | .holdoverTimeout => Sys2Proof.Machine.execHoldoverTimeout s
  | .servoHandoff r => Sys2Proof.Machine.execServoHandoff r s
  | .stepGo => Sys2Proof.Machine.execStepGo s
  | .tbAddend v => Sys2Proof.Machine.execTbAddend v s
  | .tickCapture => Sys2Proof.Machine.execTickCapture s
  | .tickCaptureLatch => Sys2Proof.Machine.execTickCaptureLatch s
  | .latchedRead w addr => Sys2Proof.Machine.execLatchedRead w addr s
  | .receiveFrame m f => Sys2Proof.Machine.execReceiveFrame m f s
  | .frameCloseTimeout a => Sys2Proof.Machine.execFrameCloseTimeout a s
  | .pathTimeout a path => Sys2Proof.Machine.execPathTimeout a path s
  | .sourceLoss a => Sys2Proof.Machine.execSourceLoss a s
  | .injectionTake a => Sys2Proof.Machine.execInjectionTake a s
  | .injectionCopyDone a bytes audio => Sys2Proof.Machine.execInjectionCopyDone a bytes audio s
  | .generatorFrameDone a => Sys2Proof.Machine.execGeneratorFrameDone a s
  | .sliceDecodeDone a k lines lost parseErrors => Sys2Proof.Machine.execSliceDecodeDone a k lines lost parseErrors s
  | .sliceEncodeDone d k => Sys2Proof.Machine.execSliceEncodeDone d k s
  | .stgOpen x => Sys2Proof.Machine.execStgOpen x s
  | .stgSeal x => Sys2Proof.Machine.execStgSeal x s
  | .stgSealHeld x => Sys2Proof.Machine.execStgSealHeld x s
  | .stgAbandon x => Sys2Proof.Machine.execStgAbandon x s
  | .stg0Seal => Sys2Proof.Machine.execStg0Seal s
  | .stg0Hold => Sys2Proof.Machine.execStg0Hold s
  | .stg0Abandon => Sys2Proof.Machine.execStg0Abandon s
  | .take d => Sys2Proof.Machine.execTake d s
  | .takeCancel d => Sys2Proof.Machine.execTakeCancel d s
  | .salvoCopy d => Sys2Proof.Machine.execSalvoCopy d s
  | .salvoGo x => Sys2Proof.Machine.execSalvoGo x s
  | .salvoCancel x => Sys2Proof.Machine.execSalvoCancel x s
  | .salvoClear x => Sys2Proof.Machine.execSalvoClear x s
  | .engineHardFault e => Sys2Proof.Machine.execEngineHardFault e s
  | .lateResponse m => Sys2Proof.Machine.execLateResponse m s
  | .engineBistStart e => Sys2Proof.Machine.execEngineBistStart e s
  | .engineBistResult e ok => Sys2Proof.Machine.execEngineBistResult e ok s
  | .bistAbandon codec e => Sys2Proof.Machine.execBistAbandon codec e s
  | .codecBistStart c => Sys2Proof.Machine.execCodecBistStart c s
  | .codecBistResult c ok => Sys2Proof.Machine.execCodecBistResult c ok s
  | .engReadmit e => Sys2Proof.Machine.execEngReadmit e s
  | .engReadmitDone e ok => Sys2Proof.Machine.execEngReadmitDone e ok s
  | .codecFault c => Sys2Proof.Machine.execCodecFault c s
  | .cdcReadmit c => Sys2Proof.Machine.execCdcReadmit c s
  | .cdcReadmitDone c ok => Sys2Proof.Machine.execCdcReadmitDone c ok s
  | .bistForceFault v => Sys2Proof.Machine.execBistForceFault v s
  | .packetDue d => Sys2Proof.Machine.execPacketDue d s
  | .latePacketHandover d => Sys2Proof.Machine.execLatePacketHandover d s
  | .transmitFrame m fw => Sys2Proof.Machine.execTransmitFrame m fw s
  | .irqHpd h status => Sys2Proof.Machine.execIrqHpd h status s
  | .unplug h => Sys2Proof.Machine.execUnplug h s
  | .plug h caps edid => Sys2Proof.Machine.execPlug h caps edid s
  | .linkTrainingDone h r => Sys2Proof.Machine.execLinkTrainingDone h r s
  | .headRetry h => Sys2Proof.Machine.execHeadRetry h s
  | .headRetrain h => Sys2Proof.Machine.execHeadRetrain h s
  | .auxTimeout h => Sys2Proof.Machine.execAuxTimeout h s
  | .dpcdPoll h answered => Sys2Proof.Machine.execDpcdPoll h answered s
  | .frameSync p wire => Sys2Proof.Machine.execFrameSync p wire s
  | .portLoss p => Sys2Proof.Machine.execPortLoss p s
  | .pllLock k => Sys2Proof.Machine.execPllLock k s
  | .pllRefLoss k => Sys2Proof.Machine.execPllRefLoss k s
  | .trackerLock t ratio => Sys2Proof.Machine.execTrackerLock t ratio s
  | .mixSample n => Sys2Proof.Machine.execMixSample n s
  | .duckBlock n => Sys2Proof.Machine.execDuckBlock n s
  | .sampleMissing ch => Sys2Proof.Machine.execSampleMissing ch s
  | .flowLoss f => Sys2Proof.Machine.execFlowLoss f s
  | .porterNop k => Sys2Proof.Machine.execPorterNop k s
  | .porterCopy k hostData => Sys2Proof.Machine.execPorterCopy k hostData s
  | .porterFill k hostData => Sys2Proof.Machine.execPorterFill k hostData s
  | .porterBlend k hostData => Sys2Proof.Machine.execPorterBlend k hostData s
  | .porterCompletion k poisoned => Sys2Proof.Machine.execPorterCompletion k poisoned s
  | .porterAbort k => Sys2Proof.Machine.execPorterAbort k s
  | .porterResume k => Sys2Proof.Machine.execPorterResume k s
  | .laneAttempt k => Sys2Proof.Machine.execLaneAttempt k s
  | .laneUp k => Sys2Proof.Machine.execLaneUp k s
  | .signalLoss k detect => Sys2Proof.Machine.execSignalLoss k detect s
  | .quadPllLoss q => Sys2Proof.Machine.execQuadPllLoss q s
  | .quadPllLock q => Sys2Proof.Machine.execQuadPllLock q s
  | .eqFreeze k => Sys2Proof.Machine.execEqFreeze k s
  | .eqResume k => Sys2Proof.Machine.execEqResume k s
  | .readaptation k => Sys2Proof.Machine.execReadaptation k s
  | .laneRecal k => Sys2Proof.Machine.execLaneRecal k s
  | .laneTest k v => Sys2Proof.Machine.execLaneTest k v s
  | .laneLoop k v => Sys2Proof.Machine.execLaneLoop k v s
  | .laneInject k => Sys2Proof.Machine.execLaneInject k s
  | .checkerClear k => Sys2Proof.Machine.execCheckerClear k s
  | .arpRefresh m ip => Sys2Proof.Machine.execArpRefresh m ip s
  | .msTxAn m an fw => Sys2Proof.Machine.execMsTxAn m an fw s
  | .keyLoadComplete m => Sys2Proof.Machine.execKeyLoadComplete m s
  | .saRetire ch an => Sys2Proof.Machine.execSaRetire ch an s
  | .ethLoop m v => Sys2Proof.Machine.execEthLoop m v s
  | .tsIdPop m => Sys2Proof.Machine.execTsIdPop m s
  | .pcieReset kind => Sys2Proof.Machine.execPcieReset kind s
  | .pcieLoop v => Sys2Proof.Machine.execPcieLoop v s
  | .pantryWindowWrite offset bytes => Sys2Proof.Machine.execPantryWindowWrite offset bytes s
  | .ringEnable r => Sys2Proof.Machine.execRingEnable r s
  | .ringDisable r => Sys2Proof.Machine.execRingDisable r s
  | .ringReset r => Sys2Proof.Machine.execRingReset r s
  | .ringClearError r => Sys2Proof.Machine.execRingClearError r s
  | .ringDescWrite word v => Sys2Proof.Machine.execRingDescWrite word v s
  | .doorbell w r v be => Sys2Proof.Machine.execDoorbell w r v be s
  | .entryFetch r bytes ok => Sys2Proof.Machine.execEntryFetch r bytes ok s
  | .dchEvacuate c => Sys2Proof.Machine.execDchEvacuate c s
  | .stripeMoved c => Sys2Proof.Machine.execStripeMoved c s
  | .dchRetrain c => Sys2Proof.Machine.execDchRetrain c s
  | .dchTrainingDone c ok => Sys2Proof.Machine.execDchTrainingDone c ok s
  | .dchReadmit c => Sys2Proof.Machine.execDchReadmit c s
  | .dchLoop c v => Sys2Proof.Machine.execDchLoop c v s
  | .mr4Poll c rate => Sys2Proof.Machine.execMr4Poll c rate s
  | .inkMaskSet w bits => Sys2Proof.Machine.execInkMaskSet w bits s
  | .inkMaskClr w bits => Sys2Proof.Machine.execInkMaskClr w bits s
  | .inkPendSet w bits => Sys2Proof.Machine.execInkPendSet w bits s
  | .inkPendClr w bits => Sys2Proof.Machine.execInkPendClr w bits s
  | .inkFire x => Sys2Proof.Machine.execInkFire x s
  | .inkClaim t => Sys2Proof.Machine.execInkClaim t s
  | .inkComplete t x => Sys2Proof.Machine.execInkComplete t x s
  | .holdRelease g => Sys2Proof.Machine.execHoldRelease g s
  | .hqArm bits => Sys2Proof.Machine.execHqArm bits s
  | .objectRead p index sub => Sys2Proof.Machine.execObjectRead p index sub s
  | .objectWrite p index sub data => Sys2Proof.Machine.execObjectWrite p index sub data s
  | .registerWrite w addr v be => Sys2Proof.Machine.execRegisterWrite w addr v be s
  | .assistTimeout p => Sys2Proof.Machine.execAssistTimeout p s
  | .openGo p => Sys2Proof.Machine.execOpenGo p s
  | .openResp p resp => Sys2Proof.Machine.execOpenResp p resp s
  | .openVerdict p pass => Sys2Proof.Machine.execOpenVerdict p pass s
  | .lockoutEnd ch => Sys2Proof.Machine.execLockoutEnd ch s
  | .sesClose x => Sys2Proof.Machine.execSesClose x s
  | .sesKill by_ x => Sys2Proof.Machine.execSesKill by_ x s
  | .sessionIdle x => Sys2Proof.Machine.execSessionIdle x s
  | .busOff k => Sys2Proof.Machine.execBusOff k s
  | .nmtResetNode k => Sys2Proof.Machine.execNmtResetNode k s
  | .nmtResetCommunication k => Sys2Proof.Machine.execNmtResetCommunication k s
  | .usdoSegment p index sub data last => Sys2Proof.Machine.execUsdoSegment p index sub data last s
  | .usdoAbort p => Sys2Proof.Machine.execUsdoAbort p s
  | .usdoTimeout p => Sys2Proof.Machine.execUsdoTimeout p s
  | .heartbeat k => Sys2Proof.Machine.execHeartbeat k s
  | .dmbChallenge => Sys2Proof.Machine.execDmbChallenge s
  | .dmbRespond => Sys2Proof.Machine.execDmbRespond s
  | .dmbClose => Sys2Proof.Machine.execDmbClose s
  | .lcStep x => Sys2Proof.Machine.execLcStep x s
  | .lcFuseBurnt => Sys2Proof.Machine.execLcFuseBurnt s
  | .lcRecover => Sys2Proof.Machine.execLcRecover s
  | .lcRecoverResult pass => Sys2Proof.Machine.execLcRecoverResult pass s
  | .ledgerAck q => Sys2Proof.Machine.execLedgerAck q s
  | .ledgerTimeMark => Sys2Proof.Machine.execLedgerTimeMark s
  | .krGenerate x => Sys2Proof.Machine.execKrGenerate x s
  | .krImportComponents x => Sys2Proof.Machine.execKrImportComponents x s
  | .krImportTransport x => Sys2Proof.Machine.execKrImportTransport x s
  | .krExport x => Sys2Proof.Machine.execKrExport x s
  | .krRevoke x => Sys2Proof.Machine.execKrRevoke x s
  | .krLoad x => Sys2Proof.Machine.execKrLoad x s
  | .krQuery x => Sys2Proof.Machine.execKrQuery x s
  | .kcValue x v => Sys2Proof.Machine.execKcValue x v s
  | .componentTimeout x => Sys2Proof.Machine.execComponentTimeout x s
  | .krSelftest => Sys2Proof.Machine.execKrSelftest s
  | .periodicSelftest => Sys2Proof.Machine.execPeriodicSelftest s
  | .entropyTestFailure => Sys2Proof.Machine.execEntropyTestFailure s
  | .krZeroiseAll x => Sys2Proof.Machine.execKrZeroiseAll x s
  | .drbgReseed => Sys2Proof.Machine.execDrbgReseed s
  | .imgEnrol x => Sys2Proof.Machine.execImgEnrol x s
  | .rbAdvance x kind => Sys2Proof.Machine.execRbAdvance x kind s
  | .physicalTamper det => Sys2Proof.Machine.execPhysicalTamper det s
  | .environmentalTamper det => Sys2Proof.Machine.execEnvironmentalTamper det s
  | .tamperClear det => Sys2Proof.Machine.execTamperClear det s
  | .mbxStatusSnapshot => Sys2Proof.Machine.execMbxStatusSnapshot s
  | .mbxMkaKeyDerivation => Sys2Proof.Machine.execMbxMkaKeyDerivation s
  | .mbxIcvCompute => Sys2Proof.Machine.execMbxIcvCompute s
  | .mbxIcvCheck => Sys2Proof.Machine.execMbxIcvCheck s
  | .mbxSakUnwrapLoad => Sys2Proof.Machine.execMbxSakUnwrapLoad s
  | .mbxSakGenerate => Sys2Proof.Machine.execMbxSakGenerate s
  | .mbxLedgerSignature => Sys2Proof.Machine.execMbxLedgerSignature s
  | .nvBurst => Sys2Proof.Machine.execNvBurst s
  | .nvBurstDone => Sys2Proof.Machine.execNvBurstDone s
  | .holdupTest => Sys2Proof.Machine.execHoldupTest s
  | .holdupTestDone nf => Sys2Proof.Machine.execHoldupTestDone nf s
  | .nvScrub corrected uncorrected => Sys2Proof.Machine.execNvScrub corrected uncorrected s
  | .nvwpChange low => Sys2Proof.Machine.execNvwpChange low s
  | .powerOn => Sys2Proof.Machine.execPowerOn s
  | .pinReset => Sys2Proof.Machine.execPinReset s
  | .powerFail => Sys2Proof.Machine.execPowerFail s
  | .brownOut => Sys2Proof.Machine.execBrownOut s
  | .startupStepEnd => Sys2Proof.Machine.execStartupStepEnd s
  | .startupStepExpiry => Sys2Proof.Machine.execStartupStepExpiry s
  | .pwrOperate => Sys2Proof.Machine.execPwrOperate s
  | .pwrStandby => Sys2Proof.Machine.execPwrStandby s
  | .pwrSleep => Sys2Proof.Machine.execPwrSleep s
  | .sleepEntryDone => Sys2Proof.Machine.execSleepEntryDone s
  | .softwareReset => Sys2Proof.Machine.execSoftwareReset s
  | .softwareResetRegister => Sys2Proof.Machine.execSoftwareResetRegister s
  | .coreRestart => Sys2Proof.Machine.execCoreRestart s
  | .wdtKick k v => Sys2Proof.Machine.execWdtKick k v s
  | .watchdogExpiry k => Sys2Proof.Machine.execWatchdogExpiry k s
  | .wakePin => Sys2Proof.Machine.execWakePin s
  | .canWake => Sys2Proof.Machine.execCanWake s
  | .wakeTimer => Sys2Proof.Machine.execWakeTimer s
  | .fwWrite v => Sys2Proof.Machine.execFwWrite v s
  | .fwWriteDone r => Sys2Proof.Machine.execFwWriteDone r s
  | .fwHandover v => Sys2Proof.Machine.execFwHandover v s
  | .fwConfirm v => Sys2Proof.Machine.execFwConfirm v s
  | .ptArm k => Sys2Proof.Machine.execPtArm k s
  | .ptStop k => Sys2Proof.Machine.execPtStop k s
  | .ptExpiry k => Sys2Proof.Machine.execPtExpiry k s
  | .pllLockLoss k => Sys2Proof.Machine.execPllLockLoss k s
  | .pllRefReturn k => Sys2Proof.Machine.execPllRefReturn k s
  | .dpAbsenceTimeout h => Sys2Proof.Machine.execDpAbsenceTimeout h s
  | .recalAttemptFailed k => Sys2Proof.Machine.execRecalAttemptFailed k s
  | .checkerLock k => Sys2Proof.Machine.execCheckerLock k s
  | .checkerLockLoss k => Sys2Proof.Machine.execCheckerLockLoss k s
  | .farEndSlip k => Sys2Proof.Machine.execFarEndSlip k s
  | .linkFaultReceived m => Sys2Proof.Machine.execLinkFaultReceived m s
  | .linkFaultCleared m => Sys2Proof.Machine.execLinkFaultCleared m s
  | .pcieLinkUp speed width => Sys2Proof.Machine.execPcieLinkUp speed width s
  | .memoryScrub ch corrected uncorrected => Sys2Proof.Machine.execMemoryScrub ch corrected uncorrected s
  | .nmtCommand k cmd => Sys2Proof.Machine.execNmtCommand k cmd s
  | .islandSelftestDone pass => Sys2Proof.Machine.execIslandSelftestDone pass s

end Sys2Proof.Machine
end

