-- ==== Sys2Proof/Safety.lean ====
section
/-!
DEFINITION. What counts as a sound state of the block: the clock inside its widths, the byte memories in canonical form,
no byte write left unapplied.
-/

namespace Sys2Proof.Machine

/-- The clock stands inside its widths: a 64-bit time base with a 28-bit fraction, an addend within ±500 ppm, a rank of
R40. -/
def Clock.sound (c : Clock) : Bool :=
  c.timebase < 2 ^ 64 && c.frac < 2 ^ 28 && 670753096 ≤ c.addend && c.addend ≤ 671424184 && c.rank ≤ 9

/-- What an effect sees in a state. -/
def State.env (s : State) : Env := ⟨s.clk, s.mem⟩

/-- The state with another block, and clock, memories and queue as they stand. -/
def State.become (s : State) (d : Dev) : State := { s with dev := d }

/-- The main domain is on when the command's rank is reached: not in SLEEP (R507). -/
def State.Awake (s : State) (r : Nat) : Prop := (s.enter r).dev.asleep = false

/-- The main domain is on, and the blocks that STANDBY stops run (R507). -/
def State.Running (s : State) (r : Nat) : Prop := (s.enter r).dev.asleep = false ∧ (s.enter r).dev.stopped = false

/-- The invariant every command keeps. -/
def State.Inv (s : State) : Prop := s.clk.sound = true ∧ s.mem.wf = true ∧ s.dev.posts = []

end Sys2Proof.Machine
end

