-- ==== Sys2Proof/Certificates/Slice0/Obligations.lean ====
section
/-!
DEFINITION. The statements for the provers. Where a statement speaks of the state that entered a command's rank, that is
`State.enter`: the tick closes first when it is past the rank, and what is due of itself registers on the way (R40).
-/

open Sys2Proof Sys2Proof.Machine

/-- A step takes the command at the front of the queue, and idles on an empty queue. For every command c, list rest and
state s, a step of s with the queue c :: rest is exec of c on s with the queue rest. The queue is the model's own form
(log entry 2). A step of a state whose queue is empty answers that state. The model's choice (log entry 2).
(02_time_and_order.md R41, 02_time_and_order.md R40) -/
def Obligations.StepTakesFrontCommandOrIdles : Prop :=
  (∀ (c : Instr) (rest : List Instr) (s : State),
    step { s with pending := c :: rest } = exec c { s with pending := rest }) ∧
  (∀ s : State, s.pending = [] → step s = .next s)

/-- No command stops the block, and none touches the queue. Every command answers a next state, in every state and with
every operand, and the queue of that state is the queue before; no command ends in a fault or a refusal. (00_scope.md
R9, 02_time_and_order.md R40) -/
def Obligations.EveryCommandAnswersAndKeepsTheQueue : Prop :=
  ∀ (c : Instr) (s : State), ∃ t, exec c s = .next t ∧ t.pending = s.pending ∧ (s.dev.posts = [] → t.dev.posts = [])

/-- Every step keeps the invariant. For every state in which the clock stands inside its widths (64-bit time base, 28-bit
fraction, TB_ADDEND within 500 ppm, rank at most 9), every byte memory is in canonical form and no posted write is
left, each command's step gives a state of which the same holds. (02_time_and_order.md R32, 02_time_and_order.md R40,
02_time_and_order.md R47) -/
def Obligations.StepKeepsInvariant : Prop :=
  ∀ s t : State, s.Inv → step s = .next t → t.Inv

/-- The state after reset: the invariant, and every object at its default. State.reset has a sound clock, memories in
canonical form and no posted write left. Every object stands at its default, the time base and the tick count at 0
with TB_ADDEND nominal, every ring DISABLED with no entry taken, every source IDLE, no session open, no staging entry
held, no command waiting, and no byte of the Pantry, the DRAM or the NV store written. (02_time_and_order.md R32,
02_time_and_order.md R38, 20_dictionary.md R414, 17_host.md R351) -/
def Obligations.ResetHoldsInvariantAndDefaults : Prop :=
  (State.reset.Inv) ∧
  ((∀ (o : Obj) (i : Nat), State.reset.dev.g o i = o.default i) ∧
  State.reset.clk.timebase = 0 ∧ State.reset.clk.elapsed = 0 ∧ State.reset.clk.addend = 0x28000000 ∧
  (∀ r : Nat, (State.reset.dev.ring r).st = .disabled ∧ (State.reset.dev.ring r).taken = []) ∧
  (∀ x : Nat, (State.reset.dev.src x).st = .idle) ∧
  (∀ k : Nat, State.reset.dev.isOpen k = false) ∧
  (∀ k : Nat, (State.reset.dev.stg k).entries = []) ∧
  State.reset.pending = [] ∧ State.reset.mem.pantry = [] ∧ State.reset.mem.dram = [] ∧ State.reset.mem.nv = [])

/-- The rank of R40 a command registers at, for every command that has one rank, no place inside it, and leaves the clock
otherwise alone. -/
def Sys2Proof.Instr.rank : Instr → Option Nat
  | .nvwpChange .. => some 0
  | .tamperClear .. => some 1
  | .powerFail => some 2
  | .pcieReset .. | .entropyTestFailure | .watchdogExpiry .. => some 3
  | .writeBackComplete .. | .receiveFrame .. | .frameCloseTimeout .. | .pathTimeout .. | .injectionTake ..
  | .injectionCopyDone .. | .generatorFrameDone .. | .sliceDecodeDone .. | .frameSync .. => some 4
  | .ptpEnable .. | .tickCapture | .stgOpen .. | .stgSeal .. | .stgSealHeld .. | .stgAbandon .. | .stg0Seal
  | .stg0Hold | .stg0Abandon | .take .. | .takeCancel .. | .salvoCopy .. | .salvoGo .. | .salvoCancel ..
  | .salvoClear .. | .engReadmit .. | .cdcReadmit .. | .bistForceFault .. | .headRetrain ..
  | .porterAbort .. | .porterResume .. | .laneRecal ..
  | .laneTest .. | .laneLoop .. | .laneInject .. | .checkerClear .. | .msTxAn .. | .ethLoop .. | .pcieLoop ..
  | .pantryWindowWrite .. | .ringEnable .. | .ringDisable .. | .ringReset .. | .ringClearError ..
  | .ringDescWrite .. | .doorbell .. | .dchEvacuate .. | .dchRetrain .. | .dchReadmit .. | .dchLoop ..
  | .inkMaskSet .. | .inkMaskClr .. | .inkPendSet .. | .inkPendClr .. | .inkFire .. | .inkComplete ..
  | .hqArm .. | .objectWrite .. | .assistTimeout .. | .openGo .. | .openResp .. | .openVerdict ..
  | .lockoutEnd .. | .sesClose .. | .sesKill .. | .sessionIdle .. | .busOff .. | .nmtResetNode ..
  | .nmtResetCommunication .. | .usdoSegment .. | .usdoAbort .. | .usdoTimeout .. | .dmbChallenge | .dmbRespond
  | .dmbClose | .lcStep .. | .lcRecover | .ledgerAck .. | .krGenerate .. | .krImportComponents ..
  | .krImportTransport .. | .krExport .. | .krRevoke .. | .krLoad .. | .krQuery .. | .kcValue ..
  | .componentTimeout .. | .krSelftest | .krZeroiseAll .. | .imgEnrol .. | .rbAdvance .. | .mbxStatusSnapshot
  | .mbxMkaKeyDerivation | .mbxIcvCompute | .mbxIcvCheck | .mbxSakUnwrapLoad | .mbxSakGenerate
  | .mbxLedgerSignature | .pwrOperate | .pwrStandby | .pwrSleep | .softwareReset | .coreRestart | .wdtKick ..
  | .fwWrite .. | .fwHandover .. | .fwConfirm .. | .ptArm .. | .ptStop .. | .ptExpiry .. | .nmtCommand .. => some 7
  | .latchedRead .. | .tsIdPop .. | .inkClaim .. | .holdRelease .. | .objectRead .. => some 8
  | .outputLine .. | .captureComplete .. | .sliceEncodeDone .. | .lateResponse .. | .engineBistStart ..
  | .bistAbandon .. | .codecBistStart .. | .engReadmitDone .. | .cdcReadmitDone .. | .packetDue ..
  | .latePacketHandover .. | .transmitFrame .. | .irqHpd .. | .unplug .. | .plug .. | .linkTrainingDone ..
  | .headRetry .. | .auxTimeout .. | .dpcdPoll .. | .pllLock .. | .pllRefLoss .. | .trackerLock ..
  | .duckBlock .. | .sampleMissing .. | .laneAttempt .. | .laneUp .. | .signalLoss .. | .quadPllLoss ..
  | .quadPllLock .. | .eqFreeze .. | .eqResume .. | .readaptation .. | .arpRefresh .. | .keyLoadComplete ..
  | .saRetire .. | .stripeMoved .. | .dchTrainingDone .. | .mr4Poll .. | .heartbeat .. | .ledgerTimeMark
  | .periodicSelftest | .drbgReseed | .nvBurstDone | .holdupTest | .holdupTestDone .. | .nvScrub ..
  | .startupStepEnd | .startupStepExpiry | .fwWriteDone .. | .pllLockLoss ..
  | .pllRefReturn .. | .dpAbsenceTimeout .. | .recalAttemptFailed .. | .checkerLock .. | .checkerLockLoss ..
  | .mixSample .. | .farEndSlip .. | .linkFaultReceived .. | .linkFaultCleared .. | .pcieLinkUp .. | .memoryScrub .. => some 9
  | .tick | .tickWrap | .servoHandoff .. | .stepGo | .tbAddend .. | .tickCaptureLatch
  | .entryFetch .. | .registerWrite .. | .lcFuseBurnt | .lcRecoverResult .. | .physicalTamper ..
  | .environmentalTamper .. | .nvBurst | .powerOn | .pinReset | .brownOut | .softwareResetRegister | .wakePin
  | .canWake | .wakeTimer | .islandSelftestDone .. | .sleepEntryDone | .engineHardFault .. | .engineBistResult ..
  | .codecBistResult .. | .codecFault .. | .holdoverTimeout | .sourceLoss .. | .portLoss .. | .flowLoss ..
  | .frameStart .. | .commitPoint .. | .porterNop .. | .porterCopy .. | .porterFill .. | .porterBlend ..
  | .porterCompletion .. => none

/-- The rank and the place inside it of a command that comes in an order of its own: events with a source number in
ascending number (R41), frame starts after commit points (R40), Porter's channels in ascending number before their
completions (R293). -/
def Sys2Proof.Instr.place : Instr → Option (Nat × Nat)
  | .engineHardFault k | .engineBistResult k _ => some (3, 0x080 + k)
  | .codecBistResult k _ | .codecFault k => some (3, 0x0A0 + k)
  | .holdoverTimeout => some (5, 0x070)
  | .sourceLoss k => some (5, 0x100 + k)
  | .portLoss k => some (5, 0x0D0 + k)
  | .flowLoss _ => some (5, 0x0E0)
  | .commitPoint _ => some (6, 0)
  | .frameStart _ => some (6, 1)
  | .porterNop k | .porterCopy k _ | .porterFill k _ | .porterBlend k _ => some (8, k)
  | .porterCompletion k _ => some (8, 4 + k)
  | _ => none

/-- Commands register at their rank, in rank order within a tick. After a command of rank r the block stands at rank r: of
the present tick when the tick had not passed r, otherwise of the next tick, which the command's arrival closes;
nothing else of the clock changes. The same holds of a command with a place inside its rank, which is then left as the
place reached; one whose place inside the rank has passed comes in the next tick. (02_time_and_order.md R40,
02_time_and_order.md R41) -/
def Obligations.CommandsRegisterAtTheirRank : Prop :=
  (∀ (c : Instr) (r : Nat) (s : State), c.rank = some r →
    ∃ t, exec c s = .next t ∧ t.clk = { (if r < s.clk.rank then s.clk.next else s.clk) with rank := r }) ∧
  (∀ (c : Instr) (r k : Nat) (s : State), c.place = some (r, k) →
    ∃ t, exec c s = .next t ∧
      t.clk = { (if r < s.clk.rank ∨ (s.clk.place / 1024 = r ∧ k < s.clk.place % 1024) then s.clk.next else s.clk) with
        rank := r, place := 1024 * r + k })

/-- A tick is 100 cycles of TB_ADDEND, the 48-bit counter wraps, and a capture latches the boundary. TICK ends the tick:
one tick more has passed, the rank starts again, and the time base with its 28-bit fraction has grown by 100 times
TB_ADDEND, modulo 2^64 ns. TICK_WRAP on the last tick of the counter ends the tick with the counter at 0 and, in a
block that is awake, with a firing of source 0x073 left for the tick that begins; on any other tick it changes
nothing. TICK_CAPTURE arms the capture and changes nothing else; while it is armed in a block that is awake,
TICK_CAPTURE_LATCH ends the tick, disarms it, and latches the tick and the time base with which the next tick begins;
while it is not, the command changes nothing. (02_time_and_order.md R32, 02_time_and_order.md R38,
02_time_and_order.md R45, 02_time_and_order.md R47) -/
def Obligations.TicksAdvanceTimeAndCounter : Prop :=
  ((∀ s : State, s.clk.frac < 2 ^ 28 → ∃ t, exec .tick s = .next t ∧
    t.clk.elapsed = s.clk.elapsed + 1 ∧ t.clk.rank = 0 ∧ t.clk.addend = s.clk.addend ∧
    t.clk.timebase * 2 ^ 28 + t.clk.frac = (s.clk.timebase * 2 ^ 28 + s.clk.frac + 100 * s.clk.addend) % 2 ^ 92) ∧
  (∀ s : State,
    (s.clk.tick = 2 ^ 48 - 1 → s.dev.asleep = false →
      ∃ t, exec .tickWrap s = .next t ∧ t.clk.tick = 0 ∧ t.clk.elapsed = s.clk.elapsed + 1 ∧ Late.fire 0x073 ∈ t.dev.late) ∧
    (s.clk.tick ≠ 2 ^ 48 - 1 → exec .tickWrap s = .next s))) ∧
  (∀ s : State,
    (s.Awake 7 → exec .tickCapture s =
      .next ((s.enter 7).become { (s.enter 7).dev with time := { (s.enter 7).dev.time with capArmed := true } })) ∧
    (s.dev.time.capArmed = true → s.dev.asleep = false → ((s.dev.due s.env s.clk.rank 9).rank9 s.env).time.capArmed = true →
      ∃ t, exec .tickCaptureLatch s = .next t ∧ t.dev.time.capArmed = false ∧
        t.dev.time.capTime = t.clk.timebase ∧ t.dev.time.capTick = t.clk.tick ∧ t.clk = s.clk.next) ∧
    (s.dev.time.capArmed = false → exec .tickCaptureLatch s = .next s))

/-- TB_ADDEND, STEP_GO and the servo's results on the time base. A write of TB_ADDEND leaves the value clamped to the
range of 500 ppm about nominal and changes nothing else. STEP_GO in ACQUIRING adds the signed 64-bit step amount to
the time base, leaves the tick count alone and raises source 0x072; in any other state it changes nothing.
SERVO_HANDOFF: with PTP enabled, a master selected in FREE or HOLDOVER and a grandmaster change in LOCKED enter
ACQUIRING; the sixteenth sync in a row within 1 us enters LOCKED; every sync of the master leaves its offset, clamped
to 32 bits, in offset_last, and steps the time base with source 0x072 where it is the first since the selection in
ACQUIRING and above step_threshold, and otherwise answers with a new TB_ADDEND within 500 ppm, a free value, alone;
with PTP disabled a selection changes nothing; a rejected message fires source 0x074 and nothing else.
HOLDOVER_TIMEOUT past the timeout leaves LOCKED for HOLDOVER, and ACQUIRING for FREE where it was entered from FREE.
Each change of state fires source 0x070. (02_time_and_order.md R35, 02_time_and_order.md R47, 02_time_and_order.md
R34) -/
def Obligations.TimeBaseFollowsItsServo : Prop :=
  (∀ s : State, s.Awake 7 →
    (∀ v : Nat, v < 2 ^ 32 → exec (.tbAddend v) s = .next { s.enter 7 with clk := { (s.enter 7).clk with
      addend := if v < 670753096 then 670753096 else if 671424184 < v then 671424184 else v } }) ∧
    ((s.enter 7).dev.g .tbState = 1 → ∃ t, exec .stepGo s = .next t ∧
      t.clk = { (s.enter 7).clk with timebase := ofInt 64 ((s.enter 7).clk.timebase +
        asInt 64 ((s.enter 7).dev.reg 0x1000C + (s.enter 7).dev.reg 0x10010 * 2 ^ 32)) } ∧
      Late.fire 0x072 ∈ t.dev.late ∧ t.mem = (s.enter 7).mem) ∧
    ((s.enter 7).dev.g .tbState ≠ 1 → exec .stepGo s = .next (s.enter 7))) ∧
  (∀ s : State,
    (s.Awake 9 →
      let u := s.enter 9
      let d := u.dev
      (exec (.servoHandoff .rejected) s = .next (u.become (d.fire 0x074))) ∧
      (d.on .ptpEnable = false → exec (.servoHandoff .selected) s = .next u) ∧
      (d.on .ptpEnable = true → (d.g .tbState = 0 ∨ d.g .tbState = 3) →
        ∃ t, exec (.servoHandoff .selected) s = .next t ∧ t.dev.g .tbState = 1 ∧ Late.fire 0x070 ∈ t.dev.late ∧ t.clk = u.clk) ∧
      (d.on .ptpEnable = true → d.g .tbState = 2 →
        ∃ t, exec (.servoHandoff .grandmaster) s = .next t ∧ t.dev.g .tbState = 1 ∧
          Late.fire 0x071 ∈ t.dev.late ∧ Late.fire 0x070 ∈ t.dev.late ∧ t.clk = u.clk) ∧
      (∀ off : Int, d.on .ptpEnable = true → d.time.master = true → d.g .tbState = 1 → d.time.fresh = false →
        off.natAbs ≤ 1000 → d.time.run = 15 → ∃ t, exec (.servoHandoff (.sync off)) s = .next t ∧
          t.dev.g .tbState = 2 ∧ Late.fire 0x070 ∈ t.dev.late) ∧
      (∀ off : Int, d.on .ptpEnable = true → d.time.master = true → ∃ t, exec (.servoHandoff (.sync off)) s = .next t ∧
        t.dev.g .offsetLast = ofInt 32 (clampInt (-(2 ^ 31)) (2 ^ 31 - 1) off) ∧
        let steps : Prop := d.g .tbState = 1 ∧ d.time.fresh = true ∧ d.g .stepThreshold < off.natAbs
        (steps → t.clk = { u.clk with timebase := ofInt 64 (u.clk.timebase - off) } ∧ Late.fire 0x072 ∈ t.dev.late) ∧
        (¬steps → t.clk = { u.clk with addend := t.clk.addend } ∧
          670753096 ≤ t.clk.addend ∧ t.clk.addend ≤ 671424184))) ∧
    ((s.ordered 5 0x070).Awake 5 →
      let u := (s.ordered 5 0x070).enter 5
      let d := u.dev
      d.time.lastSync + d.g .holdoverTimeout * 4000 < u.clk.elapsed →
        (d.g .tbState = 2 → ∃ t, exec .holdoverTimeout s = .next t ∧ t.dev.g .tbState = 3 ∧ Late.fire 0x070 ∈ t.dev.late) ∧
        (d.g .tbState = 1 → d.time.acqFromFree = true →
          ∃ t, exec .holdoverTimeout s = .next t ∧ t.dev.g .tbState = 0 ∧ Late.fire 0x070 ∈ t.dev.late)))

/-- RING_ENABLE checks and caches the descriptor. Outside QUARANTINE: a ring that is not DISABLED is left as it is with
0x03A0; a DISABLED ring whose descriptor has an invalid field with 0x023D; one whose arrays leave their location with
0x0601; one named by a consumer of another kind, or by a host event queue while it is core-owned or in the core area,
with 0x03A1; otherwise the ring is ENABLED with the descriptor of the table as its copy, its indices and taken entries
unchanged, and the code is 0. In each case the code is left in RING_CMD_STATUS and nothing else changes. (17_host.md
R351, 17_host.md R352, 17_host.md R349) -/
def Obligations.RingEnableCachesTheDescriptor : Prop :=
  ∀ (s : State) (r : Nat), s.Awake 7 → (s.enter 7).dev.quarantine = false →
    let u := s.enter 7
    let d := u.dev
    let ws := d.desc r
    let left (code : Nat) (d : Dev) : Host.Outcome State Fault Refusal :=
      .next (u.become ((d.putReg 0x30004 code).answerCode code))
    ((d.ring r).st ≠ .disabled → exec (.ringEnable r) s = left 0x03A0 d) ∧
    ((d.ring r).st = .disabled → descValid ws = false → exec (.ringEnable r) s = left 0x023D d) ∧
    ((d.ring r).st = .disabled → descValid ws = true → d.descFits ws = false → exec (.ringEnable r) s = left 0x0601 d) ∧
    ((d.ring r).st = .disabled → descValid ws = true → d.descFits ws = true →
      ((∃ k ∈ d.consumerKinds r, k ≠ descKind ws) ∨
        (d.queuesNaming r ≠ [] ∧ (descCores ws = true ∨ descLoc ws = 2))) → exec (.ringEnable r) s = left 0x03A1 d) ∧
    ((d.ring r).st = .disabled → descValid ws = true → d.descFits ws = true →
      (∀ k ∈ d.consumerKinds r, k = descKind ws) → (d.queuesNaming r = [] ∨ (descCores ws = false ∧ descLoc ws ≠ 2)) →
      exec (.ringEnable r) s = left 0 (d.putRing r { d.ring r with st := .enabled, cached := ws }))

/-- RING_DISABLE, RING_RESET, RING_CLEAR_ERROR and the descriptor window. Outside QUARANTINE, disable of a ring that is
ENABLED or in ERROR makes it DISABLED, with the entries taken and the indices as they stand, and closes the sessions
bound to it; reset of a DISABLED ring sets P and C to 0; clear error of a ring in ERROR makes it ENABLED. In any other
state of the ring each leaves 0x03A0 and changes nothing else. The code is left in RING_CMD_STATUS. RING_DESC_WRITE
writes one 32-bit word of the descriptor of the ring RING_SEL selects while that ring is DISABLED; otherwise the write
is dropped with RING_CMD_STATUS 0x03A0. Nothing else changes. (17_host.md R351, 17_host.md R352, 20_dictionary.md
R420, 17_host.md R349) -/
def Obligations.RingCommandsChangeTheirRing : Prop :=
  (∀ (s : State) (r : Nat), s.Awake 7 → (s.enter 7).dev.quarantine = false →
    let u := s.enter 7
    let d := u.dev
    let left (code : Nat) (d : Dev) : Host.Outcome State Fault Refusal :=
      .next (u.become ((d.putReg 0x30004 code).answerCode code))
    ((d.ring r).st = .disabled → exec (.ringDisable r) s = left 0x03A0 d) ∧
    ((d.ring r).st ≠ .disabled → d.sessionOf (.ring r) = none →
      exec (.ringDisable r) s = left 0 (d.putRing r { d.ring r with st := .disabled })) ∧
    ((d.ring r).st ≠ .disabled → ∃ t, exec (.ringDisable r) s = .next t ∧
      (t.dev.ring r).st = .disabled ∧ (t.dev.ring r).p = (d.ring r).p ∧ (t.dev.ring r).c = (d.ring r).c ∧
      (t.dev.ring r).taken = (d.ring r).taken ∧ t.dev.sessionOf (.ring r) = none) ∧
    ((d.ring r).st ≠ .disabled → exec (.ringReset r) s = left 0x03A0 d) ∧
    ((d.ring r).st = .disabled → exec (.ringReset r) s = left 0 (d.putRing r { d.ring r with p := 0, c := 0 })) ∧
    ((d.ring r).st ≠ .error → exec (.ringClearError r) s = left 0x03A0 d) ∧
    ((d.ring r).st = .error → exec (.ringClearError r) s = left 0 (d.putRing r { d.ring r with st := .enabled }))) ∧
  (∀ (s : State) (k v : Nat), s.Awake 7 → k < 16 →
    let u := s.enter 7
    let d := u.dev
    let r := d.reg 0x30008 % 65536
    ((d.ring r).st ≠ .disabled →
      exec (.ringDescWrite k v) s = .next (u.become ((d.putReg 0x30004 0x03A0).answerCode 0x03A0))) ∧
    ((d.ring r).st = .disabled → ∃ t, exec (.ringDescWrite k v) s = .next t ∧ t.clk = u.clk ∧ t.mem = u.mem ∧
      t.dev.rings = d.rings ∧ t.dev.objs = d.objs ∧ t.dev.reg 0x30004 = 0 ∧
      ((d.desc r).length = 16 → descWord (t.dev.desc r) k = v % 2 ^ 32) ∧
      (∀ j, j ≠ k → descWord (t.dev.desc r) j = descWord (d.desc r) j) ∧
      ∀ r', r' ≠ r → t.dev.desc r' = d.desc r'))

/-- A doorbell moves P, or C of an event ring, or is rejected and counted. Outside QUARANTINE, with byte enables of
exactly 4 or 8 bytes: a doorbell from the ring's owner whose upper word is 0, to a ring that is not DISABLED, becomes
P when (index - C) mod 2^32 is at most 2^n, and for an event ring becomes C when (index - C) mod 2^32 is at most the
entries held; otherwise pcie_db_rejects counts it and bit 1 of the group's flags is set, both at rank 9. With any
other byte enables it is dropped without being counted. (17_host.md R353) -/
def Obligations.DoorbellMovesAnIndex : Prop :=
  ∀ (s : State) (w : Who) (r v be : Nat), s.Awake 7 → (s.enter 7).dev.quarantine = false →
    let u := s.enter 7
    let d := u.dev
    let c := d.ring r
    let x := v % 2 ^ 32
    let hi := if be = 0xFF then v / 2 ^ 32 % 2 ^ 32 else 0
    let owner := match w with
      | .host => descCores c.cached = false
      | .core _ => descCores c.cached = true
    let far := if descKind c.cached = 4 then (c.p + 2 ^ 32 - c.c) % 2 ^ 32 else 2 ^ descN c.cached
    ((be ≠ 0xF ∧ be ≠ 0xFF) → exec (.doorbell w r v be) s = .next u) ∧
    ((be = 0xF ∨ be = 0xFF) → hi = 0 → c.st ≠ .disabled → owner → (x + 2 ^ 32 - c.c) % 2 ^ 32 ≤ far →
      exec (.doorbell w r v be) s =
        .next (u.become (d.putRing r (if descKind c.cached = 4 then { c with c := x } else { c with p := x })))) ∧
    ((be = 0xF ∨ be = 0xFF) → (hi ≠ 0 ∨ c.st = .disabled ∨ ¬owner ∨ far < (x + 2 ^ 32 - c.c) % 2 ^ 32) →
      exec (.doorbell w r v be) s = .next (u.become
        ((d.count .pcieDbRejects).later (.groupFlag (descGroup (d.descInForce r)) 2))))

/-- Fetching an entry takes it and adds 1 to C; a failed read takes nothing. For an ENABLED ring of Porter commands that
holds an entry, with its consumer ready: a read that answers takes the entry at C with the 64 bytes it read and adds 1
to C modulo 2^32; the new C is written to the index write-back where the ring has one, and no other byte of memory
changes. A read that fails takes nothing and leaves C: the ring enters ERROR, with bit 2 of the group's flags and, for
a ring in host memory, pcie_read_fails and bit 2 of pcie_event_flags at rank 9. For an entry a block took ahead of its
read, which no frame under way waits for, the bytes read are kept with it, and a read that fails gives it back: C goes
back by 1, the entry is no longer taken, and the ring enters ERROR. An entry of a mailbox ring to which no session is
bound is taken and completed. (17_host.md R354, 17_host.md R355, 14_porter.md R278, 04_arrivals.md R76) -/
def Obligations.EntryFetchTakesTheHead : Prop :=
  ∀ (s : State) (r : Nat) (bytes : List Byte),
    let u := s.enter (if s.dev.fetchReads s.env r bytes then 8 else 7)
    u.dev.asleep = false →
    let d := u.dev
    let c := d.ring r
    let n := (c.c + 1) % 2 ^ 32
    let back := d.locAt (descLoc c.cached) (descIdxWb c.cached)
    let idle (x : Taken) : Prop :=
      (∀ a j, (d.arr a).inject = some j → ¬(j.ring = r ∧ j.entry.index = x.index)) ∧
      ∀ m y, m < 128 → (d.dep m).capture = some y → y.ring = r → y.index = x.index →
        ¬((d.dep m).composing = true ∧ (d.dep m).frame = y.frame)
    (d.entryPending r = none → c.st = .enabled → c.p ≠ c.c → d.consumerReady r = true → descKind c.cached = 1 →
        (∃ t, exec (.entryFetch r bytes true) s = .next t ∧
          t.dev = d.putRing r { c with c := n, taken := c.taken ++ [⟨c.c, d.entryBytes u.env r bytes⟩] } ∧
          (descIdxWb c.cached ≠ 0 → ∀ k, k < 4 → t.mem.read back.1 (back.2 + k) = (leBytes 4 n).getD k 0) ∧
          ∀ (sp : Space) (a : Nat), ¬(descIdxWb c.cached ≠ 0 ∧ sp = back.1 ∧ back.2 ≤ a ∧ a < back.2 + 4) →
            t.mem.read sp a = u.mem.read sp a) ∧
        let failed := (d.putRing r { c with st := .error }).later (.groupFlag (descGroup c.cached) 4)
        exec (.entryFetch r bytes false) s = .next (u.become (if descLoc c.cached = 0 then
          (failed.count .pcieReadFails).flag .pcieEventFlags 0 2 else failed))) ∧
    (∀ x : Taken, d.entryPending r = some x → idle x →
      (descIdxWb c.cached = 0 → exec (.entryFetch r bytes true) s =
        .next (u.become (d.putRing r { c with taken := c.taken.map fun y =>
          if y.index = x.index then { y with bytes := padTo 64 (bytes.take 64) } else y }))) ∧
      ∃ t, exec (.entryFetch r bytes false) s = .next t ∧ (t.dev.ring r).st = .error ∧
        (t.dev.ring r).c = (c.c + 2 ^ 32 - 1) % 2 ^ 32 ∧ (t.dev.ring r).p = c.p ∧
        (t.dev.ring r).taken = (c.taken.filter fun y => y.index != x.index) ∧ t.mem = u.mem) ∧
    (d.entryPending r = none → c.st = .enabled → c.p ≠ c.c → descKind c.cached = 5 → c.taken = [] →
      d.sessionOf (.ring r) = none → (d.entryBytes u.env r bytes).length = 64 →
        ∃ t, exec (.entryFetch r bytes true) s = .next t ∧ (t.dev.ring r).c = n ∧ (t.dev.ring r).taken = [] ∧
          (t.dev.ring r).st = .enabled)

/-- The Pantry window and the events of the endpoint. Outside QUARANTINE a write that lies within the ring partition or
within Porter's scratch stores its bytes there and leaves every other byte of every memory as it was, and the block
too; a write of the 48 MiB window that lies within neither is dropped, counted in pcie_bar4_drops with bit 4 of
pcie_event_flags at rank 9; a write past 48 MiB changes nothing. PCIE_RESET of any kind leaves every host-owned ring
DISABLED and every core-owned ring as it was, returns the MSI-X masks and the PBA to their reset values, and counts
pcie_flrs with bit 1 of pcie_event_flags at rank 9. PCIE_LINK_UP puts speed and width and sets bit 0. PCIE_LOOP writes
pcie_loop where the object takes the value, and answers its code. (17_host.md R344, 18_fabric_memory.md R372,
17_host.md R347, 17_host.md R348, 17_host.md R362) -/
def Obligations.WindowsAndEndpoint : Prop :=
  (∀ (s : State) (o : Nat) (bs : List Byte), s.Awake 7 → (s.enter 7).dev.quarantine = false →
    let u := s.enter 7
    let d := u.dev
    let inside := withinPart o bs.length d.ringPart = true ∨ withinPart o bs.length d.scratchPart = true
    (o < 50331648 → inside → ∃ t, exec (.pantryWindowWrite o bs) s = .next t ∧ t.dev = d ∧ t.clk = u.clk ∧
      (∀ k, k < bs.length → t.mem.read .pantry (o + k) = bs.getD k 0) ∧
      ∀ (sp : Space) (a : Nat), ¬(sp = .pantry ∧ o ≤ a ∧ a < o + bs.length) → t.mem.read sp a = u.mem.read sp a) ∧
    (o < 50331648 → ¬inside →
      exec (.pantryWindowWrite o bs) s = .next (u.become ((d.count .pcieBar4Drops).flag .pcieEventFlags 0 4))) ∧
    (50331648 ≤ o → exec (.pantryWindowWrite o bs) s = .next u)) ∧
  ((∀ (s : State) (kind : Nat), s.Awake 3 → ∃ t, exec (.pcieReset kind) s = .next t ∧
    (∀ r, descCores ((s.enter 3).dev.ring r).cached = false → (t.dev.ring r).st = .disabled) ∧
    (∀ r, descCores ((s.enter 3).dev.ring r).cached = true → (t.dev.ring r).st = ((s.enter 3).dev.ring r).st) ∧
    t.dev.ink.msixMasked = [] ∧ t.dev.ink.msixPba = [] ∧
    Late.add .pcieFlrs 0 1 ∈ t.dev.late ∧ Late.flag .pcieEventFlags 0 2 ∈ t.dev.late) ∧
  (∀ (s : State) (speed width : Nat), s.Awake 9 → exec (.pcieLinkUp speed width) s =
    .next ((s.enter 9).become ((((s.enter 9).dev.put .pcieLinkSpeed 0 speed).put .pcieLinkWidth 0 width).flag
      .pcieEventFlags 0 0))) ∧
  (∀ (s : State) (v : Nat), s.Awake 7 → v ≤ 3 → (s.enter 7).dev.keepFails .pcieLoop 0 v [] = 0 →
    ∃ t, exec (.pcieLoop v) s = .next t ∧ t.dev.answer.code = 0 ∧ t.dev.g .pcieLoop = v))

/-- INK_PEND_SET, INK_PEND_CLR and the mask writes name their sources and no other. INK_PEND_SET makes a named IDLE source
PENDING with count 0 and SOFT, sets SOFT on a PENDING one, makes a HELD one PENDING and SOFT, and leaves an ACTIVE
one; INK_PEND_CLR returns a named PENDING or HELD source to IDLE with count and SOFT discarded, and leaves an ACTIVE
or IDLE one. Every other source, every hold and every core's stack stand; neither is a firing. For any bits, masks of
sources not named stand, and no source changes its state, count or flags. For one named source whose mask the NV store
can keep (the check of R411 step 7 passes), the mask becomes 1 by INK_MASK_SET and 0 by INK_MASK_CLR. (19_innkeeper.md
R388, 19_innkeeper.md R390, 20_dictionary.md R416) -/
def Obligations.PendingBitsAndMasks : Prop :=
  (∀ (s : State) (w bits : Nat), s.Awake 7 →
    let u := s.enter 7
    let d := u.dev
    let now := u.clk.elapsed
    let named (x : Nat) : Prop := x / 32 = w ∧ bits.testBit (x % 32) = true
    (∃ t, exec (.inkPendSet w bits) s = .next t ∧ t.clk = u.clk ∧ t.mem = u.mem ∧ t.dev.late = d.late ∧
      t.dev.ink.holds = d.ink.holds ∧ t.dev.ink.cores = d.ink.cores ∧
      (∀ x, ¬named x → t.dev.src x = d.src x) ∧
      ∀ x, named x → t.dev.src x = (match (d.src x).st with
        | .idle => { d.src x with st := .pending, count := 0, soft := true, fromHold := false,
                                  first := now, last := now, since := now }
        | .pending => { d.src x with soft := true }
        | .held => { d.src x with st := .pending, soft := true, since := now }
        | .active => d.src x)) ∧
    (∃ t, exec (.inkPendClr w bits) s = .next t ∧ t.clk = u.clk ∧ t.mem = u.mem ∧ t.dev.late = d.late ∧
      t.dev.ink.holds = d.ink.holds ∧ t.dev.ink.cores = d.ink.cores ∧
      (∀ x, ¬named x → t.dev.src x = d.src x) ∧
      ∀ x, named x → t.dev.src x = (match (d.src x).st with
        | .pending | .held => {}
        | .idle | .active => d.src x))) ∧
  (∀ (s : State) (w bits : Nat), s.Awake 7 →
    let d := (s.enter 7).dev
    (∃ t, exec (.inkMaskSet w bits) s = .next t ∧ (∀ x, t.dev.src x = d.src x) ∧ t.dev.ink = d.ink ∧
      (∀ x, ¬(x / 32 = w ∧ bits.testBit (x % 32) = true) → t.dev.g .srcMask x = d.g .srcMask x) ∧
      ∀ b, b < 32 → bits = 2 ^ b → d.keepFails .srcMask (32 * w + b) 1 [] = 0 → t.dev.g .srcMask (32 * w + b) = 1) ∧
    (∃ t, exec (.inkMaskClr w bits) s = .next t ∧ (∀ x, t.dev.src x = d.src x) ∧ t.dev.ink = d.ink ∧
      (∀ x, ¬(x / 32 = w ∧ bits.testBit (x % 32) = true) → t.dev.g .srcMask x = d.g .srcMask x) ∧
      ∀ b, b < 32 → bits = 2 ^ b → d.keepFails .srcMask (32 * w + b) 0 [] = 0 → t.dev.g .srcMask (32 * w + b) = 0))

/-- INK_FIRE, INK_CLAIM and HQ_ARM. INK_FIRE leaves a firing of the source for rank 9. INK_CLAIM reads 0 when the core,
after the tick's delivery pass, is presented nothing; otherwise the source presented becomes ACTIVE on top of the
core's stack at its priority, with the word of R396 read and tgt_claims counted. HQ_ARM arms the queues its bits name
and no other; in QUARANTINE it is dropped, counted and fires source 0x2BA. (19_innkeeper.md R391, 19_innkeeper.md
R396, 19_innkeeper.md R403, 19_innkeeper.md R408) -/
def Obligations.FiringsClaimsAndArming : Prop :=
  ∀ s : State,
    (∀ x : Nat, s.Awake 7 → exec (.inkFire x) s =
      .next ((s.enter 7).become { (s.enter 7).dev with late := (s.enter 7).dev.late ++ [.fire x] })) ∧
    (∀ c : Nat, s.Awake 8 →
      let v := (s.enter 8).run fun e d => d.passOnce e.now
      let d := v.dev
      ((d.core c).presented = none → exec (.inkClaim c) s = .next (v.become (d.answerWord 0))) ∧
      ∀ x : Nat, (d.core c).presented = some x → exec (.inkClaim c) s =
        .next (v.become ((((d.putSrc x { st := .active }).putCore c
          { stack := (x, d.g .srcPrio x) :: (d.core c).stack, presented := none }).count .tgtClaims c).answerWord
            (x + 2 ^ 14 + 2 ^ 15 * b2n (d.src x).soft + 2 ^ 16 * (d.src x).count)))) ∧
    (∀ bits : Nat, s.Awake 7 → (s.enter 7).dev.quarantine = true → exec (.hqArm bits) s = .next ((s.enter 7).become
      { (s.enter 7).dev with late := (s.enter 7).dev.late ++ [.add .pcieBar0Drops 0 1, .fire 0x2BA] })) ∧
    (∀ bits : Nat, s.Awake 7 → (s.enter 7).dev.quarantine = false → ∃ t, exec (.hqArm bits) s = .next t ∧
      t.dev = { (s.enter 7).dev with objs := t.dev.objs } ∧
      (∀ q, q < 16 → t.dev.g .hqArmed q = if bits.testBit q then 1 else (s.enter 7).dev.g .hqArmed q) ∧
      ∀ (o : Obj) (i : Nat), o ≠ .hqArmed → t.dev.g o i = (s.enter 7).dev.g o i)

/-- INK_COMPLETE takes an active source off its core's stack, or is counted as bad. INK_COMPLETE of a source ACTIVE on the
core returns the source to IDLE and takes it off the core's stack wherever it lies in it; the running priority is then
that of the most recent source still active, or 0x100 with none; the other sources and cores stand. Of any other
source (never claimed, completed before, active on another core) it changes nothing and adds 1 to ink_bad_complete.
(19_innkeeper.md R397) -/
def Obligations.CompletionsLeaveTheStack : Prop :=
  ∀ (s : State) (c x : Nat), s.Awake 7 →
    let u := s.enter 7
    let d := u.dev
    ((∀ p ∈ (d.core c).stack, p.1 ≠ x) → exec (.inkComplete c x) s = .next (u.become (d.count .inkBadComplete))) ∧
    ((∃ p ∈ (d.core c).stack, p.1 = x) → ∃ t, exec (.inkComplete c x) s = .next t ∧ t.clk = u.clk ∧ t.mem = u.mem ∧
      (t.dev.src x).st = .idle ∧
      (t.dev.core c).stack = ((d.core c).stack.filter fun p => p.1 != x) ∧
      (c < 4 → x < 1024 → t.dev.g .tgtRunning c = match (d.core c).stack.filter fun p => p.1 != x with
        | [] => 0x100
        | p :: _ => p.2 % 2 ^ 16) ∧
      (∀ y, y ≠ x → t.dev.src y = d.src y) ∧ (∀ n, n ≠ c → t.dev.core n = d.core n))

/-- HOLD_RELEASE releases a hold that is due, and only then. A hold of a group releases once the firings since it opened
have reached the group's K or the tick has reached H + T, never in the tick it opened: the hold closes, cg_hold reads
0, and the sources HELD in the group become PENDING from the hold. A hold that is not due, or not open, stands.
(19_innkeeper.md R399) -/
def Obligations.HoldsReleaseWhenDue : Prop :=
  ∀ (s : State) (g : Nat), s.Awake 8 →
    let u := s.enter 8
    let d := u.dev
    let now := u.clk.elapsed
    (d.ink.holds.find g = none → exec (.holdRelease g) s = .next u) ∧
    (∀ h : Hold, d.ink.holds.find g = some h →
      let due := h.opened < now ∧ (d.g .cgCount g ≤ h.firings ∨ h.opened + d.g .cgTime g ≤ now)
      (¬due → exec (.holdRelease g) s = .next u) ∧
      (due → ∃ t, exec (.holdRelease g) s = .next t ∧ t.clk = u.clk ∧ t.mem = u.mem ∧ t.dev.late = d.late ∧
        t.dev.ink.holds.find g = none ∧ t.dev.g .cgHold g = 0 ∧
        (∀ g', g' ≠ g → t.dev.ink.holds.find g' = d.ink.holds.find g') ∧
        (∀ x, d.g .srcCgroup x ≠ g → t.dev.src x = d.src x) ∧
        (∀ x, (d.src x).st = .held → d.g .srcCgroup x = g →
          t.dev.src x = { d.src x with st := .pending, fromHold := true, since := now })))

/-- A flag bit that goes from 0 to 1 fires its source once, and writing 1 clears it. At rank 9 the bits of a flag word are
set and the others stand; each bit that was 0 fires the word's source once, a bit that was already 1 fires nothing. A
write of 1 to a bit clears that bit and no other. (19_innkeeper.md R388, 19_innkeeper.md R389, 02_time_and_order.md
R41, 00_scope.md R7) -/
def Obligations.FlagBitsFireTheirSource : Prop :=
  (∀ (d : Dev) (o : Obj) (i bits x : Nat), o.info.ty.width = 32 → bits < 2 ^ 32 → flagSource o i = some x → o ≠ .krEventFlags →
    let r := d.register (.flag o i bits)
    (∀ b, b < 32 → ((r.1.g o i).testBit b = (((d.g o i) % 2 ^ 32).testBit b || bits.testBit b))) ∧
    (∀ y ∈ r.2, y = x) ∧
    r.2.length = ((List.range 32).filter fun b => bits.testBit b && !(d.g o i).testBit b).length) ∧
  (∀ (d : Dev) (o : Obj) (i bits b : Nat), o.info.ty.width = 32 → b < 32 →
    ((d.clearFlags o i bits).g o i).testBit b = ((d.g o i).testBit b && !bits.testBit b))

/-- LANE_ATTEMPT, LANE_RECAL and RECAL_ATTEMPT_FAILED. LANE_ATTEMPT on an Ethernet lane in ACQUIRING or NO_PARTNER whose
last start is 100 ms past counts lane_attempts, returns CDR, CTLE and DFE to their start values and dates the next
start 100 ms on; the sixth start of a cycle moves an ACQUIRING lane to NO_PARTNER with cause 4, bits 0 and 1. On any
other lane, or before its time, it changes nothing. On an Ethernet lane that is UP or NO_PARTNER the lane enters RECAL
with cause 7 from start values, one attempt counted, and the code is 0; on any other lane the write is refused with
0x0397 and changes nothing. An attempt begun in an earlier tick that ends without UP moves a lane in RECAL to
ACQUIRING, its attempts as they stand; in the tick of its start, or in any other state, the command changes nothing.
(15_lanes.md R304, 15_lanes.md R306, 15_lanes.md R308, 15_lanes.md R312) -/
def Obligations.LaneAttemptsAndRecalibration : Prop :=
  (∀ (s : State) (i : Nat), s.Awake 9 →
    let u := s.enter 9
    let d := u.dev
    let c := d.lane i
    let starts : Prop := d.g .laneProto i = 1 ∧ (d.g .laneState i = 1 ∨ d.g .laneState i = 3) ∧ c.last + 400000 ≤ u.clk.elapsed
    let d' := (d.putLane i { c with last := c.last + 400000, starts := c.starts + 1, cdr := false, block := false,
                                    ctle := 0, dfe := [] }).count .laneAttempts i
    (¬starts → exec (.laneAttempt i) s = .next u) ∧
    (starts → c.starts ≠ 5 → exec (.laneAttempt i) s = .next (u.become d')) ∧
    (starts → c.starts = 5 → d.g .laneState i = 1 → exec (.laneAttempt i) s =
      .next (u.become ((((d'.put .laneState i 3).put .laneCause i 4).flag .laneEventFlags i 0).flag .laneEventFlags i 1))) ∧
    (starts → c.starts = 5 → d.g .laneState i = 3 → exec (.laneAttempt i) s = .next (u.become d'))) ∧
  ((∀ (s : State) (i : Nat), s.Awake 7 →
    let u := s.enter 7
    let d := u.dev
    let may : Prop := d.g .laneProto i = 1 ∧ (d.g .laneState i = 2 ∨ d.g .laneState i = 3)
    (¬may → exec (.laneRecal i) s = .next (u.become (d.answerCode 0x0397))) ∧
    (may → ∃ t, exec (.laneRecal i) s = .next t ∧ t.clk = u.clk ∧ t.mem = u.mem ∧ t.dev.answer.code = 0 ∧
      t.dev.g .laneState i = 5 ∧ t.dev.g .laneCause i = 7 ∧ Late.add .laneAttempts i 1 ∈ t.dev.late ∧
      (t.dev.lane i).since = u.clk.elapsed ∧ (t.dev.lane i).starts = 1 ∧ (t.dev.lane i).cdr = false ∧
      ∀ j, j ≠ i → t.dev.lane j = d.lane j ∧ t.dev.g .laneState j = d.g .laneState j)) ∧
  (∀ (s : State) (i : Nat), s.Awake 9 →
    let u := s.enter 9
    let d := u.dev
    let ends : Prop := d.g .laneState i = 5 ∧ (d.lane i).last < u.clk.elapsed
    (¬ends → exec (.recalAttemptFailed i) s = .next u) ∧
    (ends → exec (.recalAttemptFailed i) s =
      .next (u.become (((d.put .laneState i 1).put .laneCause i 7).flag .laneEventFlags i 0)))))

/-- An attempt that reaches block lock is UP; an UP lane that loses its signal seeks again. LANE_UP on an Ethernet lane in
ACQUIRING, NO_PARTNER or RECAL, after the tick in which its attempt started and within the 80 ms of the attempt's
steps, makes it UP with cause 5, CDR and block lock held and the equaliser not frozen; otherwise it changes nothing.
SIGNAL_LOSS on an UP Ethernet lane makes it ACQUIRING with cause 2, its first attempt started and counted; on any
other lane the state stands. The equaliser's settings are free values. (15_lanes.md R304, 15_lanes.md R306,
15_lanes.md R307) -/
def Obligations.LaneReachesUpAndLosesIt : Prop :=
  ∀ (s : State) (i : Nat), s.Awake 9 →
    let u := s.enter 9
    let d := u.dev
    let up : Prop := d.g .laneProto i = 1 ∧ (d.g .laneState i = 1 ∨ d.g .laneState i = 3 ∨ d.g .laneState i = 5) ∧
      (d.lane i).last < u.clk.elapsed ∧ u.clk.elapsed ≤ (d.lane i).last + 320000
    let lost : Prop := d.g .laneProto i = 1 ∧ d.g .laneState i = 2
    (¬up → exec (.laneUp i) s = .next u) ∧
    (up → ∃ t, exec (.laneUp i) s = .next t ∧ t.clk = u.clk ∧ t.mem = u.mem ∧
      t.dev.g .laneState i = 2 ∧ t.dev.g .laneCause i = 5 ∧ Late.flag .laneEventFlags i 1 ∈ t.dev.late ∧
      (t.dev.lane i).cdr = true ∧ (t.dev.lane i).block = true ∧ (t.dev.lane i).frozen = false ∧
      (t.dev.lane i).adapted = u.clk.elapsed ∧
      ∀ j, j ≠ i → t.dev.lane j = d.lane j ∧ t.dev.g .laneState j = d.g .laneState j) ∧
    (∀ detect : Bool,
      (¬lost → exec (.signalLoss i detect) s =
        .next (u.become (if detect then d.putLane i { d.lane i with cdr := false } else d))) ∧
      (lost → ∃ t, exec (.signalLoss i detect) s = .next t ∧ t.clk = u.clk ∧ t.mem = u.mem ∧
        t.dev.g .laneState i = 1 ∧ t.dev.g .laneCause i = 2 ∧ Late.flag .laneEventFlags i 1 ∈ t.dev.late ∧
        Late.add .laneAttempts i 1 ∈ t.dev.late ∧ (t.dev.lane i).cdr = false ∧ (t.dev.lane i).block = false ∧
        (t.dev.lane i).starts = 1 ∧ (t.dev.lane i).since = u.clk.elapsed ∧
        ∀ j, j ≠ i → t.dev.lane j = d.lane j ∧ t.dev.g .laneState j = d.g .laneState j))

/-- A quad's PLL that loses lock puts its four lanes in NO_CLOCK; one that locks lets them go. QUAD_PLL_LOSS of a locked
quad clears QUAD_PLL.LOCK, adds 1 to QUAD_PLL_LOSSES and puts each of the quad's four lanes in NO_CLOCK, with bit 5,
and with cause 8 where the state changes; every other lane's state stands. QUAD_PLL_LOCK of a quad that is not locked
sets LOCK and moves each Ethernet or DisplayPort lane of the quad under no test, out of STANDBY, to ACQUIRING, and a
lane under test to TEST. On a quad already there each changes nothing. (15_lanes.md R305, 15_lanes.md R304) -/
def Obligations.QuadPllMovesItsLanes : Prop :=
  ∀ (s : State) (q : Nat), s.Awake 9 → q < 12 →
    let u := s.enter 9
    let d := u.dev
    (d.reg (0x80000 + 0x4000 * q) ≠ 1 → exec (.quadPllLoss q) s = .next u) ∧
    (d.reg (0x80000 + 0x4000 * q) = 1 → exec (.quadPllLock q) s = .next u) ∧
    (d.reg (0x80000 + 0x4000 * q) = 1 → ∃ t, exec (.quadPllLoss q) s = .next t ∧ t.clk = u.clk ∧ t.mem = u.mem ∧
      t.dev.reg (0x80000 + 0x4000 * q) = 0 ∧
      t.dev.reg (0x80004 + 0x4000 * q) = (d.reg (0x80004 + 0x4000 * q) + 1) % 2 ^ 32 ∧
      (∀ i, i / 4 = q → t.dev.g .laneState i = 6 ∧ Late.flag .laneEventFlags i 32 ∈ t.dev.late ∧
        (d.g .laneState i ≠ 6 → t.dev.g .laneCause i = 8 ∧ Late.flag .laneEventFlags i 1 ∈ t.dev.late)) ∧
      ∀ i, i / 4 ≠ q → t.dev.g .laneState i = d.g .laneState i ∧ t.dev.g .laneCause i = d.g .laneCause i) ∧
    (d.reg (0x80000 + 0x4000 * q) ≠ 1 → d.stopped = false → ∃ t, exec (.quadPllLock q) s = .next t ∧
      t.dev.reg (0x80000 + 0x4000 * q) = 1 ∧
      (∀ i, i / 4 = q → d.laneTested i = true → t.dev.g .laneState i = 4) ∧
      (∀ i, i / 4 = q → d.laneTested i = false → d.g .laneProto i ≠ 0 → t.dev.g .laneState i = 1) ∧
      ∀ i, i / 4 ≠ q → t.dev.g .laneState i = d.g .laneState i ∧ t.dev.lane i = d.lane i)

/-- Freezing, resuming and re-adapting the equaliser. EQ_FREEZE on an UP Ethernet lane not frozen freezes it and counts
lane_freezes, and changes nothing otherwise; EQ_RESUME ends the freeze. READAPTATION, on an UP Ethernet lane that is
not frozen and 10 s past its last, moves the CTLE by at most one code and each DFE tap by at most 2; on a frozen lane,
or before its time, it changes nothing. Where the codes move to is a free value. (15_lanes.md R309, 15_lanes.md R310) -/
def Obligations.EqualiserFreezesAndReadapts : Prop :=
  ∀ (s : State) (i : Nat), s.Awake 9 →
    let u := s.enter 9
    let d := u.dev
    let c := d.lane i
    let up : Prop := d.g .laneProto i = 1 ∧ d.g .laneState i = 2 ∧ c.frozen = false
    (up → exec (.eqFreeze i) s = .next (u.become ((d.putLane i { c with frozen := true }).count .laneFreezes i))) ∧
    (¬up → exec (.eqFreeze i) s = .next u) ∧
    exec (.eqResume i) s = .next (u.become (d.putLane i { c with frozen := false })) ∧
    (¬(up ∧ c.adapted + 40000000 ≤ u.clk.elapsed) → exec (.readaptation i) s = .next u) ∧
    (up → c.adapted + 40000000 ≤ u.clk.elapsed → c.ctle ≤ 15 → (∀ x ∈ c.dfe, -128 ≤ x ∧ x ≤ 127) →
      ∃ t, exec (.readaptation i) s = .next t ∧ t.clk = u.clk ∧ t.mem = u.mem ∧ t.dev.objs = d.objs ∧ t.dev.late = d.late ∧
        (t.dev.lane i).adapted = u.clk.elapsed ∧ (t.dev.lane i).ctle ≤ c.ctle + 1 ∧ c.ctle ≤ (t.dev.lane i).ctle + 1 ∧
        (t.dev.lane i).dfe.length = c.dfe.length ∧
        (∀ k, ((t.dev.lane i).dfe.getD k 0 - c.dfe.getD k 0).natAbs ≤ 2) ∧
        ∀ j, j ≠ i → t.dev.lane j = d.lane j)

/-- Pattern tests, loop-backs and the checker of a lane. An accepted write of lane_test or lane_loop that is not 0 holds
the value and puts a lane that is not in NO_CLOCK and whose quad is locked in TEST. The checker locks only in TEST
with bit 1 of lane_test, its error memory cleared, and when it loses a lock it had it has counted the 64 errors that
took it, the first since lock setting bit 3, and sets bit 2; LANE_CHK.CLEAR zeroes both counters; a slip of the far-
end loop in TEST counts lane_fe_slips with bit 4. LANE_INJECT makes 1 error at the lane's own locked checker behind a
near-end loop for the user pattern and 3 for a PRBS, the first since lock setting bit 3, and no error elsewhere.
(15_lanes.md R314, 15_lanes.md R315, 15_lanes.md R316, 15_lanes.md R317) -/
def Obligations.LaneTestsAndCheckers : Prop :=
  (∀ (s : State) (i v : Nat), s.Awake 7 → 1 ≤ v → v ≤ 3 →
    let d := (s.enter 7).dev
    (d.keepFails .laneTest i v [] = 0 → ∃ t, exec (.laneTest i v) s = .next t ∧ t.dev.answer.code = 0 ∧
      t.dev.g .laneTest i = v ∧ (d.reg (0x80000 + 0x4000 * (i / 4)) = 1 → d.g .laneState i ≠ 6 → t.dev.g .laneState i = 4) ∧
      ∀ j, j ≠ i → t.dev.lane j = d.lane j ∧ t.dev.g .laneState j = d.g .laneState j) ∧
    (d.keepFails .laneLoop i v [] = 0 → ∃ t, exec (.laneLoop i v) s = .next t ∧ t.dev.answer.code = 0 ∧
      t.dev.g .laneLoop i = v ∧ (d.reg (0x80000 + 0x4000 * (i / 4)) = 1 → d.g .laneState i ≠ 6 → t.dev.g .laneState i = 4) ∧
      ∀ j, j ≠ i → t.dev.lane j = d.lane j ∧ t.dev.g .laneState j = d.g .laneState j)) ∧
  (∀ (s : State) (i : Nat), s.Awake 7 →
    let u := s.enter 7
    let d := u.dev
    exec (.checkerClear i) s = .next (u.become ((d.put .laneChkBits i 0).put .laneChkErrors i 0)) ∧
    (d.keepFails .laneInject i 1 [] = 0 →
      let own : Prop := (d.g .laneLoop i = 1 ∨ d.g .laneLoop i = 2) ∧ d.g .laneTest i = 3 ∧ (d.lane i).locked = true
      ∃ t, exec (.laneInject i) s = .next t ∧ t.dev.answer.code = 0 ∧
        (own → Late.add .laneChkErrors i (if d.g .lanePattern i = 5 then 1 else 3) ∈ t.dev.late ∧
          ((d.lane i).erred = false → Late.flag .laneEventFlags i 8 ∈ t.dev.late) ∧ (t.dev.lane i).erred = true) ∧
        (¬own → t.dev.io = d.io))) ∧
  (∀ (s : State) (i : Nat), s.Awake 9 →
    let u := s.enter 9
    let d := u.dev
    (d.g .laneState i = 4 → (d.g .laneTest i).testBit 1 = true → exec (.checkerLock i) s = .next (u.become
      (d.putLane i { d.lane i with locked := true, erred := false, bitRest := 0, injRest := 0 }))) ∧
    (¬(d.g .laneState i = 4 ∧ (d.g .laneTest i).testBit 1 = true) → exec (.checkerLock i) s = .next u) ∧
    (let counted := (d.count .laneChkErrors i 64).putLane i { d.lane i with erred := true }
      let d' := if (d.lane i).erred then counted else counted.flag .laneEventFlags i 3
      (d.lane i).locked = true → exec (.checkerLockLoss i) s = .next (u.become
        ((d'.putLane i { d'.lane i with locked := false }).flag .laneEventFlags i 2))) ∧
    ((d.lane i).locked = false → exec (.checkerLockLoss i) s = .next u) ∧
    (d.g .laneState i = 4 → d.g .laneLoop i = 3 → exec (.farEndSlip i) s = .next (u.become
      ((d.count .laneFeSlips i).flag .laneEventFlags i 4))) ∧
    (¬(d.g .laneState i = 4 ∧ d.g .laneLoop i = 3) → exec (.farEndSlip i) s = .next u))

/-- The object, instance and value that a row of an accepted register write names. -/
def Sys2Proof.Instr.objectWritten : Instr → Option (Obj × Nat × Nat)
  | .ptpEnable on => some (.ptpEnable, 0, b2n on)
  | .laneTest i v => some (.laneTest, i, v)
  | .laneLoop i v => some (.laneLoop, i, v)
  | .laneInject i => some (.laneInject, i, 1)
  | .ethLoop m v => some (.ethLoop, m, v)
  | .pcieLoop v => some (.pcieLoop, 0, v)
  | .dchEvacuate c => some (.dchCmd, c, 1)
  | .dchRetrain c => some (.dchCmd, c, 2)
  | .dchReadmit c => some (.dchCmd, c, 3)
  | .dchLoop c v => some (.dchLoop, c, v)
  | .engReadmit e => some (.engReadmit, 0, e)
  | .cdcReadmit c => some (.cdcReadmit, 0, c)
  | .bistForceFault v => some (.bistForceFault, 0, v)
  | .ptArm k => some (.ptGo, k, 1)
  | .ptStop k => some (.ptGo, k, 2)
  | _ => none

/-- A register row of an object is checked as the object is, and dropped when refused. For the rows that write one object
without a session: where the range, the object's own check or the NV store refuses the value, the answer holds the
first code and nothing else changes. Where all three pass, the write acts; a test object whose write is done is
recorded in the Ledger, with the next sequence number. (20_dictionary.md R411, 20_dictionary.md R552, 25_test.md R519,
21_roles_ledger.md R442) -/
def Obligations.AcceptedWritesPassTheChecks : Prop :=
  ∀ (s : State) (c : Instr) (o : Obj) (i v : Nat), s.Awake 7 → c.objectWritten = some (o, i, v) →
    let u := s.enter 7
    let d := u.dev
    (o.rangeFails v ≠ 0 → exec c s = .next (u.become (d.answerCode (o.rangeFails v)))) ∧
    (o.rangeFails v = 0 → d.ownCode 3 o i v ≠ 0 → exec c s = .next (u.become (d.answerCode (d.ownCode 3 o i v)))) ∧
    (o.rangeFails v = 0 → d.ownCode 3 o i v = 0 → d.keepFails o i v [] ≠ 0 →
      exec c s = .next (u.become (d.answerCode (d.keepFails o i v [])))) ∧
    (o.rangeFails v = 0 → d.ownCode 3 o i v = 0 → d.keepFails o i v [] = 0 →
      ∃ t, exec c s = .next t ∧ t.clk = u.clk ∧
        (o.isTest = true → t.dev.answer.code = 0 → t.dev.g .ledgerNextSeq = (d.g .ledgerNextSeq + 1) % 2 ^ 32) ∧
        (t.dev.answer.code ≠ 0 → t.dev.g .ledgerNextSeq = d.g .ledgerNextSeq))

/-- PLUG, UNPLUG, AUX_TIMEOUT, DPCD_POLL and DP_ABSENCE_TIMEOUT. UNPLUG of a head whose HPD is high, 2 ms after its last
change, clears head_hpd with bit 2, starts the partner's absence and leaves a bound head DETACHED. PLUG of a head
whose HPD is low, 2 ms after its last change, sets head_hpd with bit 1, keeps the sink's capabilities and its EDID,
sets bit 5 when the EDID differs, and ends the absence. Where the level is there already, or before its time, each
changes nothing. An AUX request without reply on a head whose HPD is high starts the partner's absence, and an ACTIVE
head goes to TRAINING. 500 ms of absence move a bound head whose HPD is high to NO_PARTNER with head_last_fail 3. Each
100 ms of absence DPCD 0x00000 is read: without an answer only the next read is dated; an answer ends the absence.
Before their times, or without an absence, they change nothing. (11_departures.md R216, 11_departures.md R217,
11_departures.md R226, 15_lanes.md R311) -/
def Obligations.HeadsFollowTheirPartner : Prop :=
  (∀ (s : State) (h : Nat), s.Awake 9 →
    let u := s.enter 9
    let d := u.dev
    let stood : Prop := (d.head h).hpdAt + 8000 ≤ u.clk.elapsed
    ((d.on .headHpd h = false ∨ ¬stood) → exec (.unplug h) s = .next u) ∧
    (d.on .headHpd h = true → stood → ∃ t, exec (.unplug h) s = .next t ∧ t.clk = u.clk ∧ t.mem = u.mem ∧
      t.dev.g .headHpd h = 0 ∧ Late.flag .headEventFlags h 4 ∈ t.dev.late ∧ (t.dev.head h).absent.isSome = true ∧
      (t.dev.head h).hpd = false ∧ (t.dev.head h).hpdAt = u.clk.elapsed ∧
      (d.g .headState h ≠ 0 → t.dev.g .headState h = 1) ∧ (d.g .headState h = 0 → t.dev.g .headState h = 0) ∧
      ∀ j, j ≠ h → t.dev.g .headState j = d.g .headState j ∧ t.dev.head j = d.head j) ∧
    (∀ caps edid : List Byte,
      ((d.on .headHpd h = true ∨ ¬stood) → exec (.plug h caps edid) s = .next u) ∧
      (d.on .headHpd h = false → stood → ∃ t, exec (.plug h caps edid) s = .next t ∧ t.clk = u.clk ∧ t.mem = u.mem ∧
        t.dev.g .headHpd h = 1 ∧ Late.flag .headEventFlags h 2 ∈ t.dev.late ∧
        t.dev.blob .headDpcdCaps h = caps.take 16 ∧ t.dev.blob .headEdid h = edid.take 1024 ∧
        (d.blob .headEdid h ≠ edid → Late.flag .headEventFlags h 32 ∈ t.dev.late) ∧ (t.dev.head h).absent = none))) ∧
  (∀ (s : State) (h : Nat), s.Awake 9 →
    let u := s.enter 9
    let d := u.dev
    let now := u.clk.elapsed
    (d.on .headHpd h = false → exec (.auxTimeout h) s = .next u) ∧
    (d.on .headHpd h = true → d.g .headState h ≠ 3 → (d.head h).absent = none → exec (.auxTimeout h) s =
      .next (u.become (d.putHead h { d.head h with absent := some now, poll := now }))) ∧
    (d.on .headHpd h = true → d.g .headState h = 3 → ∃ t, exec (.auxTimeout h) s = .next t ∧
      t.dev.g .headState h = 2 ∧ (t.dev.head h).absent.isSome = true) ∧
    ((d.head h).absent = none → exec (.dpAbsenceTimeout h) s = .next u) ∧
    (∀ b : Nat, (d.head h).absent = some b → now < b + 2000000 → exec (.dpAbsenceTimeout h) s = .next u) ∧
    (∀ b : Nat, (d.head h).absent = some b → b + 2000000 ≤ now → d.on .headHpd h = true → d.g .headState h ≠ 0 →
      ∃ t, exec (.dpAbsenceTimeout h) s = .next t ∧ t.dev.g .headState h = 6 ∧ t.dev.g .headLastFail h = 3) ∧
    (∀ ok : Bool, ((d.head h).absent = none ∨ d.on .headHpd h = false ∨ now < (d.head h).poll + 400000) →
      exec (.dpcdPoll h ok) s = .next u) ∧
    ((d.head h).absent.isSome = true → d.on .headHpd h = true → (d.head h).poll + 400000 ≤ now →
      exec (.dpcdPoll h false) s = .next (u.become (d.putHead h { d.head h with poll := (d.head h).poll + 400000 })) ∧
      ∃ t, exec (.dpcdPoll h true) s = .next t ∧ (t.dev.head h).absent = none))

/-- LINK_TRAINING_DONE, HEAD_RETRY, HEAD_RETRAIN and IRQ_HPD. For a bound head in TRAINING whose partner is present: a
pass, after at most 10 loops of clock recovery and 5 of equalisation, makes the candidate's rate and lanes those of
the link and the head ACTIVE; a failure of clock recovery (1) or equalisation (2) is left in head_last_fail and the
next candidate trains, its rate and lanes written to DPCD 0x00100 and 0x00101, counted in head_retrains, and after the
last one the head is FAILED. For a head in any other state, unbound, or without its partner, it changes nothing.
HEAD_RETRY trains a FAILED head again 1 s after it failed, from the first candidate; HEAD_RETRAIN trains a bound head
that is not DETACHED, and answers 0; with no candidate that fits the head is NO_FIT with head_last_fail 4, otherwise
TRAINING with head_retrains counted. IRQ_HPD of a head whose HPD is high, 250 us after its last change, keeps DPCD
0x00200 to 0x00205 as read and sets bit 3; on an ACTIVE head whose link they show to have lost a lane it sets bit 4
too and retrains, and a FAILED head trains from the first candidate. An unbound head does not train. (11_departures.md
R217, 11_departures.md R218, 11_departures.md R216) -/
def Obligations.HeadsTrainTheirLink : Prop :=
  (∀ (s : State) (h : Nat), s.Awake 9 →
    let u := s.enter 9
    let d := u.dev
    ((d.headOwner h = none ∨ d.g .headState h ≠ 2 ∨ (d.head h).absent.isSome = true) →
      ∀ r : TrainResult, exec (.linkTrainingDone h r) s = .next u) ∧
    (∀ n : Nat, d.headOwner h = some n → d.g .headState h = 2 → (d.head h).absent = none →
      let cs := d.candidates h n
      let k := (d.head h).cand
      (∀ rate lanes : Nat, cs[k]? = some (rate, lanes) → ∃ t, exec (.linkTrainingDone h .pass) s = .next t ∧
        t.dev.g .headState h = 3 ∧ t.dev.g .headLinkRate h = rate ∧ t.dev.g .headLinkLanes h = lanes ∧
        Late.flag .headEventFlags h 1 ∈ t.dev.late ∧ (t.dev.head h).loops.1 ≤ 10 ∧ (t.dev.head h).loops.2 ≤ 5) ∧
      (∀ rate lanes : Nat, cs[k + 1]? = some (rate, lanes) →
        let next (t : State) (why : Nat) : Prop :=
          t.clk = u.clk ∧ t.mem = u.mem ∧ t.dev.g .headState h = 2 ∧ t.dev.g .headLastFail h = why ∧
          t.dev.late = d.late ++ [.add .headRetrains h 1] ∧ (t.dev.head h).cand = k + 1 ∧
          (t.dev.head h).dpcd.take 2 = [[0, 0x06, 0x0A, 0x14, 0x1E].getD rate 0, 0x80 + lanes]
        (∃ t, exec (.linkTrainingDone h .clockRecovery) s = .next t ∧ next t 1) ∧
        ∃ t, exec (.linkTrainingDone h .equalisation) s = .next t ∧ next t 2) ∧
      (cs.length ≤ k + 1 → ∃ t, exec (.linkTrainingDone h .clockRecovery) s = .next t ∧
        t.dev.g .headState h = 5 ∧ t.dev.g .headLastFail h = 1 ∧ (t.dev.head h).failed = u.clk.elapsed) ∧
      (∃ t, exec (.linkTrainingDone h .auxSilent) s = .next t ∧ (t.dev.head h).absent.isSome = d.on .headHpd h))) ∧
  (∀ (s : State) (h : Nat),
    (s.Awake 9 →
      let u := s.enter 9
      let d := u.dev
      let due : Prop := d.g .headState h = 5 ∧ (d.head h).failed + 4000000 ≤ u.clk.elapsed
      (¬due → exec (.headRetry h) s = .next u) ∧
      (due → d.headOwner h = none → exec (.headRetry h) s = .next u) ∧
      (∀ n : Nat, due → d.headOwner h = some n → d.candidates h n = [] → ∃ t, exec (.headRetry h) s = .next t ∧
        t.dev.g .headState h = 4 ∧ t.dev.g .headLastFail h = 4) ∧
      (∀ n : Nat, due → d.headOwner h = some n → d.candidates h n ≠ [] → ∃ t, exec (.headRetry h) s = .next t ∧
        t.dev.g .headState h = 2 ∧ (t.dev.head h).cand = 0 ∧ Late.add .headRetrains h 1 ∈ t.dev.late) ∧
      (∀ status : List Byte,
        let pulse : Prop := d.on .headHpd h = true ∧ (d.head h).hpdAt + 1000 ≤ u.clk.elapsed
        let holds : Bool := linkHolds (d.g .headLinkLanes h) status
        (¬pulse → exec (.irqHpd h status) s = .next u) ∧
        (pulse → (d.g .headState h ≠ 3 ∨ holds = true) → d.g .headState h ≠ 5 → ∃ t, exec (.irqHpd h status) s = .next t ∧
          t.clk = u.clk ∧ t.mem = u.mem ∧
          t.dev = { d with io := t.dev.io, late := d.late ++ [.flag .headEventFlags h 8] } ∧
          t.dev.head h = { d.head h with hpd := true, hpdAt := u.clk.elapsed, status := status.take 6 } ∧
          ∀ j, j ≠ h → t.dev.head j = d.head j) ∧
        (∀ n : Nat, pulse → d.g .headState h = 3 → holds = false → d.headOwner h = some n → d.candidates h n ≠ [] →
          ∃ t, exec (.irqHpd h status) s = .next t ∧ Late.flag .headEventFlags h 8 ∈ t.dev.late ∧
            Late.flag .headEventFlags h 16 ∈ t.dev.late ∧ t.dev.g .headState h = 2) ∧
        (∀ n : Nat, pulse → d.g .headState h = 5 → d.headOwner h = some n → d.candidates h n ≠ [] →
          ∃ t, exec (.irqHpd h status) s = .next t ∧ Late.flag .headEventFlags h 8 ∈ t.dev.late ∧
            t.dev.g .headState h = 2 ∧ (t.dev.head h).cand = 0))) ∧
    (s.Awake 7 →
      let u := s.enter 7
      let d := u.dev
      ((d.headOwner h = none ∨ d.g .headState h = 1) → exec (.headRetrain h) s = .next (u.become (d.answerCode 0))) ∧
      (∀ n : Nat, d.headOwner h = some n → d.g .headState h ≠ 1 → d.candidates h n ≠ [] →
        ∃ t, exec (.headRetrain h) s = .next t ∧ t.dev.g .headState h = 2 ∧ t.dev.answer.code = 0 ∧
          Late.add .headRetrains h 1 ∈ t.dev.late)))

/-- A hard fault or a failed self-test retires the engine, and the spare takes its departures. ENGINE_HARD_FAULT of an
engine that is neither RETIRED nor under readmission test retires it, counts eng_faults with bit 1, and resets its
master; with the spare idle and departures to serve, the spare becomes active in the engine's place and every
departure it served is to move to it, its state as it was; with the spare neither idle nor active, the departures it
served that were ARMED or LIVE are FAULTED, and so are, of the spare itself, those it serves or was to serve. A fault
of a RETIRED engine changes nothing, and one of an engine under readmission test retires it with bit 4 and answers
0x0530. ENGINE_BIST_RESULT of a running test counts bist_runs; a pass changes nothing more, and a failure retires the
engine with bit 0. (07_composition.md R150, 07_composition.md R151, 07_composition.md R152, 25_test.md R520) -/
def Obligations.EngineFaultsRetireTheEngine : Prop :=
  ∀ (s : State) (e : Nat), (s.ordered 3 (0x080 + e)).Running 3 → e < 25 →
    let u := (s.ordered 3 (0x080 + e)).enter 3
    let d := u.dev
    (d.g .engState e = 1 → exec (.engineHardFault e) s = .next u) ∧
    (d.g .engState e = 2 → exec (.engineHardFault e) s = .next (u.become
      ((((((d.put .engState e 1).count .engFaults e).flag .engEventFlags e 4).put .engReadmit 0 0xFF)).answerCode 0x0530))) ∧
    (d.g .engState e ≠ 1 → d.g .engState e ≠ 2 → ∃ t, exec (.engineHardFault e) s = .next t ∧ t.clk = u.clk ∧
      t.dev.g .engState e = 1 ∧ Late.add .engFaults e 1 ∈ t.dev.late ∧ Late.flag .engEventFlags e 2 ∈ t.dev.late ∧
      Late.add .bmResets 0 1 ∈ t.dev.late ∧ t.dev.test.engRun.find e = none ∧
      (e < 24 → d.g .engState 24 = 3 → d.served e ≠ [] → t.dev.g .engState 24 = 4 ∧ t.dev.g .engReplaces 24 = e ∧
        ∀ n ∈ d.served e, (t.dev.dep n).moveTo = some 24 ∧ t.dev.g .depState n = d.g .depState n) ∧
      (e < 24 → d.g .engState 24 ≠ 3 → d.g .engState 24 ≠ 4 → ∀ n ∈ d.served e,
        (d.g .depState n = 1 ∨ d.g .depState n = 2) → t.dev.g .depState n = 3) ∧
      (e = 24 → t.dev.g .engReplaces 24 = 255 ∧ ∀ n, n < 128 → ((d.dep n).moveTo = some 24 ∨ d.g .depEngine n = 24) →
        (d.g .depState n = 1 ∨ d.g .depState n = 2) → t.dev.g .depState n = 3)) ∧
    (∀ ok : Bool, d.test.engRun.find e = none → exec (.engineBistResult e ok) s = .next u) ∧
    (d.test.engRun.find e ≠ none → exec (.engineBistResult e true) s = .next (u.become
      (({ d with test := { d.test with engRun := d.test.engRun.del e } }).count .bistRuns))) ∧
    (d.test.engRun.find e ≠ none → d.g .engState e ≠ 1 → d.g .engState e ≠ 2 → ∃ t, exec (.engineBistResult e false) s = .next t ∧
      t.dev.g .engState e = 1 ∧ Late.add .bistRuns 0 1 ∈ t.dev.late ∧ Late.flag .bistEventFlags 0 1 ∈ t.dev.late ∧
      Late.flag .engEventFlags e 1 ∈ t.dev.late)

/-- Readmission of composition and codec engines. ENG_READMIT of a RETIRED engine starts its full self-test, and of any
other answers 0x0353 and changes nothing else; a pass puts the engine in service, and the spare idle where no RETIRED
engine has a FAULTED departure, with bit 3, and a failure leaves it RETIRED with bit 4 and 0x0530. CDC_READMIT and its
end do the same for a codec engine, with 0x0354, bits 2 and 3 and 0x0531. The end of a test that does not run changes
nothing. (07_composition.md R153, 10_codec.md R203) -/
def Obligations.EnginesAreReadmitted : Prop :=
  (∀ (s : State) (e : Nat), s.Awake 7 →
    let u := s.enter 7
    let d := u.dev
    (e < 25 → d.keepFails .engReadmit 0 e [] = 0 → d.g .engState e ≠ 1 →
      exec (.engReadmit e) s = .next (u.become (d.answerCode 0x0353))) ∧
    (e < 25 → d.keepFails .engReadmit 0 e [] = 0 → d.g .engState e = 1 → ∃ t, exec (.engReadmit e) s = .next t ∧
      t.dev.answer.code = 0 ∧ t.dev.g .engState e = 2 ∧ t.dev.g .engReadmit 0 = e ∧ t.dev.deps = d.deps) ∧
    (e < 24 → d.keepFails .cdcReadmit 0 e [] = 0 → d.g .cdcState e ≠ 1 →
      exec (.cdcReadmit e) s = .next (u.become (d.answerCode 0x0354))) ∧
    (e < 24 → d.keepFails .cdcReadmit 0 e [] = 0 → d.g .cdcState e = 1 → ∃ t, exec (.cdcReadmit e) s = .next t ∧
      t.dev.answer.code = 0 ∧ t.dev.g .cdcState e = 2 ∧ t.dev.g .cdcReadmit 0 = e)) ∧
  (∀ (s : State) (e : Nat), s.Awake 9 → e < 25 →
    let u := s.enter 9
    let d := u.dev
    (∀ ok : Bool, d.g .engState e ≠ 2 → exec (.engReadmitDone e ok) s = .next u) ∧
    (d.g .engState e = 2 → exec (.engReadmitDone e false) s = .next (u.become
      ((((d.put .engReadmit 0 0xFF).put .engState e 1).flag .engEventFlags e 4).answerCode 0x0530))) ∧
    (d.g .engState e = 2 → ∃ t, exec (.engReadmitDone e true) s = .next t ∧ (e < 24 → t.dev.g .engState e = 0) ∧
      (e = 24 → (∀ k, k < 24 → d.g .engState k = 1 → ∀ n ∈ d.served k, d.g .depState n ≠ 3) → t.dev.g .engState 24 = 3) ∧
      t.dev.g .engReadmit 0 = 255 ∧ Late.flag .engEventFlags e 8 ∈ t.dev.late) ∧
    (∀ ok : Bool, e < 24 → d.g .cdcState e ≠ 2 → exec (.cdcReadmitDone e ok) s = .next u) ∧
    (e < 24 → d.g .cdcState e = 2 → exec (.cdcReadmitDone e false) s = .next (u.become
      ((((d.put .cdcReadmit 0 0xFF).put .cdcState e 1).flag .cdcEventFlags e 3).answerCode 0x0531))) ∧
    (e < 24 → d.g .cdcState e = 2 → ∃ t, exec (.cdcReadmitDone e true) s = .next t ∧ t.dev.g .cdcState e = 0 ∧
      t.dev.g .cdcReadmit 0 = 255 ∧ Late.flag .cdcEventFlags e 4 ∈ t.dev.late))

/-- A codec engine that faults leaves service and its streams leave it. CODEC_FAULT of an engine in service retires it,
counts cdc_faults with bit 0 and resets its master, and no stream it held is on it any more; of a RETIRED engine it
changes nothing, and of one under readmission test it retires it with bit 3 and 0x0531. CODEC_BIST_RESULT of a running
test counts bist_runs, and a failure retires the engine with bit 1 of bist_event_flags. (10_codec.md R203, 25_test.md
R521) -/
def Obligations.CodecFaultsReleaseTheStreams : Prop :=
  ∀ (s : State) (c : Nat), (s.ordered 3 (0x0A0 + c)).Running 3 → c < 24 →
    let u := (s.ordered 3 (0x0A0 + c)).enter 3
    let d := u.dev
    (d.g .cdcState c = 1 → exec (.codecFault c) s = .next u) ∧
    (d.g .cdcState c = 2 → exec (.codecFault c) s = .next (u.become
      ((((((d.put .cdcState c 1).count .cdcFaults c).flag .cdcEventFlags c 3).put .cdcReadmit 0 0xFF)).answerCode 0x0531))) ∧
    (d.g .cdcState c ≠ 1 → d.g .cdcState c ≠ 2 → ∃ t, exec (.codecFault c) s = .next t ∧ t.clk = u.clk ∧
      t.dev.g .cdcState c = 1 ∧ (∀ x ∈ d.engineStreams d.heldStreams c, t.dev.codecOf x.1 ≠ c) ∧
      Late.add .cdcFaults c 1 ∈ t.dev.late ∧ Late.flag .cdcEventFlags c 1 ∈ t.dev.late ∧
      Late.add .bmResets 0 1 ∈ t.dev.late) ∧
    (∀ ok : Bool, d.test.cdcRun.find c = none → exec (.codecBistResult c ok) s = .next u) ∧
    (d.test.cdcRun.find c ≠ none → exec (.codecBistResult c true) s = .next (u.become
      (({ d with test := { d.test with cdcRun := d.test.cdcRun.del c } }).count .bistRuns))) ∧
    (d.test.cdcRun.find c ≠ none → d.g .cdcState c ≠ 1 → d.g .cdcState c ≠ 2 → ∃ t, exec (.codecBistResult c false) s = .next t ∧
      t.dev.g .cdcState c = 1 ∧ Late.add .bistRuns 0 1 ∈ t.dev.late ∧ Late.flag .bistEventFlags 0 2 ∈ t.dev.late)

/-- Background self-tests start when due and are abandoned after 50 ms; late responses. ENGINE_BIST_START and
CODEC_BIST_START start the test of a unit that may run one, at its offset in the period, when none runs, and change
nothing else; not due, they change nothing. BIST_ABANDON ends a test 50 ms after its start, counts bist_skipped and
sets bit 2; earlier, or without a test, it changes nothing. LATE_RESPONSE to a piece of an earlier epoch that is in
flight counts bm_late_resp with bit 0, and the piece is in flight no more; without one it changes nothing. (25_test.md
R520, 25_test.md R521, 18_fabric_memory.md R371) -/
def Obligations.BackgroundTestsRunInTheirSlots : Prop :=
  (∀ (s : State) (e : Nat), s.Running 9 →
    let u := s.enter 9
    let d := u.dev
    let now := u.clk.elapsed
    let may : Prop := (d.g .engState e = 0 ∨ d.g .engState e = 3 ∨ d.g .engState e = 4) ∧
      d.bistDue now e 25 (d.test.engLast.find e) = true ∧ d.test.engRun.find e = none
    let mayC : Prop := d.g .cdcState e = 0 ∧ d.bistDue now e 24 (d.test.cdcLast.find e) = true ∧ d.test.cdcRun.find e = none
    (may → exec (.engineBistStart e) s = .next (u.become { d with test := { d.test with
      engRun := d.test.engRun.put e now, engLast := d.test.engLast.put e now } })) ∧
    (¬may → exec (.engineBistStart e) s = .next u) ∧
    (mayC → exec (.codecBistStart e) s = .next (u.become { d with test := { d.test with
      cdcRun := d.test.cdcRun.put e now, cdcLast := d.test.cdcLast.put e now } })) ∧
    (¬mayC → exec (.codecBistStart e) s = .next u) ∧
    (∀ b : Nat, d.test.engRun.find e = some b → b + 200000 ≤ now → exec (.bistAbandon false e) s = .next (u.become
      ((({ d with test := { d.test with engRun := d.test.engRun.del e } }).count .bistSkipped).flag .bistEventFlags 0 2))) ∧
    (∀ b : Nat, d.test.engRun.find e = some b → now < b + 200000 → exec (.bistAbandon false e) s = .next u) ∧
    (∀ b : Nat, d.test.cdcRun.find e = some b → b + 200000 ≤ now → exec (.bistAbandon true e) s = .next (u.become
      ((({ d with test := { d.test with cdcRun := d.test.cdcRun.del e } }).count .bistSkipped).flag .bistEventFlags 0 2))) ∧
    (∀ b : Nat, d.test.cdcRun.find e = some b → now < b + 200000 → exec (.bistAbandon true e) s = .next u) ∧
    (d.test.cdcRun.find e = none → exec (.bistAbandon true e) s = .next u) ∧
    (d.test.engRun.find e = none → exec (.bistAbandon false e) s = .next u)) ∧
  (∀ (s : State) (m : Nat), s.Awake 9 →
    let u := s.enter 9
    let d := u.dev
    (d.bus.older.getD m 0 = 0 → exec (.lateResponse m) s = .next u) ∧
    (0 < d.bus.older.getD m 0 → ∃ t, exec (.lateResponse m) s = .next t ∧ t.clk = u.clk ∧ t.mem = u.mem ∧
      t.dev = { d with bus := { d.bus with older := t.dev.bus.older },
                       late := d.late ++ [.add .bmLateResp 0 1, .flag .bmEventFlags 0 1] } ∧
      t.dev.bus.older.getD m 0 + 1 = d.bus.older.getD m 0 ∧
      ∀ j, j ≠ m → t.dev.bus.older.getD j 0 = d.bus.older.getD j 0))

/-- bist_force_fault registers a self-test fault at rank 3 of the following tick. Only a maker may write the object.
BIST_FORCE_FAULT of a composition engine in service, spare idle or spare active, or of a codec engine in service, is
kept for the next tick and answers 0; of any other engine it answers 0x0353, of any other codec engine 0x0354, and
changes nothing else. When rank 3 of the following tick is reached the fault acts as a failed background self-test:
bit 0 of bist_event_flags and the engine's fault for an engine, bit 1 and the codec engine's fault for a codec engine.
(25_test.md R523) -/
def Obligations.ForcedFaultsRegisterInTheNextTick : Prop :=
  Obj.bistForceFault.mayWrite 1 = false ∧ Obj.bistForceFault.mayWrite 2 = false ∧ Obj.bistForceFault.mayWrite 3 = true ∧
  (∀ (s : State) (v : Nat), s.Awake 7 → v < 256 →
    let u := s.enter 7
    let d := u.dev
    let now := u.clk.elapsed
    d.keepFails .bistForceFault 0 v [] = 0 →
      (v < 25 → (d.g .engState v = 0 ∨ d.g .engState v = 3 ∨ d.g .engState v = 4) →
        ∃ t, exec (.bistForceFault v) s = .next t ∧ t.dev.answer.code = 0 ∧ t.dev.test.forced = d.test.forced ++ [(v, now + 1)]) ∧
      (v < 25 → ¬(d.g .engState v = 0 ∨ d.g .engState v = 3 ∨ d.g .engState v = 4) →
        exec (.bistForceFault v) s = .next (u.become (d.answerCode 0x0353))) ∧
      (0x80 ≤ v → v < 0x98 → d.g .cdcState (v - 0x80) = 0 →
        ∃ t, exec (.bistForceFault v) s = .next t ∧ t.dev.answer.code = 0 ∧ t.dev.test.forced = d.test.forced ++ [(v, now + 1)]) ∧
      (0x80 ≤ v → v < 0x98 → d.g .cdcState (v - 0x80) ≠ 0 →
        exec (.bistForceFault v) s = .next (u.become (d.answerCode 0x0354)))) ∧
  (∀ (e : Env) (d : Dev) (v : Nat),
    (d.test.forced = [(v, e.clk.elapsed + 1)] → d.forcedFaults e = d) ∧
    (d.test.forced = [(v, e.clk.elapsed)] →
      d.forcedFaults e = (if v < 25
        then (({ d with test := { d.test with forced := [] } }).flag .bistEventFlags 0 0).engineFault v false
        else (({ d with test := { d.test with forced := [] } }).flag .bistEventFlags 0 1).codecFaults e (v - 0x80))))

/-- PT_ARM, PT_STOP and PT_EXPIRY. An armed slot is ACTIVE with its lifetime left and bit 0; a slot already ACTIVE is
refused with 0x03D0, one whose kind, target, amount or lifetime is out of range with 0x0201, one whose skew passes its
limit with 0x0240, and a refused slot stands. PT_STOP of an ACTIVE slot makes it OFF with bit 2. PT_EXPIRY leaves an
ACTIVE slot whose lifetime has passed EXPIRED with bit 1, and any other slot as it stands. (25_test.md R525,
25_test.md R526) -/
def Obligations.PerturbationSlots : Prop :=
  ∀ (s : State) (k : Nat), s.Awake 7 → k < 8 →
    let u := s.enter 7
    let d := u.dev
    (d.keepFails .ptGo k 1 [] = 0 → d.g .ptState k = 1 → exec (.ptArm k) s = .next (u.become (d.answerCode 0x03D0))) ∧
    (d.keepFails .ptGo k 1 [] = 0 → d.g .ptState k ≠ 1 →
      (d.g .ptKind k = 0 ∨ 4 < d.g .ptKind k ∨ d.ptRangeOk k = false ∨ d.g .ptLifetime k = 0 ∨ 2400000000 < d.g .ptLifetime k) →
      exec (.ptArm k) s = .next (u.become (d.answerCode 0x0201))) ∧
    let skews : Prop := d.g .ptKind k = 3 ∧ d.skewLimit (d.g .ptTarget k) < d.g .ptAmount k
    let fits : Prop := 1 ≤ d.g .ptKind k ∧ d.g .ptKind k ≤ 4 ∧ d.ptRangeOk k = true ∧ 1 ≤ d.g .ptLifetime k ∧
      d.g .ptLifetime k ≤ 2400000000
    (d.keepFails .ptGo k 1 [] = 0 → d.g .ptState k ≠ 1 → fits → skews →
      exec (.ptArm k) s = .next (u.become (d.answerCode 0x0240))) ∧
    (d.keepFails .ptGo k 1 [] = 0 → d.g .ptState k ≠ 1 → fits → ¬skews → ∃ t, exec (.ptArm k) s = .next t ∧
      t.dev.answer.code = 0 ∧ t.dev.g .ptState k = 1 ∧ t.dev.g .ptLeft k = d.g .ptLifetime k % 2 ^ 32 ∧
      t.dev.test.armed.find k = some u.clk.elapsed ∧ Late.flag .ptEventFlags k 1 ∈ t.dev.late ∧
      ∀ j, j ≠ k → t.dev.g .ptState j = d.g .ptState j) ∧
    (d.keepFails .ptGo k 2 [] = 0 → d.g .ptState k = 1 → ∃ t, exec (.ptStop k) s = .next t ∧
      t.dev.answer.code = 0 ∧ t.dev.g .ptState k = 0 ∧ t.dev.g .ptLeft k = 0 ∧ Late.flag .ptEventFlags k 4 ∈ t.dev.late) ∧
    (d.keepFails .ptGo k 2 [] = 0 → d.g .ptState k ≠ 1 → ∃ t, exec (.ptStop k) s = .next t ∧
      t.dev.answer.code = 0 ∧ t.dev.g .ptState k = d.g .ptState k) ∧
    (d.g .ptState k = 1 → d.test.armed.getD k 0 + d.g .ptLifetime k ≤ u.clk.elapsed →
      exec (.ptExpiry k) s = .next (u.become (((d.put .ptState k 2).put .ptLeft k 0).flag .ptEventFlags k 1))) ∧
    (¬(d.g .ptState k = 1 ∧ d.test.armed.getD k 0 + d.g .ptLifetime k ≤ u.clk.elapsed) →
      exec (.ptExpiry k) s = .next u)

/-- Evacuation, retraining and readmission of a DRAM channel. DCH_EVACUATE of a channel out of service answers 0x03B0; of
one whose used stripes the others cannot take, or whose going would leave a room pool below the rooms in use, 0x0412;
otherwise the channel is EVACUATING, or EVACUATED at once when it holds no used stripe. DCH_RETRAIN of a channel that
is EVACUATED or FAILED starts its training, of any other answers 0x03B0. DCH_TRAINING_DONE outside start-up leaves a
channel in training EVACUATED after a pass, with the pass remembered, and FAILED with bit 3 otherwise. DCH_READMIT of
a channel EVACUATED and trained since puts it in service, of any other answers 0x03B0. A refused command changes
nothing else. (18_fabric_memory.md R378, 18_fabric_memory.md R379, 18_fabric_memory.md R380) -/
def Obligations.ChannelsEvacuateTrainAndReturn : Prop :=
  (∀ (s : State) (c : Nat), s.Awake 7 → c < 8 →
    let u := s.enter 7
    let d := u.dev
    let taken := takenMasks d.dram.allocs
    (d.g .dchState c ≠ 0 → exec (.dchEvacuate c) s = .next (u.become (d.answerCode 0x03B0))) ∧
    (d.g .dchState c = 0 → ((d.otherChannels c).map fun k => (d.freeOn taken k).length).sum < (d.usedOn taken c).length →
      exec (.dchEvacuate c) s = .next (u.become (d.answerCode 0x0412))) ∧
    (d.g .dchState c = 0 → (d.put .dchState c 1).roomPoolBytes < d.g .roomUsed →
      exec (.dchEvacuate c) s = .next (u.become (d.answerCode 0x0412))) ∧
    (d.g .dchState c = 0 → d.evacuateCode c = 0 → d.usedOn taken c ≠ [] →
      ∃ t, exec (.dchEvacuate c) s = .next t ∧ t.dev.answer.code = 0 ∧ t.dev.g .dchState c = 1 ∧
        t.dev.dram.left.getD c [] = d.usedOn taken c ∧ Late.flag .dchEventFlags c 1 ∈ t.dev.late) ∧
    (d.g .dchState c = 0 → d.evacuateCode c = 0 → d.usedOn taken c = [] →
      ∃ t, exec (.dchEvacuate c) s = .next t ∧ t.dev.answer.code = 0 ∧ t.dev.g .dchState c = 2 ∧
        Late.flag .dchEventFlags c 16 ∈ t.dev.late) ∧
    ((d.g .dchState c ≠ 2 ∧ d.g .dchState c ≠ 4) → exec (.dchRetrain c) s = .next (u.become (d.answerCode 0x03B0))) ∧
    ((d.g .dchState c = 2 ∨ d.g .dchState c = 4) → exec (.dchRetrain c) s =
      .next (u.become (((d.put .dchState c 3).flag .dchEventFlags c 0).answerCode 0))) ∧
    ((d.g .dchState c ≠ 2 ∨ d.dram.trained.getD c false = false) →
      exec (.dchReadmit c) s = .next (u.become (d.answerCode 0x03B0))) ∧
    (d.g .dchState c = 2 → d.dram.trained.getD c false = true →
      ∃ t, exec (.dchReadmit c) s = .next t ∧ t.dev.answer.code = 0 ∧ t.dev.g .dchState c = 0 ∧
        Late.flag .dchEventFlags c 1 ∈ t.dev.late)) ∧
  (∀ (s : State) (c : Nat), s.Awake 9 → c < 8 →
    let u := s.enter 9
    let d := u.dev
    (∀ ok : Bool, d.g .dchState c ≠ 3 → exec (.dchTrainingDone c ok) s = .next u) ∧
    (d.g .dchState c = 3 → exec (.dchTrainingDone c false) s = .next (u.become
      (((d.put .dchState c 4).flag .dchEventFlags c 0).flag .dchEventFlags c 3))) ∧
    (d.g .dchState c = 3 → d.startTraining = false → exec (.dchTrainingDone c true) s = .next (u.become
      ((({ d with dram := { d.dram with trained := d.dram.trained.put c true } }).put .dchState c 2).flag .dchEventFlags c 0))) ∧
    (d.g .dchState c = 3 → d.startTraining = true → exec (.dchTrainingDone c true) s = .next (u.become
      ((d.put .dchState c 0).flag .dchEventFlags c 0))))

/-- STRIPE_MOVED, DCH_LOOP, MR4_POLL and MEMORY_SCRUB. When the stripe under way has moved, its copy begun early enough
for dram_mig_rate (log entry 150), its entry names the channel and slot it moved to, one stripe less is left, and with
none left the channel is EVACUATED with bit 4; every stripe's entry but that one and the next target's stands. On a
channel that is not EVACUATING, and before the copy can be done, it changes nothing; with no move under way the next
one begins. dch_loop takes a value on a channel that is EVACUATED or FAILED, and answers 0x03B0 on any other. MR4_POLL
takes a channel's rate when it has none, or 16 ms after the last, and changes nothing before. A scrub pass counts the
corrected reads of a channel with bit 1 and its uncorrectable ones with bit 2, and those of the Pantry with bits 0 and
1; a pass that found nothing changes nothing. (18_fabric_memory.md R376, 18_fabric_memory.md R379, 18_fabric_memory.md
R373, 18_fabric_memory.md R375, 18_fabric_memory.md R381) -/
def Obligations.StripesLoopsAndScrubbing : Prop :=
  (∀ (s : State) (c : Nat), s.Awake 9 → c < 8 →
    let u := s.enter 9
    let d := u.dev
    let now := u.clk.elapsed
    (d.g .dchState c ≠ 1 → exec (.stripeMoved c) s = .next u) ∧
    (d.g .dchState c = 1 → d.dram.moving.find c = none → exec (.stripeMoved c) s = .next (u.become (d.startMove now c))) ∧
    (∀ m : Moving, d.dram.moving.find c = some m → (now : Rat) < m.due → exec (.stripeMoved c) s = .next u) ∧
    (∀ m : Moving, (m.due ≤ (now : Rat)) → d.g .dchState c = 1 → d.dram.moving.find c = some m → d.dram.left.getD c [] = [m.stripe] →
      ∃ t, exec (.stripeMoved c) s = .next t ∧ t.dev.g .dchState c = 2 ∧ t.dev.stripeAt m.stripe = some (m.chan, m.slot) ∧
        (∀ x, x ≠ m.stripe → t.dev.stripeAt x = d.stripeAt x) ∧ Late.flag .dchEventFlags c 16 ∈ t.dev.late) ∧
    (∀ (m : Moving) (x y : Nat) (rest : List Nat), m.due ≤ (now : Rat) → d.g .dchState c = 1 → d.dram.moving.find c = some m →
      d.dram.left.getD c [] = x :: y :: rest → ∃ t, exec (.stripeMoved c) s = .next t ∧
        t.dev.g .dchState c = 1 ∧ t.dev.dram.left.getD c [] = y :: rest)) ∧
  ((∀ (s : State) (c v : Nat), s.Awake 7 → v ≤ 3 → (s.enter 7).dev.keepFails .dchLoop c v [] = 0 →
    let u := s.enter 7
    let d := u.dev
    ((d.g .dchState c ≠ 2 ∧ d.g .dchState c ≠ 4) → exec (.dchLoop c v) s = .next (u.become (d.answerCode 0x03B0))) ∧
    ((d.g .dchState c = 2 ∨ d.g .dchState c = 4) → ∃ t, exec (.dchLoop c v) s = .next t ∧ t.dev.answer.code = 0 ∧
      t.dev.g .dchLoop c = v ∧ t.dev.g .dchState c = d.g .dchState c)) ∧
  (∀ (s : State) (c n k : Nat), s.Awake 9 →
    let u := s.enter 9
    let d := u.dev
    let now := u.clk.elapsed
    let polled : Dev := { d with dram := { d.dram with mr4 := d.dram.mr4.put c (n, now) } }
    (d.dram.mr4.find c = none → exec (.mr4Poll c n) s = .next (u.become polled)) ∧
    (∀ a b : Nat, d.dram.mr4.find c = some (a, b) → b + 64000 ≤ now → exec (.mr4Poll c n) s = .next (u.become polled)) ∧
    (∀ a b : Nat, d.dram.mr4.find c = some (a, b) → now < b + 64000 → exec (.mr4Poll c n) s = .next u) ∧
    (c < 8 → n ≠ 0 → k ≠ 0 → exec (.memoryScrub c n k) s = .next (u.become
      ((((d.count .dchCorr c n).flag .dchEventFlags c 1).count .dchUncorr c k).flag .dchEventFlags c 2))) ∧
    (c < 8 → n ≠ 0 → exec (.memoryScrub c n 0) s = .next (u.become ((d.count .dchCorr c n).flag .dchEventFlags c 1))) ∧
    (8 ≤ c → n ≠ 0 → exec (.memoryScrub c n 0) s = .next (u.become ((d.count .panCorr 0 n).flag .panEventFlags 0 0))) ∧
    (8 ≤ c → k ≠ 0 → ∃ t, exec (.memoryScrub c 0 k) s = .next t ∧ t.mem = u.mem ∧ t.dev.objs = d.objs ∧
      Late.add .panUncorr 0 k ∈ t.dev.late ∧ Late.flag .panEventFlags 0 2 ∈ t.dev.late) ∧
    exec (.memoryScrub c 0 0) s = .next u))

/-- RECEIVE_FRAME: the receive steps, each of which may drop the frame. On a MAC in loop-back, or with the link DOWN, a
frame changes nothing. Otherwise, in this order, a frame at 25G that RS-FEC could not correct is counted in
eth_fec_uncorrected with bit 4 and as an FCS error, and a bad FCS, an oversize frame, and a runt or pause frame end in
their counters and nothing else; a frame that passes counts eth_rx_frames. On a MAC with its SecY enabled an untagged
frame that is neither EAPOL nor admitted PTP is counted in ms_rx_untagged, and one with a tag of no association in
ms_rx_nosa. Without SecY, a frame of a VLAN not accepted and an RTP packet of no arrival and no flow are counted in
eth_rx_unmatched; a PTP frame of another MAC's, and a packet for an arrival with a bad header checksum, are dropped; a
video packet goes to its arrival; a PTP frame of ptp_mac leaves its timestamp, the time base plus eth_ts_adj_rx, with
the PTP unit. (16_ethernet.md R325, 16_ethernet.md R332) -/
def Obligations.ReceivePathDropsInOrder : Prop :=
  ∀ (s : State) (m : Nat) (f : EthFrame), s.Awake 4 →
    let u := s.enter 4
    let d := u.dev
    let heard : Prop := d.on .ethLoop m = false ∧ d.on .ethLink m = true
    let fec : Prop := d.g .ethSpeed m = 1 → f.fecOk = true
    let good : Prop := heard ∧ fec ∧ f.fcsOk = true ∧ f.len ≤ d.g .ethMaxFrame m ∧ 64 ≤ f.len ∧ f.pause = false
    let tagOk : Prop := f.vid.getD 0 = 0 ∨
      ((List.range 4).map fun k => bitsAt (d.g .ethVidRx m) (16 * k) 16).contains (f.vid.getD 0) = true
    let drop (o : Obj) : Host.Outcome State Fault Refusal := .next (u.become ((d.count .ethRxFrames m).count o m))
    let x := d.count .ethRxFrames m
    (¬heard → exec (.receiveFrame m f) s = .next u) ∧
    (heard → ¬fec → exec (.receiveFrame m f) s = .next (u.become
      (((d.count .ethFecUncorrected m).flag .ethEventFlags m 4).count .ethRxFcs m))) ∧
    (heard → fec → f.fcsOk = false → exec (.receiveFrame m f) s = .next (u.become (d.count .ethRxFcs m))) ∧
    (heard → fec → f.fcsOk = true → d.g .ethMaxFrame m < f.len →
      exec (.receiveFrame m f) s = .next (u.become (d.count .ethRxOversize m))) ∧
    (heard → fec → f.fcsOk = true → f.len ≤ d.g .ethMaxFrame m → (f.len < 64 ∨ f.pause = true) →
      exec (.receiveFrame m f) s = .next (u.become (d.count .ethRxUnmatched m))) ∧
    (good → d.on .msEnable m = true → f.sec = none → f.body ≠ .eapol → f.body ≠ .ptp →
      exec (.receiveFrame m f) s = drop .msRxUntagged) ∧
    (good → d.on .msEnable m = true → f.sec = none → f.body = .eapol →
      exec (.receiveFrame m f) s = .next (u.become (d.count .ethRxFrames m))) ∧
    (∀ x : SecTag, good → d.on .msEnable m = true → f.sec = some x → d.rxChannel m x.sci = none →
      exec (.receiveFrame m f) s = drop .msRxNosa) ∧
    (good → d.on .msEnable m = false → ¬tagOk → exec (.receiveFrame m f) s = drop .ethRxUnmatched) ∧
    (good → d.on .msEnable m = false → tagOk → f.body = .ptp → d.g .ptpMac = m →
      exec (.receiveFrame m f) s = .next (u.become { x with time :=
        { d.time with rxStamp := ofInt 64 ((u.env.tb : Int) + d.gi .ethTsAdjRx m) } })) ∧
    (good → d.on .msEnable m = false → tagOk → f.body = .ptp → d.g .ptpMac ≠ m →
      exec (.receiveFrame m f) s = .next (u.become x)) ∧
    (∀ (r : Rtp) (a : Nat) (pathB : Bool), good → d.on .msEnable m = false → tagOk → f.body = .rtp r false →
      d.arrMatch m r = some (a, pathB) → exec (.receiveFrame m f) s = .next (u.become x)) ∧
    (∀ (r : Rtp) (ok : Bool), good → d.on .msEnable m = false → tagOk → f.body = .rtp r ok → d.arrMatch m r = none →
      d.flowMatch m r = none → exec (.receiveFrame m f) s = drop .ethRxUnmatched) ∧
    (∀ (r : Rtp) (a : Nat) (pathB : Bool), good → d.on .msEnable m = false → tagOk → f.body = .rtp r true →
      d.arrMatch m r = some (a, pathB) → d.stopped = false →
      exec (.receiveFrame m f) s = .next (u.run fun e d => (d.count .ethRxFrames m).arrPacket e a pathB r))

/-- TRANSMIT_FRAME and TS_ID_POP. A frame of the cores on a link that is DOWN only counts eth_tx_drop_down, and one
without a next hop eth_tx_unresolved with bit 1; another joins queue 3 (the MAC's list holds queue 3 first) when it is
PTP of at most 128 bytes, and queue 0 otherwise (each on a MAC still busy). A MAC that is not busy, outside MACsec,
takes the head of queue 3 when that queue holds a frame, leaves the rest, and counts eth_tx_frames; a PTP event
message leaves its timestamp in the FIFO. A MAC still busy sends nothing. A read of TS_ID answers the oldest entry's
sequenceId, messageType and valid bit, takes the entry out of the FIFO and shows its timestamp; on an empty FIFO it
answers 0. Nothing else changes but the answer. (16_ethernet.md R323, 16_ethernet.md R326, 16_ethernet.md R329,
16_ethernet.md R330, 16_ethernet.md R339) -/
def Obligations.TransmitQueuesAndTimestamps : Prop :=
  (∀ (s : State) (m : Nat), s.Awake 9 →
    let u := s.enter 9
    let d := u.dev
    let c := d.mac m
    (u.env.free + 250 ≤ c.busy → exec (.transmitFrame m none) s = .next u) ∧
    (∀ f : FwFrame, u.env.free + 250 ≤ c.busy → d.on .ethLink m = false →
      exec (.transmitFrame m (some f)) s = .next (u.become (d.count .ethTxDropDown m))) ∧
    (∀ f : FwFrame, u.env.free + 250 ≤ c.busy → d.on .ethLink m = true → f.resolved = false →
      exec (.transmitFrame m (some f)) s = .next (u.become ((d.count .ethTxUnresolved m).flag .ethEventFlags m 1))) ∧
    (∀ f : FwFrame, u.env.free + 250 ≤ c.busy → d.on .ethLink m = true → f.resolved = true → c.queues.length = 4 →
      ∃ t, exec (.transmitFrame m (some f)) s = .next t ∧ t.dev.objs = d.objs ∧ t.dev.late = d.late ∧
        (t.dev.mac m).queues.getD (if f.body = .ptp ∧ f.len ≤ 128 then 0 else 3) [] =
          c.queues.getD (if f.body = .ptp ∧ f.len ≤ 128 then 0 else 3) [] ++
            [{ bytes := f.len + 20, ptp := f.event, body := .firmware f.body f.group }]) ∧
    (∀ (f : TxFrame) (rest : List TxFrame), ¬(u.env.free + 250 ≤ c.busy) → c.queues.length = 4 →
      c.queues.getD 0 [] = f :: rest → d.on .msEnable m = false →
      ∃ t, exec (.transmitFrame m none) s = .next t ∧ (t.dev.mac m).queues.getD 0 [] = rest ∧
        (∀ k, 0 < k → (t.dev.mac m).queues.getD k [] = c.queues.getD k []) ∧
        Late.add .ethTxFrames m 1 ∈ t.dev.late ∧
        (∀ x y : Nat, f.ptp = some (x, y) → c.stamps.length < 16 → (t.dev.mac m).stamps.length = c.stamps.length + 1) ∧
        ∀ j, j ≠ m → t.dev.mac j = d.mac j)) ∧
  (∀ (s : State) (m : Nat), s.Awake 8 →
    let u := s.enter 8
    let d := u.dev
    let c := d.mac m
    (c.stamps = [] → exec (.tsIdPop m) s = .next (u.become ((d.putMac m { c with popped := (0, 0) }).answerWord 0))) ∧
    (∀ (x k b : Nat) (rest : List (Nat × Nat × Nat)), c.stamps = (x, k, b) :: rest →
      let w := x % 2 ^ 16 + k % 16 * 2 ^ 16 + 2 ^ 31
      exec (.tsIdPop m) s = .next (u.become ((d.putMac m { c with stamps := rest, popped := (w, b) }).answerWord w))))

/-- Link faults, the MAC loop-back, and the ARP table. A link-fault sequence takes a MAC without a loop-back DOWN, and is
ignored with one; the fault is cleared 1 ms after the last sequence, and the link then follows its lane. An accepted
eth_loop 1 reads UP whatever the lane does. ARP_REFRESH renews an entry 60 s old with its address kept, and changes
nothing for a younger or an absent one. (16_ethernet.md R322, 16_ethernet.md R330, 16_ethernet.md R323) -/
def Obligations.LinksFollowFaultsAndLoops : Prop :=
  (∀ (s : State) (m : Nat), s.Awake 9 →
    let u := s.enter 9
    let d := u.dev
    let now := u.clk.elapsed
    (d.on .ethLoop m = true → exec (.linkFaultReceived m) s = .next u) ∧
    (d.on .ethLoop m = false → ∃ t, exec (.linkFaultReceived m) s = .next t ∧ (t.dev.mac m).fault = some now ∧
      t.dev.on .ethLink m = false ∧ (d.on .ethLink m = true → Late.flag .ethEventFlags m 1 ∈ t.dev.late) ∧
      ∀ j, j ≠ m → t.dev.mac j = d.mac j ∧ t.dev.g .ethLink j = d.g .ethLink j) ∧
    ((d.mac m).fault = none → exec (.linkFaultCleared m) s = .next u) ∧
    (∀ b : Nat, (d.mac m).fault = some b → now < b + 4000 → exec (.linkFaultCleared m) s = .next u) ∧
    (∀ b : Nat, (d.mac m).fault = some b → b + 4000 ≤ now → ∃ t, exec (.linkFaultCleared m) s = .next t ∧
      (t.dev.mac m).fault = none ∧ t.dev.on .ethLink m = (d.on .ethLoop m || (d.macReady m &&
        (d.lanesOf m).all (fun i => d.g .laneState i == 2)))) ∧
    (∀ ip : Nat, (d.mac m).arp.find ip = none → exec (.arpRefresh m ip) s = .next u) ∧
    (∀ ip a b : Nat, (d.mac m).arp.find ip = some (a, b) → now < b + 240000000 → exec (.arpRefresh m ip) s = .next u) ∧
    (∀ ip a b : Nat, (d.mac m).arp.find ip = some (a, b) → b + 240000000 ≤ now → exec (.arpRefresh m ip) s =
      .next (u.become (d.putMac m { d.mac m with arp := (d.mac m).arp.put ip (a, now) })))) ∧
  (∀ (s : State) (m : Nat), s.Awake 7 → (s.enter 7).dev.keepFails .ethLoop m 1 [] = 0 →
    ∃ t, exec (.ethLoop m 1) s = .next t ∧ t.dev.answer.code = 0 ∧ t.dev.g .ethLoop m = 1 ∧ t.dev.on .ethLink m = true)

/-- KEY_LOAD_COMPLETE, MS_TX_AN and SA_RETIRE. While the island is paused, key loads wait. Otherwise a key load that is
due leaves its association holding the key: IN_USE when the MAC transmits on it, LOADED otherwise, with the packet
number at its start. A write of ms_tx_an under static keys, or by firmware, moves transmission to an association that
is LOADED or IN_USE, the one before becoming LOADED; to any other it answers 0x0398 and changes nothing else, and a
session's write under MKA 0x0399. A RETIRING association is emptied when ms_rx_overlap has passed, and no other is.
(16_ethernet.md R333, 16_ethernet.md R334) -/
def Obligations.SecureAssociationsChangeState : Prop :=
  (∀ (s : State) (m : Nat), s.Awake 9 →
    let u := s.enter 9
    let d := u.dev
    let now := u.clk.elapsed
    (d.g .krIslandState = 1 → exec (.keyLoadComplete m) s = .next u) ∧
    (d.dueLoad now m = none → exec (.keyLoadComplete m) s = .next u) ∧
    (∀ l : KeyLoad, d.g .krIslandState ≠ 1 → d.dueLoad now m = some l → l.an < 4 → ∃ t, exec (.keyLoadComplete m) s = .next t ∧
      t.dev.io.loads = d.io.loads.erase l ∧
      t.dev.sa l.chan l.an = { st := if l.chan < 24 ∧ d.g .msTxAn l.chan = l.an then 2 else 1, key := l.key,
                               pn := if l.chan < 24 then 1 else 0, since := now } ∧
      ∀ ch an, 4 * ch + an ≠ 4 * l.chan + l.an → t.dev.sa ch an = d.sa ch an) ∧
    (∀ ch an : Nat, an < 4 →
      let x := d.sa (24 + ch) an
      let due : Prop := x.st = 3 ∧ x.since + d.g .msRxOverlap (ch / 8) * 4000 ≤ now
      (¬due → exec (.saRetire ch an) s = .next u) ∧
      (due → ∃ t, exec (.saRetire ch an) s = .next t ∧ t.dev.sa (24 + ch) an = { since := now } ∧
        Late.flag .msEventFlags (ch / 8) 1 ∈ t.dev.late ∧
        ∀ c' a', 4 * c' + a' ≠ 4 * (24 + ch) + an → t.dev.sa c' a' = d.sa c' a'))) ∧
  (∀ (s : State) (m an : Nat), s.Awake 7 → an < 4 →
    let u := s.enter 7
    let d := u.dev
    let held : Prop := (d.sa m an).st = 1 ∨ (d.sa m an).st = 2
    (¬held → exec (.msTxAn m an true) s = .next (u.become (d.answerCode 0x0398))) ∧
    (held → ∃ t, exec (.msTxAn m an true) s = .next t ∧ t.dev.answer.code = 0 ∧ t.dev.g .msTxAn m = an ∧
      (t.dev.sa m an).st = 2 ∧ (t.dev.sa m an).key = (d.sa m an).key ∧ (t.dev.sa m an).pn = (d.sa m an).pn ∧
      (d.g .msTxAn m ≠ an → d.g .msTxAn m < 4 → (d.sa m (d.g .msTxAn m)).st = 2 → (t.dev.sa m (d.g .msTxAn m)).st = 1)) ∧
    (d.keepFails .msTxAn m an [] = 0 → d.g .msMode m = 1 →
      exec (.msTxAn m an false) s = .next (u.become (d.answerCode 0x0399))) ∧
    (d.keepFails .msTxAn m an [] = 0 → d.g .msMode m ≠ 1 → held → ∃ t, exec (.msTxAn m an false) s = .next t ∧
      t.dev.answer.code = 0 ∧ t.dev.g .msTxAn m = an ∧ (t.dev.sa m an).st = 2))

/-- SLICE_DECODE_DONE and SLICE_ENCODE_DONE. A codec engine decodes slice k of an arrival of kind 2 when it is the next of
the frame in progress, of the height its codestream gives, inside the picture, the markers are there whole, and no
stream of the engine has waited longer (R198): the slice counts in CDC_SLICES, and in CDC_LATE when its packets were
complete more than 80 ticks ago; parse errors are counted; the next slice of the frame is k + 1, and the picture's
last ends the frame. It encodes slice k of a departure when that is the next, its lines are composed, and no stream
has waited longer: the slice counts likewise, and the packets up to it are released. Where that does not hold the
command changes nothing. (10_codec.md R198, 10_codec.md R199, 10_codec.md R202, 10_codec.md R207) -/
def Obligations.SlicesOfCodestreams : Prop :=
  (∀ (s : State) (a k lines parse : Nat) (lost : Option Nat), s.Running 4 →
    let u := s.enter 4
    let d := u.dev
    let now := u.clk.elapsed
    let c := d.g .arrCodec a
    let due (x : Asm) (since : Nat) : Prop := (d.arr a).asm = some x ∧ d.workSince (.decode a) = some since ∧
      d.g .arrKind a = 2 ∧ c < 24 ∧ x.sliceLines = some lines ∧ k = x.next ∧ k * lines < x.pic.h ∧
      x.whole none = true ∧ d.servesNext c since = true
    ((∀ x since, ¬due x since) → exec (.sliceDecodeDone a k lines lost parse) s = .next u) ∧
    (∀ (x : Asm) (since : Nat), due x since →
      ∃ t, exec (.sliceDecodeDone a k lines lost parse) s = .next t ∧
        Late.addReg (0x180010 + 0x1000 * c) 1 ∈ t.dev.late ∧
        (∀ b, x.held.find k = some (b, true) → since + 80 < now → Late.addReg (0x180018 + 0x1000 * c) 1 ∈ t.dev.late) ∧
        (parse ≠ 0 → Late.add .arrXsParseErrors a parse ∈ t.dev.late) ∧
        (k * lines + lines < x.pic.h → ∃ y, (t.dev.arr a).asm = some y ∧ y.next = k + 1) ∧
        (x.pic.h ≤ k * lines + lines → (t.dev.arr a).asm.map Asm.start = (d.arr a).recv.map Asm.start))) ∧
  (∀ (s : State) (n k : Nat), s.Running 9 →
    let u := s.enter 9
    let d := u.dev
    let now := u.clk.elapsed
    let c := d.g .depXsCodec n
    let due (since : Nat) : Prop := d.workSince (.encode n) = some since ∧ c < 24 ∧ d.g .depXsProfile n ≠ 0xFF ∧
      k < d.xsSlices n ∧ k = (d.dep n).encNext ∧ d.servesNext c since = true
    ((∀ since, ¬due since) → exec (.sliceEncodeDone n k) s = .next u) ∧
    (∀ since : Nat, due since → ∃ t, exec (.sliceEncodeDone n k) s = .next t ∧
      Late.addReg (0x180010 + 0x1000 * c) 1 ∈ t.dev.late ∧
      (since + 80 < now → Late.addReg (0x180018 + 0x1000 * c) 1 ∈ t.dev.late) ∧
      (t.dev.dep n).encNext = k + 1 ∧ (t.dev.dep n).releasedAt.find k = some now ∧
      (t.dev.dep n).released = max (d.dep n).released (d.xsReadyPackets n k) ∧
      ∀ j, j ≠ n → t.dev.dep j = d.dep j))

/-- Injected and generated frames are taken, stored and completed. GENERATOR_FRAME_DONE of an arrival of kind 5 with a
frame in progress that has a place in storage, or finds one in this tick, stores it: arr_seq grows by 1 modulo 2^32,
arr_frame_time and arr_frame_tick take the frame's time and the tick, arr_frames is counted at rank 9 and the arrival
is LIVE; a skipped frame leaves arr_seq; without a frame, or for another kind, nothing changes. INJECTION_TAKE of an
arrival of kind 3 takes the entry at C of its ENABLED ring when the ring holds one and none is being taken, at most
one per envelope period, and C grows by 1: an entry in host memory waits for its read; one in the part that lies
outside the envelope completes at once with cause bits 1 and 8 and arr_outside; another starts a frame, which waits
for its copy, or finds no room, completes and is skipped. Otherwise it changes nothing. INJECTION_COPY_DONE stores
that frame and completes its entry; an abandoned one stores nothing; without an entry being taken it changes nothing.
(04_arrivals.md R68, 04_arrivals.md R69, 04_arrivals.md R76, 04_arrivals.md R79, 05_rooms_and_rates.md R92, 17_host.md
R354) -/
def Obligations.ArrivalFramesStartAndStore : Prop :=
  ∀ (s : State) (a : Nat), s.Running 4 →
    let u := s.enter 4
    let d := u.dev
    let p := d.claimDue a
    let now := u.clk.elapsed
    let r := d.g .arrRing a
    let c := d.ring r
    let stored (x : Asm) (t : State) : Prop :=
      t.dev.g .arrSeq a = (d.g .arrSeq a + 1) % 2 ^ 32 ∧ t.dev.g .arrFrameTime a = x.time % 2 ^ 64 ∧
      t.dev.g .arrFrameTick a = u.clk.tick ∧ Late.add .arrFrames a 1 ∈ t.dev.late ∧ t.dev.g .arrState a = 2
    (d.g .arrKind a ≠ 5 → exec (.generatorFrameDone a) s = .next u) ∧
    ((d.arr a).asm = none → exec (.generatorFrameDone a) s = .next u) ∧
    (∀ x : Asm, d.g .arrKind a = 5 → (p.arr a).asm = some x →
      ∃ t, exec (.generatorFrameDone a) s = .next t ∧ (x.dest ≠ .skip → stored x t) ∧
        (x.dest = .skip → t.dev.g .arrSeq a = d.g .arrSeq a)) ∧
    (let ready : Prop := d.g .arrKind a = 3 ∧ (d.arr a).inject = none ∧ c.st = .enabled ∧ c.p ≠ c.c ∧ c.taken = [] ∧
        ∀ b, (d.arr a).lastTake = some b → d.envPeriod a ≤ ((250 * (now - b) : Nat) : Rat)
     let place : Prop := (d.g .arrStorage a = 1 ∧ d.g .arrSliceMode a = 3) ∨ (d.claimable a).isSome = true
     let here : Taken := ⟨c.c, d.entryBytes u.env r []⟩
     let time := if entryField here 0x18 8 = 0 then u.clk.timebase else entryField here 0x18 8
     (¬ready → exec (.injectionTake a) s = .next u) ∧
     (ready → ∃ t, exec (.injectionTake a) s = .next t ∧ (t.dev.ring r).c = (c.c + 1) % 2 ^ 32 ∧
        (t.dev.arr a).lastTake = some now ∧ t.dev.g .arrSeq a = d.g .arrSeq a ∧
        (descLoc c.cached = 0 → (t.dev.ring r).taken = [⟨c.c, []⟩] ∧ (t.dev.arr a).starts.head? = some now ∧
          (t.dev.arr a).inject = some ⟨r, ⟨c.c, []⟩, u.clk.timebase, false⟩) ∧
        (descLoc c.cached ≠ 0 → d.injectBad a here = true → (t.dev.ring r).taken = [] ∧ (t.dev.arr a).inject = none ∧
          Late.add .arrOutside a 1 ∈ t.dev.late ∧ Late.flag .arrEventFlags a 2 ∈ t.dev.late ∧
          Late.flag .arrEventFlags a 256 ∈ t.dev.late) ∧
        (descLoc c.cached ≠ 0 → d.injectBad a here = false → (d.arr a).asm = none → place →
          (t.dev.ring r).taken = [here] ∧ (t.dev.arr a).inject = some ⟨r, here, time, false⟩ ∧
          ∃ y, (t.dev.arr a).asm = some y ∧ y.time = time ∧ y.dest ≠ .skip) ∧
        (descLoc c.cached ≠ 0 → d.injectBad a here = false → (d.arr a).asm = none → ¬place →
          (t.dev.ring r).taken = [] ∧ (t.dev.arr a).inject = none ∧ (t.dev.arr a).asm = none ∧
          Late.add .arrRoomSkips a 1 ∈ t.dev.late))) ∧
    (∀ bytes audio : List Byte,
      ((d.arr a).inject = none → exec (.injectionCopyDone a bytes audio) s = .next u) ∧
      ∀ j : Inject, (d.arr a).inject = some j →
        let done (t : State) : Prop := (t.dev.arr a).inject = none ∧
          ∀ y, y ∈ (t.dev.ring j.ring).taken ↔ y ∈ (d.ring j.ring).taken ∧ y.index ≠ j.entry.index
        (j.entry.bytes = [] → exec (.injectionCopyDone a bytes audio) s = .next u) ∧
        (j.entry.bytes ≠ [] → j.abandoned = true → ∃ t, exec (.injectionCopyDone a bytes audio) s = .next t ∧ done t ∧
          t.dev.g .arrSeq a = d.g .arrSeq a) ∧
        (j.abandoned = false → injectSurf j.entry = none → exec (.injectionCopyDone a bytes audio) s = .next u) ∧
        (j.entry.bytes ≠ [] → j.abandoned = false → (injectSurf j.entry).isSome = true →
          ∃ t, exec (.injectionCopyDone a bytes audio) s = .next t ∧ done t ∧
            ∀ x, (p.arr a).asm = some x → (x.dest ≠ .skip → stored x t) ∧
              (x.dest = .skip → t.dev.g .arrSeq a = d.g .arrSeq a)))

/-- A frame closes at its time limit, a silent path goes DOWN, a source is declared lost. FRAME_CLOSE_TIMEOUT of a frame
of kind 1 or 2 whose start is more than 1.5 envelope periods ago closes it and gives way to the frame received behind
it: with more missing lines than arr_conceal_max it is rejected, arr_incomplete is counted with cause bit 2, and
arr_seq stands; with no more, and a place in storage, it is stored, with cause bit 3 where lines were concealed.
PATH_TIMEOUT of a path that is UP and silent for more than arr_path_timeout makes it DOWN, with bit 4 or 5.
SOURCE_LOSS of an arrival WAITING or LIVE whose last frame start lies more than arr_loss_frames envelope periods back
makes it LOST, with bit 0 and arr_seq unchanged. Each changes nothing where its time has not come. (04_arrivals.md
R68, 04_arrivals.md R70, 04_arrivals.md R75, 04_arrivals.md R81, 04_arrivals.md R84) -/
def Obligations.ArrivalFramesCloseAndSourcesAreLost : Prop :=
  (∀ (s : State) (a path : Nat), s.Running 4 →
    let u := s.enter 4
    let d := u.dev
    let now := u.clk.elapsed
    let last := if path = 0 then (d.arr a).lastA else (d.arr a).lastB
    let silent := (d.g .arrPathState a).testBit path = true ∧ last + d.g .arrPathTimeout a * 4000 < now
    let past (x : Asm) : Prop := 3 / 2 * d.envPeriod a < ((250 * (now - x.start) : Nat) : Rat)
    (2 ≤ path → exec (.pathTimeout a path) s = .next u) ∧
    (¬silent → exec (.pathTimeout a path) s = .next u) ∧
    (path < 2 → silent → exec (.pathTimeout a path) s = .next (u.become
      ((d.put .arrPathState a (clearMask (d.g .arrPathState a) (2 ^ path))).flag .arrEventFlags a (4 + path)))) ∧
    ((d.g .arrKind a ≠ 1 → d.g .arrKind a ≠ 2 → exec (.frameCloseTimeout a) s = .next u)) ∧
    ((d.arr a).asm = none → exec (.frameCloseTimeout a) s = .next u) ∧
    (∀ x : Asm, (d.arr a).asm = some x → ¬past x → exec (.frameCloseTimeout a) s = .next u) ∧
    (∀ x : Asm, (d.g .arrKind a = 1 ∨ d.g .arrKind a = 2) → ((d.claimDue a).arr a).asm = some x → past x →
      let missing := x.missing + (x.holes 0 x.pic.h).length
      ∃ t, exec (.frameCloseTimeout a) s = .next t ∧ (t.dev.arr a).asm.map Asm.start = (d.arr a).recv.map Asm.start ∧
        (d.g .arrConcealMax a < missing → t.dev.g .arrSeq a = d.g .arrSeq a ∧
          Late.add .arrIncomplete a 1 ∈ t.dev.late ∧ Late.flag .arrEventFlags a 4 ∈ t.dev.late) ∧
        (missing ≤ d.g .arrConcealMax a → x.dest ≠ .skip →
          t.dev.g .arrSeq a = (d.g .arrSeq a + 1) % 2 ^ 32 ∧ t.dev.g .arrFrameTime a = x.time % 2 ^ 64 ∧
          t.dev.g .arrState a = 2 ∧ (0 < missing → Late.flag .arrEventFlags a 8 ∈ t.dev.late)))) ∧
  (∀ (s : State) (a : Nat), (s.ordered 5 (0x100 + a)).Running 5 →
    let u := (s.ordered 5 (0x100 + a)).enter 5
    let d := u.dev
    let past (b : Nat) : Prop := d.g .arrLossFrames a * d.envPeriod a < ((250 * (u.clk.elapsed - b) : Nat) : Rat)
    (d.g .arrState a ≠ 1 → d.g .arrState a ≠ 2 → exec (.sourceLoss a) s = .next u) ∧
    ((∀ b, (d.arr a).starts.head? = some b → ¬past b) → exec (.sourceLoss a) s = .next u) ∧
    (∀ b, (d.g .arrState a = 1 ∨ d.g .arrState a = 2) → (d.arr a).starts.head? = some b → past b →
      ∃ t, exec (.sourceLoss a) s = .next t ∧ t.clk = u.clk ∧ t.dev.g .arrState a = 3 ∧
        Late.flag .arrEventFlags a 1 ∈ t.dev.late ∧ t.dev.g .arrSeq a = d.g .arrSeq a ∧ t.dev.arrs = d.arrs))

/-- A group's frames follow one another; each reaches its commit point once. FRAME_START of a group begins its next frame
where the frame in progress ends, once that has reached its commit point and its end; a group's first frame starts at
once when free-running, and at the last alignment when locked. tg_frame_count is counted. A departure of the group
that is LIVE or FAULTED starts its frame: dep_frames is counted, dep_frame_time takes the start on the time base, and
its raster is empty; one that is ARMED goes LIVE once pictures run. COMMIT_POINT of a frame whose commit instant, with
the group's skew, has passed marks it committed and puts the tick in tg_last_commit; before that instant, or a second
time, it changes nothing. Frame starts come after the commit points of their tick. (02_time_and_order.md R36,
02_time_and_order.md R37, 02_time_and_order.md R40, 03_streams.md R51, 11_departures.md R210) -/
def Obligations.FramesStartAndCommit : Prop :=
  (∀ (s : State) (g : Nat), (s.ordered 6 1).Awake 6 →
    let u := (s.ordered 6 1).enter 6
    let d := u.dev
    let c := d.group g
    let at_ := d.groupNow u.env g
    let due := g < 32 ∧ (c.started = false ∨ (c.committed = true ∧ c.start + c.period ≤ at_))
    let start := if c.started then c.start + c.period else if d.g .tgMode g = 1 then d.alignedBefore g at_ else at_
    (¬due → exec (.frameStart g) s = .next u) ∧
    (due → ∃ t, exec (.frameStart g) s = .next t ∧ t.clk = u.clk ∧
      (t.dev.group g).started = true ∧ (t.dev.group g).start = start ∧ (t.dev.group g).committed = false ∧
      Late.add .tgFrameCount g 1 ∈ t.dev.late ∧ (∀ k, k ≠ g → t.dev.group k = d.group k) ∧
      ∀ n, n < 128 → d.g .depGroup n = g →
        ((d.g .depState n = 2 ∨ d.g .depState n = 3) → Late.add .depFrames n 1 ∈ t.dev.late ∧ (t.dev.dep n).raster = [] ∧
          (t.dev.dep n).composing = true ∧
          t.dev.g .depFrameTime n = (d.toTb u.env g start).floor.toNat % 2 ^ 64) ∧
        (d.g .depState n = 1 → d.picturesRun = true → t.dev.g .depState n = 2) ∧
        (d.g .depState n = 0 → (t.dev.dep n).composing = false))) ∧
  (∀ (s : State) (g : Nat), (s.ordered 6 0).Awake 6 →
    let u := (s.ordered 6 0).enter 6
    let d := u.dev
    let c := d.group g
    let ends := g < 32 ∧ c.started = true ∧ c.committed = false ∧
      d.commitInstant g + ((250 * d.skew g : Nat) : Rat) < d.groupNow u.env g
    (¬ends → exec (.commitPoint g) s = .next u) ∧
    (ends → ∃ t, exec (.commitPoint g) s = .next t ∧ (t.dev.group g).committed = true ∧
      t.dev.g .tgLastCommit g = u.clk.tick ∧ t.clk = u.clk))

/-- Composed lines join the frame in order; write-back and capture complete. OUTPUT_LINE of the next line of a frame in
progress, once its blending may begin, adds one line to the frame and leaves the lines before it; a FAULTED departure
and one torn from its engine add layer 0's fill. Any other line changes nothing. WRITE_BACK_COMPLETE of a departure
with a frame written back lets the arrival that loops it store the frame. CAPTURE_COMPLETE of the oldest captured
frame completes its entry, and counts dep_cap_frames unless the entry is too small for the frame; a frame whose entry
is gone is dropped, and one whose entry is still being read waits. (07_composition.md R139, 07_composition.md R152,
11_departures.md R220, 11_departures.md R221, 17_host.md R358) -/
def Obligations.LinesJoinTheFrame : Prop :=
  (∀ (s : State) (n y : Nat) (late : List Nat) (wb cap : Nat), s.Running 9 →
    let u := s.enter 9
    let d := u.dev
    let c := d.dep n
    let due := n < 128 ∧ c.composing = true ∧ (d.group (d.g .depGroup n)).committed = false ∧ c.raster.length = y ∧
      y < d.g .depHeight n ∧ d.lineTick n y - 80 ≤ (u.clk.elapsed : Int)
    (¬due → exec (.outputLine n y late wb cap) s = .next u) ∧
    (due → ∃ t l, exec (.outputLine n y late wb cap) s = .next t ∧ t.clk = u.clk ∧
      (t.dev.dep n).raster = c.raster ++ [l] ∧
      ((d.g .depState n = 3 ∨ c.torn = true) →
        l = List.replicate (d.g .depWidth n) (fillPx (d.g .layFill (8 * n)) (d.depCoding n))) ∧
      ∀ k, k ≠ n → (t.dev.dep k).raster = (d.dep k).raster)) ∧
  (∀ (s : State) (n : Nat), s.Running 4 →
    let u := s.enter 4
    let d := u.dev
    ((d.dep n).wbPic = none → exec (.writeBackComplete n) s = .next u) ∧
    (∀ p : Pic, (d.dep n).wbPic = some p → ∃ t, exec (.writeBackComplete n) s = .next t ∧ (t.dev.dep n).wbPic = none ∧
      ∀ (a : Nat) (x : Asm), d.loopOf n = some a → ((d.claimDue a).arr a).asm = some x → x.dest ≠ .skip →
        t.dev.g .arrSeq a = (d.g .arrSeq a + 1) % 2 ^ 32 ∧ t.dev.g .arrFrameTime a = x.time % 2 ^ 64 ∧
        t.dev.g .arrState a = 2)) ∧
  (∀ (s : State) (n : Nat), s.Running 9 →
    let u := s.enter 9
    let d := u.dev
    ((d.dep n).capDone = [] → exec (.captureComplete n) s = .next u) ∧
    (∀ (x : Capture) (p : Pic) (rest : List (Capture × Pic)), (d.dep n).capDone = (x, p) :: rest → d.capEntry x = none →
      exec (.captureComplete n) s = .next (u.become (d.updDep n fun c => { c with capDone := rest }))) ∧
    (∀ (x : Capture) (p : Pic) (rest : List (Capture × Pic)) (k : Taken), (d.dep n).capDone = (x, p) :: rest →
      d.capEntry x = some k →
      let f := d.captureSurf n k p
      let span := d.captureCount n x.f
      (k.bytes = [] → exec (.captureComplete n) s = .next u) ∧
      (k.bytes ≠ [] → ∃ t, exec (.captureComplete n) s = .next t ∧ (t.dev.dep n).capDone = rest ∧
        (t.dev.ring x.ring).taken = (d.ring x.ring).taken.filter (fun z => z.index != k.index) ∧
        (captureSmall f k span.2 = false → Late.add .depCapFrames n 1 ∈ t.dev.late) ∧
        (captureSmall f k span.2 = true → ∀ m j, Late.add .depCapFrames m j ∈ t.dev.late →
          Late.add .depCapFrames m j ∈ d.late))))

/-- A packet is handed over when it is due, and as late when its data came too late. PACKET_DUE hands over the next packet
of a frame being sent from the tick it falls due in, when its data was in the line store by that tick;
LATE_PACKET_HANDOVER hands over one whose data came in a later tick. One packet more of the frame is sent, the
extended sequence number grows by 1 modulo 2^32, and dep_pkts_a is counted; with dep_dup, dep_pkts_b too; a late one
is counted in dep_tx_late with bit 4. Otherwise neither changes anything. (11_departures.md R211, 11_departures.md
R213, 11_departures.md R214) -/
def Obligations.PacketsLeaveWhenDueAndReady : Prop :=
  ∀ (s : State) (n : Nat), s.Running 9 →
    let u := s.enter 9
    let d := u.dev
    let c := d.dep n
    let now : Int := (u.clk.elapsed : Int)
    let sent (t : State) : Prop := t.clk = u.clk ∧ t.mem = u.mem ∧ t.dev.objs = d.objs ∧
      (t.dev.dep n) = { c with packet := c.packet + 1, extSeq := (c.extSeq + 1) % 2 ^ 32 } ∧
      Late.add .depPktsA n 1 ∈ t.dev.late ∧ (d.on .depDup n = true → Late.add .depPktsB n 1 ∈ t.dev.late) ∧
      ∀ k, k ≠ n → t.dev.dep k = d.dep k
    ((d.packetLeft n = false ∨ d.packetReady n c.packet = none) →
      exec (.packetDue n) s = .next u ∧ exec (.latePacketHandover n) s = .next u) ∧
    (∀ came : Nat, d.packetLeft n = true → d.packetReady n c.packet = some came →
      ((d.packetTick n < (came : Int) ∨ now < d.packetTick n) → exec (.packetDue n) s = .next u) ∧
      ((came : Int) ≤ d.packetTick n → d.packetTick n ≤ now → ∃ t, exec (.packetDue n) s = .next t ∧ sent t) ∧
      ((came : Int) ≤ d.packetTick n → exec (.latePacketHandover n) s = .next u) ∧
      (d.packetTick n < (came : Int) → ∃ t, exec (.latePacketHandover n) s = .next t ∧ sent t ∧
        Late.add .depTxLate n 1 ∈ t.dev.late ∧ Late.flag .depEventFlags n 16 ∈ t.dev.late))

/-- Frame syncs latch and deliver, ports and PLLs change state, trackers lock. FRAME_SYNC of a port that is not OFF counts
the frame, latches the masks and the loop in force before the tick's control writes, records tdm_last_latch, and
delivers the interval it ends, filtered by the masks of the frame before: a master runs, and a slot received is its
word, a masked one 0; a slot that wraps past the frame's end delivers the word of the frame before; a slave's
malformed frame is counted and delivers 0. An OFF port takes nothing. PORT_LOSS of a RUNNING slave that is silent for
two frame periods, or off its rate, makes it LOST with its sources 0, and the PLLs that take it for reference enter
HOLDOVER. A PLL locks after 1 s in ACQUIRING with a phase error within 50 ns, falls back to ACQUIRING, enters HOLDOVER
from LOCKED or ACQUIRING when an AUDCLK reference is lost, and returns to ACQUIRING; in any other state the event
changes nothing. TRACKER_LOCK of an ACQUIRING tracker puts those of its channels whose input clock runs into LOCKED,
each with the ratio measured. (12_audio_ports.md R235, 12_audio_ports.md R236, 12_audio_ports.md R237,
12_audio_ports.md R238, 12_audio_ports.md R241, 12_audio_ports.md R245) -/
def Obligations.AudioPortsAndClocks : Prop :=
  (∀ (s : State) (p : Nat) (wire : List Nat), s.Running 4 → p < 16 →
    let u := s.enter 4
    let d := u.dev
    let c := d.tdm p
    let whole := wire.length = d.g .tdmFrameLen p
    let plain : Prop := c.synced = true ∧ c.now.loop = 0 ∧ c.slip = 0 ∧ (d.g .napPorts).testBit p = false
    let delivers (t : State) (k v : Nat) : Prop := (t.dev.audio.srcs.getD (32 * p + k) {}).value = v
    (d.g .tdmState p = 0 → exec (.frameSync p wire) s = .next (u.become (d.trackersFollow u.clk.elapsed))) ∧
    (d.g .tdmState p ≠ 0 → ∃ t, exec (.frameSync p wire) s = .next t ∧ t.clk = u.clk ∧ t.mem = u.mem ∧
      Late.add .tdmFrames p 1 ∈ t.dev.late ∧ t.dev.g .tdmLastLatch p = u.clk.tick ∧ (t.dev.tdm p).synced = true ∧
      (t.dev.tdm p).now.tx = d.g .tdmTxMask p ∧ (t.dev.tdm p).now.rx = d.g .tdmRxMask p ∧
      (t.dev.tdm p).now.loop = d.g .tdmLoop p ∧
      (d.g .tdmMode p ≠ 1 → t.dev.g .tdmState p = 2 ∧
        (plain → ∀ k, k < 32 →
          (d.slotWraps p k = false → delivers t k
            (if k < d.g .tdmSlots p ∧ c.now.rx.testBit k = true then d.slotWord p k wire [] else 0)) ∧
          (d.slotWraps p k = true → 2 ≤ c.stamps.length → c.wireBad = false → delivers t k
            (if k < d.g .tdmSlots p ∧ c.before.rx.testBit k = true then d.slotWord p k c.wire wire else 0)))) ∧
      (d.g .tdmMode p = 1 → c.synced = true → ¬whole → Late.add .tdmMalformed p 1 ∈ t.dev.late ∧
        (t.dev.tdm p).good = 0 ∧ (d.g .tdmState p = 2 → plain → ∀ k, k < 32 → d.slotWraps p k = false →
          delivers t k 0)))) ∧
  (∀ (s : State) (p : Nat), (s.ordered 5 (0x0D0 + p)).Running 5 → p < 16 →
    let u := (s.ordered 5 (0x0D0 + p)).enter 5
    let d := u.dev
    let lost := d.g .tdmMode p = 1 ∧ d.g .tdmState p = 2 ∧
      ((∃ b, (d.tdm p).stamps.head? = some b ∧ 2000000000 < 250 * (u.clk.elapsed - b) * d.g .tdmRate p) ∨
        d.tdmOffRate p = true)
    (¬lost → exec (.portLoss p) s = .next (u.become (d.trackersFollow u.clk.elapsed))) ∧
    (lost → ∃ t, exec (.portLoss p) s = .next t ∧ t.dev.g .tdmState p = 3 ∧ Late.flag .tdmEventFlags p 1 ∈ t.dev.late ∧
      (∀ k, k < 32 → (t.dev.audio.srcs.getD (32 * p + k) {}).value = 0) ∧
      ∀ k, k < 4 → d.g .pllRef k = 0x10 + p → (d.g .pllState k = 2 ∨ d.g .pllState k = 3) → t.dev.g .pllState k = 4)) ∧
  (∀ (s : State) (k : Nat), s.Awake 9 →
    let u := s.enter 9
    let d := u.dev
    let st := d.g .pllState k
    let moved (c : Instr) (v : Nat) : Prop := ∃ t, exec c s = .next t ∧ t.clk = u.clk ∧ t.dev.g .pllState k = v ∧
      Late.flag .pllEventFlags k 1 ∈ t.dev.late ∧ ∀ j, j ≠ k → t.dev.g .pllState j = d.g .pllState j
    let long := d.audio.plls.getD k 0 + 4000000 ≤ u.clk.elapsed
    (st = 2 → long → moved (.pllLock k) 3 ∧ ∃ t, exec (.pllLock k) s = .next t ∧
      -50 ≤ t.dev.gi .pllPhaseErr k ∧ t.dev.gi .pllPhaseErr k ≤ 50) ∧ (¬(st = 2 ∧ long) → exec (.pllLock k) s = .next u) ∧
    (st = 3 → moved (.pllLockLoss k) 2) ∧ (st ≠ 3 → exec (.pllLockLoss k) s = .next u) ∧
    let pin : Prop := d.g .pllRef k < 0x10 ∧ d.g .pllRef k ≠ 1
    ((st = 2 ∨ st = 3) → pin → moved (.pllRefLoss k) 4) ∧
    (¬((st = 2 ∨ st = 3) ∧ pin) → exec (.pllRefLoss k) s = .next u) ∧
    (st = 4 → d.g .pllRef k < 0x10 → moved (.pllRefReturn k) 2) ∧
    (¬(st = 4 ∧ d.g .pllRef k < 0x10) → exec (.pllRefReturn k) s = .next u)) ∧
  (∀ (s : State) (k ratio : Nat), s.Running 9 →
    let u := s.enter 9
    let d := u.dev
    (∀ x : Tracker, d.audio.trackers.find k = some x → x.st = 1 → ∃ t, exec (.trackerLock k ratio) s = .next t ∧
      t.clk = u.clk ∧ ∀ n ∈ d.asrcUsed, d.asrcQuad n = x.quad →
        t.dev.g .asrcState n = (if d.clockRuns (d.g .asrcInClock n) then 2 else 3) ∧ t.dev.g .asrcRatio n = ratio % 2 ^ 32) ∧
    ((∀ x : Tracker, d.audio.trackers.find k = some x → x.st ≠ 1) → exec (.trackerLock k ratio) s = .next u))

/-- Destinations form samples, ducking follows its key, missing samples and silent flows are noted. MIX_SAMPLE forms the
destination's sample from its terms; an unrouted destination is silent, and one whose one route has settled at 0 dB
carries its source's sample. A sample formed for an ASRC channel that is not LOCKED leaves 0 at the channel's source;
one for a head is sent, cut to head_aud_depth, while the head is ACTIVE and sends video and the channel is among its
first head_aud_ch; the sample that completes a send flow's packet counts ns_pkts and starts the next packet.
DUCK_BLOCK without a key leaves the destination OPEN; with one it moves through ATTACK, DUCKED and RELEASE by the
key's peak in the block, the gain reached and the hold. SAMPLE_MISSING of a sample a RECEIVING flow or a slot does not
hold at its decision point marks the gap, and for a flow counts one underrun for the gap with bit 1. FLOW_LOSS of a
flow silent for 20 ms makes it LOST. (13_audio_routing.md R257, 13_audio_routing.md R258, 13_audio_routing.md R259,
13_audio_routing.md R261, 13_audio_routing.md R262, 13_audio_routing.md R263, 13_audio_routing.md R264,
12_audio_ports.md R245) -/
def Obligations.AudioMixesDucksAndPlays : Prop :=
  (∀ s : State, s.Running 9 →
    let u := s.enter 9
    let d := u.dev
    let now := u.clk.elapsed
    (∀ n : Nat,
      let x := (d.mixSample u.env n).2
      ((n < 512 ∨ 960 ≤ n) → exec (.mixSample n) s = .next (u.become x)) ∧
      (768 ≤ n → n < 896 → d.g .asrcState (n - 768) ≠ 2 → exec (.mixSample n) s = .next (u.become (x.srcPut now n 0))) ∧
      (768 ≤ n → n < 896 → d.g .asrcState (n - 768) = 2 → ∃ t, exec (.mixSample n) s = .next t ∧
        (t.dev.dst n).out = (x.dst n).out ∧ t.dev.objs = x.objs) ∧
      (896 ≤ n → n < 960 →
        let h := (n - 896) / 8
        ∃ t, exec (.mixSample n) s = .next t ∧ t.dev.dst n = x.dst n ∧ (t.dev.head h).audio.find (n % 8) =
          if d.g .headState h = headActive ∧ (d.head h).video = true ∧ n % 8 < d.g .headAudCh h
          then some ((x.dst n).out / 2 ^ (32 - d.g .headAudDepth h)) else none) ∧
      (∀ f : Nat, 512 ≤ n → n < 768 → f < 64 → d.on .nsEnable f = true → d.g .nsFirst f + d.g .nsChannels f = n - 512 + 1 →
        (∀ k, k < f → ¬(d.on .nsEnable k = true ∧ d.g .nsFirst k + d.g .nsChannels k = n - 512 + 1)) →
        let c := d.audio.sends.getD f {}
        let cut := if d.g .nsEncoding f = 0 then 2 ^ 16 else 2 ^ 8
        let line := (List.range (d.g .nsChannels f)).map fun i => (x.dst (512 + d.g .nsFirst f + i)).out / cut * cut
        ∃ t, exec (.mixSample n) s = .next t ∧ t.dev.dst n = x.dst n ∧
          (c.samples.length + 1 < d.g .nsPacketSamples f → (t.dev.audio.sends.getD f {}).seq = c.seq ∧
            (t.dev.audio.sends.getD f {}).samples = c.samples ++ [line]) ∧
          (d.g .nsPacketSamples f ≤ c.samples.length + 1 → Late.add .nsPkts f 1 ∈ t.dev.late ∧
            t.dev.audio.sends.getD f {} = { seq := (c.seq + 1) % 2 ^ 16 })) ∧
      (512 ≤ n → n < 768 →
        (∀ f, f < 64 → ¬(d.on .nsEnable f = true ∧ d.g .nsFirst f + d.g .nsChannels f = n - 512 + 1)) →
        exec (.mixSample n) s = .next (u.become x)) ∧
      (let q := d.dstInForce now n
       (q.srcs = List.replicate 8 0xFFFF → (d.dst n).terms = [] →
          ∃ t, exec (.mixSample n) s = .next t ∧ (t.dev.dst n).out = 0) ∧
       ∀ (r k : Nat) (last start : Int), r ≠ 0xFFFF → q.srcs = r :: List.replicate 7 0xFFFF →
          q.gains.getD 0 0 = 0 → q.gain = 0 → q.mask.testBit 0 = false →
          (d.dst n).terms = [{ slot := 0, src := r, start := start, step := k, len := k, last := last,
                               gain := some { gain := 0, ducked := false, depth := 0 }, seen := d.srcReturns r }] →
          ∃ t, exec (.mixSample n) s = .next t ∧ (t.dev.dst n).out = saturate32 (asInt 32 (d.srcSample u.env r)))) ∧
    (∀ n : Nat,
      let q := d.dstInForce now n
      let depth : Rat := ((q.depth : Int) : Rat)
      let gain := d.duckGain u.env n q
      let active := atLeastDb (d.blockPeak u.env n q.key) q.thresh
      let heard := if active then now else (d.dst n).active
      ∃ t, exec (.duckBlock n) s = .next t ∧ t.clk = u.clk ∧ t.mem = u.mem ∧
        (t.dev.dst n).peak = 0 ∧ (t.dev.dst n).keyPeak = 0 ∧ (∀ k, k ≠ n → t.dev.dst k = d.dst k) ∧
        (q.key = 0xFFFF → t.dev.g .dstDuckState n = 0) ∧
        (q.key ≠ 0xFFFF →
          (d.g .dstDuckState n = 0 → t.dev.g .dstDuckState n = if active then (if q.depth < 0 then 1 else 2) else 0) ∧
          (d.g .dstDuckState n = 1 → t.dev.g .dstDuckState n = if gain ≤ depth then 2 else 1) ∧
          (d.g .dstDuckState n = 2 → t.dev.g .dstDuckState n = if heard + q.hold * 4000 ≤ now then 3 else 2) ∧
          (d.g .dstDuckState n = 3 → t.dev.g .dstDuckState n =
            if active then (if gain ≤ depth then 2 else 1) else if 0 ≤ gain then 0 else 3))) ∧
    (∀ n f : Nat, 512 ≤ n → n < 768 → d.recvFlow (n - 512) = some f → d.on .nrEnable f = true → d.g .nrState f = 2 →
      f < 64 →
      let m := d.playing u.env f + 32
      let old : Prop := (d.flow f).gap = true ∧ d.heldSample f (m - 1) = none
      (d.heldSample f m ≠ none → exec (.sampleMissing n) s = .next u) ∧
      (d.heldSample f m = none → ∃ t, exec (.sampleMissing n) s = .next t ∧ (t.dev.flow f).gap = true ∧
        (t.dev.flow f).missed = true ∧ (old → t.dev.late = d.late) ∧
        (¬old → Late.add .nrUnderruns f 1 ∈ t.dev.late ∧ Late.flag .nrEventFlags f 2 ∈ t.dev.late))) ∧
    (∀ n : Nat, 896 ≤ n → n < 960 →
      let k := 0x80 + (n - 896) / 8
      (d.heldSample k (d.playing u.env k + 32) ≠ none → exec (.sampleMissing n) s = .next u) ∧
      (d.heldSample k (d.playing u.env k + 32) = none → ∃ t, exec (.sampleMissing n) s = .next t ∧
        (t.dev.flow k).missed = true ∧ t.dev.late = d.late)) ∧
    (∀ n : Nat, d.unitOf n = none → exec (.sampleMissing n) s = .next u)) ∧
  (∀ (s : State) (f : Nat), (s.ordered 5 0x0E0).Running 5 →
    let u := (s.ordered 5 0x0E0).enter 5
    let d := u.dev
    (d.g .nrState f = 2 → (d.flow f).last + 80000 ≤ u.clk.elapsed → ∃ t, exec (.flowLoss f) s = .next t ∧
      t.dev.g .nrState f = 3 ∧ Late.flag .nrEventFlags f 1 ∈ t.dev.late ∧ t.dev.audio = d.audio) ∧
    (¬(d.g .nrState f = 2 ∧ (d.flow f).last + 80000 ≤ u.clk.elapsed) → exec (.flowLoss f) s = .next u))

/-- Porter starts, refuses, stalls, completes and aborts the commands of its rings. A channel that is enabled, IDLE and
not stopped starts the entry at the head of its ring by the command of the entry's operation; otherwise the command
changes nothing. NOP completes with 0, a reserved operation and an entry that does not decode with 0x0201, a command
that fails a check of R290 with that check's code; one that conflicts with another channel's command in progress makes
the channel STALLED with bit 2; any other is in progress and the channel RUNNING. PORTER_COMPLETION, once the
command's bursts have had the time R295 gives them, writes all units of the command in progress and completes it with
0, or with 0x0520 after a poisoned read. A completion leaves its code in ptr_last_status, counts ptr_done and, with a
code, ptr_errors, and takes the entry off the ring. Channels start in ascending number after the control writes of a
tick, and completions follow (R293). PORTER_ABORT marks the channel for the abort of this tick's rank 8 and counts
bm_resets; PORTER_RESUME lets a HALTED channel go on. Other channels stand. (14_porter.md R278, 14_porter.md R290,
14_porter.md R293, 14_porter.md R295, 14_porter.md R296, 14_porter.md R297) -/
def Obligations.PorterRunsItsCommands : Prop :=
  ∀ (s : State) (k : Nat),
    let done (u t : State) (x : Taken) (code : Nat) : Prop :=
      let d := u.dev
      t.clk = u.clk ∧ t.dev.g .ptrLastStatus k = code ∧ Late.add .ptrDone k 1 ∈ t.dev.late ∧ (t.dev.chan k).job = none ∧
      (t.dev.ring (d.g .ptrRing k)).taken = (d.ring (d.g .ptrRing k)).taken.filter (fun y => y.index != x.index) ∧
      (code ≠ 0 → Late.add .ptrErrors k 1 ∈ t.dev.late ∧ Late.flag .ptrEventFlags k 2 ∈ t.dev.late) ∧
      t.dev.g .ptrState k = (if code ≠ 0 ∧ d.on .ptrHalt k = true then 4 else if d.on .ptrEnable k then 1 else 0) ∧
      ∀ m, m ≠ k → t.dev.chan m = d.chan m
    ((s.ordered 8 k).Running 8 → ∀ (host : List Byte) (op : Nat) (c : Instr),
      ((c = .porterNop k ∧ (op = 0 ∨ 3 < op)) ∨ (c = .porterCopy k host ∧ op = 1) ∨ (c = .porterFill k host ∧ op = 2) ∨
        (c = .porterBlend k host ∧ op = 3)) →
      let u := (s.ordered 8 k).enter 8
      let d := u.dev
      let ready := d.on .ptrEnable k = true ∧ (d.chan k).stopped = false ∧ d.g .ptrState k = 1 ∧ (d.chan k).job = none
      (¬ready → exec c s = .next u) ∧
      (d.ptrHead k = none → exec c s = .next u) ∧
      (∀ x : Taken, d.ptrHead k = some x → entryByte x 0 = op → ready →
        (ptrDecode x = none → ∃ t, exec c s = .next t ∧ done u t x 0x0201) ∧
        (∀ p : PtrCmd, ptrDecode x = some p →
          let frame := match p.b with
            | some b => if b.space = 3 then d.ptrFrame u.env b.addr else none
            | none => none
          let q := match p.b, frame with
            | some b, some f => { p with b := some (d.frameSurf b f) }
            | _, _ => p
          let code := d.ptrCode q frame
          let job := (d.ptrJob u.env x q frame host).1
          (code ≠ 0 → ∃ t, exec c s = .next t ∧ done u t x code) ∧
          (code = 0 → op = 0 → ∃ t, exec c s = .next t ∧ done u t x 0) ∧
          (code = 0 → op ≠ 0 → d.ptrConflict k job = true → exec c s = .next (u.become
            (((d.putChan k { d.chan k with hostData := host }).put .ptrState k 3).flag .ptrEventFlags k 2))) ∧
          (code = 0 → op ≠ 0 → d.ptrConflict k job = false → ∃ t, exec c s = .next t ∧ t.mem = u.mem ∧
            (t.dev.chan k).job = some job ∧ job.entry = x ∧ t.dev.g .ptrState k = 2 ∧ t.dev.rings = d.rings ∧
            ∀ m, m ≠ k → t.dev.chan m = d.chan m)))) ∧
    ((s.ordered 8 (4 + k)).Running 8 →
      let u := (s.ordered 8 (4 + k)).enter 8
      let d := u.dev
      (d.ptrMoved u.clk.elapsed k = false → exec (.porterCompletion k false) s = .next u) ∧
      (∀ b : Bool, (d.chan k).job = none → exec (.porterCompletion k b) s = .next u) ∧
      (∀ j : PtrJob, (d.chan k).job = some j →
        (d.ptrMoved u.clk.elapsed k = true → ∃ t ps, exec (.porterCompletion k false) s = .next t ∧ done u t j.entry 0 ∧
          Late.add .ptrBytesWritten k j.bytesWritten ∈ t.dev.late ∧ Late.add .ptrBytesRead k j.bytesRead ∈ t.dev.late ∧
          ps.length = 32 ∧ t.mem = u.mem.apply (j.units.flatten ++ ps)) ∧
        (d.ptrReads k = false → exec (.porterCompletion k true) s = .next u) ∧
        (d.ptrReads k = true → ∃ t, exec (.porterCompletion k true) s = .next t ∧ done u t j.entry 0x0520))) ∧
    (s.Awake 7 →
      let u := s.enter 7
      let d := u.dev
      (∃ t, exec (.porterAbort k) s = .next t ∧ t.dev.chan k = { d.chan k with aborting := true } ∧ t.mem = u.mem ∧
        t.dev.objs = d.objs ∧ Late.add .bmResets 0 1 ∈ t.dev.late ∧ Late.flag .bmEventFlags 0 2 ∈ t.dev.late ∧
        ∀ m, m ≠ k → t.dev.chan m = d.chan m) ∧
      (d.g .ptrState k ≠ 4 → exec (.porterResume k) s = .next u) ∧
      (d.g .ptrState k = 4 →
        exec (.porterResume k) s = .next (u.become (d.put .ptrState k (if d.on .ptrEnable k then 1 else 0)))))

/-- The block as it serves an accepted request of session `k`: the session's idle time has restarted and the answer is
empty (R411, R420). -/
def Sys2Proof.Machine.State.asking (s : State) (k : Nat) : Dev := ((s.enter 7).dev.touch (s.enter 7).env k).answerCode 0

/-- Command `c`, session `k`'s write of object `o`, is turned away before it acts, its code the answer: 0x0301 while the
dictionary is not ready, 0x0102 without the session, else by the session's role and the object's gate (R411). -/
def Sys2Proof.Machine.State.TurnsAway (s : State) (c : Instr) (k : Nat) (o : Obj) : Prop :=
  let u := s.enter 7
  let d := u.dev
  let code := d.writeCode (d.g .sesRole k) o
  (d.dictReady = false → exec c s = .next (u.become (d.answerCode 0x0301))) ∧
  (d.dictReady = true → d.isOpen k = false → exec c s = .next (u.become (d.answerCode 0x0102))) ∧
  (d.dictReady = true → d.isOpen k = true → code ≠ 0 → ∃ t, exec c s = .next t ∧ t.dev.answer.code = code ∧
    t.mem = u.mem ∧ t.clk = u.clk ∧ t.dev.late = d.late ∧ t.dev.stagings = d.stagings ∧ t.dev.takes = d.takes ∧
    t.dev.kr = d.kr ∧ ∀ (x : Obj) (i : Nat), x ≠ .sesLastTick → x ≠ .sesLastStatus → t.dev.g x i = d.g x i)

/-- Session `k`'s write of object `o` is accepted: the dictionary is ready, the session open, and its role and the
object's gate let it write (R411). -/
def Sys2Proof.Machine.State.Accepts (s : State) (k : Nat) (o : Obj) : Prop :=
  let d := (s.enter 7).dev
  d.dictReady = true ∧ d.isOpen k = true ∧ d.writeCode (d.g .sesRole k) o = 0

/-- Stagings open, are sealed or held, and are discarded. STG_OPEN, STG_SEAL, STG_SEAL_HELD and STG_ABANDON are turned
away as every session's write is. STG_OPEN opens the lowest FREE staging of 1 to 15 for its session, empty; with one
held it answers 0x0348, with none free 0x0409. A seal without an OPEN staging answers 0x0340; otherwise, on the first
failing check the staging stays OPEN with its entries, stg_last_status holds the code and bit 1 of stg_event is set,
and when every check passes it becomes SEALED, or HELD (which holds layer objects of one departure alone, 0x0345),
with stg_seal_tick the tick. STG_ABANDON makes the session's staging FREE. STG0_SEAL, STG0_HOLD and STG0_ABANDON do
the same for staging 0: a seal of it while it is not OPEN leaves 0x0340 in stg_last_status, and an abandon while it is
neither OPEN nor HELD answers 0x0340 and changes nothing. (06_takes.md R114, 06_takes.md R116, 06_takes.md R119,
06_takes.md R130, 06_takes.md R134) -/
def Obligations.StagingsOpenSealAndAreDiscarded : Prop :=
  ∀ s : State, s.Awake 7 →
    let u := s.enter 7
    let d := u.dev
    let sealed (d : Dev) (t : State) (j role : Nat) (held : Bool) : Prop :=
      let code := if held = true ∧ layersOfOne (d.stg j).entries = false then 0x0345
        else (d.sealView (d.stg j).entries role).code.1
      t.dev.answer.code = code ∧ t.dev.g .stgLastStatus j = code % 2 ^ 16 ∧
      (code ≠ 0 → t.dev.g .stgState j = 1 ∧ t.dev.stg j = d.stg j ∧ Late.flag .stgEvent j 2 ∈ t.dev.late) ∧
      (code = 0 → t.dev.g .stgState j = (if held then 3 else 2) ∧ t.dev.g .stgSealTick j = u.clk.tick ∧
        (t.dev.stg j).sealed = u.clk.elapsed)
    let freed (t : State) (j : Nat) : Prop :=
      t.dev.g .stgState j = 0 ∧ t.dev.g .stgOwner j = 0xFFFF ∧ (t.dev.stg j).entries = [] ∧ t.dev.answer.code = 0
    (∀ k : Nat, s.TurnsAway (.stgOpen k) k .stgOpen ∧ s.TurnsAway (.stgSeal k) k .stgSeal ∧
      s.TurnsAway (.stgSealHeld k) k .stgSeal ∧ s.TurnsAway (.stgAbandon k) k .stgAbandon) ∧
    (∀ k : Nat, s.Accepts k .stgOpen →
      let d := s.asking k
      (d.heldStg k ≠ none → ∃ t, exec (.stgOpen k) s = .next t ∧ t.dev.answer.code = 0x0348 ∧ t.dev.stagings = d.stagings) ∧
      (d.heldStg k = none → (∀ j, 1 ≤ j → j ≤ 15 → d.g .stgState j ≠ 0) →
        ∃ t, exec (.stgOpen k) s = .next t ∧ t.dev.answer.code = 0x0409 ∧ t.dev.stagings = d.stagings) ∧
      (∀ j, d.heldStg k = none → 1 ≤ j → j ≤ 15 → d.g .stgState j = 0 → (∀ i, 1 ≤ i → i < j → d.g .stgState i ≠ 0) →
        ∃ t, exec (.stgOpen k) s = .next t ∧ t.dev.answer.code = 0 ∧ t.dev.g .stgState j = 1 ∧
          t.dev.g .stgOwner j = k % 2 ^ 16 ∧ t.dev.g .stgEntries j = 0 ∧ (t.dev.stg j).entries = [] ∧
          ∀ i, i ≠ j → t.dev.stg i = d.stg i ∧ t.dev.g .stgState i = d.g .stgState i)) ∧
    (∀ k : Nat, s.Accepts k .stgSeal →
      let d := s.asking k
      (d.openStg k = none → ∃ t, exec (.stgSeal k) s = .next t ∧ t.dev.answer.code = 0x0340 ∧ t.dev.stagings = d.stagings) ∧
      (d.openStg k = none → ∃ t, exec (.stgSealHeld k) s = .next t ∧ t.dev.answer.code = 0x0340 ∧
        t.dev.stagings = d.stagings) ∧
      (∀ j, d.openStg k = some j →
        (∃ t, exec (.stgSeal k) s = .next t ∧ sealed d t j (d.g .sesRole k) false) ∧
        (∃ t, exec (.stgSealHeld k) s = .next t ∧ sealed d t j (d.g .sesRole k) true))) ∧
    (∀ k : Nat, s.Accepts k .stgAbandon →
      let d := s.asking k
      (d.heldStg k = none → ∃ t, exec (.stgAbandon k) s = .next t ∧ t.dev.answer.code = 0x0340 ∧
        t.dev.stagings = d.stagings) ∧
      (∀ j, d.heldStg k = some j → ∃ t, exec (.stgAbandon k) s = .next t ∧ freed t j)) ∧
    ((∀ c : Instr, (c = .stg0Seal ∨ c = .stg0Hold) → d.g .stgState 0 ≠ 1 →
        exec c s = .next (u.become ((d.put .stgLastStatus 0 0x0340).answerCode 0x0340))) ∧
      (d.g .stgState 0 = 1 → (∃ t, exec .stg0Seal s = .next t ∧ sealed d t 0 3 false) ∧
        (∃ t, exec .stg0Hold s = .next t ∧ sealed d t 0 3 true)) ∧
      ((d.g .stgState 0 = 1 ∨ d.g .stgState 0 = 3) → ∃ t, exec .stg0Abandon s = .next t ∧ freed t 0) ∧
      (d.g .stgState 0 ≠ 1 → d.g .stgState 0 ≠ 3 →
        exec .stg0Abandon s = .next (u.become (d.answerCode 0x0340))))

/-- Takes and salvos are accepted or refused, cancelled and cleared. TAKE on a departure that is not LIVE leaves 0x0346 in
tk_status, with neither a mask nor a staging 0x0201, with a layer at or above dep_layers 0x0347, and with any code of
R120 nothing else changes; accepted, it undoes the departure's older take with cause 2 and stands ARMED, warm when its
engine has room in load and line buffers, else cold. TAKE_CANCEL undoes the outstanding take with cause 1; without one
it leaves 0x0341, or 0x0342 in the tick a take landed. SALVO_COPY puts the departure's template into its salvo while
that is BUILDING or DONE, and SALVO_CLEAR empties it; otherwise 0x0349. SALVO_GO leaves 0x0349, 0x0201 or 0x0710, or
the code of the first member that fails with no member accepted; otherwise the salvo is PENDING. SALVO_CANCEL undoes
every take of the salvo. (06_takes.md R120, 06_takes.md R121, 06_takes.md R127, 06_takes.md R128, 06_takes.md R132) -/
def Obligations.TakesAndSalvosAreAcceptedOrRefused : Prop :=
  ∀ s : State, s.Awake 7 →
    let u := s.enter 7
    let d := u.dev
    let refused (c : Instr) (o : Obj) (i code : Nat) : Prop :=
      exec c s = .next (u.become ((d.put o i code).answerCode code))
    (∀ n : Nat,
      let m := d.template n
      let w := d.undo n 2
      (d.g .depState n ≠ 2 → refused (.take n) .tkStatus n 0x0346) ∧
      (d.g .depState n = 2 → d.g .tkMask n = 0 → d.g .tkStaging n = 0xFF → refused (.take n) .tkStatus n 0x0201) ∧
      (d.g .depState n = 2 → (∃ l ∈ setBitsOf 8 (d.g .tkMask n), d.g .depLayers n ≤ l) →
        refused (.take n) .tkStatus n 0x0347) ∧
      (d.takeCode n m ≠ 0 → refused (.take n) .tkStatus n (d.takeCode n m)) ∧
      (d.takeCode n m = 0 → ∃ t x, exec (.take n) s = .next t ∧ t.clk = u.clk ∧ t.mem = u.mem ∧
        t.dev.takeOf n = some x ∧ x.phase = .armed ∧ x.warm = w.takeWarm n m ∧ x.salvo = none ∧ x.mask = m.mask ∧
        x.srcs = m.srcs ∧ t.dev.g .tkState n = 1 ∧ t.dev.g .tkKind n = (if x.warm then 1 else 2) ∧
        t.dev.g .tkStatus n = 0 ∧ t.dev.g .tkAcceptTick n = u.clk.tick ∧ t.dev.answer.code = 0 ∧
        (d.takeOf n ≠ none → t.dev.g .tkUndoCause n = 2 ∧ Late.add .tkUndone n 1 ∈ t.dev.late) ∧
        (x.warm = false → Late.add .tkColds n 1 ∈ t.dev.late))) ∧
    (∀ n : Nat,
      (d.takeOf n = none → d.landedAt.find n = some u.clk.tick → refused (.takeCancel n) .tkStatus n 0x0342) ∧
      (d.takeOf n = none → d.landedAt.find n ≠ some u.clk.tick → refused (.takeCancel n) .tkStatus n 0x0341) ∧
      (d.takeOf n ≠ none → ∃ t, exec (.takeCancel n) s = .next t ∧ t.dev.takeOf n = none ∧
        t.dev.g .tkUndoCause n = 1 ∧ t.dev.g .tkState n = 0 ∧ t.dev.g .tkStatus n = 0 ∧
        Late.add .tkUndone n 1 ∈ t.dev.late)) ∧
    (∀ n : Nat,
      let k := d.g .tkSalvo n
      let free := d.g .svState k = 0 ∨ d.g .svState k = 3
      (¬free → refused (.salvoCopy n) .tkStatus n 0x0349) ∧
      (free → ∃ t, exec (.salvoCopy n) s = .next t ∧ (t.dev.salvo k).members = (d.salvo k).members.put n (d.template n) ∧
        t.dev.g .svState k = 0 ∧ t.dev.g .tkStatus n = 0 ∧ t.dev.takes = d.takes ∧
        ∀ j, j ≠ k → t.dev.salvo j = d.salvo j)) ∧
    (∀ k : Nat,
      let free := d.g .svState k = 0 ∨ d.g .svState k = 3
      let members := (d.salvo k).members
      let started : Dev :=
        { d with salvos := d.salvos.put k { d.salvo k with live := members.map fun (p : Nat × Template) => p.1 } }
      let go := started.salvoAccept u.clk.tick k {} members
      (¬free → refused (.salvoGo k) .svStatus k 0x0349) ∧
      (free → members = [] → refused (.salvoGo k) .svStatus k 0x0201) ∧
      (free → members ≠ [] → u.clk.timebase + 10000000000 < d.g .svTime k → refused (.salvoGo k) .svStatus k 0x0710) ∧
      (free → members ≠ [] → d.g .svTime k ≤ u.clk.timebase + 10000000000 →
        (go.1 ≠ 0 → refused (.salvoGo k) .svStatus k go.1) ∧
        (go.1 = 0 → ∃ t, exec (.salvoGo k) s = .next t ∧ t.dev.takes = go.2.takes ∧ t.dev.g .svState k = 1 ∧
          t.dev.g .svStatus k = 0 ∧ t.dev.g .svLate k = 0 ∧ t.dev.g .svGoTick k = u.clk.tick)) ∧
      (∃ t, exec (.salvoCancel k) s = .next t ∧ t.dev.g .svStatus k = 0 ∧
        (∀ n x, t.dev.takeOf n = some x → x.salvo ≠ some k ∧ d.takeOf n = some x) ∧
        ∀ n, (∀ x, (n, x) ∈ d.takes → x.salvo ≠ some k) → t.dev.takeOf n = d.takeOf n) ∧
      (¬free → refused (.salvoClear k) .svStatus k 0x0349) ∧
      (free → ∃ t, exec (.salvoClear k) s = .next t ∧ (t.dev.salvo k).members = [] ∧ t.dev.g .svState k = 0 ∧
        t.dev.g .svStatus k = 0 ∧ t.dev.g .svMembersLo k = 0 ∧ t.dev.g .svMembersHi k = 0 ∧ t.dev.takes = d.takes))

/-- The dictionary engine serves a request of peer `p` at rank `r` at once: the peer is heard, nothing of its own waits,
and the dictionary is ready (R410, R411, R413). -/
def Sys2Proof.Machine.State.Serves (s : State) (r : Nat) (p : Peer) : Prop :=
  let d := (s.enter r).dev
  d.hears p = true ∧ d.assisting p = false ∧ (∀ w ∈ d.ses.held, w.peer ≠ p) ∧ d.dictReady = true

/-- The block with the idle time of the peer's session, if it holds one, restarted (R420). -/
def Sys2Proof.Machine.State.touched (s : State) (r : Nat) (p : Peer) : Dev :=
  match (s.enter r).dev.sessionOf p with
  | some k => (s.enter r).dev.touch (s.enter r).env k
  | none => (s.enter r).dev

/-- A request was refused: the code is the answer, and but for the idle time, the last status of a session and the answer
nothing of the block's configuration changed (R411). -/
def Sys2Proof.Machine.State.RefusedTo (u t : State) (code : Nat) : Prop :=
  t.dev.answer.code = code ∧ t.clk = u.clk ∧ t.dev.stagings = u.dev.stagings ∧ t.dev.takes = u.dev.takes ∧
  t.dev.kr = u.dev.kr ∧ t.dev.ses.assists = u.dev.ses.assists ∧ t.dev.ses.openings = u.dev.ses.openings ∧
  ∀ (x : Obj) (i : Nat), x ≠ .sesLastTick → x ≠ .sesLastStatus → t.dev.g x i = u.dev.g x i

/-- The dictionary answers requests with the first failing check, stages, holds and reads. OBJECT_WRITE and OBJECT_READ of
a peer that is not heard change nothing, and behind a request of the same peer they wait. Before the dictionary is
ready the answer is 0x0301. A request is answered with the first failing check of R411, and a refused one changes
nothing. An accepted write of class commit enters the session's staging and leaves the value in force; one of class
boundary waits at its departure; one of class now or restart is applied at once; a write of an assisted object while
no control core runs waits for the assist, and one that needs the paused island or a full burst FIFO waits. An
accepted read returns the value in force. ASSIST_TIMEOUT of a request 100 ms old answers 0x0711 with source 0x2B3, and
then serves what waited. USDO_SEGMENT collects the bytes of a transfer, its last one makes the write, and one that
comes after can_usdo_timeout ends the transfer; USDO_ABORT and USDO_TIMEOUT discard it with 0x0712. (20_dictionary.md
R410, 20_dictionary.md R411, 20_dictionary.md R412, 20_dictionary.md R413, 20_dictionary.md R421) -/
def Obligations.DictionaryServesRequestsInOrder : Prop :=
  (∀ (s : State) (p : Peer) (index sub : Nat) (data : List Byte), s.Awake 7 →
    let u := s.enter 7
    let d := u.dev
    let c : Instr := .objectWrite p index sub data
    let k := d.sessionOf p
    let v := s.touched 7 p
    (d.hears p = false → exec c s = .next u) ∧
    (d.hears p = true → (d.assisting p = true ∨ ∃ w ∈ d.ses.held, w.peer = p) →
      exec c s = .next (u.become { d with ses := { d.ses with held := d.ses.held ++ [⟨p, index, sub, some data⟩] } })) ∧
    (d.hears p = true → d.assisting p = false → (∀ w ∈ d.ses.held, w.peer ≠ p) → d.dictReady = false →
      ∃ t, exec c s = .next t ∧ u.RefusedTo t 0x0301) ∧
    (s.Serves 7 p →
      (targetCode p k index sub false ≠ 0 → ∃ t, exec c s = .next t ∧ u.RefusedTo t (targetCode p k index sub false)) ∧
      (∀ (o : Obj) (i : Nat), targetCode p k index sub false = 0 → decodeObj index sub = some (o, i) →
        (v.writeFails k o i data ≠ 0 → ∃ t, exec c s = .next t ∧ u.RefusedTo t (v.writeFails k o i data)) ∧
        (v.writeFails k o i data = 0 → v.mustWait o false = true → exec c s =
          .next (u.become { v with ses := { v.ses with held := v.ses.held ++ [⟨p, index, sub, some data⟩] } })) ∧
        (∀ n : Nat, v.writeFails k o i data = 0 → v.mustWait o false = false → k = some n → o.opening = false →
          (o.isAssisted = true → d.coresRun u.clk.elapsed = false → ∃ t a, exec c s = .next t ∧
            t.dev.ses.assists = d.ses.assists ++ [a] ∧ a.peer = p ∧ a.data = data ∧ t.dev.stagings = d.stagings ∧
            ∀ (x : Obj) (j : Nat), x ≠ .sesLastTick → t.dev.g x j = d.g x j) ∧
          ((o.isAssisted = false ∨ d.coresRun u.clk.elapsed = true) → o.info.apply = .commit →
            ∃ t j, exec c s = .next t ∧ t.dev.answer.code = 0 ∧ t.dev.g o i = d.g o i ∧ t.dev.g .stgState j = 1 ∧
              t.dev.g .stgOwner j = n % 2 ^ 16 ∧
              (t.dev.stg j).entries.getLast? = some { o := o, i := i, v := o.number data, bytes := data, part := 0 }) ∧
          ((o.isAssisted = false ∨ d.coresRun u.clk.elapsed = true) → (o.info.apply = .now ∨ o.info.apply = .restart) →
            exec c s = .next (u.become (((v.answerCode 0).applyWrite u.env (v.origin n) o i (o.number data) data).settle p k
              v.kr.waiting.length))) ∧
          ((o.isAssisted = false ∨ d.coresRun u.clk.elapsed = true) → o.info.apply = .boundary →
            ∃ t, exec c s = .next t ∧ t.dev.answer.code = 0 ∧ t.dev.g o i = d.g o i ∧
              (t.dev.dep (i / 8)).boundary.getLast? =
                some { o := o, i := i, v := o.number data, who := v.origin n }))))) ∧
  (∀ (s : State) (p : Peer) (index sub : Nat), s.Awake 8 →
    let u := s.enter 8
    let d := u.dev
    let c : Instr := .objectRead p index sub
    let k := d.sessionOf p
    let v := s.touched 8 p
    (d.hears p = false → exec c s = .next u) ∧
    (d.hears p = true → (d.assisting p = true ∨ ∃ w ∈ d.ses.held, w.peer = p) →
      exec c s = .next (u.become { d with ses := { d.ses with held := d.ses.held ++ [⟨p, index, sub, none⟩] } })) ∧
    (d.hears p = true → d.assisting p = false → (∀ w ∈ d.ses.held, w.peer ≠ p) → d.dictReady = false →
      ∃ t, exec c s = .next t ∧ u.RefusedTo t 0x0301) ∧
    (s.Serves 8 p →
      (targetCode p k index sub true ≠ 0 → ∃ t, exec c s = .next t ∧ u.RefusedTo t (targetCode p k index sub true)) ∧
      (∀ (o : Obj) (i : Nat), targetCode p k index sub true = 0 → decodeObj index sub = some (o, i) →
        ((o.right (v.roleOf k)).reads = false → ∃ t, exec c s = .next t ∧ u.RefusedTo t 0x0101) ∧
        ((o.right (v.roleOf k)).reads = true → v.mustWait o true = true → exec c s =
          .next (u.become { v with ses := { v.ses with held := v.ses.held ++ [⟨p, index, sub, none⟩] } })) ∧
        ((o.right (v.roleOf k)).reads = true → v.mustWait o true = false →
          (v.readFails o ≠ 0 → ∃ t, exec c s = .next t ∧ u.RefusedTo t (v.readFails o)) ∧
          (v.readFails o = 0 → ∃ t, exec c s = .next t ∧ t.dev.answer.bytes = (v.readObj u.env p k o i).1 ∧
            ((∀ r, p ≠ .ring r) → t.dev.answer.code = 0 ∧ t.mem = u.mem)))))) ∧
  (∀ (s : State) (p : Peer), s.Awake 7 →
    let u := s.enter 7
    let d := u.dev
    let mine := d.ses.assists.find? fun a => a.peer == p
    ((∀ a, mine = some a → u.clk.elapsed < a.since + 400000) → exec (.assistTimeout p) s = .next u) ∧
    (∀ a, mine = some a → a.since + 400000 ≤ u.clk.elapsed →
      ∃ x : Dev, exec (.assistTimeout p) s = .next (u.become (x.serveHeld u.env)) ∧ x.answer.code = 0x0711 ∧
        Late.fire 0x2B3 ∈ x.late ∧ x.assisting p = false ∧ x.stagings = d.stagings ∧ x.ses.held = d.ses.held) ∧
    (d.transferOf p = none → exec (.usdoAbort p) s = .next u ∧ exec (.usdoTimeout p) s = .next u) ∧
    (d.transferOf p ≠ none → ∃ t, exec (.usdoAbort p) s = .next t ∧ t.dev.answer.code = 0x0712 ∧
      t.dev.transferOf p = none ∧ t.dev.stagings = d.stagings) ∧
    (∀ (x : Transfer) (m n : Nat), d.transferOf p = some x → p = .can m n →
      (x.last + d.g .canUsdoTimeout m * 4000 ≤ u.clk.elapsed → ∃ t, exec (.usdoTimeout p) s = .next t ∧
        t.dev.answer.code = 0x0712 ∧ t.dev.transferOf p = none ∧ t.dev.stagings = d.stagings) ∧
      (u.clk.elapsed < x.last + d.g .canUsdoTimeout m * 4000 → exec (.usdoTimeout p) s = .next u)) ∧
    ((∀ m n, p ≠ .can m n) → exec (.usdoTimeout p) s = .next u) ∧
    ∀ (index sub : Nat) (data : List Byte),
      (d.hears p = false → ∀ b : Bool, exec (.usdoSegment p index sub data b) s = .next u) ∧
      (d.hears p = true → d.transferDue u.env p = true → ∀ b : Bool, ∃ t, exec (.usdoSegment p index sub data b) s = .next t ∧
        t.dev.answer.code = 0x0712 ∧ t.dev.transferOf p = none ∧ t.dev.stagings = d.stagings) ∧
      (d.hears p = true → d.transferDue u.env p = false →
        let before := match d.transferOf p with
          | some x => if x.index = index ∧ x.sub = sub then x.data else []
          | none => []
        (∃ t, exec (.usdoSegment p index sub data false) s = .next t ∧ t.dev.stagings = d.stagings ∧
          t.dev.transferOf p = some ⟨p, index, sub, before ++ data, u.clk.elapsed⟩) ∧
        exec (.usdoSegment p index sub data true) s =
          .next (u.run fun e d => (d.dropTransfer p).serve e ⟨p, index, sub, some (before ++ data)⟩)))

/-- A session opens by challenge, response and verdict; five failures lock a channel out. OPEN_GO leaves in open_result
and answers the first of 0x0201, 0x0620, 0x0621, 0x0416 or the island's code that applies, and otherwise places a
48-byte challenge. OPEN_RESP of the wrong length answers 0x0204; without a challenge at most 10 s old it is refused
with 0x0622, and where the island cannot verify with the island's code; otherwise the challenge is used up and the
response is under verification. Both wait while the island is paused, and a mailbox ring without a session gets
0x0102. The verdict is the island's finding on the response over the message M of R418 (a free function of key,
message and response); OPEN_VERDICT with any other changes nothing. OPEN_VERDICT of a response under verification
opens the lowest session number free, with the role and credential of the challenge and source 0x2B0, when it passes;
when it fails the result is 0x0623 with ses_failures and source 0x2B1, and the fifth failure within 60 s locks the
channel out with source 0x2B2; requests that waited are served after it. LOCKOUT_END after 60 s ends the lockout.
DMB_CHALLENGE and DMB_RESPOND do the same through the mailbox block for the ring it names, which must be an ENABLED
mailbox ring with no session (0x03A0), with their code in DMB_STATUS. (20_dictionary.md R418, 20_dictionary.md R419,
20_dictionary.md R425) -/
def Obligations.SessionsOpenByChallengeAndResponse : Prop :=
  ∀ s : State, s.Awake 7 →
    let u := s.enter 7
    let d := u.dev
    let now := u.clk.elapsed
    let live (o : Opening) : Prop := ∃ b, o.since = some b ∧ now ≤ b + 40000000
    (∀ (p : Peer) (resp : List Byte), s.Serves 7 p →
      let k := d.sessionOf p
      let v := s.touched 7 p
      let o := d.openingOf p
      let waits (t : State) (x : Waiting) : Prop := t.dev.ses.held = d.ses.held ++ [x] ∧ t.dev.ses.openings = d.ses.openings
      (k = none → channelOf p = 4 → (∃ t, exec (.openGo p) s = .next t ∧ u.RefusedTo t 0x0102) ∧
        ∃ t, exec (.openResp p resp) s = .next t ∧ u.RefusedTo t 0x0102) ∧
      ((k ≠ none ∨ channelOf p ≠ 4) →
        (v.writeFails k .openGo 0 [1#8] = 0 →
          let code := v.challengeCode u.env p o.role o.cred
          (d.g .krIslandState = 1 → ∃ t, exec (.openGo p) s = .next t ∧ waits t ⟨p, 0x2110, 3, some [1#8]⟩) ∧
          (d.g .krIslandState ≠ 1 → code ≠ 0 → ∃ t, exec (.openGo p) s = .next t ∧ t.dev.answer.code = code ∧
            t.dev.openingOf p = { o with result := code }) ∧
          (d.g .krIslandState ≠ 1 → code = 0 → ∃ t bytes, exec (.openGo p) s = .next t ∧ t.dev.answer.code = 0 ∧
            bytes.length = 48 ∧
            t.dev.openingOf p =
              { peer := p, role := o.role, cred := o.cred, chal := bytes, chRole := o.role, chCred := o.cred, since := some now } ∧
            ((∃ m ip sid, p = .trdp m ip sid) → t.dev.answer.bytes = bytes))) ∧
        (v.writeFails k .openResp 0 resp = 0 →
          let code := v.verifyCode (channelOf p)
          (d.g .krIslandState = 1 → ∃ t, exec (.openResp p resp) s = .next t ∧ waits t ⟨p, 0x2110, 5, some resp⟩) ∧
          (d.g .krIslandState ≠ 1 → resp.length ≠ responseLength p → ∃ t, exec (.openResp p resp) s = .next t ∧
            t.dev.answer.code = 0x0204 ∧ t.dev.ses.openings = d.ses.openings) ∧
          (d.g .krIslandState ≠ 1 → resp.length = responseLength p →
            (¬live o → ∃ t, exec (.openResp p resp) s = .next t ∧ t.dev.answer.code = 0x0622 ∧
              t.dev.openingOf p = { o with since := none, result := 0x0622 }) ∧
            (live o → code ≠ 0 → ∃ t, exec (.openResp p resp) s = .next t ∧ t.dev.answer.code = code ∧
              t.dev.openingOf p = { o with since := none, result := code }) ∧
            (live o → code = 0 → ∃ t, exec (.openResp p resp) s = .next t ∧
              t.dev.openingOf p = { o with since := none, resp := resp, verifying := true } ∧ t.dev.assisting p = true))))) ∧
    (∀ (p : Peer) (b : Bool), ((d.openingOf p).verifying = false ∨ b ≠ d.responseOk p) → exec (.openVerdict p b) s = .next u) ∧
    (∀ p : Peer, (d.openingOf p).verifying = true →
      let o := d.openingOf p
      let ch := channelOf p
      let failures := (d.ses.failures.getD ch []).filter fun b => decide (now < b + 240000000)
      let after (x : Dev) : Prop := exec (.openVerdict p (d.responseOk p)) s = .next (u.become (x.serveHeld u.env)) ∧
        x.ses.held = d.ses.held ∧ (x.openingOf p).verifying = false ∧ (x.openingOf p).result = x.answer.code ∧
        x.assisting p = false
      let key := d.responseKey ch o.chCred
      (d.responseOk p = key.any fun k => Config.responseOk (decide (ch ≤ 2)) k ([0x45#8, 0x5A#8, 0x52#8, 0x31#8] ++ o.chal
        ++ leBytes 16 Config.serial ++ leBytes 1 ch ++ leBytes 1 o.chRole ++ leBytes 2 o.chCred) o.resp) ∧
      (d.responseOk p = false → ∃ x, after x ∧ x.answer.code = 0x0623 ∧ Late.add .sesFailures 0 1 ∈ x.late ∧ Late.fire 0x2B1 ∈ x.late ∧
        x.ses.opened = d.ses.opened ∧
        (failures.length < 4 → x.ses.failures.getD ch [] = now :: failures ∧ x.ses.locked = d.ses.locked) ∧
        (4 ≤ failures.length → x.lockedOut u.env ch = true ∧ Late.fire 0x2B2 ∈ x.late)) ∧
      (∀ n : Nat, d.responseOk p = true → d.passCode p o.chRole = 0 → d.freeSession p = some n →
        ∃ x, after x ∧ x.answer.code = 0 ∧ x.session n = some { peer := p, last := now } ∧ x.g .sesState n = 1 ∧
          x.g .sesRole n = o.chRole % 256 ∧ x.g .sesCred n = o.chCred % 2 ^ 16 ∧ x.g .sesChannel n = ch % 256 ∧
          x.g .sesOpenTick n = u.clk.tick ∧ Late.fire 0x2B0 ∈ x.late) ∧
      (d.responseOk p = true → d.passCode p o.chRole ≠ 0 → ∃ x, after x ∧ x.answer.code = d.passCode p o.chRole ∧
        x.ses.opened = d.ses.opened)) ∧
    (∀ ch : Nat, (d.lockedOut u.env ch = true → exec (.lockoutEnd ch) s = .next u) ∧
      (d.lockedOut u.env ch = false → exec (.lockoutEnd ch) s =
        .next (u.become { d with ses := { d.ses with locked := d.ses.locked.del ch } }))) ∧
    (let r := d.reg 0x200000 % 65536
     let role := d.reg 0x200004 % 4
     let cred := d.reg 0x200008 % 65536
     let first := d.challengeCode u.env (.ring r) role cred
     let code := if (first = 0 ∨ first = 0x0416) ∧ d.bindable r = false then 0x03A0 else first
     (code ≠ 0 → exec .dmbChallenge s = .next (u.become ((d.putReg 0x200010 code).answerCode code))) ∧
     (code = 0 → ∃ t, exec .dmbChallenge s = .next t ∧ t.dev.answer.code = 0 ∧
       t.dev.reg 0x200010 = 0 ∧ (t.dev.openingOf (.ring r)).since = some now ∧ (t.dev.openingOf (.ring r)).role = role ∧
       (t.dev.openingOf (.ring r)).cred = cred ∧ t.dev.reg 0x200014 % 4 = 1)) ∧
    (d.dmbOpening = none → exec .dmbRespond s = .next (u.become ((d.putReg 0x200010 0x0622).answerCode 0x0622))) ∧
    (∀ o : Opening, d.dmbOpening = some o →
      let code := d.verifyCode (channelOf o.peer)
      let turned (code : Nat) : Prop := ∃ t, exec .dmbRespond s = .next t ∧ t.dev.answer.code = code ∧
        t.dev.reg 0x200010 = code ∧ t.dev.openingOf o.peer = { o with since := none, result := code }
      (¬live o → turned 0x0622) ∧ (live o → code ≠ 0 → turned code) ∧
      (live o → code = 0 → ∃ t, exec .dmbRespond s = .next t ∧ t.dev.answer.code = 0 ∧ t.dev.reg 0x200010 = 0 ∧
        (t.dev.openingOf o.peer).verifying = true ∧ (t.dev.openingOf o.peer).since = none))

/-- Sessions close on every cause, and the CAN FD controllers follow NMT. SES_CLOSE and SES_KILL are turned away as every
session's write is; a kill of a session not open answers 0x0305, and an installer's or operator's kill of a maker
session 0x0101; otherwise the session closes: it is not open, ses_state is 0, source 0x2B0 fires, and the answer is 0.
SESSION_IDLE closes the session it names when that has been without a request for ses_idle seconds, so that none such
stands after it, and changes nothing else. BUS_OFF of an enabled controller, and a reset by NMT of one that is not
off, close the sessions of that controller; BUS_OFF counts can_bus_offs with bit 1, a reset leads to Pre-operational
and sends boot-up. An NMT command leads to the state its specifier names. HEARTBEAT, when due, sends and answers the
NMT state. DMB_CLOSE closes the session of the ring the block names, or leaves 0x0102. (20_dictionary.md R420,
20_dictionary.md R421, 20_dictionary.md R422, 20_dictionary.md R425) -/
def Obligations.SessionsCloseAndControllersFollowNmt : Prop :=
  (∀ s : State, s.Awake 7 →
    let u := s.enter 7
    let d := u.dev
    let now := u.clk.elapsed
    let closed (t : State) (k : Nat) : Prop := t.dev.isOpen k = false ∧ t.dev.g .sesState k = 0 ∧
      t.dev.g .sesRole k = 0 ∧ Late.fire 0x2B0 ∈ t.dev.late ∧ t.clk = u.clk ∧
      ∀ n, n ≠ k → t.dev.isOpen n = d.isOpen n
    (∀ k : Nat, s.TurnsAway (.sesClose k) k .sesClose) ∧
    (∀ k : Nat, s.Accepts k .sesClose → ∃ t, exec (.sesClose k) s = .next t ∧ closed t k ∧ t.dev.answer.code = 0) ∧
    (∀ j k : Nat, s.TurnsAway (.sesKill j k) j .sesKill ∧ (s.Accepts j .sesKill →
      (d.isOpen k = false → ∃ t, exec (.sesKill j k) s = .next t ∧ t.dev.answer.code = 0x0305 ∧
        t.dev.stagings = d.stagings ∧ ∀ n, t.dev.isOpen n = d.isOpen n) ∧
      (d.isOpen k = true → d.g .sesRole j ≠ 3 → d.g .sesRole k = 3 → ∃ t, exec (.sesKill j k) s = .next t ∧
        t.dev.answer.code = 0x0101 ∧ t.dev.stagings = d.stagings ∧ ∀ n, t.dev.isOpen n = d.isOpen n) ∧
      (d.isOpen k = true → (d.g .sesRole j = 3 ∨ d.g .sesRole k ≠ 3) → ∃ t, exec (.sesKill j k) s = .next t ∧
        closed t k ∧ t.dev.answer.code = 0))) ∧
    (∀ k : Nat,
      ((∀ x ∈ d.ses.opened, x.1 = k → now < x.2.last + d.g .sesIdle * 4000000) → exec (.sessionIdle k) s = .next u) ∧
      (∀ x, d.session k = some x → x.last + d.g .sesIdle * 4000000 ≤ now →
        ∃ t, exec (.sessionIdle k) s = .next t ∧ closed t k) ∧
      (∃ t, exec (.sessionIdle k) s = .next t ∧ t.clk = u.clk ∧
        ∀ x, t.dev.session k = some x → now < x.last + d.g .sesIdle * 4000000)) ∧
    (∀ k : Nat,
      let gone (t : State) : Prop := ∀ n x, t.dev.session n = some x → ∀ m, x.peer ≠ .can k m
      (d.on .canEnable k = false → exec (.busOff k) s = .next u) ∧
      (d.on .canEnable k = true → ∃ t, exec (.busOff k) s = .next t ∧ gone t ∧ Late.add .canBusOffs k 1 ∈ t.dev.late ∧
        Late.flag .canEventFlags k 2 ∈ t.dev.late) ∧
      (∀ c : Instr, (c = .nmtResetNode k ∨ c = .nmtResetCommunication k) →
        (d.g .canNmtState k = 0 → exec c s = .next u) ∧
        (d.g .canNmtState k ≠ 0 → ∃ t, exec c s = .next t ∧ gone t ∧ t.dev.g .canNmtState k = 1 ∧
          t.dev.ses.sent = (k, 0) :: d.ses.sent)) ∧
      (∀ cmd : Nat, (d.g .canNmtState k = 0 → exec (.nmtCommand k cmd) s = .next u) ∧
        (d.g .canNmtState k ≠ 0 → ∃ t, exec (.nmtCommand k cmd) s = .next t ∧ t.dev.ses = d.ses ∧
          t.dev.g .canNmtState k = (if cmd = 1 then 2 else if cmd = 2 then 3 else if cmd = 128 then 1
            else d.g .canNmtState k)))) ∧
    (let r := d.reg 0x200000 % 65536
     (d.sessionOf (.ring r) = none → exec .dmbClose s = .next (u.become ((d.putReg 0x200010 0x0102).answerCode 0x0102))) ∧
     (∀ k, d.sessionOf (.ring r) = some k → ∃ t, exec .dmbClose s = .next t ∧ closed t k ∧ t.dev.reg 0x200010 = 0))) ∧
  (∀ (s : State) (k : Nat), s.Awake 9 →
    let w := s.enter 9
    let due := w.dev.g .canNmtState k ≠ 0 ∧ w.dev.on .heartbeatTime = true ∧
      w.dev.ses.beats.getD k 0 + w.dev.g .heartbeatTime * 4000 ≤ w.clk.elapsed
    (¬due → exec (.heartbeat k) s = .next w) ∧
    (due → exec (.heartbeat k) s = .next (w.become
      (({ w.dev with ses := { w.dev.ses with beats := w.dev.ses.beats.put k w.clk.elapsed,
                                              sent := (k, w.dev.g .canNmtState k) :: w.dev.ses.sent } }).answerWord
        (w.dev.g .canNmtState k)))))

/-- The block has just been reset with a cause of R496: start-up is at its first step, the dictionary answers no one, and
sessions, takes, rings, arrivals and volatile keys stand as at power-on (R472, R496). -/
def Sys2Proof.Machine.State.StartsUp (t : State) (cause : Nat) : Prop :=
  t.dev.g .suCause = cause ∧ t.dev.dictReady = false ∧ (∀ k, t.dev.isOpen k = false) ∧
  (∀ r, (t.dev.ring r).st = .disabled) ∧ t.dev.takes = [] ∧ t.dev.kr.slots = [] ∧ (∀ a, t.dev.g .arrState a = 0) ∧
  t.dev.g .pwrState = 0 ∧ t.dev.pwr.began = [(1, t.clk.elapsed)] ∧ t.clk.addend = 0x28000000

/-- Life-cycle steps, recovery from QUARANTINE, acknowledging and marking the Ledger. LC_STEP is turned away as every
session's write is, and refused with 0x0301 while a step is being burnt, 0x0631 for a step the table does not allow,
0x0632 for a wrong confirmation, changing nothing but lc_last_status; accepted, it closes every session, discards
every OPEN or HELD staging, zeroises the key slots, into END the key records too, and starts to burn the fuse row.
LC_FUSE_BURNT then resets the part into the new state with cause 4; with nothing to burn it changes nothing.
LC_RECOVER outside QUARANTINE leaves 0x0633; in it, LC_RECOVER_RESULT resets the part with cause 5 on a pass and
leaves 0x0533 on a failure. LEDGER_ACK outside its range answers 0x0201; otherwise it appends a record and
ledger_marked reads its number. LEDGER_TIME_MARK appends a record when an hour of the time base has begun.
(21_roles_ledger.md R436, 21_roles_ledger.md R437, 21_roles_ledger.md R439, 21_roles_ledger.md R442,
21_roles_ledger.md R445) -/
def Obligations.LifeCycleStepsAndRecovery : Prop :=
  (∀ (s : State) (k : Nat), s.Awake 7 →
    let u := s.enter 7
    let d := s.asking k
    let refused (code : Nat) : Prop := ∃ t, exec (.lcStep k) s = .next t ∧ t.dev.answer.code = code ∧
      t.dev.g .lcLastStatus = code ∧ t.dev.stagings = d.stagings ∧ t.dev.fuses = d.fuses ∧ t.dev.pwr = d.pwr ∧
      t.dev.kr = d.kr ∧ ∀ n, t.dev.isOpen n = d.isOpen n
    s.TurnsAway (.lcStep k) k .lcStep ∧
    (s.Accepts k .lcStep →
      (d.pwr.burning ≠ none → refused 0x0301) ∧
      (d.pwr.burning = none → stepAllowed d.fuses.lc (d.g .lcTarget) = false → refused 0x0631) ∧
      (d.pwr.burning = none → stepAllowed d.fuses.lc (d.g .lcTarget) = true → d.g .lcConfirm ≠ Config.serialLow →
        refused 0x0632) ∧
      (d.pwr.burning = none → stepAllowed d.fuses.lc (d.g .lcTarget) = true → d.g .lcConfirm = Config.serialLow →
        ∃ t, exec (.lcStep k) s = .next t ∧ t.dev.answer.code = 0 ∧ t.dev.g .lcLastStatus = 0 ∧
          t.dev.pwr.burning = some (d.g .lcTarget, u.clk.elapsed) ∧ (∀ n, t.dev.isOpen n = false) ∧
          (∀ j, j < 16 → t.dev.g .stgState j ≠ 1 ∧ t.dev.g .stgState j ≠ 3) ∧ t.dev.kr.slots = [] ∧
          t.dev.fuses = d.fuses ∧ Late.flag .lcEventFlags 0 1 ∈ t.dev.late ∧
          (d.g .lcTarget = 4 → t.dev.kr.recs = [])))) ∧
  (∀ s : State,
    let u := s.enter 3
    (u.dev.pwr.burning = none → exec .lcFuseBurnt s = .next u) ∧
    (∀ target b : Nat, u.dev.pwr.burning = some (target, b) → u.dev.asleep = false →
      ∃ t, exec .lcFuseBurnt s = .next t ∧ t.StartsUp 4 ∧ t.dev.fuses.lc = target ∧ t.dev.pwr.burning = none) ∧
    (u.dev.asleep = true ∨ u.dev.pwr.recovering = false → ∀ b : Bool, exec (.lcRecoverResult b) s = .next u) ∧
    (u.dev.asleep = false → u.dev.pwr.recovering = true →
      (∃ t, exec (.lcRecoverResult true) s = .next t ∧ t.StartsUp 5 ∧ t.dev.fuses = u.dev.fuses) ∧
      exec (.lcRecoverResult false) s = .next (u.become
        (({ u.dev with pwr := { u.dev.pwr with recovering := false } }).put .lcLastStatus 0 0x0533)))) ∧
  (∀ s : State, s.Awake 7 →
    let u := s.enter 7
    let d := u.dev
    ((d.g .lcState).testBit 7 = false →
      exec .lcRecover s = .next (u.become ((d.put .lcLastStatus 0 0x0633).answerCode 0x0633))) ∧
    ((d.g .lcState).testBit 7 = true → exec .lcRecover s =
      .next (u.become (({ d with pwr := { d.pwr with recovering := true } }).answerCode 0))) ∧
    ∀ q : Nat,
      ((d.g .ledgerNextSeq ≤ q ∨ q < d.g .ledgerMarked) → exec (.ledgerAck q) s = .next (u.become (d.answerCode 0x0201))) ∧
      (d.g .ledgerMarked ≤ q → q < d.g .ledgerNextSeq → ∃ t, exec (.ledgerAck q) s = .next t ∧ t.dev.answer.code = 0 ∧
        t.dev.g .ledgerMarked = q % 2 ^ 32 ∧ t.dev.g .ledgerNextSeq = (d.g .ledgerNextSeq + 1) % 2 ^ 32)) ∧
  (∀ s : State, s.Awake 9 →
    let u := s.enter 9
    let hour := u.clk.timebase / 3600000000000
    (hour = u.dev.pwr.markHour → exec .ledgerTimeMark s = .next u) ∧
    (hour ≠ u.dev.pwr.markHour → ∃ t, exec .ledgerTimeMark s = .next t ∧ t.dev.pwr.markHour = hour ∧
      t.dev.g .ledgerNextSeq = (u.dev.g .ledgerNextSeq + 1) % 2 ^ 32))

/-- The Keyring creates, imports, exports, loads, revokes and queries keys; images are enrolled, counters advance. Every
Keyring command of a session is turned away as its write of kr_cmd is. While the island is paused every one waits; in
ERROR it answers 0x0645, under a hold 0x0646, and without the root, where it needs it, 0x0641. A command that fails a
check answers that check's code; otherwise the answer is 0, a kept key is stored under its number and a carried one
leaves as a blob of 64 bytes. KR_REVOKE zeroises the key's slot and leaves the revoked record; KR_LOAD of a good blob
makes its key present; KR_EXPORT of a key of use 4 leaves a blob, KR_QUERY the state of the number. KC_VALUE without
entry open answers 0x0649, from a credential that has given one 0x0648, and the last component creates the key;
COMPONENT_TIMEOUT 10 minutes on ends the entry. KR_ZEROISE_ALL clears every slot and record. IMG_ENROL fuses the two
hashes of 48 bytes once; RB_ADVANCE raises a counter to the running image's security version, and never lowers it.
(22_keyring.md R458, 22_keyring.md R459, 22_keyring.md R460, 22_keyring.md R462, 22_keyring.md R464, 22_keyring.md
R472) -/
def Obligations.KeyringCreatesLoadsAndRevokesKeys : Prop :=
  ∀ (s : State) (k : Nat), s.Awake 7 →
    let u := s.enter 7
    let now := u.clk.elapsed
    let d := s.asking k
    let m := d.tpl k
    let answers (c : Instr) (code : Nat) : Prop := ∃ t, exec c s = .next t ∧ t.dev.answer.code = code ∧
      (t.dev.tpl k).status = code ∧ t.dev.kr.slots = d.kr.slots ∧ t.dev.kr.recs = d.kr.recs ∧ t.dev.io = d.io
    let waits (c : Instr) (index sub : Nat) (data : List Byte) : Prop := ∃ t x, exec c s = .next t ∧
      d.session k = some x ∧ t.dev.ses.held = d.ses.held ++ [⟨x.peer, index, sub, some data⟩] ∧ t.dev.kr = d.kr ∧
      t.dev.fuses = d.fuses
    let made (t : State) (num : Nat) (x : Key) : Prop := t.dev.answer.code = 0 ∧
      Late.flag .krEventFlags 0 1 ∈ t.dev.late ∧ t.dev.kr.slots = d.kr.slots ∧
      (x.persist = 1 → ∃ r, t.dev.keyRec num = some r ∧ r.revoked = false ∧ r.blob.length = 64) ∧
      (x.persist ≠ 1 → (t.dev.tpl k).blob.length = 64 ∧ t.dev.kr.recs = d.kr.recs)
    (∀ c : Instr, c ∈ [.krGenerate k, .krImportComponents k, .krImportTransport k, .krExport k, .krRevoke k, .krLoad k,
      .krQuery k] → s.TurnsAway c k .krCmd) ∧
    s.TurnsAway (.krZeroiseAll k) k .krZeroiseAll ∧ s.TurnsAway (.imgEnrol k) k .imgEnrolGo ∧
    (∀ v : List Byte, s.TurnsAway (.kcValue k v) k .kcValue) ∧ (∀ n : Nat, s.TurnsAway (.rbAdvance k n) k .rbAdvance) ∧
    (s.Accepts k .krCmd →
      (∀ (c : Instr) (n : Nat), (c, n) ∈ [(.krGenerate k, 1), (.krImportComponents k, 2), (.krImportTransport k, 3),
          (.krExport k, 4), (.krRevoke k, 5), (.krLoad k, 6), (.krQuery k, 7)] →
        (d.g .krIslandState = 1 → ∃ t, exec c s = .next t ∧ t.dev.kr = { d.kr with waiting := d.kr.waiting ++ [(k, n)] }) ∧
        (d.g .krIslandState = 2 → answers c 0x0645) ∧
        (d.g .krIslandState ≠ 1 → d.g .krIslandState ≠ 2 → d.kr.hold = true → answers c 0x0646) ∧
        (n ∈ [1, 2, 3, 6] → d.g .krIslandState ≠ 1 → d.g .krIslandState ≠ 2 → d.kr.hold = false → d.g .krRootState ≠ 1 →
          answers c 0x0641)) ∧
      (d.g .krIslandState ≠ 1 → d.serviceCode true = 0 →
        let code := d.createCode m.num (m.key 0)
        (code ≠ 0 → answers (.krGenerate k) code ∧ answers (.krImportComponents k) code) ∧
        (code = 0 →
          (∃ t x, exec (.krGenerate k) s = .next t ∧ x = m.key x.secret ∧ made t m.num x ∧ (t.dev.tpl k).status = 0) ∧
          (∃ t, exec (.krImportComponents k) s = .next t ∧ t.dev.answer.code = 0 ∧
            t.dev.kr.comp = some { since := now, ses := k, tpl := m, parts := m.parts })) ∧
        (let needs := d.invokeCode m.transport (d.g .sesRole k) servesTransport
         let x := (d.keyOf m.transport).bind fun (w : Key) => d.unwrapKey (some w.secret) m.blob
         (needs ≠ 0 → answers (.krImportTransport k) needs) ∧
         (needs = 0 → x = none → answers (.krImportTransport k) 0x0647) ∧
         (needs = 0 → ∀ y, x = some y →
           (d.createCode (blobField m.blob 4 4) y ≠ 0 →
             answers (.krImportTransport k) (d.createCode (blobField m.blob 4 4) y)) ∧
           (d.createCode (blobField m.blob 4 4) y = 0 →
             ∃ t, exec (.krImportTransport k) s = .next t ∧ made t (blobField m.blob 4 4) y ∧ (t.dev.tpl k).status = 0))) ∧
        (let num := blobField m.blob 4 4
         (m.blob.length ≠ 64 → answers (.krLoad k) 0x0647) ∧
         (m.blob.length = 64 →
           (d.keyState num = 3 → answers (.krLoad k) 0x064F) ∧ (d.keyState num = 4 → answers (.krLoad k) 0x064E) ∧
           (d.keyState num ∉ [0, 3, 4] → answers (.krLoad k) 0x064A) ∧
           (d.keyState num = 0 → 256 ≤ d.kr.slots.length → answers (.krLoad k) 0x0644) ∧
           (d.keyState num = 0 → d.kr.slots.length < 256 →
             (d.unwrapKey none m.blob = none → answers (.krLoad k) 0x0647) ∧
             (∀ x, d.unwrapKey none m.blob = some x →
               (¬(x.attrsOk = true ∧ x.persist = 0) → answers (.krLoad k) 0x0642) ∧
               (x.attrsOk = true → x.persist = 0 → ∃ t, exec (.krLoad k) s = .next t ∧ t.dev.answer.code = 0 ∧
                 t.dev.kr.slots = d.kr.slots.put num x)))))) ∧
      (d.g .krIslandState ≠ 1 → d.serviceCode false = 0 →
        (let own := d.invokeCode m.num 3 (fun _ => true)
         let needs := d.invokeCode m.transport (d.g .sesRole k) servesTransport
         (own ≠ 0 → answers (.krExport k) own) ∧
         (own = 0 → ∀ y, d.keyOf m.num = some y →
           (y.use ≠ 4 → answers (.krExport k) 0x064D) ∧
           (y.use = 4 → needs ≠ 0 → answers (.krExport k) needs) ∧
           (y.use = 4 → needs = 0 → ∃ t, exec (.krExport k) s = .next t ∧ t.dev.answer.code = 0 ∧
             (t.dev.tpl k).blob.length = 64 ∧ t.dev.kr.slots = d.kr.slots ∧ t.dev.kr.recs = d.kr.recs))) ∧
        (d.keyState m.num = 0 → answers (.krRevoke k) 0x0640) ∧
        (d.keyState m.num = 3 → answers (.krRevoke k) 0x064F) ∧
        (d.keyState m.num ∉ [0, 3] → d.keyRegionCode ≠ 0 → answers (.krRevoke k) d.keyRegionCode) ∧
        (d.keyState m.num ∉ [0, 3] → d.keyRegionCode = 0 → d.keyPageOf m.num = none → answers (.krRevoke k) 0x064B) ∧
        (d.keyState m.num ∉ [0, 3] → d.keyRegionCode = 0 → d.keyPageOf m.num ≠ none →
          ∃ t, exec (.krRevoke k) s = .next t ∧ t.dev.answer.code = 0 ∧ t.dev.kr.slots.find m.num = none ∧
            t.dev.keyRec m.num = some { revoked := true, blob := [] } ∧ t.dev.keyState m.num = 3 ∧
            Late.flag .krEventFlags 0 8 ∈ t.dev.late) ∧
        (∃ t, exec (.krQuery k) s = .next t ∧ t.dev.answer.code = 0 ∧ (t.dev.tpl k).qState = d.keyState m.num ∧
          t.dev.kr = d.kr))) ∧
    (s.Accepts k .kcValue → ∀ v : List Byte,
      (v.length ≠ 32 → ∃ t, exec (.kcValue k v) s = .next t ∧ t.dev.answer.code = 0x0204 ∧ t.dev.kr = d.kr) ∧
      (v.length = 32 → d.g .krIslandState = 1 → waits (.kcValue k v) 0x5420 2 v) ∧
      (v.length = 32 → d.g .krIslandState ≠ 1 → d.serviceCode true ≠ 0 → ∃ t, exec (.kcValue k v) s = .next t ∧
        t.dev.answer.code = d.serviceCode true ∧ t.dev.kr = d.kr) ∧
      (v.length = 32 → d.g .krIslandState ≠ 1 → d.serviceCode true = 0 →
        (d.components u.env = none → ∃ t, exec (.kcValue k v) s = .next t ∧ t.dev.answer.code = 0x0649) ∧
        (∀ c, d.components u.env = some c →
          (d.g .sesCred k ∈ c.creds → ∃ t, exec (.kcValue k v) s = .next t ∧ t.dev.answer.code = 0x0648 ∧
            t.dev.kr = d.kr) ∧
          (d.g .sesCred k ∉ c.creds → c.values.length + 1 < c.parts → ∃ t, exec (.kcValue k v) s = .next t ∧
            t.dev.answer.code = 0 ∧
            t.dev.kr.comp = some { c with creds := c.creds ++ [d.g .sesCred k], values := c.values ++ [ofLe v] }) ∧
          (d.g .sesCred k ∉ c.creds → c.parts ≤ c.values.length + 1 →
            let x := c.tpl.key ((c.values ++ [ofLe v]).foldl Nat.xor 0)
            (d.createCode c.tpl.num x = 0 → ∃ t, exec (.kcValue k v) s = .next t ∧ made t c.tpl.num x ∧
              t.dev.kr.comp = none) ∧
            (d.createCode c.tpl.num x ≠ 0 → answers (.kcValue k v) (d.createCode c.tpl.num x)))))) ∧
    ((∀ c, u.dev.kr.comp = some c → c.ses = k → now < c.since + 2400000000) →
      exec (.componentTimeout k) s = .next u) ∧
    (∀ c, u.dev.kr.comp = some c → c.ses = k → c.since + 2400000000 ≤ now → exec (.componentTimeout k) s =
      .next (u.become { u.dev with kr := { u.dev.kr with comp := none } })) ∧
    (s.Accepts k .krZeroiseAll → d.g .krIslandState = 1 → waits (.krZeroiseAll k) 0x5400 7 [0xA5#8]) ∧
    (s.Accepts k .krZeroiseAll → d.g .krIslandState ≠ 1 → d.serviceCode false ≠ 0 → ∃ t, exec (.krZeroiseAll k) s = .next t ∧
      t.dev.answer.code = d.serviceCode false ∧ t.dev.kr = d.kr) ∧
    (s.Accepts k .krZeroiseAll → d.g .krIslandState ≠ 1 → d.serviceCode false = 0 →
      (d.keyRegionCode ≠ 0 → ∃ t, exec (.krZeroiseAll k) s = .next t ∧ t.dev.answer.code = d.keyRegionCode ∧
        t.dev.kr = d.kr) ∧
      (d.keyRegionCode = 0 → ∃ t, exec (.krZeroiseAll k) s = .next t ∧ t.dev.answer.code = 0 ∧ t.dev.kr.slots = [] ∧
        t.dev.kr.recs = [] ∧ t.dev.kr.comp = none)) ∧
    (s.Accepts k .imgEnrolGo →
      let a := d.blob .imgHashEcdsa 0
      let b := d.blob .imgHashMldsa 0
      (d.g .krIslandState = 1 → waits (.imgEnrol k) 0x5440 8 [1#8]) ∧
      (d.g .krIslandState ≠ 1 → d.serviceCode false ≠ 0 → ∃ t, exec (.imgEnrol k) s = .next t ∧
        t.dev.answer.code = d.serviceCode false ∧ t.dev.fuses = d.fuses) ∧
      (d.g .krIslandState ≠ 1 → d.serviceCode false = 0 → d.fuses.enrolled = true → ∃ t, exec (.imgEnrol k) s = .next t ∧ t.dev.answer.code = 0x0652 ∧ t.dev.fuses = d.fuses) ∧
      (d.g .krIslandState ≠ 1 → d.serviceCode false = 0 → d.fuses.enrolled = false → ¬(a.length = 48 ∧ b.length = 48) → ∃ t, exec (.imgEnrol k) s = .next t ∧
        t.dev.answer.code = 0x0201 ∧ t.dev.fuses = d.fuses) ∧
      (d.g .krIslandState ≠ 1 → d.serviceCode false = 0 → d.fuses.enrolled = false → a.length = 48 → b.length = 48 → ∃ t, exec (.imgEnrol k) s = .next t ∧
        t.dev.answer.code = 0 ∧ t.dev.fuses = { d.fuses with enrolled := true, ecdsa := a, mldsa := b })) ∧
    (s.Accepts k .rbAdvance → d.g .krIslandState = 1 → ∀ n : Nat,
      waits (.rbAdvance k n) 0x5440 5 (leBytes 1 (n + 1))) ∧
    (s.Accepts k .rbAdvance → d.g .krIslandState ≠ 1 → d.serviceCode false ≠ 0 → ∀ n : Nat, ∃ t, exec (.rbAdvance k n) s = .next t ∧
      t.dev.answer.code = d.serviceCode false ∧ t.dev.fuses = d.fuses) ∧
    (s.Accepts k .rbAdvance → d.g .krIslandState ≠ 1 → d.serviceCode false = 0 → ∀ n : Nat,
      let o : Obj := if n = 0 then .rbCore else .rbIsland
      let v := (d.pwr.images.getD (d.runningSlot n) {}).security
      (v ≤ d.g o → ∃ t, exec (.rbAdvance k n) s = .next t ∧ t.dev.answer.code = 0 ∧ t.dev.fuses = d.fuses ∧
        t.dev.g o = d.g o) ∧
      (d.g o < v → ∃ t, exec (.rbAdvance k n) s = .next t ∧ t.dev.answer.code = 0 ∧ t.dev.g o = v % 256 ∧
        t.dev.rollback n = v))

/-- Island tests, Night Watch and the island mailbox. KR_SELFTEST waits while a test runs, is refused with 0x0645 in ERROR
and 0x0646 under a hold, and otherwise starts the tests; PERIODIC_SELFTEST starts them 24 h after the last. A test
that passes returns the island to service, serves the commands that waited for it and then the requests held; one that
fails, as ENTROPY_TEST_FAILURE does, zeroises the slots, enters ERROR and QUARANTINE and leaves 0x0534, before the
requests held are served. DRBG_RESEED, when due, counts drbg_reseeds. A physical tamper zeroises the slots, destroys
the root's shares outside BLANK and END, and enters QUARANTINE; an environmental one zeroises the slots, refuses the
commands that waited and holds every service, and during start-up, or at nw_env_limit within 24 h, enters QUARANTINE;
TAMPER_CLEAR after 100 ms clears the condition, and with the last one the tests start. In SLEEP a tamper is latched in
nw_sleep_event and wakes the part into QUARANTINE. A mailbox command waits, BUSY, while the island is paused, is
refused with 0x0630 in QUARANTINE or the island's code, and otherwise leaves 0. (22_keyring.md R465, 22_keyring.md
R466, 22_keyring.md R467, 22_keyring.md R469, 22_keyring.md R470, 22_keyring.md R471, 22_keyring.md R476) -/
def Obligations.IslandTestsTampersAndMailbox : Prop :=
  ∀ s : State,
    let quarantined (t : State) : Prop := (t.dev.g .lcState).testBit 7 = true
    let failed (t : State) : Prop := t.dev.g .krIslandState = 2 ∧ t.dev.kr.slots = [] ∧ t.dev.kr.test = none ∧
      t.dev.g .krSelftestResult = 0x0534 ∧ quarantined t ∧ Late.flag .krEventFlags 0 64 ∈ t.dev.late
    (s.Awake 7 →
      let u := s.enter 7
      let d := u.dev
      let now := u.clk.elapsed
      (d.g .krIslandState = 1 → exec .krSelftest s =
        .next (u.become { d with kr := { d.kr with waiting := d.kr.waiting ++ [(0xFF, 0)] } })) ∧
      (d.g .krIslandState = 2 → exec .krSelftest s = .next (u.become (d.answerCode 0x0645))) ∧
      (d.g .krIslandState ≠ 1 → d.g .krIslandState ≠ 2 → d.kr.hold = true →
        exec .krSelftest s = .next (u.become (d.answerCode 0x0646))) ∧
      (d.g .krIslandState ≠ 1 → d.g .krIslandState ≠ 2 → d.kr.hold = false → exec .krSelftest s = .next (u.become
        ((({ d with kr := { d.kr with test := some now } }).put .krIslandState 0 1).answerCode 0))) ∧
      (d.kr.test = none → ∃ t, exec (.islandSelftestDone true) s = .next t ∧ u.thenHeld = .next t ∧
        (d.ses.held = [] → t = u)) ∧
      (d.kr.test ≠ none → ∃ (p : Dev) (t : State), exec (.islandSelftestDone true) s = .next t ∧ p.kr.test = none ∧
        p.kr.hold = false ∧ p.kr.waiting = [] ∧ p.g .krIslandState = 0 ∧ p.g .krSelftestResult = 0 ∧
        (u.become (d.kr.waiting.foldl (Dev.serveWaiting u.env) p)).thenHeld = .next t) ∧
      (∀ (c : Instr) (n : Nat), (c, n) ∈ [(.mbxStatusSnapshot, 1), (.mbxMkaKeyDerivation, 2), (.mbxIcvCompute, 3),
          (.mbxIcvCheck, 4), (.mbxSakUnwrapLoad, 5), (.mbxSakGenerate, 6), (.mbxLedgerSignature, 7)] →
        let left (code : Nat) : Prop := exec c s = .next (u.become ((d.putReg 0x210004 code).answerCode code))
        (d.g .krIslandState = 1 → n ≠ 1 → exec c s = .next (u.become
          (({ d with kr := { d.kr with waiting := d.kr.waiting ++ [(0x100, n)] } }).putReg 0x210004 0x10000))) ∧
        (d.g .krIslandState ≠ 1 → n ≠ 1 → d.quarantine = true → left 0x0630) ∧
        (d.g .krIslandState ≠ 1 → n ≠ 1 → d.quarantine = false → d.serviceCode true ≠ 0 → left (d.serviceCode true)) ∧
        (d.g .krIslandState ≠ 1 → n = 5 → d.quarantine = false → d.serviceCode true = 0 →
          Config.sakOk d.mbxInput = false → left 0x0647) ∧
        ((n = 1 ∨ (d.g .krIslandState ≠ 1 ∧ d.quarantine = false ∧ d.serviceCode true = 0)) →
          (n = 5 → Config.sakOk d.mbxInput = true) → ∃ t, exec c s = .next t ∧ t.dev.answer.code = 0 ∧
            t.dev.reg 0x210004 = 0 ∧ t.dev.kr.slots = d.kr.slots ∧ t.dev.kr.recs = d.kr.recs))) ∧
    (s.Awake 9 →
      let u := s.enter 9
      let d := u.dev
      let now := u.clk.elapsed
      let due := d.g .krIslandState = 0 ∧ d.kr.hold = false ∧ d.kr.tested + 345600000000 ≤ now
      let stale := 2 ^ 20 ≤ d.kr.requests ∨ d.kr.reseeded + 14400000000 ≤ now
      (¬due → exec .periodicSelftest s = .next u) ∧
      (due → exec .periodicSelftest s = .next (u.become
        (({ d with kr := { d.kr with test := some now } }).put .krIslandState 0 1))) ∧
      (¬stale → exec .drbgReseed s = .next u) ∧
      (stale → exec .drbgReseed s = .next (u.become
        (({ d with kr := { d.kr with requests := 0, reseeded := now } }).count .drbgReseeds)))) ∧
    (s.Awake 3 →
      let u := s.enter 3
      let d := u.dev
      (d.kr.test = none → ∃ t, exec (.islandSelftestDone false) s = .next t ∧ u.thenHeld = .next t ∧
        (d.ses.held = [] → t = u)) ∧
      (d.kr.test ≠ none → ∃ w t, exec (.islandSelftestDone false) s = .next t ∧ failed w ∧ w.thenHeld = .next t ∧
        (w.dev.ses.held = [] → t = w)) ∧
      (d.g .krIslandState = 2 → ∃ t, exec .entropyTestFailure s = .next t ∧ u.thenHeld = .next t ∧
        (d.ses.held = [] → t = u)) ∧
      (d.g .krIslandState ≠ 2 → ∃ w t, exec .entropyTestFailure s = .next t ∧ failed w ∧
        Late.add .esFailures 0 1 ∈ w.dev.late ∧ w.thenHeld = .next t ∧ (w.dev.ses.held = [] → t = w))) ∧
    (s.Awake 1 → s.dev.asleep = false → ∀ det : Nat,
      let u := s.enter 1
      let d := u.dev
      let now := u.clk.elapsed
      let recent := now :: d.kr.tampers.filter fun b => decide (now < b + 345600000000)
      (¬(d.watches det = true ∧ det < 5) → exec (.physicalTamper det) s = .next u) ∧
      (d.watches det = true → det < 5 → ∃ t, exec (.physicalTamper det) s = .next t ∧ t.dev.kr.slots = [] ∧
        quarantined t ∧ (t.dev.g .krEventFlags).testBit 2 = true ∧
        (d.g .lcState % 8 ≠ 0 → d.g .lcState % 8 ≠ 4 → t.dev.g .krRootState = 2)) ∧
      (¬(d.watches det = true ∧ 4 < det) → ∃ t, exec (.environmentalTamper det) s = .next t ∧ u.thenHeld = .next t ∧
        (d.ses.held = [] → t = u)) ∧
      (d.watches det = true → 4 < det → ∃ w t, exec (.environmentalTamper det) s = .next t ∧ w.thenHeld = .next t ∧
        (w.dev.ses.held = [] → t = w) ∧ w.dev.kr.conds.find det = some now ∧
        (d.kr.conds.find det = none → w.dev.kr.slots = [] ∧ w.dev.kr.hold = true ∧ w.dev.kr.waiting = [] ∧
          (w.dev.g .krEventFlags).testBit 1 = true ∧ Late.add .nwEnvCount 0 1 ∈ w.dev.late ∧
          ((d.pwr.started = false ∨ d.g .nwEnvLimit ≤ recent.length) → quarantined w))) ∧
      (d.kr.conds.find det = none → exec (.tamperClear det) s = .next u) ∧
      (∀ b : Nat, d.kr.conds.find det = some b →
        (now < b + 400000 → exec (.tamperClear det) s = .next u) ∧
        (b + 400000 ≤ now → ∃ t, exec (.tamperClear det) s = .next t ∧ t.dev.kr.conds = d.kr.conds.del det ∧
          (d.kr.conds.del det = [] → d.kr.hold = true → d.g .krIslandState ≠ 2 →
            t.dev.g .krIslandState = 1 ∧ t.dev.kr.test = some now)))) ∧
    (s.dev.asleep = true → ∀ det : Nat, s.dev.watches det = true →
      let latch := det % 16 + (if det < 5 then 16 else 0) +
        256 * ((s.clk.elapsed - s.dev.pwr.asleepAt) * 32768 / 4000000 % 2 ^ 24)
      let woken (t : State) : Prop := t.StartsUp 6 ∧ quarantined t ∧ t.dev.g .nwSleepEvent = latch ∧
        t.dev.g .pwrWakeSource = 4
      (det < 5 → ∃ t, exec (.physicalTamper det) s = .next t ∧ woken t) ∧
      (4 < det → ∃ t, exec (.environmentalTamper det) s = .next t ∧ woken t))

/-- The NV store writes in bursts, under its supply check, its hold-up result and NVWP_N. NV_BURST starts no burst after a
power fail, during a hold-up test, before the first result, or while one runs; otherwise the write under way goes on,
or the first write that may run starts, and none to a protected region stays queued; requests held for room in the
FIFO then go on. NV_BURST_DONE, 64 ticks a group later, puts the burst's bytes in the store, changes no other byte of
memory and counts nv_bursts. HOLDUP_TEST starts at start-up and 24 h after the last; HOLDUP_TEST_DONE, 2.1 ms later,
leaves PASS from 1,800 nF and FAIL below it. NV_SCRUB, 24 h after the last pass and with no burst queued, counts a
pass and marks uncorrectable groups poisoned. NVWP_CHANGE shows the pin's level with bit 7; low, no queued write to a
protected region stays. POWER_FAIL discards the queued writes and counts them in nv_refused. (23_nv_store.md R480,
23_nv_store.md R481, 23_nv_store.md R483, 23_nv_store.md R488, 23_nv_store.md R489) -/
def Obligations.NvStoreWritesInBursts : Prop :=
  ∀ s : State,
    (s.Awake 9 →
      let u := s.enter 9
      let d := u.dev
      let now := u.clk.elapsed
      let barred := d.nv.failing = true ∨ d.nv.testing ≠ none ∨ d.g .nvHoldupState = 0 ∨ d.nv.running ≠ none
      (barred → ∃ t, exec .nvBurst s = .next t ∧ u.thenHeld = .next t ∧ (d.ses.held = [] → t = u)) ∧
      (¬barred → ∃ w t, exec .nvBurst s = .next t ∧ w.thenHeld = .next t ∧ (w.dev.ses.held = [] → t = w) ∧
        (∀ b rest, d.nv.rest = b :: rest → d.on .nvProtect = false →
          w.dev.nv.running = some (b.1, b.2, now) ∧ w.dev.nv.rest = rest ∧ w.dev.nv.queue = d.nv.queue) ∧
        (∀ j q b rest, d.nv.rest = [] → d.on .nvProtect = false → d.nv.queue = j :: q → d.holdupLets j = true →
          j.region ≠ 2 → (j.region = 0 ∨ j.region = 3 → (d.pairAt u.env j.page j.k).2 = false) →
          d.jobBursts u.env j = b :: rest →
          w.dev.nv.running = some (b.1, b.2, now) ∧ w.dev.nv.rest = rest ∧ w.dev.nv.queue = q) ∧
        (d.on .nvProtect = true → ∀ j ∈ w.dev.nv.queue, j.guarded = false)) ∧
      (d.nv.running = none → exec .nvBurstDone s = .next u) ∧
      (∀ (off : Nat) (bs : List Byte) (b : Nat), d.nv.running = some (off, bs, b) →
        (now < b + 64 * ceilDiv bs.length 16 → exec .nvBurstDone s = .next u) ∧
        (b + 64 * ceilDiv bs.length 16 ≤ now → ∃ t, exec .nvBurstDone s = .next t ∧ t.dev.nv.running = none ∧
          Late.add .nvBursts 0 1 ∈ t.dev.late ∧ (∀ k, k < bs.length → t.mem.read .nv (off + k) = bs.getD k 0) ∧
          ∀ (sp : Space) (a : Nat), ¬(sp = .nv ∧ off ≤ a ∧ a < off + bs.length) → t.mem.read sp a = u.mem.read sp a)) ∧
      (let due := d.nv.testing = none ∧ d.nv.running = none ∧ d.nv.failing = false ∧
         (d.nv.tested = none ∨ ∃ b, d.nv.tested = some b ∧ b + 345600000000 ≤ now)
       (¬due → exec .holdupTest s = .next u) ∧
       (due → exec .holdupTest s = .next (u.become { d with nv := { d.nv with testing := some now } }))) ∧
      (∀ nf : Nat, (d.nv.testing = none → exec (.holdupTestDone nf) s = .next u) ∧
        ∀ b : Nat, d.nv.testing = some b →
        (now < b + 8400 → exec (.holdupTestDone nf) s = .next u) ∧
        (b + 8400 ≤ now → ∃ t, exec (.holdupTestDone nf) s = .next t ∧ t.dev.nv.testing = none ∧
          t.dev.nv.tested = some now ∧ t.dev.g .nvHoldupState = if 1800 ≤ nf then 1 else 2)) ∧
      (∀ corrected uncorrected : List Nat, ¬(d.nv.queued = 0 ∧ d.nv.scrubbed + 345600000000 ≤ now) →
        exec (.nvScrub corrected uncorrected) s = .next u) ∧
      (d.nv.queued = 0 → d.nv.scrubbed + 345600000000 ≤ now → ∀ corrected uncorrected : List Nat, ∃ t, exec (.nvScrub corrected uncorrected) s = .next t ∧
        Late.add .nvScrubs 0 1 ∈ t.dev.late ∧ t.mem = u.mem ∧
        ∀ g ∈ uncorrected, g < 32768 → t.dev.nv.poison.find g = some true ∧ Late.add .nvUncorr 0 1 ∈ t.dev.late ∧
          Late.flag .nvEventFlags 0 16 ∈ t.dev.late)) ∧
    (s.Awake 0 → ∀ low : Bool,
      let u := s.enter 0
      let d := u.dev
      (d.on .nvProtect = low → exec (.nvwpChange low) s = .next u) ∧
      (d.on .nvProtect ≠ low → ∃ t, exec (.nvwpChange low) s = .next t ∧ t.dev.on .nvProtect = low ∧
        Late.flag .nvEventFlags 0 128 ∈ t.dev.late ∧ t.dev.nv.running = d.nv.running ∧
        (low = true → ∀ j ∈ t.dev.nv.queue, j.guarded = false) ∧ (low = false → t.dev.nv.queue = d.nv.queue))) ∧
    (s.Awake 2 →
      let u := s.enter 2
      let d := u.dev
      (d.nv.failing = true → exec .powerFail s = .next u) ∧
      (d.nv.failing = false → ∃ t, exec .powerFail s = .next t ∧ t.dev.nv.failing = true ∧ t.dev.nv.queue = [] ∧
        t.dev.nv.failedAt = u.clk.elapsed ∧ t.dev.nv.running = d.nv.running ∧
        (d.nv.queued ≠ 0 → Late.add .nvRefused 0 d.nv.queued ∈ t.dev.late)))

/-- Every reset and every wake starts the part up with its cause. POWER_ON starts the part up with cause 1, its clock at
reset, the Pantry and the DRAM empty and the NV store as it was but for a burst cut short. PIN_RESET of a part that is
not asleep starts it up with cause 2, BROWN_OUT 10 ms after a power fail with cause 7, and SOFTWARE_RESET_REGISTER,
once an accepted software reset finds the FIFO empty in a later tick, with cause 3; each keeps RST_SCRATCH, the fuses,
the tick count and the Pantry and DRAM. SOFTWARE_RESET is refused with 0x0301 while the part leaves a state, falls
asleep or resets, and otherwise stands. WAKE_PIN, CAN_WAKE and WAKE_TIMER of a part asleep, with their bit of
pwr_wake_mask set, start it up with cause 6 and leave their number in pwr_wake_source; during sleep entry WAKE_PIN,
with its bit, is held. Otherwise these events change nothing. (24_startup_power.md R495, 24_startup_power.md R496,
24_startup_power.md R497, 24_startup_power.md R510) -/
def Obligations.ResetsRestartThePart : Prop :=
  ∀ s : State,
    let warm (u t : State) (cause : Nat) : Prop := t.StartsUp cause ∧ t.dev.reg 0x110 = u.dev.reg 0x110 ∧
      t.dev.fuses = u.dev.fuses ∧ t.clk.elapsed = u.clk.elapsed ∧ t.clk.timebase = u.clk.timebase ∧
      t.mem.pantry = u.mem.pantry ∧ t.mem.dram = u.mem.dram
    let u := s.enter 3
    (∃ t, exec .powerOn s = .next t ∧ t.StartsUp 1 ∧ t.clk = Clock.reset ∧ t.mem.pantry = [] ∧ t.mem.dram = [] ∧
      t.dev.fuses = s.dev.fuses ∧ t.dev.reg 0x110 = 0) ∧
    (u.dev.asleep = true → exec .pinReset s = .next u) ∧
    (u.dev.asleep = false → ∃ t, exec .pinReset s = .next t ∧ warm u t 2) ∧
    (let due := u.dev.asleep = false ∧ u.dev.nv.failing = true ∧ u.dev.nv.failedAt + 40000 ≤ u.clk.elapsed
     (¬due → exec .brownOut s = .next u) ∧ (due → ∃ t, exec .brownOut s = .next t ∧ warm u t 7)) ∧
    (let due := u.dev.asleep = false ∧ u.dev.nv.queued = 0 ∧ ∃ b, u.dev.pwr.resetAt = some b ∧ b < u.clk.elapsed
     (¬due → exec .softwareResetRegister s = .next u) ∧
     (due → ∃ t, exec .softwareResetRegister s = .next t ∧ warm u t 3)) ∧
    (s.Awake 7 →
      let v := s.enter 7
      let d := v.dev
      let busy := d.pwr.leaving ≠ [] ∨ d.pwr.sleeping ≠ none ∨ d.pwr.resetAt ≠ none
      (busy → exec .softwareReset s = .next (v.become (d.answerCode 0x0301))) ∧
      (¬busy → exec .softwareReset s = .next (v.become
        (({ d with pwr := { d.pwr with resetAt := some v.clk.elapsed } }).answerCode 0)))) ∧
    (∀ (c : Instr) (bit source : Nat), (c, bit, source) ∈ [(.wakePin, 0, 1), (.canWake, 1, 2), (.wakeTimer, 2, 3)] →
      let held := c = .wakePin ∧ s.dev.pwr.sleeping ≠ none
      let wakes := s.dev.asleep = true ∧ (s.dev.g .pwrWakeMask).testBit bit = true ∧ ¬held ∧
        (c = .wakeTimer → s.dev.g .pwrWakeAfter ≠ 0 ∧
          s.dev.pwr.asleepAt + s.dev.g .pwrWakeAfter * 4000000 ≤ s.clk.elapsed)
      (held → (s.dev.g .pwrWakeMask).testBit bit = true → ∃ t, exec c s = .next t ∧ t.dev.pwr.wakeHeld = true ∧
        t.dev.objs = s.dev.objs ∧ t.clk = s.clk ∧ t.mem = s.mem) ∧
      (¬wakes → (held → (s.dev.g .pwrWakeMask).testBit bit = false) → exec c s = .next s) ∧
      (wakes → ∃ t, exec c s = .next t ∧ t.StartsUp 6 ∧ t.dev.g .pwrWakeSource = source ∧ t.clk = Clock.reset ∧
        t.mem.pantry = [] ∧ t.mem.dram = [] ∧ t.dev.fuses = s.dev.fuses))

/-- Start-up steps end or expire, power states change, the cores restart. STARTUP_STEP_END and STARTUP_STEP_EXPIRY end the
lowest step under way whose work is done, or whose time has passed, with its bit of su_expired; su_step reads it; with
no such step they change nothing. PWR_OPERATE, PWR_STANDBY and PWR_SLEEP and CORE_RESTART are refused with 0x0301
while the part leaves a state, falls asleep or resets, and PWR_OPERATE outside STANDBY and PWR_STANDBY outside OPERATE
with 0x0302; accepted, STANDBY and SLEEP from OPERATE begin to stop every timing group, OPERATE resumes at once, and a
core restart registers in the next tick. SLEEP_ENTRY_DONE, with every group stopped and the FIFO empty, zeroises the
slots and enters SLEEP, and a wake held during the entry then starts the part up with cause 6 and source 1. WDT_KICK
of 0xA5 by a running core is noted, any other write is not. WATCHDOG_EXPIRY of a core that has not kicked in time
restarts the cores; the third in 600 s holds them in reset and enters QUARANTINE. (24_startup_power.md R498,
24_startup_power.md R500, 24_startup_power.md R507, 24_startup_power.md R509) -/
def Obligations.StartUpPowerStatesAndCores : Prop :=
  ∀ s : State,
    (s.Awake 9 →
      let u := s.enter 9
      let d := u.dev
      let now := u.clk.elapsed
      (d.stepEnding = none → exec .startupStepEnd s = .next u) ∧
      (∀ k, d.stepEnding = some k → ∃ t, exec .startupStepEnd s = .next t ∧ t.dev.pwr.ended.find k = some now ∧
        t.dev.g .suStep = k ∧ t.clk = u.clk) ∧
      (d.stepExpiring u.env = none → exec .startupStepExpiry s = .next u) ∧
      (∀ k, d.stepExpiring u.env = some k → ∃ t, exec .startupStepExpiry s = .next t ∧
        t.dev.pwr.ended.find k = some now ∧ t.dev.g .suStep = k ∧ t.clk = u.clk ∧
        (t.dev.g .suExpired).testBit (k - 1) = true) ∧
      (d.sleepReady = false → exec .sleepEntryDone s = .next u) ∧
      (d.sleepReady = true → d.pwr.wakeHeld = false → ∃ t, exec .sleepEntryDone s = .next t ∧ t.dev.g .pwrState = 2 ∧
        t.dev.kr.slots = [] ∧ t.dev.pwr.sleeping = none ∧ t.dev.pwr.asleepAt = now) ∧
      (d.sleepReady = true → d.pwr.wakeHeld = true → ∃ t, exec .sleepEntryDone s = .next t ∧ t.StartsUp 6 ∧
        t.dev.g .pwrWakeSource = 1)) ∧
    (s.Awake 7 →
      let u := s.enter 7
      let d := u.dev
      let now := u.clk.elapsed
      let busy := d.pwr.leaving ≠ [] ∨ d.pwr.sleeping ≠ none ∨ d.pwr.resetAt ≠ none
      (∀ c : Instr, c ∈ [.pwrOperate, .pwrStandby, .pwrSleep, .coreRestart] → busy →
        exec c s = .next (u.become (d.answerCode 0x0301))) ∧
      (¬busy →
        (d.g .pwrState ≠ 1 → exec .pwrOperate s = .next (u.become (d.answerCode 0x0302))) ∧
        (d.g .pwrState = 1 → ∃ t, exec .pwrOperate s = .next t ∧ t.dev.g .pwrState = 0 ∧ t.dev.pwr.resuming = true ∧
          t.dev.answer.code = 0 ∧ t.dev.pwr.began.find 6 = some now) ∧
        (d.g .pwrState ≠ 0 → exec .pwrStandby s = .next (u.become (d.answerCode 0x0302))) ∧
        (d.g .pwrState = 0 → ∃ t, exec .pwrStandby s = .next t ∧ t.dev.pwr.leaving = List.range 32 ∧
          t.dev.answer.code = 0 ∧ t.dev.g .pwrState = 0) ∧
        (∃ t, exec .pwrSleep s = .next t ∧ t.dev.pwr.sleeping = some now ∧ t.dev.answer.code = 0 ∧
          (d.g .pwrState = 0 → t.dev.pwr.leaving = List.range 32) ∧ (d.g .pwrState = 1 → t.dev.pwr.leaving = [])) ∧
        exec .coreRestart s = .next (u.become
          (({ d with pwr := { d.pwr with rebootAt := some (now + 1) } }).answerCode 0))) ∧
      (∀ k v : Nat, exec (.wdtKick k v) s = .next (if v = 0xA5 ∧ d.coresRun now = true then
          u.become { d with pwr := { d.pwr with kicks := d.pwr.kicks.put k now } } else u))) ∧
    (s.Awake 3 → ∀ k : Nat,
      let u := s.enter 3
      let d := u.dev
      let now := u.clk.elapsed
      let due := k < 4 ∧ d.coresRun now = true ∧ max (d.pwr.kicks.getD k 0) d.pwr.coresAt + d.g .wdtMs * 4000 ≤ now
      let dogs := d.pwr.dogs.filter fun b => decide (now < b + 2400000000)
      (¬due → exec (.watchdogExpiry k) s = .next u) ∧
      (due → ∃ t, exec (.watchdogExpiry k) s = .next t ∧ Late.add .coreRestarts 0 1 ∈ t.dev.late ∧
        t.dev.pwr.coresAt = now + 600000 ∧ t.dev.pwr.kicks = [] ∧ t.dev.pwr.dogs = now :: dogs ∧
        (∀ n, n < 4 → (t.dev.core n).stack = []) ∧
        (2 ≤ dogs.length → t.dev.pwr.coresHeld = true ∧ (t.dev.g .lcState).testBit 7 = true)))

/-- Firmware slots are written, swapped and confirmed; registers are written and read; PTP is switched. FW_WRITE of an
image that fails a check answers that check's code; otherwise the other slot of its kind is being written, and
FW_WRITE_DONE leaves it verified with status 0, or 0x0653. FW_HANDOVER while firmware work is under way answers
0x0303, to a slot that is not verified 0x0304, of the island while it refuses every service its code, and otherwise
starts the core handover in the next tick, or the island's swap with its tests; FW_CONFIRM of a slot not on trial
answers 0x0304, and otherwise makes the running slot the boot slot. A host's REGISTER_WRITE that enables only some
bytes, or that the part's state bars, is dropped and counted with source 0x2BA; to an address that is no register it
changes nothing; RST_SCRATCH holds what is written to it; LATCHED_READ answers the word of the register it names and
leaves every object as it was. PTP_ENABLE off frees the time base with source 0x070, on while a link PTP uses carries
no Ethernet is refused with 0x0310, and otherwise starts the selection afresh, or, while it is on, enables nothing.
(24_startup_power.md R511, 24_startup_power.md R513, 02_time_and_order.md R34, 02_time_and_order.md R551,
02_time_and_order.md R47, 01_architecture.md R23, 17_host.md R343) -/
def Obligations.FirmwareSlotsAndRegisters : Prop :=
  ∀ s : State,
    (s.Awake 7 →
      let u := s.enter 7
      let d := u.dev
      let now := u.clk.elapsed
      (∀ v : Nat,
        let kind := v / 16 % 2
        let code := d.fwWriteCode u.env v
        let other := 2 * kind + d.otherSlot kind
        let running := bitsAt (d.g .fwRunning) (4 * kind) 1
        (code ≠ 0 → ∃ t, exec (.fwWrite v) s = .next t ∧ t.dev.answer.code = code ∧ t.dev.g .fwState = d.g .fwState ∧
          t.dev.pwr = d.pwr) ∧
        (code = 0 → ∃ t, exec (.fwWrite v) s = .next t ∧ t.dev.answer.code = 0 ∧ t.dev.g .fwState = 1 ∧
          t.dev.pwr.writing = some other ∧ t.dev.pwr.verified.find other = none ∧ t.dev.g .fwRunning = d.g .fwRunning) ∧
        (d.g .fwState ≠ 0 → exec (.fwHandover v) s = .next (u.become (d.answerCode 0x0303)) ∧
          exec (.fwConfirm v) s = .next (u.become (d.answerCode 0x0303))) ∧
        (d.g .fwState = 0 → d.pwr.verified.getD other false = false →
          exec (.fwHandover v) s = .next (u.become ((d.put .fwStatus 0 0x0304).answerCode 0x0304))) ∧
        (d.g .fwState = 0 → d.pwr.verified.getD other false = true → kind = 1 → d.serviceCode false ≠ 0 →
          exec (.fwHandover v) s = .next (u.become
            ((d.put .fwStatus 0 (d.serviceCode false)).answerCode (d.serviceCode false)))) ∧
        (d.g .fwState = 0 → d.pwr.verified.getD other false = true → kind = 0 ∨ d.serviceCode false = 0 →
          ∃ t, exec (.fwHandover v) s = .next t ∧
          t.dev.answer.code = 0 ∧ t.dev.g .fwState = 2 ∧ (kind = 0 → t.dev.pwr.handover = some (now + 1)) ∧
          (kind = 1 → t.dev.kr.swapping = true ∧ t.dev.kr.test = some now ∧ t.dev.g .krIslandState = 1)) ∧
        (d.g .fwState = 0 → (d.g .fwRunning).testBit (4 * kind + 1) = false →
          exec (.fwConfirm v) s = .next (u.become ((d.put .fwStatus 0 0x0304).answerCode 0x0304))) ∧
        (d.g .fwState = 0 → (d.g .fwRunning).testBit (4 * kind + 1) = true → ∃ t, exec (.fwConfirm v) s = .next t ∧
          t.dev.answer.code = 0 ∧ t.dev.g .fwStatus = 0 ∧ bitsAt (t.dev.g .fwBoot) (4 * kind) 1 = running ∧
          bitsAt (t.dev.g .fwRunning) (4 * kind) 2 = running)) ∧
      (∀ a v be : Nat,
        (d.hostBarred a be = true → exec (.registerWrite .host a v be) s = .next (u.become
          ((d.count .pcieBar0Drops).fire 0x2BA))) ∧
        (d.hostBarred a be = false → a % 4 ≠ 0 → exec (.registerWrite .host a v be) s = .next u) ∧
        (∀ k : Nat, be ≠ 15 → exec (.registerWrite (.core k) a v be) s = .next u) ∧
        (∀ k : Nat, a % 4 ≠ 0 → exec (.registerWrite (.core k) a v be) s = .next u)) ∧
      (∀ (w : Who) (v : Nat), (w = .host → d.hostBarred 0x110 15 = false) →
        exec (.registerWrite w 0x110 v 15) s = .next (u.become (d.putReg 0x110 v))) ∧
      (d.keepFails .ptpEnable 0 0 [] = 0 → ∃ t, exec (.ptpEnable false) s = .next t ∧ t.dev.g .ptpEnable = 0 ∧
        t.dev.g .tbState = 0 ∧ t.dev.time.master = false ∧ (d.g .tbState ≠ 0 → Late.fire 0x070 ∈ t.dev.late)) ∧
      (d.ptpMacsOk = false → exec (.ptpEnable true) s = .next (u.become (d.answerCode 0x0310))) ∧
      (d.ptpMacsOk = true → d.keepFails .ptpEnable 0 1 [] = 0 → ∃ t, exec (.ptpEnable true) s = .next t ∧ t.dev.g .ptpEnable = 1 ∧
        t.dev.g .tbState = d.g .tbState ∧ (d.on .ptpEnable = true → t.dev.time = d.time) ∧
        (d.on .ptpEnable = false → t.dev.time.master = false ∧ t.dev.time.run = 0))) ∧
    (s.Awake 8 → ∀ (w : Who) (a : Nat), claimAt a = none → stampAt a = none → openRegister a = none →
      ∃ t, exec (.latchedRead w a) s = .next t ∧ t.dev.answer.word = (s.enter 8).dev.regWord (s.enter 8).env a ∧
        t.dev.objs = (s.enter 8).dev.objs ∧ t.mem = (s.enter 8).mem) ∧
    (s.Awake 9 →
      let u := s.enter 9
      let d := u.dev
      (∀ r : FwResult, d.pwr.writing = none → exec (.fwWriteDone r) s = .next u) ∧
      (∀ k : Nat, d.pwr.writing = some k →
        (∃ t, exec (.fwWriteDone .ok) s = .next t ∧ t.dev.pwr.writing = none ∧ t.dev.pwr.verified.find k = some true ∧
          t.dev.g .fwState = 0 ∧ t.dev.g .fwStatus = 0) ∧
        (∃ t, exec (.fwWriteDone .flashFailed) s = .next t ∧ t.dev.pwr.writing = none ∧
          t.dev.pwr.verified = d.pwr.verified ∧ t.dev.g .fwState = 0 ∧ t.dev.g .fwStatus = 0x0653)))

/-- An index and a subindex name one instance of one object. For every object and every instance it has, the decoder of
the dictionary answers that object and that instance at the index and subindex the object table gives it, so no two
instances of any objects share an address. And at every index and subindex where the decoder answers an object and an
instance, the instance is one the object has and the address is its own, so nothing is found where no table places
anything. (20_dictionary.md R410, 20_dictionary.md R414, 20_dictionary.md R431) -/
def Obligations.ObjectAddressesRoundTrip : Prop :=
  (∀ (o : Obj) (i : Nat), i < o.info.count → decodeObj (o.index i) (o.subindex i) = some (o, i)) ∧
  (∀ (index sub : Nat) (o : Obj) (i : Nat), decodeObj index sub = some (o, i) →
    i < o.info.count ∧ o.index i = index ∧ o.subindex i = sub)

/-- The action objects and the values their tables define as actions (R552). -/
def Sys2Proof.Machine.actions : List (Obj × List Nat) :=
  [(.stgOpen, [1]), (.stgSeal, [1, 2]), (.stgAbandon, [1]), (.tkGo, [1, 2, 3]), (.svGo, [1, 2, 3]), (.headRetrain, [1]),
    (.ptrCtl, [1, 2]), (.laneRecal, [1]), (.laneInject, [1]), (.dchCmd, [1, 2, 3]), (.srcPend, [1, 2]), (.sesClose, [1]),
    (.sesKill, [1]), (.openGo, [1]), (.lcStep, [1]), (.lcRecover, [1]), (.krSelftest, [1]), (.krZeroiseAll, [0xA5]),
    (.krCmd, [1, 2, 3, 4, 5, 6, 7]), (.rbAdvance, [1, 2]), (.imgEnrolGo, [1]), (.pwrCmd, [0, 1, 2, 3, 4]), (.ptGo, [1, 2])]

/-- An action object acts only on the values its table defines. For each action object whose table lists its actions: a
write of a value its table defines passes the range check; a write of any other value, 0 among them where 0 is no
action, that reaches step 6 of R411 (the object is there, the role and the gate let the write in, the length fits) is
refused with 0x0201: the block is the one before but for the answer and what every served request leaves of its
session, and no object, staging, take or key has changed. (20_dictionary.md R552) -/
def Obligations.ActionObjectsActOnTheirValues : Prop :=
  ∀ (o : Obj) (vs : List Nat), (o, vs) ∈ actions →
    (∀ v ∈ vs, o.rangeFails v = 0) ∧
    ∀ (s : State) (p : Peer) (i : Nat) (data : List Byte), s.Awake 7 → s.Serves 7 p →
      let u := s.enter 7
      let k := u.dev.sessionOf p
      let v := s.touched 7 p
      decodeObj (o.index i) (o.subindex i) = some (o, i) → targetCode p k (o.index i) (o.subindex i) false = 0 →
      v.writeCode (v.roleOf k) o = 0 → o.formCode data = 0 → o.number data ∉ vs →
      exec (.objectWrite p (o.index i) (o.subindex i) data) s = .next (u.become (v.refuse p k false 0x0201)) ∧
      ∃ t, exec (.objectWrite p (o.index i) (o.subindex i) data) s = .next t ∧ u.RefusedTo t 0x0201 ∧ t.mem = u.mem
end

