-- ==== Sys2Proof/Laws/Tab.lean ====
section
/-!
SUPPORT. The laws of sparse tables: what a lookup finds after a store or a removal, and that both keep the keys rising.
-/

namespace Sys2Proof.Machine

variable {α : Type}

@[simp] theorem Tab.find_nil (x : Nat) : Tab.find ([] : Tab α) x = none := rfl

@[simp] theorem Tab.getD_nil (x : Nat) (v : α) : Tab.getD ([] : Tab α) x v = v := rfl

@[simp] theorem Tab.find_put_same (t : Tab α) (x : Nat) (v : α) : (t.put x v).find x = some v := by
  induction t with
  | nil => simp [put, find]
  | cons p t ih =>
    obtain ⟨k, w⟩ := p
    by_cases h1 : x < k
    · simp [put, find, h1]
    · by_cases h2 : x = k
      · simp [put, find, h2]
      · simp [put, find, h1, h2, ih]

theorem Tab.find_put_other (t : Tab α) (x y : Nat) (v : α) (h : y ≠ x) : (t.put x v).find y = t.find y := by
  induction t with
  | nil => simp [put, find, h]
  | cons p t ih =>
    obtain ⟨k, w⟩ := p
    by_cases h1 : x < k
    · simp [put, find, h1, h]
    · by_cases h2 : x = k
      · subst h2; simp [put, find, h]
      · simp [put, find, h1, h2, ih]

@[simp] theorem Tab.find_del_same (t : Tab α) (x : Nat) : (t.del x).find x = none := by
  induction t with
  | nil => rfl
  | cons p t ih =>
    obtain ⟨k, w⟩ := p
    by_cases h : x = k
    · simp [del, h]; rw [← h]; exact ih
    · simp [del, find, h, ih]

theorem Tab.find_del_other (t : Tab α) (x y : Nat) (h : y ≠ x) : (t.del x).find y = t.find y := by
  induction t with
  | nil => rfl
  | cons p t ih =>
    obtain ⟨k, w⟩ := p
    by_cases h2 : x = k
    · subst h2; simp [del, find, h, ih]
    · simp [del, find, h2, ih]

@[simp] theorem Tab.getD_put_same (t : Tab α) (x : Nat) (v w : α) : (t.put x v).getD x w = v := by
  simp [getD]

theorem Tab.getD_put_other (t : Tab α) (x y : Nat) (v w : α) (h : y ≠ x) : (t.put x v).getD y w = t.getD y w := by
  simp [getD, find_put_other t x y v h]

@[simp] theorem Tab.getD_del_same (t : Tab α) (x : Nat) (w : α) : (t.del x).getD x w = w := by
  simp [getD]

theorem Tab.getD_del_other (t : Tab α) (x y : Nat) (w : α) (h : y ≠ x) : (t.del x).getD y w = t.getD y w := by
  simp [getD, find_del_other t x y h]

/-- Every key of a table after a store is an old one or the new one. -/
theorem Tab.all_put (t : Tab α) (x : Nat) (v : α) (p : Nat × α → Bool) (ht : t.all p = true) (hx : p (x, v) = true) :
    (t.put x v).all p = true := by
  induction t with
  | nil => simpa [put] using hx
  | cons q t ih =>
    obtain ⟨k, w⟩ := q
    rw [List.all_cons, Bool.and_eq_true] at ht
    by_cases h1 : x < k
    · simp [put, h1, hx, ht.1]; simpa using ht.2
    · by_cases h2 : x = k
      · subst h2; simp [put, hx]; simpa using ht.2
      · simp only [put, h1, if_false, h2, List.all_cons, ht.1, ih ht.2, Bool.and_self]

theorem Tab.all_del (t : Tab α) (x : Nat) (p : Nat × α → Bool) (ht : t.all p = true) : (t.del x).all p = true := by
  induction t with
  | nil => rfl
  | cons q t ih =>
    obtain ⟨k, w⟩ := q
    rw [List.all_cons, Bool.and_eq_true] at ht
    by_cases h : x = k
    · simp only [del, h, if_true]; rw [← h]; exact ih ht.2
    · simp only [del, h, if_false, List.all_cons, ht.1, ih ht.2, Bool.and_self]

theorem Tab.wf_put (t : Tab α) (x : Nat) (v : α) (h : t.wf = true) : (t.put x v).wf = true := by
  induction t with
  | nil => simp [put, wf]
  | cons q t ih =>
    obtain ⟨k, w⟩ := q
    rw [wf, Bool.and_eq_true] at h
    by_cases h1 : x < k
    · simp only [put, h1, if_true, wf, h.1, h.2, List.all_cons, Bool.and_true, Bool.and_eq_true, decide_eq_true_eq]
      exact ⟨trivial, List.all_eq_true.mpr fun q hq => by
        have := List.all_eq_true.mp h.1 q hq
        simp only [decide_eq_true_eq] at this ⊢; omega⟩
    · by_cases h2 : x = k
      · subst h2; simp only [put, if_true, wf, h.1, h.2, Nat.lt_irrefl, if_false, Bool.and_self]
      · simp only [put, h1, h2, if_false, wf, ih h.2, Bool.and_true]
        exact all_put t x v _ h.1 (by simp only [decide_eq_true_eq]; omega)

theorem Tab.wf_del (t : Tab α) (x : Nat) (h : t.wf = true) : (t.del x).wf = true := by
  induction t with
  | nil => rfl
  | cons q t ih =>
    obtain ⟨k, w⟩ := q
    rw [wf, Bool.and_eq_true] at h
    by_cases h2 : x = k
    · simp only [del, h2, if_true]; rw [← h2]; exact ih h.2
    · simp only [del, h2, if_false, wf, ih h.2, Bool.and_true, all_del t x _ h.1]

end Sys2Proof.Machine
end

