-- ==== Sys2Proof/Laws/Memory.lean ====
section
/-!
SUPPORT. The laws of the byte memories: a write is read back, leaves every other byte alone, and keeps the canonical form.
-/

namespace Sys2Proof.Machine

@[simp] theorem Memory.read_write_same (m : List Host.Cell) (a : Nat) (b : Byte) : read (write m a b) a = b := by
  by_cases h : b = 0
  · rw [write, if_pos h, read, Tab.getD_del_same, h]
  · rw [write, if_neg h, read, Tab.getD_put_same]

theorem Memory.read_write_other (m : List Host.Cell) (a x : Nat) (b : Byte) (h : x ≠ a) :
    read (write m a b) x = read m x := by
  by_cases h0 : b = 0
  · rw [write, if_pos h0, read, read, Tab.getD_del_other _ _ _ _ h]
  · rw [write, if_neg h0, read, read, Tab.getD_put_other _ _ _ _ _ h]

theorem Memory.write_wf (m : List Host.Cell) (a : Nat) (b : Byte) (h : wf m = true) : wf (write m a b) = true := by
  unfold wf at *
  rw [Bool.and_eq_true] at h ⊢
  unfold write
  by_cases h0 : b = 0
  · rw [if_pos h0]; exact ⟨Tab.wf_del _ _ h.1, Tab.all_del _ _ _ h.2⟩
  · rw [if_neg h0]; exact ⟨Tab.wf_put _ _ _ h.1, Tab.all_put _ _ _ _ h.2 (by simpa using h0)⟩

/-- A posted write changes its own byte of its own space, and keeps the rest. -/
theorem Mem.read_write (m : Mem) (p : Post) (s : Space) (a : Nat) :
    (m.write p).read s a = if s = p.space ∧ a = p.addr then p.byte else m.read s a := by
  obtain ⟨ps, pa, pb⟩ := p
  by_cases ha : a = pa
  · subst ha; cases ps <;> cases s <;> simp [Mem.write, Mem.read]
  · cases ps <;> cases s <;> simp [Mem.write, Mem.read, ha, Memory.read_write_other _ _ _ _ ha]

theorem Mem.write_wf (m : Mem) (p : Post) (h : m.wf = true) : (m.write p).wf = true := by
  obtain ⟨ps, pa, pb⟩ := p
  simp only [Mem.wf, Bool.and_eq_true] at h ⊢
  obtain ⟨⟨⟨h1, h2⟩, h3⟩, h4⟩ := h
  cases ps <;> simp only [Mem.write] <;>
    exact ⟨⟨⟨by first | exact h1 | exact Memory.write_wf _ _ _ h1, by first | exact h2 | exact Memory.write_wf _ _ _ h2⟩,
      by first | exact h3 | exact Memory.write_wf _ _ _ h3⟩, by first | exact h4 | exact Memory.write_wf _ _ _ h4⟩

/-- Every list of posted writes keeps the canonical form. -/
theorem Mem.apply_wf (m : Mem) (ps : List Post) (h : m.wf = true) : (m.apply ps).wf = true := by
  unfold Mem.apply
  induction ps generalizing m with
  | nil => exact h
  | cons p ps ih => exact ih _ (Mem.write_wf m p h)

@[simp] theorem Mem.apply_nil (m : Mem) : m.apply [] = m := rfl

/-- A byte no posted write names reads as before. -/
theorem Mem.read_apply_other (m : Mem) (ps : List Post) (s : Space) (a : Nat)
    (h : ∀ p ∈ ps, ¬(s = p.space ∧ a = p.addr)) : (m.apply ps).read s a = m.read s a := by
  unfold Mem.apply
  induction ps generalizing m with
  | nil => rfl
  | cons p ps ih =>
    rw [List.foldl_cons, ih _ fun q hq => h q (List.mem_cons_of_mem _ hq), Mem.read_write, if_neg (h p List.mem_cons_self)]

end Sys2Proof.Machine
end

