-- ==== Sys2Proof/Laws/State.lean ====
section
/-!
SUPPORT. One lemma per field of the block per named update: what the update leaves, and what it makes of the field it
changes. No later proof unfolds an update.
-/

namespace Sys2Proof.Machine

/-! ## put -/

@[simp] theorem Dev.put_objs (d : Dev) (o : Obj) (i v : Nat) : (d.put o i v).objs = d.objs.put (o.key i) (v % 2 ^ o.info.ty.width) := rfl
@[simp] theorem Dev.put_blobs (d : Dev) (o : Obj) (i v : Nat) : (d.put o i v).blobs = d.blobs := rfl
@[simp] theorem Dev.put_regs (d : Dev) (o : Obj) (i v : Nat) : (d.put o i v).regs = d.regs := rfl
@[simp] theorem Dev.put_latch (d : Dev) (o : Obj) (i v : Nat) : (d.put o i v).latch = d.latch := rfl
@[simp] theorem Dev.put_late (d : Dev) (o : Obj) (i v : Nat) : (d.put o i v).late = d.late := rfl
@[simp] theorem Dev.put_posts (d : Dev) (o : Obj) (i v : Nat) : (d.put o i v).posts = d.posts := rfl
@[simp] theorem Dev.put_drawn (d : Dev) (o : Obj) (i v : Nat) : (d.put o i v).drawn = d.drawn := rfl
@[simp] theorem Dev.put_ink (d : Dev) (o : Obj) (i v : Nat) : (d.put o i v).ink = d.ink := rfl
@[simp] theorem Dev.put_rings (d : Dev) (o : Obj) (i v : Nat) : (d.put o i v).rings = d.rings := rfl
@[simp] theorem Dev.put_descs (d : Dev) (o : Obj) (i v : Nat) : (d.put o i v).descs = d.descs := rfl
@[simp] theorem Dev.put_groupEvents (d : Dev) (o : Obj) (i v : Nat) : (d.put o i v).groupEvents = d.groupEvents := rfl
@[simp] theorem Dev.put_time (d : Dev) (o : Obj) (i v : Nat) : (d.put o i v).time = d.time := rfl
@[simp] theorem Dev.put_groups (d : Dev) (o : Obj) (i v : Nat) : (d.put o i v).groups = d.groups := rfl
@[simp] theorem Dev.put_arrs (d : Dev) (o : Obj) (i v : Nat) : (d.put o i v).arrs = d.arrs := rfl
@[simp] theorem Dev.put_stagings (d : Dev) (o : Obj) (i v : Nat) : (d.put o i v).stagings = d.stagings := rfl
@[simp] theorem Dev.put_seals (d : Dev) (o : Obj) (i v : Nat) : (d.put o i v).seals = d.seals := rfl
@[simp] theorem Dev.put_takes (d : Dev) (o : Obj) (i v : Nat) : (d.put o i v).takes = d.takes := rfl
@[simp] theorem Dev.put_accepted (d : Dev) (o : Obj) (i v : Nat) : (d.put o i v).accepted = d.accepted := rfl
@[simp] theorem Dev.put_landedAt (d : Dev) (o : Obj) (i v : Nat) : (d.put o i v).landedAt = d.landedAt := rfl
@[simp] theorem Dev.put_salvos (d : Dev) (o : Obj) (i v : Nat) : (d.put o i v).salvos = d.salvos := rfl
@[simp] theorem Dev.put_lays (d : Dev) (o : Obj) (i v : Nat) : (d.put o i v).lays = d.lays := rfl
@[simp] theorem Dev.put_deps (d : Dev) (o : Obj) (i v : Nat) : (d.put o i v).deps = d.deps := rfl
@[simp] theorem Dev.put_seqs (d : Dev) (o : Obj) (i v : Nat) : (d.put o i v).seqs = d.seqs := rfl
@[simp] theorem Dev.put_ptrs (d : Dev) (o : Obj) (i v : Nat) : (d.put o i v).ptrs = d.ptrs := rfl
@[simp] theorem Dev.put_embBlocks (d : Dev) (o : Obj) (i v : Nat) : (d.put o i v).embBlocks = d.embBlocks := rfl
@[simp] theorem Dev.put_io (d : Dev) (o : Obj) (i v : Nat) : (d.put o i v).io = d.io := rfl
@[simp] theorem Dev.put_audio (d : Dev) (o : Obj) (i v : Nat) : (d.put o i v).audio = d.audio := rfl
@[simp] theorem Dev.put_test (d : Dev) (o : Obj) (i v : Nat) : (d.put o i v).test = d.test := rfl
@[simp] theorem Dev.put_dram (d : Dev) (o : Obj) (i v : Nat) : (d.put o i v).dram = d.dram := rfl
@[simp] theorem Dev.put_bus (d : Dev) (o : Obj) (i v : Nat) : (d.put o i v).bus = d.bus := rfl
@[simp] theorem Dev.put_nv (d : Dev) (o : Obj) (i v : Nat) : (d.put o i v).nv = d.nv := rfl
@[simp] theorem Dev.put_ses (d : Dev) (o : Obj) (i v : Nat) : (d.put o i v).ses = d.ses := rfl
@[simp] theorem Dev.put_kr (d : Dev) (o : Obj) (i v : Nat) : (d.put o i v).kr = d.kr := rfl
@[simp] theorem Dev.put_fuses (d : Dev) (o : Obj) (i v : Nat) : (d.put o i v).fuses = d.fuses := rfl
@[simp] theorem Dev.put_pwr (d : Dev) (o : Obj) (i v : Nat) : (d.put o i v).pwr = d.pwr := rfl
@[simp] theorem Dev.put_answer (d : Dev) (o : Obj) (i v : Nat) : (d.put o i v).answer = d.answer := rfl

/-! ## puti -/

@[simp] theorem Dev.puti_blobs (d : Dev) (o : Obj) (i : Nat) (v : Int) : (d.puti o i v).blobs = d.blobs := rfl
@[simp] theorem Dev.puti_regs (d : Dev) (o : Obj) (i : Nat) (v : Int) : (d.puti o i v).regs = d.regs := rfl
@[simp] theorem Dev.puti_latch (d : Dev) (o : Obj) (i : Nat) (v : Int) : (d.puti o i v).latch = d.latch := rfl
@[simp] theorem Dev.puti_late (d : Dev) (o : Obj) (i : Nat) (v : Int) : (d.puti o i v).late = d.late := rfl
@[simp] theorem Dev.puti_posts (d : Dev) (o : Obj) (i : Nat) (v : Int) : (d.puti o i v).posts = d.posts := rfl
@[simp] theorem Dev.puti_drawn (d : Dev) (o : Obj) (i : Nat) (v : Int) : (d.puti o i v).drawn = d.drawn := rfl
@[simp] theorem Dev.puti_ink (d : Dev) (o : Obj) (i : Nat) (v : Int) : (d.puti o i v).ink = d.ink := rfl
@[simp] theorem Dev.puti_rings (d : Dev) (o : Obj) (i : Nat) (v : Int) : (d.puti o i v).rings = d.rings := rfl
@[simp] theorem Dev.puti_descs (d : Dev) (o : Obj) (i : Nat) (v : Int) : (d.puti o i v).descs = d.descs := rfl
@[simp] theorem Dev.puti_groupEvents (d : Dev) (o : Obj) (i : Nat) (v : Int) : (d.puti o i v).groupEvents = d.groupEvents := rfl
@[simp] theorem Dev.puti_time (d : Dev) (o : Obj) (i : Nat) (v : Int) : (d.puti o i v).time = d.time := rfl
@[simp] theorem Dev.puti_groups (d : Dev) (o : Obj) (i : Nat) (v : Int) : (d.puti o i v).groups = d.groups := rfl
@[simp] theorem Dev.puti_arrs (d : Dev) (o : Obj) (i : Nat) (v : Int) : (d.puti o i v).arrs = d.arrs := rfl
@[simp] theorem Dev.puti_stagings (d : Dev) (o : Obj) (i : Nat) (v : Int) : (d.puti o i v).stagings = d.stagings := rfl
@[simp] theorem Dev.puti_seals (d : Dev) (o : Obj) (i : Nat) (v : Int) : (d.puti o i v).seals = d.seals := rfl
@[simp] theorem Dev.puti_takes (d : Dev) (o : Obj) (i : Nat) (v : Int) : (d.puti o i v).takes = d.takes := rfl
@[simp] theorem Dev.puti_accepted (d : Dev) (o : Obj) (i : Nat) (v : Int) : (d.puti o i v).accepted = d.accepted := rfl
@[simp] theorem Dev.puti_landedAt (d : Dev) (o : Obj) (i : Nat) (v : Int) : (d.puti o i v).landedAt = d.landedAt := rfl
@[simp] theorem Dev.puti_salvos (d : Dev) (o : Obj) (i : Nat) (v : Int) : (d.puti o i v).salvos = d.salvos := rfl
@[simp] theorem Dev.puti_lays (d : Dev) (o : Obj) (i : Nat) (v : Int) : (d.puti o i v).lays = d.lays := rfl
@[simp] theorem Dev.puti_deps (d : Dev) (o : Obj) (i : Nat) (v : Int) : (d.puti o i v).deps = d.deps := rfl
@[simp] theorem Dev.puti_seqs (d : Dev) (o : Obj) (i : Nat) (v : Int) : (d.puti o i v).seqs = d.seqs := rfl
@[simp] theorem Dev.puti_ptrs (d : Dev) (o : Obj) (i : Nat) (v : Int) : (d.puti o i v).ptrs = d.ptrs := rfl
@[simp] theorem Dev.puti_embBlocks (d : Dev) (o : Obj) (i : Nat) (v : Int) : (d.puti o i v).embBlocks = d.embBlocks := rfl
@[simp] theorem Dev.puti_io (d : Dev) (o : Obj) (i : Nat) (v : Int) : (d.puti o i v).io = d.io := rfl
@[simp] theorem Dev.puti_audio (d : Dev) (o : Obj) (i : Nat) (v : Int) : (d.puti o i v).audio = d.audio := rfl
@[simp] theorem Dev.puti_test (d : Dev) (o : Obj) (i : Nat) (v : Int) : (d.puti o i v).test = d.test := rfl
@[simp] theorem Dev.puti_dram (d : Dev) (o : Obj) (i : Nat) (v : Int) : (d.puti o i v).dram = d.dram := rfl
@[simp] theorem Dev.puti_bus (d : Dev) (o : Obj) (i : Nat) (v : Int) : (d.puti o i v).bus = d.bus := rfl
@[simp] theorem Dev.puti_nv (d : Dev) (o : Obj) (i : Nat) (v : Int) : (d.puti o i v).nv = d.nv := rfl
@[simp] theorem Dev.puti_ses (d : Dev) (o : Obj) (i : Nat) (v : Int) : (d.puti o i v).ses = d.ses := rfl
@[simp] theorem Dev.puti_kr (d : Dev) (o : Obj) (i : Nat) (v : Int) : (d.puti o i v).kr = d.kr := rfl
@[simp] theorem Dev.puti_fuses (d : Dev) (o : Obj) (i : Nat) (v : Int) : (d.puti o i v).fuses = d.fuses := rfl
@[simp] theorem Dev.puti_pwr (d : Dev) (o : Obj) (i : Nat) (v : Int) : (d.puti o i v).pwr = d.pwr := rfl
@[simp] theorem Dev.puti_answer (d : Dev) (o : Obj) (i : Nat) (v : Int) : (d.puti o i v).answer = d.answer := rfl

/-! ## clear -/

@[simp] theorem Dev.clear_objs (d : Dev) (o : Obj) (i : Nat) : (d.clear o i).objs = d.objs.del (o.key i) := rfl
@[simp] theorem Dev.clear_blobs (d : Dev) (o : Obj) (i : Nat) : (d.clear o i).blobs = d.blobs := rfl
@[simp] theorem Dev.clear_regs (d : Dev) (o : Obj) (i : Nat) : (d.clear o i).regs = d.regs := rfl
@[simp] theorem Dev.clear_latch (d : Dev) (o : Obj) (i : Nat) : (d.clear o i).latch = d.latch := rfl
@[simp] theorem Dev.clear_late (d : Dev) (o : Obj) (i : Nat) : (d.clear o i).late = d.late := rfl
@[simp] theorem Dev.clear_posts (d : Dev) (o : Obj) (i : Nat) : (d.clear o i).posts = d.posts := rfl
@[simp] theorem Dev.clear_drawn (d : Dev) (o : Obj) (i : Nat) : (d.clear o i).drawn = d.drawn := rfl
@[simp] theorem Dev.clear_ink (d : Dev) (o : Obj) (i : Nat) : (d.clear o i).ink = d.ink := rfl
@[simp] theorem Dev.clear_rings (d : Dev) (o : Obj) (i : Nat) : (d.clear o i).rings = d.rings := rfl
@[simp] theorem Dev.clear_descs (d : Dev) (o : Obj) (i : Nat) : (d.clear o i).descs = d.descs := rfl
@[simp] theorem Dev.clear_groupEvents (d : Dev) (o : Obj) (i : Nat) : (d.clear o i).groupEvents = d.groupEvents := rfl
@[simp] theorem Dev.clear_time (d : Dev) (o : Obj) (i : Nat) : (d.clear o i).time = d.time := rfl
@[simp] theorem Dev.clear_groups (d : Dev) (o : Obj) (i : Nat) : (d.clear o i).groups = d.groups := rfl
@[simp] theorem Dev.clear_arrs (d : Dev) (o : Obj) (i : Nat) : (d.clear o i).arrs = d.arrs := rfl
@[simp] theorem Dev.clear_stagings (d : Dev) (o : Obj) (i : Nat) : (d.clear o i).stagings = d.stagings := rfl
@[simp] theorem Dev.clear_seals (d : Dev) (o : Obj) (i : Nat) : (d.clear o i).seals = d.seals := rfl
@[simp] theorem Dev.clear_takes (d : Dev) (o : Obj) (i : Nat) : (d.clear o i).takes = d.takes := rfl
@[simp] theorem Dev.clear_accepted (d : Dev) (o : Obj) (i : Nat) : (d.clear o i).accepted = d.accepted := rfl
@[simp] theorem Dev.clear_landedAt (d : Dev) (o : Obj) (i : Nat) : (d.clear o i).landedAt = d.landedAt := rfl
@[simp] theorem Dev.clear_salvos (d : Dev) (o : Obj) (i : Nat) : (d.clear o i).salvos = d.salvos := rfl
@[simp] theorem Dev.clear_lays (d : Dev) (o : Obj) (i : Nat) : (d.clear o i).lays = d.lays := rfl
@[simp] theorem Dev.clear_deps (d : Dev) (o : Obj) (i : Nat) : (d.clear o i).deps = d.deps := rfl
@[simp] theorem Dev.clear_seqs (d : Dev) (o : Obj) (i : Nat) : (d.clear o i).seqs = d.seqs := rfl
@[simp] theorem Dev.clear_ptrs (d : Dev) (o : Obj) (i : Nat) : (d.clear o i).ptrs = d.ptrs := rfl
@[simp] theorem Dev.clear_embBlocks (d : Dev) (o : Obj) (i : Nat) : (d.clear o i).embBlocks = d.embBlocks := rfl
@[simp] theorem Dev.clear_io (d : Dev) (o : Obj) (i : Nat) : (d.clear o i).io = d.io := rfl
@[simp] theorem Dev.clear_audio (d : Dev) (o : Obj) (i : Nat) : (d.clear o i).audio = d.audio := rfl
@[simp] theorem Dev.clear_test (d : Dev) (o : Obj) (i : Nat) : (d.clear o i).test = d.test := rfl
@[simp] theorem Dev.clear_dram (d : Dev) (o : Obj) (i : Nat) : (d.clear o i).dram = d.dram := rfl
@[simp] theorem Dev.clear_bus (d : Dev) (o : Obj) (i : Nat) : (d.clear o i).bus = d.bus := rfl
@[simp] theorem Dev.clear_nv (d : Dev) (o : Obj) (i : Nat) : (d.clear o i).nv = d.nv := rfl
@[simp] theorem Dev.clear_ses (d : Dev) (o : Obj) (i : Nat) : (d.clear o i).ses = d.ses := rfl
@[simp] theorem Dev.clear_kr (d : Dev) (o : Obj) (i : Nat) : (d.clear o i).kr = d.kr := rfl
@[simp] theorem Dev.clear_fuses (d : Dev) (o : Obj) (i : Nat) : (d.clear o i).fuses = d.fuses := rfl
@[simp] theorem Dev.clear_pwr (d : Dev) (o : Obj) (i : Nat) : (d.clear o i).pwr = d.pwr := rfl
@[simp] theorem Dev.clear_answer (d : Dev) (o : Obj) (i : Nat) : (d.clear o i).answer = d.answer := rfl

/-! ## clearFlags -/

@[simp] theorem Dev.clearFlags_blobs (d : Dev) (o : Obj) (i b : Nat) : (d.clearFlags o i b).blobs = d.blobs := rfl
@[simp] theorem Dev.clearFlags_regs (d : Dev) (o : Obj) (i b : Nat) : (d.clearFlags o i b).regs = d.regs := rfl
@[simp] theorem Dev.clearFlags_latch (d : Dev) (o : Obj) (i b : Nat) : (d.clearFlags o i b).latch = d.latch := rfl
@[simp] theorem Dev.clearFlags_late (d : Dev) (o : Obj) (i b : Nat) : (d.clearFlags o i b).late = d.late := rfl
@[simp] theorem Dev.clearFlags_posts (d : Dev) (o : Obj) (i b : Nat) : (d.clearFlags o i b).posts = d.posts := rfl
@[simp] theorem Dev.clearFlags_drawn (d : Dev) (o : Obj) (i b : Nat) : (d.clearFlags o i b).drawn = d.drawn := rfl
@[simp] theorem Dev.clearFlags_ink (d : Dev) (o : Obj) (i b : Nat) : (d.clearFlags o i b).ink = d.ink := rfl
@[simp] theorem Dev.clearFlags_rings (d : Dev) (o : Obj) (i b : Nat) : (d.clearFlags o i b).rings = d.rings := rfl
@[simp] theorem Dev.clearFlags_descs (d : Dev) (o : Obj) (i b : Nat) : (d.clearFlags o i b).descs = d.descs := rfl
@[simp] theorem Dev.clearFlags_groupEvents (d : Dev) (o : Obj) (i b : Nat) : (d.clearFlags o i b).groupEvents = d.groupEvents := rfl
@[simp] theorem Dev.clearFlags_time (d : Dev) (o : Obj) (i b : Nat) : (d.clearFlags o i b).time = d.time := rfl
@[simp] theorem Dev.clearFlags_groups (d : Dev) (o : Obj) (i b : Nat) : (d.clearFlags o i b).groups = d.groups := rfl
@[simp] theorem Dev.clearFlags_arrs (d : Dev) (o : Obj) (i b : Nat) : (d.clearFlags o i b).arrs = d.arrs := rfl
@[simp] theorem Dev.clearFlags_stagings (d : Dev) (o : Obj) (i b : Nat) : (d.clearFlags o i b).stagings = d.stagings := rfl
@[simp] theorem Dev.clearFlags_seals (d : Dev) (o : Obj) (i b : Nat) : (d.clearFlags o i b).seals = d.seals := rfl
@[simp] theorem Dev.clearFlags_takes (d : Dev) (o : Obj) (i b : Nat) : (d.clearFlags o i b).takes = d.takes := rfl
@[simp] theorem Dev.clearFlags_accepted (d : Dev) (o : Obj) (i b : Nat) : (d.clearFlags o i b).accepted = d.accepted := rfl
@[simp] theorem Dev.clearFlags_landedAt (d : Dev) (o : Obj) (i b : Nat) : (d.clearFlags o i b).landedAt = d.landedAt := rfl
@[simp] theorem Dev.clearFlags_salvos (d : Dev) (o : Obj) (i b : Nat) : (d.clearFlags o i b).salvos = d.salvos := rfl
@[simp] theorem Dev.clearFlags_lays (d : Dev) (o : Obj) (i b : Nat) : (d.clearFlags o i b).lays = d.lays := rfl
@[simp] theorem Dev.clearFlags_deps (d : Dev) (o : Obj) (i b : Nat) : (d.clearFlags o i b).deps = d.deps := rfl
@[simp] theorem Dev.clearFlags_seqs (d : Dev) (o : Obj) (i b : Nat) : (d.clearFlags o i b).seqs = d.seqs := rfl
@[simp] theorem Dev.clearFlags_ptrs (d : Dev) (o : Obj) (i b : Nat) : (d.clearFlags o i b).ptrs = d.ptrs := rfl
@[simp] theorem Dev.clearFlags_embBlocks (d : Dev) (o : Obj) (i b : Nat) : (d.clearFlags o i b).embBlocks = d.embBlocks := rfl
@[simp] theorem Dev.clearFlags_io (d : Dev) (o : Obj) (i b : Nat) : (d.clearFlags o i b).io = d.io := rfl
@[simp] theorem Dev.clearFlags_audio (d : Dev) (o : Obj) (i b : Nat) : (d.clearFlags o i b).audio = d.audio := rfl
@[simp] theorem Dev.clearFlags_test (d : Dev) (o : Obj) (i b : Nat) : (d.clearFlags o i b).test = d.test := rfl
@[simp] theorem Dev.clearFlags_dram (d : Dev) (o : Obj) (i b : Nat) : (d.clearFlags o i b).dram = d.dram := rfl
@[simp] theorem Dev.clearFlags_bus (d : Dev) (o : Obj) (i b : Nat) : (d.clearFlags o i b).bus = d.bus := rfl
@[simp] theorem Dev.clearFlags_nv (d : Dev) (o : Obj) (i b : Nat) : (d.clearFlags o i b).nv = d.nv := rfl
@[simp] theorem Dev.clearFlags_ses (d : Dev) (o : Obj) (i b : Nat) : (d.clearFlags o i b).ses = d.ses := rfl
@[simp] theorem Dev.clearFlags_kr (d : Dev) (o : Obj) (i b : Nat) : (d.clearFlags o i b).kr = d.kr := rfl
@[simp] theorem Dev.clearFlags_fuses (d : Dev) (o : Obj) (i b : Nat) : (d.clearFlags o i b).fuses = d.fuses := rfl
@[simp] theorem Dev.clearFlags_pwr (d : Dev) (o : Obj) (i b : Nat) : (d.clearFlags o i b).pwr = d.pwr := rfl
@[simp] theorem Dev.clearFlags_answer (d : Dev) (o : Obj) (i b : Nat) : (d.clearFlags o i b).answer = d.answer := rfl

/-! ## putBlob -/

@[simp] theorem Dev.putBlob_objs (d : Dev) (o : Obj) (i : Nat) (b : List Byte) : (d.putBlob o i b).objs = d.objs := rfl
@[simp] theorem Dev.putBlob_blobs (d : Dev) (o : Obj) (i : Nat) (b : List Byte) : (d.putBlob o i b).blobs = d.blobs.put (o.key i) b := rfl
@[simp] theorem Dev.putBlob_regs (d : Dev) (o : Obj) (i : Nat) (b : List Byte) : (d.putBlob o i b).regs = d.regs := rfl
@[simp] theorem Dev.putBlob_latch (d : Dev) (o : Obj) (i : Nat) (b : List Byte) : (d.putBlob o i b).latch = d.latch := rfl
@[simp] theorem Dev.putBlob_late (d : Dev) (o : Obj) (i : Nat) (b : List Byte) : (d.putBlob o i b).late = d.late := rfl
@[simp] theorem Dev.putBlob_posts (d : Dev) (o : Obj) (i : Nat) (b : List Byte) : (d.putBlob o i b).posts = d.posts := rfl
@[simp] theorem Dev.putBlob_drawn (d : Dev) (o : Obj) (i : Nat) (b : List Byte) : (d.putBlob o i b).drawn = d.drawn := rfl
@[simp] theorem Dev.putBlob_ink (d : Dev) (o : Obj) (i : Nat) (b : List Byte) : (d.putBlob o i b).ink = d.ink := rfl
@[simp] theorem Dev.putBlob_rings (d : Dev) (o : Obj) (i : Nat) (b : List Byte) : (d.putBlob o i b).rings = d.rings := rfl
@[simp] theorem Dev.putBlob_descs (d : Dev) (o : Obj) (i : Nat) (b : List Byte) : (d.putBlob o i b).descs = d.descs := rfl
@[simp] theorem Dev.putBlob_groupEvents (d : Dev) (o : Obj) (i : Nat) (b : List Byte) : (d.putBlob o i b).groupEvents = d.groupEvents := rfl
@[simp] theorem Dev.putBlob_time (d : Dev) (o : Obj) (i : Nat) (b : List Byte) : (d.putBlob o i b).time = d.time := rfl
@[simp] theorem Dev.putBlob_groups (d : Dev) (o : Obj) (i : Nat) (b : List Byte) : (d.putBlob o i b).groups = d.groups := rfl
@[simp] theorem Dev.putBlob_arrs (d : Dev) (o : Obj) (i : Nat) (b : List Byte) : (d.putBlob o i b).arrs = d.arrs := rfl
@[simp] theorem Dev.putBlob_stagings (d : Dev) (o : Obj) (i : Nat) (b : List Byte) : (d.putBlob o i b).stagings = d.stagings := rfl
@[simp] theorem Dev.putBlob_seals (d : Dev) (o : Obj) (i : Nat) (b : List Byte) : (d.putBlob o i b).seals = d.seals := rfl
@[simp] theorem Dev.putBlob_takes (d : Dev) (o : Obj) (i : Nat) (b : List Byte) : (d.putBlob o i b).takes = d.takes := rfl
@[simp] theorem Dev.putBlob_accepted (d : Dev) (o : Obj) (i : Nat) (b : List Byte) : (d.putBlob o i b).accepted = d.accepted := rfl
@[simp] theorem Dev.putBlob_landedAt (d : Dev) (o : Obj) (i : Nat) (b : List Byte) : (d.putBlob o i b).landedAt = d.landedAt := rfl
@[simp] theorem Dev.putBlob_salvos (d : Dev) (o : Obj) (i : Nat) (b : List Byte) : (d.putBlob o i b).salvos = d.salvos := rfl
@[simp] theorem Dev.putBlob_lays (d : Dev) (o : Obj) (i : Nat) (b : List Byte) : (d.putBlob o i b).lays = d.lays := rfl
@[simp] theorem Dev.putBlob_deps (d : Dev) (o : Obj) (i : Nat) (b : List Byte) : (d.putBlob o i b).deps = d.deps := rfl
@[simp] theorem Dev.putBlob_seqs (d : Dev) (o : Obj) (i : Nat) (b : List Byte) : (d.putBlob o i b).seqs = d.seqs := rfl
@[simp] theorem Dev.putBlob_ptrs (d : Dev) (o : Obj) (i : Nat) (b : List Byte) : (d.putBlob o i b).ptrs = d.ptrs := rfl
@[simp] theorem Dev.putBlob_embBlocks (d : Dev) (o : Obj) (i : Nat) (b : List Byte) : (d.putBlob o i b).embBlocks = d.embBlocks := rfl
@[simp] theorem Dev.putBlob_io (d : Dev) (o : Obj) (i : Nat) (b : List Byte) : (d.putBlob o i b).io = d.io := rfl
@[simp] theorem Dev.putBlob_audio (d : Dev) (o : Obj) (i : Nat) (b : List Byte) : (d.putBlob o i b).audio = d.audio := rfl
@[simp] theorem Dev.putBlob_test (d : Dev) (o : Obj) (i : Nat) (b : List Byte) : (d.putBlob o i b).test = d.test := rfl
@[simp] theorem Dev.putBlob_dram (d : Dev) (o : Obj) (i : Nat) (b : List Byte) : (d.putBlob o i b).dram = d.dram := rfl
@[simp] theorem Dev.putBlob_bus (d : Dev) (o : Obj) (i : Nat) (b : List Byte) : (d.putBlob o i b).bus = d.bus := rfl
@[simp] theorem Dev.putBlob_nv (d : Dev) (o : Obj) (i : Nat) (b : List Byte) : (d.putBlob o i b).nv = d.nv := rfl
@[simp] theorem Dev.putBlob_ses (d : Dev) (o : Obj) (i : Nat) (b : List Byte) : (d.putBlob o i b).ses = d.ses := rfl
@[simp] theorem Dev.putBlob_kr (d : Dev) (o : Obj) (i : Nat) (b : List Byte) : (d.putBlob o i b).kr = d.kr := rfl
@[simp] theorem Dev.putBlob_fuses (d : Dev) (o : Obj) (i : Nat) (b : List Byte) : (d.putBlob o i b).fuses = d.fuses := rfl
@[simp] theorem Dev.putBlob_pwr (d : Dev) (o : Obj) (i : Nat) (b : List Byte) : (d.putBlob o i b).pwr = d.pwr := rfl
@[simp] theorem Dev.putBlob_answer (d : Dev) (o : Obj) (i : Nat) (b : List Byte) : (d.putBlob o i b).answer = d.answer := rfl
@[simp] theorem Dev.putBlob_g (d : Dev) (o : Obj) (i : Nat) (b : List Byte) (p : Obj) (k : Nat) : (d.putBlob o i b).g p k = d.g p k := rfl

/-! ## putReg -/

@[simp] theorem Dev.putReg_objs (d : Dev) (a v : Nat) : (d.putReg a v).objs = d.objs := rfl
@[simp] theorem Dev.putReg_blobs (d : Dev) (a v : Nat) : (d.putReg a v).blobs = d.blobs := rfl
@[simp] theorem Dev.putReg_regs (d : Dev) (a v : Nat) : (d.putReg a v).regs = d.regs.put a (v % 2 ^ 32) := rfl
@[simp] theorem Dev.putReg_latch (d : Dev) (a v : Nat) : (d.putReg a v).latch = d.latch := rfl
@[simp] theorem Dev.putReg_late (d : Dev) (a v : Nat) : (d.putReg a v).late = d.late := rfl
@[simp] theorem Dev.putReg_posts (d : Dev) (a v : Nat) : (d.putReg a v).posts = d.posts := rfl
@[simp] theorem Dev.putReg_drawn (d : Dev) (a v : Nat) : (d.putReg a v).drawn = d.drawn := rfl
@[simp] theorem Dev.putReg_ink (d : Dev) (a v : Nat) : (d.putReg a v).ink = d.ink := rfl
@[simp] theorem Dev.putReg_rings (d : Dev) (a v : Nat) : (d.putReg a v).rings = d.rings := rfl
@[simp] theorem Dev.putReg_descs (d : Dev) (a v : Nat) : (d.putReg a v).descs = d.descs := rfl
@[simp] theorem Dev.putReg_groupEvents (d : Dev) (a v : Nat) : (d.putReg a v).groupEvents = d.groupEvents := rfl
@[simp] theorem Dev.putReg_time (d : Dev) (a v : Nat) : (d.putReg a v).time = d.time := rfl
@[simp] theorem Dev.putReg_groups (d : Dev) (a v : Nat) : (d.putReg a v).groups = d.groups := rfl
@[simp] theorem Dev.putReg_arrs (d : Dev) (a v : Nat) : (d.putReg a v).arrs = d.arrs := rfl
@[simp] theorem Dev.putReg_stagings (d : Dev) (a v : Nat) : (d.putReg a v).stagings = d.stagings := rfl
@[simp] theorem Dev.putReg_seals (d : Dev) (a v : Nat) : (d.putReg a v).seals = d.seals := rfl
@[simp] theorem Dev.putReg_takes (d : Dev) (a v : Nat) : (d.putReg a v).takes = d.takes := rfl
@[simp] theorem Dev.putReg_accepted (d : Dev) (a v : Nat) : (d.putReg a v).accepted = d.accepted := rfl
@[simp] theorem Dev.putReg_landedAt (d : Dev) (a v : Nat) : (d.putReg a v).landedAt = d.landedAt := rfl
@[simp] theorem Dev.putReg_salvos (d : Dev) (a v : Nat) : (d.putReg a v).salvos = d.salvos := rfl
@[simp] theorem Dev.putReg_lays (d : Dev) (a v : Nat) : (d.putReg a v).lays = d.lays := rfl
@[simp] theorem Dev.putReg_deps (d : Dev) (a v : Nat) : (d.putReg a v).deps = d.deps := rfl
@[simp] theorem Dev.putReg_seqs (d : Dev) (a v : Nat) : (d.putReg a v).seqs = d.seqs := rfl
@[simp] theorem Dev.putReg_ptrs (d : Dev) (a v : Nat) : (d.putReg a v).ptrs = d.ptrs := rfl
@[simp] theorem Dev.putReg_embBlocks (d : Dev) (a v : Nat) : (d.putReg a v).embBlocks = d.embBlocks := rfl
@[simp] theorem Dev.putReg_io (d : Dev) (a v : Nat) : (d.putReg a v).io = d.io := rfl
@[simp] theorem Dev.putReg_audio (d : Dev) (a v : Nat) : (d.putReg a v).audio = d.audio := rfl
@[simp] theorem Dev.putReg_test (d : Dev) (a v : Nat) : (d.putReg a v).test = d.test := rfl
@[simp] theorem Dev.putReg_dram (d : Dev) (a v : Nat) : (d.putReg a v).dram = d.dram := rfl
@[simp] theorem Dev.putReg_bus (d : Dev) (a v : Nat) : (d.putReg a v).bus = d.bus := rfl
@[simp] theorem Dev.putReg_nv (d : Dev) (a v : Nat) : (d.putReg a v).nv = d.nv := rfl
@[simp] theorem Dev.putReg_ses (d : Dev) (a v : Nat) : (d.putReg a v).ses = d.ses := rfl
@[simp] theorem Dev.putReg_kr (d : Dev) (a v : Nat) : (d.putReg a v).kr = d.kr := rfl
@[simp] theorem Dev.putReg_fuses (d : Dev) (a v : Nat) : (d.putReg a v).fuses = d.fuses := rfl
@[simp] theorem Dev.putReg_pwr (d : Dev) (a v : Nat) : (d.putReg a v).pwr = d.pwr := rfl
@[simp] theorem Dev.putReg_answer (d : Dev) (a v : Nat) : (d.putReg a v).answer = d.answer := rfl
@[simp] theorem Dev.putReg_g (d : Dev) (a v : Nat) (p : Obj) (k : Nat) : (d.putReg a v).g p k = d.g p k := rfl

/-! ## later -/

@[simp] theorem Dev.later_objs (d : Dev) (l : Late) : (d.later l).objs = d.objs := rfl
@[simp] theorem Dev.later_blobs (d : Dev) (l : Late) : (d.later l).blobs = d.blobs := rfl
@[simp] theorem Dev.later_regs (d : Dev) (l : Late) : (d.later l).regs = d.regs := rfl
@[simp] theorem Dev.later_latch (d : Dev) (l : Late) : (d.later l).latch = d.latch := rfl
@[simp] theorem Dev.later_late (d : Dev) (l : Late) : (d.later l).late = d.late ++ [l] := rfl
@[simp] theorem Dev.later_posts (d : Dev) (l : Late) : (d.later l).posts = d.posts := rfl
@[simp] theorem Dev.later_drawn (d : Dev) (l : Late) : (d.later l).drawn = d.drawn := rfl
@[simp] theorem Dev.later_ink (d : Dev) (l : Late) : (d.later l).ink = d.ink := rfl
@[simp] theorem Dev.later_rings (d : Dev) (l : Late) : (d.later l).rings = d.rings := rfl
@[simp] theorem Dev.later_descs (d : Dev) (l : Late) : (d.later l).descs = d.descs := rfl
@[simp] theorem Dev.later_groupEvents (d : Dev) (l : Late) : (d.later l).groupEvents = d.groupEvents := rfl
@[simp] theorem Dev.later_time (d : Dev) (l : Late) : (d.later l).time = d.time := rfl
@[simp] theorem Dev.later_groups (d : Dev) (l : Late) : (d.later l).groups = d.groups := rfl
@[simp] theorem Dev.later_arrs (d : Dev) (l : Late) : (d.later l).arrs = d.arrs := rfl
@[simp] theorem Dev.later_stagings (d : Dev) (l : Late) : (d.later l).stagings = d.stagings := rfl
@[simp] theorem Dev.later_seals (d : Dev) (l : Late) : (d.later l).seals = d.seals := rfl
@[simp] theorem Dev.later_takes (d : Dev) (l : Late) : (d.later l).takes = d.takes := rfl
@[simp] theorem Dev.later_accepted (d : Dev) (l : Late) : (d.later l).accepted = d.accepted := rfl
@[simp] theorem Dev.later_landedAt (d : Dev) (l : Late) : (d.later l).landedAt = d.landedAt := rfl
@[simp] theorem Dev.later_salvos (d : Dev) (l : Late) : (d.later l).salvos = d.salvos := rfl
@[simp] theorem Dev.later_lays (d : Dev) (l : Late) : (d.later l).lays = d.lays := rfl
@[simp] theorem Dev.later_deps (d : Dev) (l : Late) : (d.later l).deps = d.deps := rfl
@[simp] theorem Dev.later_seqs (d : Dev) (l : Late) : (d.later l).seqs = d.seqs := rfl
@[simp] theorem Dev.later_ptrs (d : Dev) (l : Late) : (d.later l).ptrs = d.ptrs := rfl
@[simp] theorem Dev.later_embBlocks (d : Dev) (l : Late) : (d.later l).embBlocks = d.embBlocks := rfl
@[simp] theorem Dev.later_io (d : Dev) (l : Late) : (d.later l).io = d.io := rfl
@[simp] theorem Dev.later_audio (d : Dev) (l : Late) : (d.later l).audio = d.audio := rfl
@[simp] theorem Dev.later_test (d : Dev) (l : Late) : (d.later l).test = d.test := rfl
@[simp] theorem Dev.later_dram (d : Dev) (l : Late) : (d.later l).dram = d.dram := rfl
@[simp] theorem Dev.later_bus (d : Dev) (l : Late) : (d.later l).bus = d.bus := rfl
@[simp] theorem Dev.later_nv (d : Dev) (l : Late) : (d.later l).nv = d.nv := rfl
@[simp] theorem Dev.later_ses (d : Dev) (l : Late) : (d.later l).ses = d.ses := rfl
@[simp] theorem Dev.later_kr (d : Dev) (l : Late) : (d.later l).kr = d.kr := rfl
@[simp] theorem Dev.later_fuses (d : Dev) (l : Late) : (d.later l).fuses = d.fuses := rfl
@[simp] theorem Dev.later_pwr (d : Dev) (l : Late) : (d.later l).pwr = d.pwr := rfl
@[simp] theorem Dev.later_answer (d : Dev) (l : Late) : (d.later l).answer = d.answer := rfl
@[simp] theorem Dev.later_g (d : Dev) (l : Late) (p : Obj) (k : Nat) : (d.later l).g p k = d.g p k := rfl

/-! ## count -/

@[simp] theorem Dev.count_objs (d : Dev) (o : Obj) (i n : Nat) : (d.count o i n).objs = d.objs := rfl
@[simp] theorem Dev.count_blobs (d : Dev) (o : Obj) (i n : Nat) : (d.count o i n).blobs = d.blobs := rfl
@[simp] theorem Dev.count_regs (d : Dev) (o : Obj) (i n : Nat) : (d.count o i n).regs = d.regs := rfl
@[simp] theorem Dev.count_latch (d : Dev) (o : Obj) (i n : Nat) : (d.count o i n).latch = d.latch := rfl
@[simp] theorem Dev.count_late (d : Dev) (o : Obj) (i n : Nat) : (d.count o i n).late = d.late ++ [.add o i n] := rfl
@[simp] theorem Dev.count_posts (d : Dev) (o : Obj) (i n : Nat) : (d.count o i n).posts = d.posts := rfl
@[simp] theorem Dev.count_drawn (d : Dev) (o : Obj) (i n : Nat) : (d.count o i n).drawn = d.drawn := rfl
@[simp] theorem Dev.count_ink (d : Dev) (o : Obj) (i n : Nat) : (d.count o i n).ink = d.ink := rfl
@[simp] theorem Dev.count_rings (d : Dev) (o : Obj) (i n : Nat) : (d.count o i n).rings = d.rings := rfl
@[simp] theorem Dev.count_descs (d : Dev) (o : Obj) (i n : Nat) : (d.count o i n).descs = d.descs := rfl
@[simp] theorem Dev.count_groupEvents (d : Dev) (o : Obj) (i n : Nat) : (d.count o i n).groupEvents = d.groupEvents := rfl
@[simp] theorem Dev.count_time (d : Dev) (o : Obj) (i n : Nat) : (d.count o i n).time = d.time := rfl
@[simp] theorem Dev.count_groups (d : Dev) (o : Obj) (i n : Nat) : (d.count o i n).groups = d.groups := rfl
@[simp] theorem Dev.count_arrs (d : Dev) (o : Obj) (i n : Nat) : (d.count o i n).arrs = d.arrs := rfl
@[simp] theorem Dev.count_stagings (d : Dev) (o : Obj) (i n : Nat) : (d.count o i n).stagings = d.stagings := rfl
@[simp] theorem Dev.count_seals (d : Dev) (o : Obj) (i n : Nat) : (d.count o i n).seals = d.seals := rfl
@[simp] theorem Dev.count_takes (d : Dev) (o : Obj) (i n : Nat) : (d.count o i n).takes = d.takes := rfl
@[simp] theorem Dev.count_accepted (d : Dev) (o : Obj) (i n : Nat) : (d.count o i n).accepted = d.accepted := rfl
@[simp] theorem Dev.count_landedAt (d : Dev) (o : Obj) (i n : Nat) : (d.count o i n).landedAt = d.landedAt := rfl
@[simp] theorem Dev.count_salvos (d : Dev) (o : Obj) (i n : Nat) : (d.count o i n).salvos = d.salvos := rfl
@[simp] theorem Dev.count_lays (d : Dev) (o : Obj) (i n : Nat) : (d.count o i n).lays = d.lays := rfl
@[simp] theorem Dev.count_deps (d : Dev) (o : Obj) (i n : Nat) : (d.count o i n).deps = d.deps := rfl
@[simp] theorem Dev.count_seqs (d : Dev) (o : Obj) (i n : Nat) : (d.count o i n).seqs = d.seqs := rfl
@[simp] theorem Dev.count_ptrs (d : Dev) (o : Obj) (i n : Nat) : (d.count o i n).ptrs = d.ptrs := rfl
@[simp] theorem Dev.count_embBlocks (d : Dev) (o : Obj) (i n : Nat) : (d.count o i n).embBlocks = d.embBlocks := rfl
@[simp] theorem Dev.count_io (d : Dev) (o : Obj) (i n : Nat) : (d.count o i n).io = d.io := rfl
@[simp] theorem Dev.count_audio (d : Dev) (o : Obj) (i n : Nat) : (d.count o i n).audio = d.audio := rfl
@[simp] theorem Dev.count_test (d : Dev) (o : Obj) (i n : Nat) : (d.count o i n).test = d.test := rfl
@[simp] theorem Dev.count_dram (d : Dev) (o : Obj) (i n : Nat) : (d.count o i n).dram = d.dram := rfl
@[simp] theorem Dev.count_bus (d : Dev) (o : Obj) (i n : Nat) : (d.count o i n).bus = d.bus := rfl
@[simp] theorem Dev.count_nv (d : Dev) (o : Obj) (i n : Nat) : (d.count o i n).nv = d.nv := rfl
@[simp] theorem Dev.count_ses (d : Dev) (o : Obj) (i n : Nat) : (d.count o i n).ses = d.ses := rfl
@[simp] theorem Dev.count_kr (d : Dev) (o : Obj) (i n : Nat) : (d.count o i n).kr = d.kr := rfl
@[simp] theorem Dev.count_fuses (d : Dev) (o : Obj) (i n : Nat) : (d.count o i n).fuses = d.fuses := rfl
@[simp] theorem Dev.count_pwr (d : Dev) (o : Obj) (i n : Nat) : (d.count o i n).pwr = d.pwr := rfl
@[simp] theorem Dev.count_answer (d : Dev) (o : Obj) (i n : Nat) : (d.count o i n).answer = d.answer := rfl
@[simp] theorem Dev.count_g (d : Dev) (o : Obj) (i n : Nat) (p : Obj) (k : Nat) : (d.count o i n).g p k = d.g p k := rfl

/-! ## countReg -/

@[simp] theorem Dev.countReg_objs (d : Dev) (a n : Nat) : (d.countReg a n).objs = d.objs := rfl
@[simp] theorem Dev.countReg_blobs (d : Dev) (a n : Nat) : (d.countReg a n).blobs = d.blobs := rfl
@[simp] theorem Dev.countReg_regs (d : Dev) (a n : Nat) : (d.countReg a n).regs = d.regs := rfl
@[simp] theorem Dev.countReg_latch (d : Dev) (a n : Nat) : (d.countReg a n).latch = d.latch := rfl
@[simp] theorem Dev.countReg_late (d : Dev) (a n : Nat) : (d.countReg a n).late = d.late ++ [.addReg a n] := rfl
@[simp] theorem Dev.countReg_posts (d : Dev) (a n : Nat) : (d.countReg a n).posts = d.posts := rfl
@[simp] theorem Dev.countReg_drawn (d : Dev) (a n : Nat) : (d.countReg a n).drawn = d.drawn := rfl
@[simp] theorem Dev.countReg_ink (d : Dev) (a n : Nat) : (d.countReg a n).ink = d.ink := rfl
@[simp] theorem Dev.countReg_rings (d : Dev) (a n : Nat) : (d.countReg a n).rings = d.rings := rfl
@[simp] theorem Dev.countReg_descs (d : Dev) (a n : Nat) : (d.countReg a n).descs = d.descs := rfl
@[simp] theorem Dev.countReg_groupEvents (d : Dev) (a n : Nat) : (d.countReg a n).groupEvents = d.groupEvents := rfl
@[simp] theorem Dev.countReg_time (d : Dev) (a n : Nat) : (d.countReg a n).time = d.time := rfl
@[simp] theorem Dev.countReg_groups (d : Dev) (a n : Nat) : (d.countReg a n).groups = d.groups := rfl
@[simp] theorem Dev.countReg_arrs (d : Dev) (a n : Nat) : (d.countReg a n).arrs = d.arrs := rfl
@[simp] theorem Dev.countReg_stagings (d : Dev) (a n : Nat) : (d.countReg a n).stagings = d.stagings := rfl
@[simp] theorem Dev.countReg_seals (d : Dev) (a n : Nat) : (d.countReg a n).seals = d.seals := rfl
@[simp] theorem Dev.countReg_takes (d : Dev) (a n : Nat) : (d.countReg a n).takes = d.takes := rfl
@[simp] theorem Dev.countReg_accepted (d : Dev) (a n : Nat) : (d.countReg a n).accepted = d.accepted := rfl
@[simp] theorem Dev.countReg_landedAt (d : Dev) (a n : Nat) : (d.countReg a n).landedAt = d.landedAt := rfl
@[simp] theorem Dev.countReg_salvos (d : Dev) (a n : Nat) : (d.countReg a n).salvos = d.salvos := rfl
@[simp] theorem Dev.countReg_lays (d : Dev) (a n : Nat) : (d.countReg a n).lays = d.lays := rfl
@[simp] theorem Dev.countReg_deps (d : Dev) (a n : Nat) : (d.countReg a n).deps = d.deps := rfl
@[simp] theorem Dev.countReg_seqs (d : Dev) (a n : Nat) : (d.countReg a n).seqs = d.seqs := rfl
@[simp] theorem Dev.countReg_ptrs (d : Dev) (a n : Nat) : (d.countReg a n).ptrs = d.ptrs := rfl
@[simp] theorem Dev.countReg_embBlocks (d : Dev) (a n : Nat) : (d.countReg a n).embBlocks = d.embBlocks := rfl
@[simp] theorem Dev.countReg_io (d : Dev) (a n : Nat) : (d.countReg a n).io = d.io := rfl
@[simp] theorem Dev.countReg_audio (d : Dev) (a n : Nat) : (d.countReg a n).audio = d.audio := rfl
@[simp] theorem Dev.countReg_test (d : Dev) (a n : Nat) : (d.countReg a n).test = d.test := rfl
@[simp] theorem Dev.countReg_dram (d : Dev) (a n : Nat) : (d.countReg a n).dram = d.dram := rfl
@[simp] theorem Dev.countReg_bus (d : Dev) (a n : Nat) : (d.countReg a n).bus = d.bus := rfl
@[simp] theorem Dev.countReg_nv (d : Dev) (a n : Nat) : (d.countReg a n).nv = d.nv := rfl
@[simp] theorem Dev.countReg_ses (d : Dev) (a n : Nat) : (d.countReg a n).ses = d.ses := rfl
@[simp] theorem Dev.countReg_kr (d : Dev) (a n : Nat) : (d.countReg a n).kr = d.kr := rfl
@[simp] theorem Dev.countReg_fuses (d : Dev) (a n : Nat) : (d.countReg a n).fuses = d.fuses := rfl
@[simp] theorem Dev.countReg_pwr (d : Dev) (a n : Nat) : (d.countReg a n).pwr = d.pwr := rfl
@[simp] theorem Dev.countReg_answer (d : Dev) (a n : Nat) : (d.countReg a n).answer = d.answer := rfl
@[simp] theorem Dev.countReg_g (d : Dev) (a n : Nat) (p : Obj) (k : Nat) : (d.countReg a n).g p k = d.g p k := rfl

/-! ## flag -/

@[simp] theorem Dev.flag_objs (d : Dev) (o : Obj) (i b : Nat) : (d.flag o i b).objs = d.objs := rfl
@[simp] theorem Dev.flag_blobs (d : Dev) (o : Obj) (i b : Nat) : (d.flag o i b).blobs = d.blobs := rfl
@[simp] theorem Dev.flag_regs (d : Dev) (o : Obj) (i b : Nat) : (d.flag o i b).regs = d.regs := rfl
@[simp] theorem Dev.flag_latch (d : Dev) (o : Obj) (i b : Nat) : (d.flag o i b).latch = d.latch := rfl
@[simp] theorem Dev.flag_late (d : Dev) (o : Obj) (i b : Nat) : (d.flag o i b).late = d.late ++ [.flag o i (2 ^ b)] := rfl
@[simp] theorem Dev.flag_posts (d : Dev) (o : Obj) (i b : Nat) : (d.flag o i b).posts = d.posts := rfl
@[simp] theorem Dev.flag_drawn (d : Dev) (o : Obj) (i b : Nat) : (d.flag o i b).drawn = d.drawn := rfl
@[simp] theorem Dev.flag_ink (d : Dev) (o : Obj) (i b : Nat) : (d.flag o i b).ink = d.ink := rfl
@[simp] theorem Dev.flag_rings (d : Dev) (o : Obj) (i b : Nat) : (d.flag o i b).rings = d.rings := rfl
@[simp] theorem Dev.flag_descs (d : Dev) (o : Obj) (i b : Nat) : (d.flag o i b).descs = d.descs := rfl
@[simp] theorem Dev.flag_groupEvents (d : Dev) (o : Obj) (i b : Nat) : (d.flag o i b).groupEvents = d.groupEvents := rfl
@[simp] theorem Dev.flag_time (d : Dev) (o : Obj) (i b : Nat) : (d.flag o i b).time = d.time := rfl
@[simp] theorem Dev.flag_groups (d : Dev) (o : Obj) (i b : Nat) : (d.flag o i b).groups = d.groups := rfl
@[simp] theorem Dev.flag_arrs (d : Dev) (o : Obj) (i b : Nat) : (d.flag o i b).arrs = d.arrs := rfl
@[simp] theorem Dev.flag_stagings (d : Dev) (o : Obj) (i b : Nat) : (d.flag o i b).stagings = d.stagings := rfl
@[simp] theorem Dev.flag_seals (d : Dev) (o : Obj) (i b : Nat) : (d.flag o i b).seals = d.seals := rfl
@[simp] theorem Dev.flag_takes (d : Dev) (o : Obj) (i b : Nat) : (d.flag o i b).takes = d.takes := rfl
@[simp] theorem Dev.flag_accepted (d : Dev) (o : Obj) (i b : Nat) : (d.flag o i b).accepted = d.accepted := rfl
@[simp] theorem Dev.flag_landedAt (d : Dev) (o : Obj) (i b : Nat) : (d.flag o i b).landedAt = d.landedAt := rfl
@[simp] theorem Dev.flag_salvos (d : Dev) (o : Obj) (i b : Nat) : (d.flag o i b).salvos = d.salvos := rfl
@[simp] theorem Dev.flag_lays (d : Dev) (o : Obj) (i b : Nat) : (d.flag o i b).lays = d.lays := rfl
@[simp] theorem Dev.flag_deps (d : Dev) (o : Obj) (i b : Nat) : (d.flag o i b).deps = d.deps := rfl
@[simp] theorem Dev.flag_seqs (d : Dev) (o : Obj) (i b : Nat) : (d.flag o i b).seqs = d.seqs := rfl
@[simp] theorem Dev.flag_ptrs (d : Dev) (o : Obj) (i b : Nat) : (d.flag o i b).ptrs = d.ptrs := rfl
@[simp] theorem Dev.flag_embBlocks (d : Dev) (o : Obj) (i b : Nat) : (d.flag o i b).embBlocks = d.embBlocks := rfl
@[simp] theorem Dev.flag_io (d : Dev) (o : Obj) (i b : Nat) : (d.flag o i b).io = d.io := rfl
@[simp] theorem Dev.flag_audio (d : Dev) (o : Obj) (i b : Nat) : (d.flag o i b).audio = d.audio := rfl
@[simp] theorem Dev.flag_test (d : Dev) (o : Obj) (i b : Nat) : (d.flag o i b).test = d.test := rfl
@[simp] theorem Dev.flag_dram (d : Dev) (o : Obj) (i b : Nat) : (d.flag o i b).dram = d.dram := rfl
@[simp] theorem Dev.flag_bus (d : Dev) (o : Obj) (i b : Nat) : (d.flag o i b).bus = d.bus := rfl
@[simp] theorem Dev.flag_nv (d : Dev) (o : Obj) (i b : Nat) : (d.flag o i b).nv = d.nv := rfl
@[simp] theorem Dev.flag_ses (d : Dev) (o : Obj) (i b : Nat) : (d.flag o i b).ses = d.ses := rfl
@[simp] theorem Dev.flag_kr (d : Dev) (o : Obj) (i b : Nat) : (d.flag o i b).kr = d.kr := rfl
@[simp] theorem Dev.flag_fuses (d : Dev) (o : Obj) (i b : Nat) : (d.flag o i b).fuses = d.fuses := rfl
@[simp] theorem Dev.flag_pwr (d : Dev) (o : Obj) (i b : Nat) : (d.flag o i b).pwr = d.pwr := rfl
@[simp] theorem Dev.flag_answer (d : Dev) (o : Obj) (i b : Nat) : (d.flag o i b).answer = d.answer := rfl
@[simp] theorem Dev.flag_g (d : Dev) (o : Obj) (i b : Nat) (p : Obj) (k : Nat) : (d.flag o i b).g p k = d.g p k := rfl

/-! ## fire -/

@[simp] theorem Dev.fire_objs (d : Dev) (x : Nat) : (d.fire x).objs = d.objs := rfl
@[simp] theorem Dev.fire_blobs (d : Dev) (x : Nat) : (d.fire x).blobs = d.blobs := rfl
@[simp] theorem Dev.fire_regs (d : Dev) (x : Nat) : (d.fire x).regs = d.regs := rfl
@[simp] theorem Dev.fire_latch (d : Dev) (x : Nat) : (d.fire x).latch = d.latch := rfl
@[simp] theorem Dev.fire_late (d : Dev) (x : Nat) : (d.fire x).late = d.late ++ [.fire x] := rfl
@[simp] theorem Dev.fire_posts (d : Dev) (x : Nat) : (d.fire x).posts = d.posts := rfl
@[simp] theorem Dev.fire_drawn (d : Dev) (x : Nat) : (d.fire x).drawn = d.drawn := rfl
@[simp] theorem Dev.fire_ink (d : Dev) (x : Nat) : (d.fire x).ink = d.ink := rfl
@[simp] theorem Dev.fire_rings (d : Dev) (x : Nat) : (d.fire x).rings = d.rings := rfl
@[simp] theorem Dev.fire_descs (d : Dev) (x : Nat) : (d.fire x).descs = d.descs := rfl
@[simp] theorem Dev.fire_groupEvents (d : Dev) (x : Nat) : (d.fire x).groupEvents = d.groupEvents := rfl
@[simp] theorem Dev.fire_time (d : Dev) (x : Nat) : (d.fire x).time = d.time := rfl
@[simp] theorem Dev.fire_groups (d : Dev) (x : Nat) : (d.fire x).groups = d.groups := rfl
@[simp] theorem Dev.fire_arrs (d : Dev) (x : Nat) : (d.fire x).arrs = d.arrs := rfl
@[simp] theorem Dev.fire_stagings (d : Dev) (x : Nat) : (d.fire x).stagings = d.stagings := rfl
@[simp] theorem Dev.fire_seals (d : Dev) (x : Nat) : (d.fire x).seals = d.seals := rfl
@[simp] theorem Dev.fire_takes (d : Dev) (x : Nat) : (d.fire x).takes = d.takes := rfl
@[simp] theorem Dev.fire_accepted (d : Dev) (x : Nat) : (d.fire x).accepted = d.accepted := rfl
@[simp] theorem Dev.fire_landedAt (d : Dev) (x : Nat) : (d.fire x).landedAt = d.landedAt := rfl
@[simp] theorem Dev.fire_salvos (d : Dev) (x : Nat) : (d.fire x).salvos = d.salvos := rfl
@[simp] theorem Dev.fire_lays (d : Dev) (x : Nat) : (d.fire x).lays = d.lays := rfl
@[simp] theorem Dev.fire_deps (d : Dev) (x : Nat) : (d.fire x).deps = d.deps := rfl
@[simp] theorem Dev.fire_seqs (d : Dev) (x : Nat) : (d.fire x).seqs = d.seqs := rfl
@[simp] theorem Dev.fire_ptrs (d : Dev) (x : Nat) : (d.fire x).ptrs = d.ptrs := rfl
@[simp] theorem Dev.fire_embBlocks (d : Dev) (x : Nat) : (d.fire x).embBlocks = d.embBlocks := rfl
@[simp] theorem Dev.fire_io (d : Dev) (x : Nat) : (d.fire x).io = d.io := rfl
@[simp] theorem Dev.fire_audio (d : Dev) (x : Nat) : (d.fire x).audio = d.audio := rfl
@[simp] theorem Dev.fire_test (d : Dev) (x : Nat) : (d.fire x).test = d.test := rfl
@[simp] theorem Dev.fire_dram (d : Dev) (x : Nat) : (d.fire x).dram = d.dram := rfl
@[simp] theorem Dev.fire_bus (d : Dev) (x : Nat) : (d.fire x).bus = d.bus := rfl
@[simp] theorem Dev.fire_nv (d : Dev) (x : Nat) : (d.fire x).nv = d.nv := rfl
@[simp] theorem Dev.fire_ses (d : Dev) (x : Nat) : (d.fire x).ses = d.ses := rfl
@[simp] theorem Dev.fire_kr (d : Dev) (x : Nat) : (d.fire x).kr = d.kr := rfl
@[simp] theorem Dev.fire_fuses (d : Dev) (x : Nat) : (d.fire x).fuses = d.fuses := rfl
@[simp] theorem Dev.fire_pwr (d : Dev) (x : Nat) : (d.fire x).pwr = d.pwr := rfl
@[simp] theorem Dev.fire_answer (d : Dev) (x : Nat) : (d.fire x).answer = d.answer := rfl
@[simp] theorem Dev.fire_g (d : Dev) (x : Nat) (p : Obj) (k : Nat) : (d.fire x).g p k = d.g p k := rfl

/-! ## post -/

@[simp] theorem Dev.post_objs (d : Dev) (sp : Space) (a : Nat) (b : List Byte) : (d.post sp a b).objs = d.objs := rfl
@[simp] theorem Dev.post_blobs (d : Dev) (sp : Space) (a : Nat) (b : List Byte) : (d.post sp a b).blobs = d.blobs := rfl
@[simp] theorem Dev.post_regs (d : Dev) (sp : Space) (a : Nat) (b : List Byte) : (d.post sp a b).regs = d.regs := rfl
@[simp] theorem Dev.post_latch (d : Dev) (sp : Space) (a : Nat) (b : List Byte) : (d.post sp a b).latch = d.latch := rfl
@[simp] theorem Dev.post_late (d : Dev) (sp : Space) (a : Nat) (b : List Byte) : (d.post sp a b).late = d.late := rfl
@[simp] theorem Dev.post_drawn (d : Dev) (sp : Space) (a : Nat) (b : List Byte) : (d.post sp a b).drawn = d.drawn := rfl
@[simp] theorem Dev.post_ink (d : Dev) (sp : Space) (a : Nat) (b : List Byte) : (d.post sp a b).ink = d.ink := rfl
@[simp] theorem Dev.post_rings (d : Dev) (sp : Space) (a : Nat) (b : List Byte) : (d.post sp a b).rings = d.rings := rfl
@[simp] theorem Dev.post_descs (d : Dev) (sp : Space) (a : Nat) (b : List Byte) : (d.post sp a b).descs = d.descs := rfl
@[simp] theorem Dev.post_groupEvents (d : Dev) (sp : Space) (a : Nat) (b : List Byte) : (d.post sp a b).groupEvents = d.groupEvents := rfl
@[simp] theorem Dev.post_time (d : Dev) (sp : Space) (a : Nat) (b : List Byte) : (d.post sp a b).time = d.time := rfl
@[simp] theorem Dev.post_groups (d : Dev) (sp : Space) (a : Nat) (b : List Byte) : (d.post sp a b).groups = d.groups := rfl
@[simp] theorem Dev.post_arrs (d : Dev) (sp : Space) (a : Nat) (b : List Byte) : (d.post sp a b).arrs = d.arrs := rfl
@[simp] theorem Dev.post_stagings (d : Dev) (sp : Space) (a : Nat) (b : List Byte) : (d.post sp a b).stagings = d.stagings := rfl
@[simp] theorem Dev.post_seals (d : Dev) (sp : Space) (a : Nat) (b : List Byte) : (d.post sp a b).seals = d.seals := rfl
@[simp] theorem Dev.post_takes (d : Dev) (sp : Space) (a : Nat) (b : List Byte) : (d.post sp a b).takes = d.takes := rfl
@[simp] theorem Dev.post_accepted (d : Dev) (sp : Space) (a : Nat) (b : List Byte) : (d.post sp a b).accepted = d.accepted := rfl
@[simp] theorem Dev.post_landedAt (d : Dev) (sp : Space) (a : Nat) (b : List Byte) : (d.post sp a b).landedAt = d.landedAt := rfl
@[simp] theorem Dev.post_salvos (d : Dev) (sp : Space) (a : Nat) (b : List Byte) : (d.post sp a b).salvos = d.salvos := rfl
@[simp] theorem Dev.post_lays (d : Dev) (sp : Space) (a : Nat) (b : List Byte) : (d.post sp a b).lays = d.lays := rfl
@[simp] theorem Dev.post_deps (d : Dev) (sp : Space) (a : Nat) (b : List Byte) : (d.post sp a b).deps = d.deps := rfl
@[simp] theorem Dev.post_seqs (d : Dev) (sp : Space) (a : Nat) (b : List Byte) : (d.post sp a b).seqs = d.seqs := rfl
@[simp] theorem Dev.post_ptrs (d : Dev) (sp : Space) (a : Nat) (b : List Byte) : (d.post sp a b).ptrs = d.ptrs := rfl
@[simp] theorem Dev.post_embBlocks (d : Dev) (sp : Space) (a : Nat) (b : List Byte) : (d.post sp a b).embBlocks = d.embBlocks := rfl
@[simp] theorem Dev.post_io (d : Dev) (sp : Space) (a : Nat) (b : List Byte) : (d.post sp a b).io = d.io := rfl
@[simp] theorem Dev.post_audio (d : Dev) (sp : Space) (a : Nat) (b : List Byte) : (d.post sp a b).audio = d.audio := rfl
@[simp] theorem Dev.post_test (d : Dev) (sp : Space) (a : Nat) (b : List Byte) : (d.post sp a b).test = d.test := rfl
@[simp] theorem Dev.post_dram (d : Dev) (sp : Space) (a : Nat) (b : List Byte) : (d.post sp a b).dram = d.dram := rfl
@[simp] theorem Dev.post_bus (d : Dev) (sp : Space) (a : Nat) (b : List Byte) : (d.post sp a b).bus = d.bus := rfl
@[simp] theorem Dev.post_nv (d : Dev) (sp : Space) (a : Nat) (b : List Byte) : (d.post sp a b).nv = d.nv := rfl
@[simp] theorem Dev.post_ses (d : Dev) (sp : Space) (a : Nat) (b : List Byte) : (d.post sp a b).ses = d.ses := rfl
@[simp] theorem Dev.post_kr (d : Dev) (sp : Space) (a : Nat) (b : List Byte) : (d.post sp a b).kr = d.kr := rfl
@[simp] theorem Dev.post_fuses (d : Dev) (sp : Space) (a : Nat) (b : List Byte) : (d.post sp a b).fuses = d.fuses := rfl
@[simp] theorem Dev.post_pwr (d : Dev) (sp : Space) (a : Nat) (b : List Byte) : (d.post sp a b).pwr = d.pwr := rfl
@[simp] theorem Dev.post_answer (d : Dev) (sp : Space) (a : Nat) (b : List Byte) : (d.post sp a b).answer = d.answer := rfl
@[simp] theorem Dev.post_g (d : Dev) (sp : Space) (a : Nat) (b : List Byte) (p : Obj) (k : Nat) : (d.post sp a b).g p k = d.g p k := rfl

/-! ## putArr -/

@[simp] theorem Dev.putArr_objs (d : Dev) (n : Nat) (c : ArrCtx) : (d.putArr n c).objs = d.objs := rfl
@[simp] theorem Dev.putArr_blobs (d : Dev) (n : Nat) (c : ArrCtx) : (d.putArr n c).blobs = d.blobs := rfl
@[simp] theorem Dev.putArr_regs (d : Dev) (n : Nat) (c : ArrCtx) : (d.putArr n c).regs = d.regs := rfl
@[simp] theorem Dev.putArr_latch (d : Dev) (n : Nat) (c : ArrCtx) : (d.putArr n c).latch = d.latch := rfl
@[simp] theorem Dev.putArr_late (d : Dev) (n : Nat) (c : ArrCtx) : (d.putArr n c).late = d.late := rfl
@[simp] theorem Dev.putArr_posts (d : Dev) (n : Nat) (c : ArrCtx) : (d.putArr n c).posts = d.posts := rfl
@[simp] theorem Dev.putArr_drawn (d : Dev) (n : Nat) (c : ArrCtx) : (d.putArr n c).drawn = d.drawn := rfl
@[simp] theorem Dev.putArr_ink (d : Dev) (n : Nat) (c : ArrCtx) : (d.putArr n c).ink = d.ink := rfl
@[simp] theorem Dev.putArr_rings (d : Dev) (n : Nat) (c : ArrCtx) : (d.putArr n c).rings = d.rings := rfl
@[simp] theorem Dev.putArr_descs (d : Dev) (n : Nat) (c : ArrCtx) : (d.putArr n c).descs = d.descs := rfl
@[simp] theorem Dev.putArr_groupEvents (d : Dev) (n : Nat) (c : ArrCtx) : (d.putArr n c).groupEvents = d.groupEvents := rfl
@[simp] theorem Dev.putArr_time (d : Dev) (n : Nat) (c : ArrCtx) : (d.putArr n c).time = d.time := rfl
@[simp] theorem Dev.putArr_groups (d : Dev) (n : Nat) (c : ArrCtx) : (d.putArr n c).groups = d.groups := rfl
@[simp] theorem Dev.putArr_arrs (d : Dev) (n : Nat) (c : ArrCtx) : (d.putArr n c).arrs = d.arrs.put n c := rfl
@[simp] theorem Dev.putArr_stagings (d : Dev) (n : Nat) (c : ArrCtx) : (d.putArr n c).stagings = d.stagings := rfl
@[simp] theorem Dev.putArr_seals (d : Dev) (n : Nat) (c : ArrCtx) : (d.putArr n c).seals = d.seals := rfl
@[simp] theorem Dev.putArr_takes (d : Dev) (n : Nat) (c : ArrCtx) : (d.putArr n c).takes = d.takes := rfl
@[simp] theorem Dev.putArr_accepted (d : Dev) (n : Nat) (c : ArrCtx) : (d.putArr n c).accepted = d.accepted := rfl
@[simp] theorem Dev.putArr_landedAt (d : Dev) (n : Nat) (c : ArrCtx) : (d.putArr n c).landedAt = d.landedAt := rfl
@[simp] theorem Dev.putArr_salvos (d : Dev) (n : Nat) (c : ArrCtx) : (d.putArr n c).salvos = d.salvos := rfl
@[simp] theorem Dev.putArr_lays (d : Dev) (n : Nat) (c : ArrCtx) : (d.putArr n c).lays = d.lays := rfl
@[simp] theorem Dev.putArr_deps (d : Dev) (n : Nat) (c : ArrCtx) : (d.putArr n c).deps = d.deps := rfl
@[simp] theorem Dev.putArr_seqs (d : Dev) (n : Nat) (c : ArrCtx) : (d.putArr n c).seqs = d.seqs := rfl
@[simp] theorem Dev.putArr_ptrs (d : Dev) (n : Nat) (c : ArrCtx) : (d.putArr n c).ptrs = d.ptrs := rfl
@[simp] theorem Dev.putArr_embBlocks (d : Dev) (n : Nat) (c : ArrCtx) : (d.putArr n c).embBlocks = d.embBlocks := rfl
@[simp] theorem Dev.putArr_io (d : Dev) (n : Nat) (c : ArrCtx) : (d.putArr n c).io = d.io := rfl
@[simp] theorem Dev.putArr_audio (d : Dev) (n : Nat) (c : ArrCtx) : (d.putArr n c).audio = d.audio := rfl
@[simp] theorem Dev.putArr_test (d : Dev) (n : Nat) (c : ArrCtx) : (d.putArr n c).test = d.test := rfl
@[simp] theorem Dev.putArr_dram (d : Dev) (n : Nat) (c : ArrCtx) : (d.putArr n c).dram = d.dram := rfl
@[simp] theorem Dev.putArr_bus (d : Dev) (n : Nat) (c : ArrCtx) : (d.putArr n c).bus = d.bus := rfl
@[simp] theorem Dev.putArr_nv (d : Dev) (n : Nat) (c : ArrCtx) : (d.putArr n c).nv = d.nv := rfl
@[simp] theorem Dev.putArr_ses (d : Dev) (n : Nat) (c : ArrCtx) : (d.putArr n c).ses = d.ses := rfl
@[simp] theorem Dev.putArr_kr (d : Dev) (n : Nat) (c : ArrCtx) : (d.putArr n c).kr = d.kr := rfl
@[simp] theorem Dev.putArr_fuses (d : Dev) (n : Nat) (c : ArrCtx) : (d.putArr n c).fuses = d.fuses := rfl
@[simp] theorem Dev.putArr_pwr (d : Dev) (n : Nat) (c : ArrCtx) : (d.putArr n c).pwr = d.pwr := rfl
@[simp] theorem Dev.putArr_answer (d : Dev) (n : Nat) (c : ArrCtx) : (d.putArr n c).answer = d.answer := rfl
@[simp] theorem Dev.putArr_g (d : Dev) (n : Nat) (c : ArrCtx) (p : Obj) (k : Nat) : (d.putArr n c).g p k = d.g p k := rfl

/-! ## putDep -/

@[simp] theorem Dev.putDep_objs (d : Dev) (n : Nat) (c : DepCtx) : (d.putDep n c).objs = d.objs := rfl
@[simp] theorem Dev.putDep_blobs (d : Dev) (n : Nat) (c : DepCtx) : (d.putDep n c).blobs = d.blobs := rfl
@[simp] theorem Dev.putDep_regs (d : Dev) (n : Nat) (c : DepCtx) : (d.putDep n c).regs = d.regs := rfl
@[simp] theorem Dev.putDep_latch (d : Dev) (n : Nat) (c : DepCtx) : (d.putDep n c).latch = d.latch := rfl
@[simp] theorem Dev.putDep_late (d : Dev) (n : Nat) (c : DepCtx) : (d.putDep n c).late = d.late := rfl
@[simp] theorem Dev.putDep_posts (d : Dev) (n : Nat) (c : DepCtx) : (d.putDep n c).posts = d.posts := rfl
@[simp] theorem Dev.putDep_drawn (d : Dev) (n : Nat) (c : DepCtx) : (d.putDep n c).drawn = d.drawn := rfl
@[simp] theorem Dev.putDep_ink (d : Dev) (n : Nat) (c : DepCtx) : (d.putDep n c).ink = d.ink := rfl
@[simp] theorem Dev.putDep_rings (d : Dev) (n : Nat) (c : DepCtx) : (d.putDep n c).rings = d.rings := rfl
@[simp] theorem Dev.putDep_descs (d : Dev) (n : Nat) (c : DepCtx) : (d.putDep n c).descs = d.descs := rfl
@[simp] theorem Dev.putDep_groupEvents (d : Dev) (n : Nat) (c : DepCtx) : (d.putDep n c).groupEvents = d.groupEvents := rfl
@[simp] theorem Dev.putDep_time (d : Dev) (n : Nat) (c : DepCtx) : (d.putDep n c).time = d.time := rfl
@[simp] theorem Dev.putDep_groups (d : Dev) (n : Nat) (c : DepCtx) : (d.putDep n c).groups = d.groups := rfl
@[simp] theorem Dev.putDep_arrs (d : Dev) (n : Nat) (c : DepCtx) : (d.putDep n c).arrs = d.arrs := rfl
@[simp] theorem Dev.putDep_stagings (d : Dev) (n : Nat) (c : DepCtx) : (d.putDep n c).stagings = d.stagings := rfl
@[simp] theorem Dev.putDep_seals (d : Dev) (n : Nat) (c : DepCtx) : (d.putDep n c).seals = d.seals := rfl
@[simp] theorem Dev.putDep_takes (d : Dev) (n : Nat) (c : DepCtx) : (d.putDep n c).takes = d.takes := rfl
@[simp] theorem Dev.putDep_accepted (d : Dev) (n : Nat) (c : DepCtx) : (d.putDep n c).accepted = d.accepted := rfl
@[simp] theorem Dev.putDep_landedAt (d : Dev) (n : Nat) (c : DepCtx) : (d.putDep n c).landedAt = d.landedAt := rfl
@[simp] theorem Dev.putDep_salvos (d : Dev) (n : Nat) (c : DepCtx) : (d.putDep n c).salvos = d.salvos := rfl
@[simp] theorem Dev.putDep_lays (d : Dev) (n : Nat) (c : DepCtx) : (d.putDep n c).lays = d.lays := rfl
@[simp] theorem Dev.putDep_deps (d : Dev) (n : Nat) (c : DepCtx) : (d.putDep n c).deps = d.deps.put n c := rfl
@[simp] theorem Dev.putDep_seqs (d : Dev) (n : Nat) (c : DepCtx) : (d.putDep n c).seqs = d.seqs := rfl
@[simp] theorem Dev.putDep_ptrs (d : Dev) (n : Nat) (c : DepCtx) : (d.putDep n c).ptrs = d.ptrs := rfl
@[simp] theorem Dev.putDep_embBlocks (d : Dev) (n : Nat) (c : DepCtx) : (d.putDep n c).embBlocks = d.embBlocks := rfl
@[simp] theorem Dev.putDep_io (d : Dev) (n : Nat) (c : DepCtx) : (d.putDep n c).io = d.io := rfl
@[simp] theorem Dev.putDep_audio (d : Dev) (n : Nat) (c : DepCtx) : (d.putDep n c).audio = d.audio := rfl
@[simp] theorem Dev.putDep_test (d : Dev) (n : Nat) (c : DepCtx) : (d.putDep n c).test = d.test := rfl
@[simp] theorem Dev.putDep_dram (d : Dev) (n : Nat) (c : DepCtx) : (d.putDep n c).dram = d.dram := rfl
@[simp] theorem Dev.putDep_bus (d : Dev) (n : Nat) (c : DepCtx) : (d.putDep n c).bus = d.bus := rfl
@[simp] theorem Dev.putDep_nv (d : Dev) (n : Nat) (c : DepCtx) : (d.putDep n c).nv = d.nv := rfl
@[simp] theorem Dev.putDep_ses (d : Dev) (n : Nat) (c : DepCtx) : (d.putDep n c).ses = d.ses := rfl
@[simp] theorem Dev.putDep_kr (d : Dev) (n : Nat) (c : DepCtx) : (d.putDep n c).kr = d.kr := rfl
@[simp] theorem Dev.putDep_fuses (d : Dev) (n : Nat) (c : DepCtx) : (d.putDep n c).fuses = d.fuses := rfl
@[simp] theorem Dev.putDep_pwr (d : Dev) (n : Nat) (c : DepCtx) : (d.putDep n c).pwr = d.pwr := rfl
@[simp] theorem Dev.putDep_answer (d : Dev) (n : Nat) (c : DepCtx) : (d.putDep n c).answer = d.answer := rfl
@[simp] theorem Dev.putDep_g (d : Dev) (n : Nat) (c : DepCtx) (p : Obj) (k : Nat) : (d.putDep n c).g p k = d.g p k := rfl

/-! ## putLay -/

@[simp] theorem Dev.putLay_objs (d : Dev) (n : Nat) (c : LayCtx) : (d.putLay n c).objs = d.objs := rfl
@[simp] theorem Dev.putLay_blobs (d : Dev) (n : Nat) (c : LayCtx) : (d.putLay n c).blobs = d.blobs := rfl
@[simp] theorem Dev.putLay_regs (d : Dev) (n : Nat) (c : LayCtx) : (d.putLay n c).regs = d.regs := rfl
@[simp] theorem Dev.putLay_latch (d : Dev) (n : Nat) (c : LayCtx) : (d.putLay n c).latch = d.latch := rfl
@[simp] theorem Dev.putLay_late (d : Dev) (n : Nat) (c : LayCtx) : (d.putLay n c).late = d.late := rfl
@[simp] theorem Dev.putLay_posts (d : Dev) (n : Nat) (c : LayCtx) : (d.putLay n c).posts = d.posts := rfl
@[simp] theorem Dev.putLay_drawn (d : Dev) (n : Nat) (c : LayCtx) : (d.putLay n c).drawn = d.drawn := rfl
@[simp] theorem Dev.putLay_ink (d : Dev) (n : Nat) (c : LayCtx) : (d.putLay n c).ink = d.ink := rfl
@[simp] theorem Dev.putLay_rings (d : Dev) (n : Nat) (c : LayCtx) : (d.putLay n c).rings = d.rings := rfl
@[simp] theorem Dev.putLay_descs (d : Dev) (n : Nat) (c : LayCtx) : (d.putLay n c).descs = d.descs := rfl
@[simp] theorem Dev.putLay_groupEvents (d : Dev) (n : Nat) (c : LayCtx) : (d.putLay n c).groupEvents = d.groupEvents := rfl
@[simp] theorem Dev.putLay_time (d : Dev) (n : Nat) (c : LayCtx) : (d.putLay n c).time = d.time := rfl
@[simp] theorem Dev.putLay_groups (d : Dev) (n : Nat) (c : LayCtx) : (d.putLay n c).groups = d.groups := rfl
@[simp] theorem Dev.putLay_arrs (d : Dev) (n : Nat) (c : LayCtx) : (d.putLay n c).arrs = d.arrs := rfl
@[simp] theorem Dev.putLay_stagings (d : Dev) (n : Nat) (c : LayCtx) : (d.putLay n c).stagings = d.stagings := rfl
@[simp] theorem Dev.putLay_seals (d : Dev) (n : Nat) (c : LayCtx) : (d.putLay n c).seals = d.seals := rfl
@[simp] theorem Dev.putLay_takes (d : Dev) (n : Nat) (c : LayCtx) : (d.putLay n c).takes = d.takes := rfl
@[simp] theorem Dev.putLay_accepted (d : Dev) (n : Nat) (c : LayCtx) : (d.putLay n c).accepted = d.accepted := rfl
@[simp] theorem Dev.putLay_landedAt (d : Dev) (n : Nat) (c : LayCtx) : (d.putLay n c).landedAt = d.landedAt := rfl
@[simp] theorem Dev.putLay_salvos (d : Dev) (n : Nat) (c : LayCtx) : (d.putLay n c).salvos = d.salvos := rfl
@[simp] theorem Dev.putLay_lays (d : Dev) (n : Nat) (c : LayCtx) : (d.putLay n c).lays = d.lays.put n c := rfl
@[simp] theorem Dev.putLay_deps (d : Dev) (n : Nat) (c : LayCtx) : (d.putLay n c).deps = d.deps := rfl
@[simp] theorem Dev.putLay_seqs (d : Dev) (n : Nat) (c : LayCtx) : (d.putLay n c).seqs = d.seqs := rfl
@[simp] theorem Dev.putLay_ptrs (d : Dev) (n : Nat) (c : LayCtx) : (d.putLay n c).ptrs = d.ptrs := rfl
@[simp] theorem Dev.putLay_embBlocks (d : Dev) (n : Nat) (c : LayCtx) : (d.putLay n c).embBlocks = d.embBlocks := rfl
@[simp] theorem Dev.putLay_io (d : Dev) (n : Nat) (c : LayCtx) : (d.putLay n c).io = d.io := rfl
@[simp] theorem Dev.putLay_audio (d : Dev) (n : Nat) (c : LayCtx) : (d.putLay n c).audio = d.audio := rfl
@[simp] theorem Dev.putLay_test (d : Dev) (n : Nat) (c : LayCtx) : (d.putLay n c).test = d.test := rfl
@[simp] theorem Dev.putLay_dram (d : Dev) (n : Nat) (c : LayCtx) : (d.putLay n c).dram = d.dram := rfl
@[simp] theorem Dev.putLay_bus (d : Dev) (n : Nat) (c : LayCtx) : (d.putLay n c).bus = d.bus := rfl
@[simp] theorem Dev.putLay_nv (d : Dev) (n : Nat) (c : LayCtx) : (d.putLay n c).nv = d.nv := rfl
@[simp] theorem Dev.putLay_ses (d : Dev) (n : Nat) (c : LayCtx) : (d.putLay n c).ses = d.ses := rfl
@[simp] theorem Dev.putLay_kr (d : Dev) (n : Nat) (c : LayCtx) : (d.putLay n c).kr = d.kr := rfl
@[simp] theorem Dev.putLay_fuses (d : Dev) (n : Nat) (c : LayCtx) : (d.putLay n c).fuses = d.fuses := rfl
@[simp] theorem Dev.putLay_pwr (d : Dev) (n : Nat) (c : LayCtx) : (d.putLay n c).pwr = d.pwr := rfl
@[simp] theorem Dev.putLay_answer (d : Dev) (n : Nat) (c : LayCtx) : (d.putLay n c).answer = d.answer := rfl
@[simp] theorem Dev.putLay_g (d : Dev) (n : Nat) (c : LayCtx) (p : Obj) (k : Nat) : (d.putLay n c).g p k = d.g p k := rfl

/-! ## putGroup -/

@[simp] theorem Dev.putGroup_objs (d : Dev) (n : Nat) (c : Group) : (d.putGroup n c).objs = d.objs := rfl
@[simp] theorem Dev.putGroup_blobs (d : Dev) (n : Nat) (c : Group) : (d.putGroup n c).blobs = d.blobs := rfl
@[simp] theorem Dev.putGroup_regs (d : Dev) (n : Nat) (c : Group) : (d.putGroup n c).regs = d.regs := rfl
@[simp] theorem Dev.putGroup_latch (d : Dev) (n : Nat) (c : Group) : (d.putGroup n c).latch = d.latch := rfl
@[simp] theorem Dev.putGroup_late (d : Dev) (n : Nat) (c : Group) : (d.putGroup n c).late = d.late := rfl
@[simp] theorem Dev.putGroup_posts (d : Dev) (n : Nat) (c : Group) : (d.putGroup n c).posts = d.posts := rfl
@[simp] theorem Dev.putGroup_drawn (d : Dev) (n : Nat) (c : Group) : (d.putGroup n c).drawn = d.drawn := rfl
@[simp] theorem Dev.putGroup_ink (d : Dev) (n : Nat) (c : Group) : (d.putGroup n c).ink = d.ink := rfl
@[simp] theorem Dev.putGroup_rings (d : Dev) (n : Nat) (c : Group) : (d.putGroup n c).rings = d.rings := rfl
@[simp] theorem Dev.putGroup_descs (d : Dev) (n : Nat) (c : Group) : (d.putGroup n c).descs = d.descs := rfl
@[simp] theorem Dev.putGroup_groupEvents (d : Dev) (n : Nat) (c : Group) : (d.putGroup n c).groupEvents = d.groupEvents := rfl
@[simp] theorem Dev.putGroup_time (d : Dev) (n : Nat) (c : Group) : (d.putGroup n c).time = d.time := rfl
@[simp] theorem Dev.putGroup_groups (d : Dev) (n : Nat) (c : Group) : (d.putGroup n c).groups = d.groups.put n c := rfl
@[simp] theorem Dev.putGroup_arrs (d : Dev) (n : Nat) (c : Group) : (d.putGroup n c).arrs = d.arrs := rfl
@[simp] theorem Dev.putGroup_stagings (d : Dev) (n : Nat) (c : Group) : (d.putGroup n c).stagings = d.stagings := rfl
@[simp] theorem Dev.putGroup_seals (d : Dev) (n : Nat) (c : Group) : (d.putGroup n c).seals = d.seals := rfl
@[simp] theorem Dev.putGroup_takes (d : Dev) (n : Nat) (c : Group) : (d.putGroup n c).takes = d.takes := rfl
@[simp] theorem Dev.putGroup_accepted (d : Dev) (n : Nat) (c : Group) : (d.putGroup n c).accepted = d.accepted := rfl
@[simp] theorem Dev.putGroup_landedAt (d : Dev) (n : Nat) (c : Group) : (d.putGroup n c).landedAt = d.landedAt := rfl
@[simp] theorem Dev.putGroup_salvos (d : Dev) (n : Nat) (c : Group) : (d.putGroup n c).salvos = d.salvos := rfl
@[simp] theorem Dev.putGroup_lays (d : Dev) (n : Nat) (c : Group) : (d.putGroup n c).lays = d.lays := rfl
@[simp] theorem Dev.putGroup_deps (d : Dev) (n : Nat) (c : Group) : (d.putGroup n c).deps = d.deps := rfl
@[simp] theorem Dev.putGroup_seqs (d : Dev) (n : Nat) (c : Group) : (d.putGroup n c).seqs = d.seqs := rfl
@[simp] theorem Dev.putGroup_ptrs (d : Dev) (n : Nat) (c : Group) : (d.putGroup n c).ptrs = d.ptrs := rfl
@[simp] theorem Dev.putGroup_embBlocks (d : Dev) (n : Nat) (c : Group) : (d.putGroup n c).embBlocks = d.embBlocks := rfl
@[simp] theorem Dev.putGroup_io (d : Dev) (n : Nat) (c : Group) : (d.putGroup n c).io = d.io := rfl
@[simp] theorem Dev.putGroup_audio (d : Dev) (n : Nat) (c : Group) : (d.putGroup n c).audio = d.audio := rfl
@[simp] theorem Dev.putGroup_test (d : Dev) (n : Nat) (c : Group) : (d.putGroup n c).test = d.test := rfl
@[simp] theorem Dev.putGroup_dram (d : Dev) (n : Nat) (c : Group) : (d.putGroup n c).dram = d.dram := rfl
@[simp] theorem Dev.putGroup_bus (d : Dev) (n : Nat) (c : Group) : (d.putGroup n c).bus = d.bus := rfl
@[simp] theorem Dev.putGroup_nv (d : Dev) (n : Nat) (c : Group) : (d.putGroup n c).nv = d.nv := rfl
@[simp] theorem Dev.putGroup_ses (d : Dev) (n : Nat) (c : Group) : (d.putGroup n c).ses = d.ses := rfl
@[simp] theorem Dev.putGroup_kr (d : Dev) (n : Nat) (c : Group) : (d.putGroup n c).kr = d.kr := rfl
@[simp] theorem Dev.putGroup_fuses (d : Dev) (n : Nat) (c : Group) : (d.putGroup n c).fuses = d.fuses := rfl
@[simp] theorem Dev.putGroup_pwr (d : Dev) (n : Nat) (c : Group) : (d.putGroup n c).pwr = d.pwr := rfl
@[simp] theorem Dev.putGroup_answer (d : Dev) (n : Nat) (c : Group) : (d.putGroup n c).answer = d.answer := rfl
@[simp] theorem Dev.putGroup_g (d : Dev) (n : Nat) (c : Group) (p : Obj) (k : Nat) : (d.putGroup n c).g p k = d.g p k := rfl

/-! ## putStg -/

@[simp] theorem Dev.putStg_objs (d : Dev) (n : Nat) (c : Staging) : (d.putStg n c).objs = d.objs := rfl
@[simp] theorem Dev.putStg_blobs (d : Dev) (n : Nat) (c : Staging) : (d.putStg n c).blobs = d.blobs := rfl
@[simp] theorem Dev.putStg_regs (d : Dev) (n : Nat) (c : Staging) : (d.putStg n c).regs = d.regs := rfl
@[simp] theorem Dev.putStg_latch (d : Dev) (n : Nat) (c : Staging) : (d.putStg n c).latch = d.latch := rfl
@[simp] theorem Dev.putStg_late (d : Dev) (n : Nat) (c : Staging) : (d.putStg n c).late = d.late := rfl
@[simp] theorem Dev.putStg_posts (d : Dev) (n : Nat) (c : Staging) : (d.putStg n c).posts = d.posts := rfl
@[simp] theorem Dev.putStg_drawn (d : Dev) (n : Nat) (c : Staging) : (d.putStg n c).drawn = d.drawn := rfl
@[simp] theorem Dev.putStg_ink (d : Dev) (n : Nat) (c : Staging) : (d.putStg n c).ink = d.ink := rfl
@[simp] theorem Dev.putStg_rings (d : Dev) (n : Nat) (c : Staging) : (d.putStg n c).rings = d.rings := rfl
@[simp] theorem Dev.putStg_descs (d : Dev) (n : Nat) (c : Staging) : (d.putStg n c).descs = d.descs := rfl
@[simp] theorem Dev.putStg_groupEvents (d : Dev) (n : Nat) (c : Staging) : (d.putStg n c).groupEvents = d.groupEvents := rfl
@[simp] theorem Dev.putStg_time (d : Dev) (n : Nat) (c : Staging) : (d.putStg n c).time = d.time := rfl
@[simp] theorem Dev.putStg_groups (d : Dev) (n : Nat) (c : Staging) : (d.putStg n c).groups = d.groups := rfl
@[simp] theorem Dev.putStg_arrs (d : Dev) (n : Nat) (c : Staging) : (d.putStg n c).arrs = d.arrs := rfl
@[simp] theorem Dev.putStg_stagings (d : Dev) (n : Nat) (c : Staging) : (d.putStg n c).stagings = d.stagings.put n c := rfl
@[simp] theorem Dev.putStg_seals (d : Dev) (n : Nat) (c : Staging) : (d.putStg n c).seals = d.seals := rfl
@[simp] theorem Dev.putStg_takes (d : Dev) (n : Nat) (c : Staging) : (d.putStg n c).takes = d.takes := rfl
@[simp] theorem Dev.putStg_accepted (d : Dev) (n : Nat) (c : Staging) : (d.putStg n c).accepted = d.accepted := rfl
@[simp] theorem Dev.putStg_landedAt (d : Dev) (n : Nat) (c : Staging) : (d.putStg n c).landedAt = d.landedAt := rfl
@[simp] theorem Dev.putStg_salvos (d : Dev) (n : Nat) (c : Staging) : (d.putStg n c).salvos = d.salvos := rfl
@[simp] theorem Dev.putStg_lays (d : Dev) (n : Nat) (c : Staging) : (d.putStg n c).lays = d.lays := rfl
@[simp] theorem Dev.putStg_deps (d : Dev) (n : Nat) (c : Staging) : (d.putStg n c).deps = d.deps := rfl
@[simp] theorem Dev.putStg_seqs (d : Dev) (n : Nat) (c : Staging) : (d.putStg n c).seqs = d.seqs := rfl
@[simp] theorem Dev.putStg_ptrs (d : Dev) (n : Nat) (c : Staging) : (d.putStg n c).ptrs = d.ptrs := rfl
@[simp] theorem Dev.putStg_embBlocks (d : Dev) (n : Nat) (c : Staging) : (d.putStg n c).embBlocks = d.embBlocks := rfl
@[simp] theorem Dev.putStg_io (d : Dev) (n : Nat) (c : Staging) : (d.putStg n c).io = d.io := rfl
@[simp] theorem Dev.putStg_audio (d : Dev) (n : Nat) (c : Staging) : (d.putStg n c).audio = d.audio := rfl
@[simp] theorem Dev.putStg_test (d : Dev) (n : Nat) (c : Staging) : (d.putStg n c).test = d.test := rfl
@[simp] theorem Dev.putStg_dram (d : Dev) (n : Nat) (c : Staging) : (d.putStg n c).dram = d.dram := rfl
@[simp] theorem Dev.putStg_bus (d : Dev) (n : Nat) (c : Staging) : (d.putStg n c).bus = d.bus := rfl
@[simp] theorem Dev.putStg_nv (d : Dev) (n : Nat) (c : Staging) : (d.putStg n c).nv = d.nv := rfl
@[simp] theorem Dev.putStg_ses (d : Dev) (n : Nat) (c : Staging) : (d.putStg n c).ses = d.ses := rfl
@[simp] theorem Dev.putStg_kr (d : Dev) (n : Nat) (c : Staging) : (d.putStg n c).kr = d.kr := rfl
@[simp] theorem Dev.putStg_fuses (d : Dev) (n : Nat) (c : Staging) : (d.putStg n c).fuses = d.fuses := rfl
@[simp] theorem Dev.putStg_pwr (d : Dev) (n : Nat) (c : Staging) : (d.putStg n c).pwr = d.pwr := rfl
@[simp] theorem Dev.putStg_answer (d : Dev) (n : Nat) (c : Staging) : (d.putStg n c).answer = d.answer := rfl
@[simp] theorem Dev.putStg_g (d : Dev) (n : Nat) (c : Staging) (p : Obj) (k : Nat) : (d.putStg n c).g p k = d.g p k := rfl

/-! ## putTake -/

@[simp] theorem Dev.putTake_objs (d : Dev) (n : Nat) (c : Take) : (d.putTake n c).objs = d.objs := rfl
@[simp] theorem Dev.putTake_blobs (d : Dev) (n : Nat) (c : Take) : (d.putTake n c).blobs = d.blobs := rfl
@[simp] theorem Dev.putTake_regs (d : Dev) (n : Nat) (c : Take) : (d.putTake n c).regs = d.regs := rfl
@[simp] theorem Dev.putTake_latch (d : Dev) (n : Nat) (c : Take) : (d.putTake n c).latch = d.latch := rfl
@[simp] theorem Dev.putTake_late (d : Dev) (n : Nat) (c : Take) : (d.putTake n c).late = d.late := rfl
@[simp] theorem Dev.putTake_posts (d : Dev) (n : Nat) (c : Take) : (d.putTake n c).posts = d.posts := rfl
@[simp] theorem Dev.putTake_drawn (d : Dev) (n : Nat) (c : Take) : (d.putTake n c).drawn = d.drawn := rfl
@[simp] theorem Dev.putTake_ink (d : Dev) (n : Nat) (c : Take) : (d.putTake n c).ink = d.ink := rfl
@[simp] theorem Dev.putTake_rings (d : Dev) (n : Nat) (c : Take) : (d.putTake n c).rings = d.rings := rfl
@[simp] theorem Dev.putTake_descs (d : Dev) (n : Nat) (c : Take) : (d.putTake n c).descs = d.descs := rfl
@[simp] theorem Dev.putTake_groupEvents (d : Dev) (n : Nat) (c : Take) : (d.putTake n c).groupEvents = d.groupEvents := rfl
@[simp] theorem Dev.putTake_time (d : Dev) (n : Nat) (c : Take) : (d.putTake n c).time = d.time := rfl
@[simp] theorem Dev.putTake_groups (d : Dev) (n : Nat) (c : Take) : (d.putTake n c).groups = d.groups := rfl
@[simp] theorem Dev.putTake_arrs (d : Dev) (n : Nat) (c : Take) : (d.putTake n c).arrs = d.arrs := rfl
@[simp] theorem Dev.putTake_stagings (d : Dev) (n : Nat) (c : Take) : (d.putTake n c).stagings = d.stagings := rfl
@[simp] theorem Dev.putTake_seals (d : Dev) (n : Nat) (c : Take) : (d.putTake n c).seals = d.seals := rfl
@[simp] theorem Dev.putTake_takes (d : Dev) (n : Nat) (c : Take) : (d.putTake n c).takes = d.takes.put n c := rfl
@[simp] theorem Dev.putTake_accepted (d : Dev) (n : Nat) (c : Take) : (d.putTake n c).accepted = d.accepted := rfl
@[simp] theorem Dev.putTake_landedAt (d : Dev) (n : Nat) (c : Take) : (d.putTake n c).landedAt = d.landedAt := rfl
@[simp] theorem Dev.putTake_salvos (d : Dev) (n : Nat) (c : Take) : (d.putTake n c).salvos = d.salvos := rfl
@[simp] theorem Dev.putTake_lays (d : Dev) (n : Nat) (c : Take) : (d.putTake n c).lays = d.lays := rfl
@[simp] theorem Dev.putTake_deps (d : Dev) (n : Nat) (c : Take) : (d.putTake n c).deps = d.deps := rfl
@[simp] theorem Dev.putTake_seqs (d : Dev) (n : Nat) (c : Take) : (d.putTake n c).seqs = d.seqs := rfl
@[simp] theorem Dev.putTake_ptrs (d : Dev) (n : Nat) (c : Take) : (d.putTake n c).ptrs = d.ptrs := rfl
@[simp] theorem Dev.putTake_embBlocks (d : Dev) (n : Nat) (c : Take) : (d.putTake n c).embBlocks = d.embBlocks := rfl
@[simp] theorem Dev.putTake_io (d : Dev) (n : Nat) (c : Take) : (d.putTake n c).io = d.io := rfl
@[simp] theorem Dev.putTake_audio (d : Dev) (n : Nat) (c : Take) : (d.putTake n c).audio = d.audio := rfl
@[simp] theorem Dev.putTake_test (d : Dev) (n : Nat) (c : Take) : (d.putTake n c).test = d.test := rfl
@[simp] theorem Dev.putTake_dram (d : Dev) (n : Nat) (c : Take) : (d.putTake n c).dram = d.dram := rfl
@[simp] theorem Dev.putTake_bus (d : Dev) (n : Nat) (c : Take) : (d.putTake n c).bus = d.bus := rfl
@[simp] theorem Dev.putTake_nv (d : Dev) (n : Nat) (c : Take) : (d.putTake n c).nv = d.nv := rfl
@[simp] theorem Dev.putTake_ses (d : Dev) (n : Nat) (c : Take) : (d.putTake n c).ses = d.ses := rfl
@[simp] theorem Dev.putTake_kr (d : Dev) (n : Nat) (c : Take) : (d.putTake n c).kr = d.kr := rfl
@[simp] theorem Dev.putTake_fuses (d : Dev) (n : Nat) (c : Take) : (d.putTake n c).fuses = d.fuses := rfl
@[simp] theorem Dev.putTake_pwr (d : Dev) (n : Nat) (c : Take) : (d.putTake n c).pwr = d.pwr := rfl
@[simp] theorem Dev.putTake_answer (d : Dev) (n : Nat) (c : Take) : (d.putTake n c).answer = d.answer := rfl
@[simp] theorem Dev.putTake_g (d : Dev) (n : Nat) (c : Take) (p : Obj) (k : Nat) : (d.putTake n c).g p k = d.g p k := rfl

/-! ## dropTake -/

@[simp] theorem Dev.dropTake_objs (d : Dev) (n : Nat) : (d.dropTake n).objs = d.objs := rfl
@[simp] theorem Dev.dropTake_blobs (d : Dev) (n : Nat) : (d.dropTake n).blobs = d.blobs := rfl
@[simp] theorem Dev.dropTake_regs (d : Dev) (n : Nat) : (d.dropTake n).regs = d.regs := rfl
@[simp] theorem Dev.dropTake_latch (d : Dev) (n : Nat) : (d.dropTake n).latch = d.latch := rfl
@[simp] theorem Dev.dropTake_late (d : Dev) (n : Nat) : (d.dropTake n).late = d.late := rfl
@[simp] theorem Dev.dropTake_posts (d : Dev) (n : Nat) : (d.dropTake n).posts = d.posts := rfl
@[simp] theorem Dev.dropTake_drawn (d : Dev) (n : Nat) : (d.dropTake n).drawn = d.drawn := rfl
@[simp] theorem Dev.dropTake_ink (d : Dev) (n : Nat) : (d.dropTake n).ink = d.ink := rfl
@[simp] theorem Dev.dropTake_rings (d : Dev) (n : Nat) : (d.dropTake n).rings = d.rings := rfl
@[simp] theorem Dev.dropTake_descs (d : Dev) (n : Nat) : (d.dropTake n).descs = d.descs := rfl
@[simp] theorem Dev.dropTake_groupEvents (d : Dev) (n : Nat) : (d.dropTake n).groupEvents = d.groupEvents := rfl
@[simp] theorem Dev.dropTake_time (d : Dev) (n : Nat) : (d.dropTake n).time = d.time := rfl
@[simp] theorem Dev.dropTake_groups (d : Dev) (n : Nat) : (d.dropTake n).groups = d.groups := rfl
@[simp] theorem Dev.dropTake_arrs (d : Dev) (n : Nat) : (d.dropTake n).arrs = d.arrs := rfl
@[simp] theorem Dev.dropTake_stagings (d : Dev) (n : Nat) : (d.dropTake n).stagings = d.stagings := rfl
@[simp] theorem Dev.dropTake_seals (d : Dev) (n : Nat) : (d.dropTake n).seals = d.seals := rfl
@[simp] theorem Dev.dropTake_takes (d : Dev) (n : Nat) : (d.dropTake n).takes = d.takes.del n := rfl
@[simp] theorem Dev.dropTake_accepted (d : Dev) (n : Nat) : (d.dropTake n).accepted = d.accepted := rfl
@[simp] theorem Dev.dropTake_landedAt (d : Dev) (n : Nat) : (d.dropTake n).landedAt = d.landedAt := rfl
@[simp] theorem Dev.dropTake_salvos (d : Dev) (n : Nat) : (d.dropTake n).salvos = d.salvos := rfl
@[simp] theorem Dev.dropTake_lays (d : Dev) (n : Nat) : (d.dropTake n).lays = d.lays := rfl
@[simp] theorem Dev.dropTake_deps (d : Dev) (n : Nat) : (d.dropTake n).deps = d.deps := rfl
@[simp] theorem Dev.dropTake_seqs (d : Dev) (n : Nat) : (d.dropTake n).seqs = d.seqs := rfl
@[simp] theorem Dev.dropTake_ptrs (d : Dev) (n : Nat) : (d.dropTake n).ptrs = d.ptrs := rfl
@[simp] theorem Dev.dropTake_embBlocks (d : Dev) (n : Nat) : (d.dropTake n).embBlocks = d.embBlocks := rfl
@[simp] theorem Dev.dropTake_io (d : Dev) (n : Nat) : (d.dropTake n).io = d.io := rfl
@[simp] theorem Dev.dropTake_audio (d : Dev) (n : Nat) : (d.dropTake n).audio = d.audio := rfl
@[simp] theorem Dev.dropTake_test (d : Dev) (n : Nat) : (d.dropTake n).test = d.test := rfl
@[simp] theorem Dev.dropTake_dram (d : Dev) (n : Nat) : (d.dropTake n).dram = d.dram := rfl
@[simp] theorem Dev.dropTake_bus (d : Dev) (n : Nat) : (d.dropTake n).bus = d.bus := rfl
@[simp] theorem Dev.dropTake_nv (d : Dev) (n : Nat) : (d.dropTake n).nv = d.nv := rfl
@[simp] theorem Dev.dropTake_ses (d : Dev) (n : Nat) : (d.dropTake n).ses = d.ses := rfl
@[simp] theorem Dev.dropTake_kr (d : Dev) (n : Nat) : (d.dropTake n).kr = d.kr := rfl
@[simp] theorem Dev.dropTake_fuses (d : Dev) (n : Nat) : (d.dropTake n).fuses = d.fuses := rfl
@[simp] theorem Dev.dropTake_pwr (d : Dev) (n : Nat) : (d.dropTake n).pwr = d.pwr := rfl
@[simp] theorem Dev.dropTake_answer (d : Dev) (n : Nat) : (d.dropTake n).answer = d.answer := rfl
@[simp] theorem Dev.dropTake_g (d : Dev) (n : Nat) (p : Obj) (k : Nat) : (d.dropTake n).g p k = d.g p k := rfl

/-! ## putRing -/

@[simp] theorem Dev.putRing_objs (d : Dev) (n : Nat) (c : Ring) : (d.putRing n c).objs = d.objs := rfl
@[simp] theorem Dev.putRing_blobs (d : Dev) (n : Nat) (c : Ring) : (d.putRing n c).blobs = d.blobs := rfl
@[simp] theorem Dev.putRing_regs (d : Dev) (n : Nat) (c : Ring) : (d.putRing n c).regs = d.regs := rfl
@[simp] theorem Dev.putRing_latch (d : Dev) (n : Nat) (c : Ring) : (d.putRing n c).latch = d.latch := rfl
@[simp] theorem Dev.putRing_late (d : Dev) (n : Nat) (c : Ring) : (d.putRing n c).late = d.late := rfl
@[simp] theorem Dev.putRing_posts (d : Dev) (n : Nat) (c : Ring) : (d.putRing n c).posts = d.posts := rfl
@[simp] theorem Dev.putRing_drawn (d : Dev) (n : Nat) (c : Ring) : (d.putRing n c).drawn = d.drawn := rfl
@[simp] theorem Dev.putRing_ink (d : Dev) (n : Nat) (c : Ring) : (d.putRing n c).ink = d.ink := rfl
@[simp] theorem Dev.putRing_rings (d : Dev) (n : Nat) (c : Ring) : (d.putRing n c).rings = d.rings.put n c := rfl
@[simp] theorem Dev.putRing_descs (d : Dev) (n : Nat) (c : Ring) : (d.putRing n c).descs = d.descs := rfl
@[simp] theorem Dev.putRing_groupEvents (d : Dev) (n : Nat) (c : Ring) : (d.putRing n c).groupEvents = d.groupEvents := rfl
@[simp] theorem Dev.putRing_time (d : Dev) (n : Nat) (c : Ring) : (d.putRing n c).time = d.time := rfl
@[simp] theorem Dev.putRing_groups (d : Dev) (n : Nat) (c : Ring) : (d.putRing n c).groups = d.groups := rfl
@[simp] theorem Dev.putRing_arrs (d : Dev) (n : Nat) (c : Ring) : (d.putRing n c).arrs = d.arrs := rfl
@[simp] theorem Dev.putRing_stagings (d : Dev) (n : Nat) (c : Ring) : (d.putRing n c).stagings = d.stagings := rfl
@[simp] theorem Dev.putRing_seals (d : Dev) (n : Nat) (c : Ring) : (d.putRing n c).seals = d.seals := rfl
@[simp] theorem Dev.putRing_takes (d : Dev) (n : Nat) (c : Ring) : (d.putRing n c).takes = d.takes := rfl
@[simp] theorem Dev.putRing_accepted (d : Dev) (n : Nat) (c : Ring) : (d.putRing n c).accepted = d.accepted := rfl
@[simp] theorem Dev.putRing_landedAt (d : Dev) (n : Nat) (c : Ring) : (d.putRing n c).landedAt = d.landedAt := rfl
@[simp] theorem Dev.putRing_salvos (d : Dev) (n : Nat) (c : Ring) : (d.putRing n c).salvos = d.salvos := rfl
@[simp] theorem Dev.putRing_lays (d : Dev) (n : Nat) (c : Ring) : (d.putRing n c).lays = d.lays := rfl
@[simp] theorem Dev.putRing_deps (d : Dev) (n : Nat) (c : Ring) : (d.putRing n c).deps = d.deps := rfl
@[simp] theorem Dev.putRing_seqs (d : Dev) (n : Nat) (c : Ring) : (d.putRing n c).seqs = d.seqs := rfl
@[simp] theorem Dev.putRing_ptrs (d : Dev) (n : Nat) (c : Ring) : (d.putRing n c).ptrs = d.ptrs := rfl
@[simp] theorem Dev.putRing_embBlocks (d : Dev) (n : Nat) (c : Ring) : (d.putRing n c).embBlocks = d.embBlocks := rfl
@[simp] theorem Dev.putRing_io (d : Dev) (n : Nat) (c : Ring) : (d.putRing n c).io = d.io := rfl
@[simp] theorem Dev.putRing_audio (d : Dev) (n : Nat) (c : Ring) : (d.putRing n c).audio = d.audio := rfl
@[simp] theorem Dev.putRing_test (d : Dev) (n : Nat) (c : Ring) : (d.putRing n c).test = d.test := rfl
@[simp] theorem Dev.putRing_dram (d : Dev) (n : Nat) (c : Ring) : (d.putRing n c).dram = d.dram := rfl
@[simp] theorem Dev.putRing_bus (d : Dev) (n : Nat) (c : Ring) : (d.putRing n c).bus = d.bus := rfl
@[simp] theorem Dev.putRing_nv (d : Dev) (n : Nat) (c : Ring) : (d.putRing n c).nv = d.nv := rfl
@[simp] theorem Dev.putRing_ses (d : Dev) (n : Nat) (c : Ring) : (d.putRing n c).ses = d.ses := rfl
@[simp] theorem Dev.putRing_kr (d : Dev) (n : Nat) (c : Ring) : (d.putRing n c).kr = d.kr := rfl
@[simp] theorem Dev.putRing_fuses (d : Dev) (n : Nat) (c : Ring) : (d.putRing n c).fuses = d.fuses := rfl
@[simp] theorem Dev.putRing_pwr (d : Dev) (n : Nat) (c : Ring) : (d.putRing n c).pwr = d.pwr := rfl
@[simp] theorem Dev.putRing_answer (d : Dev) (n : Nat) (c : Ring) : (d.putRing n c).answer = d.answer := rfl
@[simp] theorem Dev.putRing_g (d : Dev) (n : Nat) (c : Ring) (p : Obj) (k : Nat) : (d.putRing n c).g p k = d.g p k := rfl

/-! ## answerCode -/

@[simp] theorem Dev.answerCode_objs (d : Dev) (c : Nat) : (d.answerCode c).objs = d.objs := rfl
@[simp] theorem Dev.answerCode_blobs (d : Dev) (c : Nat) : (d.answerCode c).blobs = d.blobs := rfl
@[simp] theorem Dev.answerCode_regs (d : Dev) (c : Nat) : (d.answerCode c).regs = d.regs := rfl
@[simp] theorem Dev.answerCode_latch (d : Dev) (c : Nat) : (d.answerCode c).latch = d.latch := rfl
@[simp] theorem Dev.answerCode_late (d : Dev) (c : Nat) : (d.answerCode c).late = d.late := rfl
@[simp] theorem Dev.answerCode_posts (d : Dev) (c : Nat) : (d.answerCode c).posts = d.posts := rfl
@[simp] theorem Dev.answerCode_drawn (d : Dev) (c : Nat) : (d.answerCode c).drawn = d.drawn := rfl
@[simp] theorem Dev.answerCode_ink (d : Dev) (c : Nat) : (d.answerCode c).ink = d.ink := rfl
@[simp] theorem Dev.answerCode_rings (d : Dev) (c : Nat) : (d.answerCode c).rings = d.rings := rfl
@[simp] theorem Dev.answerCode_descs (d : Dev) (c : Nat) : (d.answerCode c).descs = d.descs := rfl
@[simp] theorem Dev.answerCode_groupEvents (d : Dev) (c : Nat) : (d.answerCode c).groupEvents = d.groupEvents := rfl
@[simp] theorem Dev.answerCode_time (d : Dev) (c : Nat) : (d.answerCode c).time = d.time := rfl
@[simp] theorem Dev.answerCode_groups (d : Dev) (c : Nat) : (d.answerCode c).groups = d.groups := rfl
@[simp] theorem Dev.answerCode_arrs (d : Dev) (c : Nat) : (d.answerCode c).arrs = d.arrs := rfl
@[simp] theorem Dev.answerCode_stagings (d : Dev) (c : Nat) : (d.answerCode c).stagings = d.stagings := rfl
@[simp] theorem Dev.answerCode_seals (d : Dev) (c : Nat) : (d.answerCode c).seals = d.seals := rfl
@[simp] theorem Dev.answerCode_takes (d : Dev) (c : Nat) : (d.answerCode c).takes = d.takes := rfl
@[simp] theorem Dev.answerCode_accepted (d : Dev) (c : Nat) : (d.answerCode c).accepted = d.accepted := rfl
@[simp] theorem Dev.answerCode_landedAt (d : Dev) (c : Nat) : (d.answerCode c).landedAt = d.landedAt := rfl
@[simp] theorem Dev.answerCode_salvos (d : Dev) (c : Nat) : (d.answerCode c).salvos = d.salvos := rfl
@[simp] theorem Dev.answerCode_lays (d : Dev) (c : Nat) : (d.answerCode c).lays = d.lays := rfl
@[simp] theorem Dev.answerCode_deps (d : Dev) (c : Nat) : (d.answerCode c).deps = d.deps := rfl
@[simp] theorem Dev.answerCode_seqs (d : Dev) (c : Nat) : (d.answerCode c).seqs = d.seqs := rfl
@[simp] theorem Dev.answerCode_ptrs (d : Dev) (c : Nat) : (d.answerCode c).ptrs = d.ptrs := rfl
@[simp] theorem Dev.answerCode_embBlocks (d : Dev) (c : Nat) : (d.answerCode c).embBlocks = d.embBlocks := rfl
@[simp] theorem Dev.answerCode_io (d : Dev) (c : Nat) : (d.answerCode c).io = d.io := rfl
@[simp] theorem Dev.answerCode_audio (d : Dev) (c : Nat) : (d.answerCode c).audio = d.audio := rfl
@[simp] theorem Dev.answerCode_test (d : Dev) (c : Nat) : (d.answerCode c).test = d.test := rfl
@[simp] theorem Dev.answerCode_dram (d : Dev) (c : Nat) : (d.answerCode c).dram = d.dram := rfl
@[simp] theorem Dev.answerCode_bus (d : Dev) (c : Nat) : (d.answerCode c).bus = d.bus := rfl
@[simp] theorem Dev.answerCode_nv (d : Dev) (c : Nat) : (d.answerCode c).nv = d.nv := rfl
@[simp] theorem Dev.answerCode_ses (d : Dev) (c : Nat) : (d.answerCode c).ses = d.ses := rfl
@[simp] theorem Dev.answerCode_kr (d : Dev) (c : Nat) : (d.answerCode c).kr = d.kr := rfl
@[simp] theorem Dev.answerCode_fuses (d : Dev) (c : Nat) : (d.answerCode c).fuses = d.fuses := rfl
@[simp] theorem Dev.answerCode_pwr (d : Dev) (c : Nat) : (d.answerCode c).pwr = d.pwr := rfl
@[simp] theorem Dev.answerCode_answer (d : Dev) (c : Nat) : (d.answerCode c).answer = { code := c } := rfl
@[simp] theorem Dev.answerCode_g (d : Dev) (c : Nat) (p : Obj) (k : Nat) : (d.answerCode c).g p k = d.g p k := rfl

/-! ## answerWord -/

@[simp] theorem Dev.answerWord_objs (d : Dev) (w : Nat) : (d.answerWord w).objs = d.objs := rfl
@[simp] theorem Dev.answerWord_blobs (d : Dev) (w : Nat) : (d.answerWord w).blobs = d.blobs := rfl
@[simp] theorem Dev.answerWord_regs (d : Dev) (w : Nat) : (d.answerWord w).regs = d.regs := rfl
@[simp] theorem Dev.answerWord_latch (d : Dev) (w : Nat) : (d.answerWord w).latch = d.latch := rfl
@[simp] theorem Dev.answerWord_late (d : Dev) (w : Nat) : (d.answerWord w).late = d.late := rfl
@[simp] theorem Dev.answerWord_posts (d : Dev) (w : Nat) : (d.answerWord w).posts = d.posts := rfl
@[simp] theorem Dev.answerWord_drawn (d : Dev) (w : Nat) : (d.answerWord w).drawn = d.drawn := rfl
@[simp] theorem Dev.answerWord_ink (d : Dev) (w : Nat) : (d.answerWord w).ink = d.ink := rfl
@[simp] theorem Dev.answerWord_rings (d : Dev) (w : Nat) : (d.answerWord w).rings = d.rings := rfl
@[simp] theorem Dev.answerWord_descs (d : Dev) (w : Nat) : (d.answerWord w).descs = d.descs := rfl
@[simp] theorem Dev.answerWord_groupEvents (d : Dev) (w : Nat) : (d.answerWord w).groupEvents = d.groupEvents := rfl
@[simp] theorem Dev.answerWord_time (d : Dev) (w : Nat) : (d.answerWord w).time = d.time := rfl
@[simp] theorem Dev.answerWord_groups (d : Dev) (w : Nat) : (d.answerWord w).groups = d.groups := rfl
@[simp] theorem Dev.answerWord_arrs (d : Dev) (w : Nat) : (d.answerWord w).arrs = d.arrs := rfl
@[simp] theorem Dev.answerWord_stagings (d : Dev) (w : Nat) : (d.answerWord w).stagings = d.stagings := rfl
@[simp] theorem Dev.answerWord_seals (d : Dev) (w : Nat) : (d.answerWord w).seals = d.seals := rfl
@[simp] theorem Dev.answerWord_takes (d : Dev) (w : Nat) : (d.answerWord w).takes = d.takes := rfl
@[simp] theorem Dev.answerWord_accepted (d : Dev) (w : Nat) : (d.answerWord w).accepted = d.accepted := rfl
@[simp] theorem Dev.answerWord_landedAt (d : Dev) (w : Nat) : (d.answerWord w).landedAt = d.landedAt := rfl
@[simp] theorem Dev.answerWord_salvos (d : Dev) (w : Nat) : (d.answerWord w).salvos = d.salvos := rfl
@[simp] theorem Dev.answerWord_lays (d : Dev) (w : Nat) : (d.answerWord w).lays = d.lays := rfl
@[simp] theorem Dev.answerWord_deps (d : Dev) (w : Nat) : (d.answerWord w).deps = d.deps := rfl
@[simp] theorem Dev.answerWord_seqs (d : Dev) (w : Nat) : (d.answerWord w).seqs = d.seqs := rfl
@[simp] theorem Dev.answerWord_ptrs (d : Dev) (w : Nat) : (d.answerWord w).ptrs = d.ptrs := rfl
@[simp] theorem Dev.answerWord_embBlocks (d : Dev) (w : Nat) : (d.answerWord w).embBlocks = d.embBlocks := rfl
@[simp] theorem Dev.answerWord_io (d : Dev) (w : Nat) : (d.answerWord w).io = d.io := rfl
@[simp] theorem Dev.answerWord_audio (d : Dev) (w : Nat) : (d.answerWord w).audio = d.audio := rfl
@[simp] theorem Dev.answerWord_test (d : Dev) (w : Nat) : (d.answerWord w).test = d.test := rfl
@[simp] theorem Dev.answerWord_dram (d : Dev) (w : Nat) : (d.answerWord w).dram = d.dram := rfl
@[simp] theorem Dev.answerWord_bus (d : Dev) (w : Nat) : (d.answerWord w).bus = d.bus := rfl
@[simp] theorem Dev.answerWord_nv (d : Dev) (w : Nat) : (d.answerWord w).nv = d.nv := rfl
@[simp] theorem Dev.answerWord_ses (d : Dev) (w : Nat) : (d.answerWord w).ses = d.ses := rfl
@[simp] theorem Dev.answerWord_kr (d : Dev) (w : Nat) : (d.answerWord w).kr = d.kr := rfl
@[simp] theorem Dev.answerWord_fuses (d : Dev) (w : Nat) : (d.answerWord w).fuses = d.fuses := rfl
@[simp] theorem Dev.answerWord_pwr (d : Dev) (w : Nat) : (d.answerWord w).pwr = d.pwr := rfl
@[simp] theorem Dev.answerWord_answer (d : Dev) (w : Nat) : (d.answerWord w).answer = { word := w } := rfl
@[simp] theorem Dev.answerWord_g (d : Dev) (w : Nat) (p : Obj) (k : Nat) : (d.answerWord w).g p k = d.g p k := rfl

/-! ## Functions of the fields -/

end Sys2Proof.Machine
end

