-- ==== Sys2Proof/Laws/Tick.lean ====
section
/-!
SUPPORT. The laws of running an effect: what entering a rank and running an effect leave of the clock, the memories, the
queue and the posted writes. A meaning is understood through `State.at_awake`, never by unfolding `State.at`.
-/

namespace Sys2Proof.Machine

/-! ## Running an effect -/

@[simp] theorem State.run_clk (s : State) (f : Env → Dev → Dev) : (s.run f).clk = s.clk := rfl

@[simp] theorem State.run_pending (s : State) (f : Env → Dev → Dev) : (s.run f).pending = s.pending := rfl

@[simp] theorem State.run_posts (s : State) (f : Env → Dev → Dev) : (s.run f).dev.posts = [] := rfl

theorem State.run_wf (s : State) (f : Env → Dev → Dev) (h : s.mem.wf = true) : (s.run f).mem.wf = true :=
  Mem.apply_wf _ _ h

theorem Dev.clearPosts (d : Dev) (h : d.posts = []) : { d with posts := [] } = d := by
  rw [← h]

/-- An effect that posts no byte write changes the block alone. -/
theorem State.run_quiet (s : State) (f : Env → Dev → Dev) (h : (f ⟨s.clk, s.mem⟩ s.dev).posts = []) :
    s.run f = { s with dev := f ⟨s.clk, s.mem⟩ s.dev } := by
  unfold State.run
  simp only [h, Mem.apply_nil, Dev.clearPosts _ h]

/-! ## Entering a rank -/

@[simp] theorem State.closeTick_pending (s : State) : s.closeTick.pending = s.pending := rfl

@[simp] theorem State.closeTick_posts (s : State) : s.closeTick.dev.posts = [] := rfl

@[simp] theorem State.closeTick_clk (s : State) : s.closeTick.clk = s.clk.next := rfl

@[simp] theorem State.enter_posts (s : State) (r : Nat) : (s.enter r).dev.posts = [] := rfl

@[simp] theorem State.enter_rank (s : State) (r : Nat) : (s.enter r).clk.rank = min r 9 := rfl

@[simp] theorem State.enter_pending (s : State) (r : Nat) : (s.enter r).pending = s.pending := by
  unfold State.enter
  by_cases h : r < s.clk.rank <;> simp [h]

/-- Entering a rank stays in the tick, or closes it when the tick is past that rank (R40). -/
theorem State.enter_clk (s : State) (r : Nat) :
    (s.enter r).clk = { (if r < s.clk.rank then s.clk.next else s.clk) with rank := min r 9 } := by
  unfold State.enter
  by_cases h : r < s.clk.rank <;> simp [h]

theorem State.enter_wf (s : State) (r : Nat) (h : s.mem.wf = true) : (s.enter r).mem.wf = true := by
  unfold State.enter
  by_cases hr : r < s.clk.rank
  · simp only [hr, if_true]; exact State.run_wf _ _ (State.run_wf _ _ h)
  · simp only [hr, if_false]; exact State.run_wf _ _ h

/-! ## A place inside a rank -/

@[simp] theorem State.ordered_place (s : State) (r k : Nat) : (s.ordered r k).clk.place = 1024 * r + k := rfl

@[simp] theorem State.ordered_pending (s : State) (r k : Nat) : (s.ordered r k).pending = s.pending := by
  unfold State.ordered
  by_cases h : r < s.clk.rank ∨ (s.clk.place / 1024 = r ∧ k < s.clk.place % 1024) <;> simp [h]

/-- An event whose place has not passed stays in the tick, and nothing but the place changes (R40, R41). -/
theorem State.ordered_stays (s : State) (r k : Nat) (h : s.clk.rank ≤ r)
    (hp : s.clk.place / 1024 = r → s.clk.place % 1024 ≤ k) :
    s.ordered r k = { s with clk := { s.clk with place := 1024 * r + k } } := by
  unfold State.ordered
  rw [if_neg]
  rintro (h' | ⟨h1, h2⟩)
  · omega
  · have := hp h1; omega

/-- An event that comes after its place belongs to the next tick. -/
theorem State.ordered_passes (s : State) (r k : Nat)
    (h : r < s.clk.rank ∨ (s.clk.place / 1024 = r ∧ k < s.clk.place % 1024)) :
    s.ordered r k = { s.closeTick with clk := { s.closeTick.clk with place := 1024 * r + k } } := by
  unfold State.ordered
  rw [if_pos h]

/-! ## The form of a meaning -/

/-- In a block that is awake, a command's next state is the effect applied to the state that entered its rank. -/
theorem State.at_awake (s : State) (r : Nat) (f : Env → Dev → Dev) (h : (s.enter r).dev.asleep = false) :
    s.at r f = .next ((s.enter r).run f) := by
  unfold State.at State.run
  simp only [h, Bool.false_eq_true, if_false]

/-- The same where the effect posts no byte write: the block alone changes. -/
theorem State.at_quiet (s : State) (r : Nat) (f : Env → Dev → Dev) (h : (s.enter r).dev.asleep = false)
    (hq : (f ⟨(s.enter r).clk, (s.enter r).mem⟩ (s.enter r).dev).posts = []) :
    s.at r f = .next { s.enter r with dev := f ⟨(s.enter r).clk, (s.enter r).mem⟩ (s.enter r).dev } := by
  rw [State.at_awake s r f h, State.run_quiet _ _ hq]

/-- In SLEEP a command of the main domain has no effect (R507). -/
theorem State.at_asleep (s : State) (r : Nat) (f : Env → Dev → Dev) (h : (s.enter r).dev.asleep = true) :
    s.at r f = .next (s.enter r) := by
  unfold State.at
  rw [State.run_quiet]
  · simp only [h, if_true]
  · simp only [h, if_true]; rfl

/-- Every command of the form answers a next state, keeps the queue, and leaves no posted write. -/
theorem State.at_next (s : State) (r : Nat) (f : Env → Dev → Dev) :
    ∃ t, s.at r f = .next t ∧ t.pending = s.pending ∧ t.dev.posts = [] ∧ t.clk = (s.enter r).clk :=
  ⟨_, rfl, by simp, rfl, rfl⟩

end Sys2Proof.Machine
end

