-- ==== Sys2Proof/Laws/Steps.lean ====
section
/-!
SUPPORT. What the operations on the whole state keep: steps of the time base, resets, wakes, held requests, register
writes. Each keeps the queue, the canonical form of the memories and the clock's widths, and leaves no posted write.
-/

namespace Sys2Proof.Machine

/-! ## The clock -/

theorem Clock.sound_iff (c : Clock) : c.sound = true ↔
    c.timebase < 2 ^ 64 ∧ c.frac < 2 ^ 28 ∧ 670753096 ≤ c.addend ∧ c.addend ≤ 671424184 ∧ c.rank ≤ 9 := by
  simp only [Clock.sound, Bool.and_eq_true, decide_eq_true_eq, and_assoc]

theorem Clock.next_sound (c : Clock) (h : c.sound = true) : c.next.sound = true := by
  rw [Clock.sound_iff] at h ⊢
  obtain ⟨-, -, h3, h4, -⟩ := h
  exact ⟨Nat.mod_lt _ (by decide), Nat.mod_lt _ (by decide), h3, h4, Nat.zero_le _⟩

theorem Clock.rank_sound (c : Clock) (r : Nat) (h : c.sound = true) : ({ c with rank := min r 9 } : Clock).sound = true := by
  rw [Clock.sound_iff] at h ⊢
  exact ⟨h.1, h.2.1, h.2.2.1, h.2.2.2.1, Nat.min_le_right _ _⟩

theorem Clock.reset_sound : Clock.reset.sound = true := by decide

theorem clampAddend_bounds (v : Nat) : 670753096 ≤ clampAddend v ∧ clampAddend v ≤ 671424184 := by
  unfold clampAddend; omega

theorem Clock.addend_sound (c : Clock) (v : Nat) (h : c.sound = true) :
    ({ c with addend := clampAddend v } : Clock).sound = true := by
  have hb := clampAddend_bounds v
  rw [Clock.sound_iff] at h ⊢
  exact ⟨h.1, h.2.1, hb.1, hb.2, h.2.2.2.2⟩

theorem ofInt_lt (w : Nat) (v : Int) : ofInt w v < 2 ^ w := by
  have hp : 0 < 2 ^ w := Nat.two_pow_pos w
  have h1 := Int.emod_nonneg v (b := ((2 ^ w : Nat) : Int)) (by omega)
  have h2 := Int.emod_lt_of_pos v (b := ((2 ^ w : Nat) : Int)) (by omega)
  unfold ofInt; omega

theorem Clock.timebase_sound (c : Clock) (v : Int) (h : c.sound = true) :
    ({ c with timebase := ofInt 64 v } : Clock).sound = true := by
  rw [Clock.sound_iff] at h ⊢
  exact ⟨ofInt_lt 64 v, h.2⟩

/-! ## What one state keeps of another -/

/-- From `s` to `t` the queue stands, the memories stay canonical, the clock stays sound, and no posted write is left. -/
structure State.Keeps (s t : State) : Prop where
  pending : t.pending = s.pending
  wf : s.mem.wf = true → t.mem.wf = true
  sound : s.clk.sound = true → t.clk.sound = true
  posts : s.dev.posts = [] → t.dev.posts = []

theorem State.Keeps.refl (s : State) : s.Keeps s := ⟨rfl, id, id, id⟩

theorem State.Keeps.trans {s t u : State} (h : s.Keeps t) (k : t.Keeps u) : s.Keeps u :=
  ⟨k.pending.trans h.pending, k.wf ∘ h.wf, k.sound ∘ h.sound, k.posts ∘ h.posts⟩

theorem State.Keeps.ite {s t u : State} (c : Prop) [Decidable c] (h : s.Keeps t) (k : s.Keeps u) :
    s.Keeps (if c then t else u) := by
  by_cases hc : c
  · rw [if_pos hc]; exact h
  · rw [if_neg hc]; exact k

theorem State.Keeps.inv {s t : State} (h : s.Keeps t) (hs : s.Inv) : t.Inv :=
  ⟨h.sound hs.1, h.wf hs.2.1, h.posts hs.2.2⟩

theorem State.run_keeps (s : State) (f : Env → Dev → Dev) : s.Keeps (s.run f) :=
  ⟨rfl, State.run_wf s f, id, fun _ => rfl⟩

/-- Another clock that is as sound. -/
theorem State.clk_keeps (s : State) (c : Clock) (h : s.clk.sound = true → c.sound = true) : s.Keeps { s with clk := c } :=
  ⟨rfl, id, h, id⟩

theorem State.closeTick_keeps (s : State) : s.Keeps s.closeTick := by
  unfold State.closeTick
  exact (s.run_keeps _).trans (State.clk_keeps _ _ (Clock.next_sound _))

theorem State.enter_keeps (s : State) (r : Nat) : s.Keeps (s.enter r) := by
  have h : s.Keeps (if r < s.clk.rank then s.closeTick else s) := State.Keeps.ite _ s.closeTick_keeps (.refl s)
  exact h.trans ((State.run_keeps _ _).trans (State.clk_keeps _ _ (Clock.rank_sound _ r)))

theorem State.ordered_keeps (s : State) (r k : Nat) : s.Keeps (s.ordered r k) :=
  (State.Keeps.ite _ s.closeTick_keeps (.refl s)).trans (State.clk_keeps _ _ id)

theorem State.slewBy_keeps (s : State) : s.Keeps s.slewBy :=
  ⟨rfl, id, Clock.addend_sound _ _, id⟩

theorem State.stepBy_keeps (s : State) (v : Int) : s.Keeps (s.stepBy v) := by
  unfold State.stepBy
  exact (s.run_keeps _).trans (State.clk_keeps _ _ (Clock.timebase_sound _ _))

/-! ## Resets and wakes -/

theorem Clock.nominal_sound (c : Clock) (h : c.sound = true) :
    ({ c with addend := Clock.reset.addend } : Clock).sound = true := by
  rw [Clock.sound_iff] at h ⊢
  have ha : 670753096 ≤ Clock.reset.addend ∧ Clock.reset.addend ≤ 671424184 := by decide
  exact ⟨h.1, h.2.1, ha.1, ha.2, h.2.2.2.2⟩

theorem State.warmReset_keeps (s : State) (c : Nat) : s.Keeps (s.warmReset c) := by
  unfold State.warmReset
  exact (s.run_keeps _).trans ((State.run_keeps _ _).trans (State.clk_keeps _ _ (Clock.nominal_sound _)))

/-- Power lost: the clock starts again, and the Pantry and the DRAM hold nothing. -/
theorem State.cleared_keeps (s : State) :
    s.Keeps { s with clk := Clock.reset, mem := { s.mem with pantry := [], dram := [] } } := by
  refine ⟨rfl, fun h => ?_, fun _ => Clock.reset_sound, id⟩
  simp only [Mem.wf, Bool.and_eq_true] at h ⊢
  exact ⟨⟨⟨h.1.1.1, rfl⟩, rfl⟩, h.2⟩

theorem State.coldReset_keeps (s : State) (c : Nat) : s.Keeps (s.coldReset c) := by
  unfold State.coldReset
  exact ((s.run_keeps _).trans (State.cleared_keeps _)).trans (State.run_keeps _ _)

theorem State.drainNv_keeps (n : Nat) (s : State) : s.Keeps (s.drainNv n) := by
  induction n generalizing s with
  | zero => unfold State.drainNv; exact s.run_keeps _
  | succ n ih =>
    unfold State.drainNv
    split
    · exact .refl s
    · exact ((s.run_keeps _).trans (State.run_keeps _ _)).trans (ih _)

theorem State.drainedReset_keeps (s : State) (c : Nat) : s.Keeps (s.drainedReset c) := by
  unfold State.drainedReset
  exact (State.drainNv_keeps _ s).trans (State.warmReset_keeps _ c)

theorem State.wakeBy_keeps (s : State) (x : Nat) : s.Keeps (s.wakeBy x) := by
  unfold State.wakeBy
  exact (s.coldReset_keeps _).trans (State.run_keeps _ _)

theorem State.endEntry_keeps (s : State) : s.Keeps s.endEntry := by
  unfold State.endEntry
  exact State.Keeps.ite _ (State.Keeps.ite _ ((s.run_keeps _).trans (State.wakeBy_keeps _ 1)) (s.run_keeps _)) (.refl s)

theorem State.sleepTamper_keeps (s : State) (det : Nat) : s.Keeps (s.sleepTamper det) := by
  unfold State.sleepTamper
  exact (s.run_keeps _).trans ((State.wakeBy_keeps _ 4).trans (State.run_keeps _ _))

/-! ## Registers -/

theorem State.clockWrite_keeps (s : State) (a v : Nat) : s.Keeps (s.clockWrite a v) := by
  unfold State.clockWrite
  exact State.Keeps.ite _ (State.clk_keeps _ _ (Clock.addend_sound _ v)) (State.Keeps.ite _ (s.stepBy_keeps _) (.refl s))

theorem State.regWrite_keeps (s : State) (w : Who) (a v : Nat) : s.Keeps (s.regWrite w a v) := by
  unfold State.regWrite
  exact (s.clockWrite_keeps a v).trans (State.run_keeps _ _)

/-! ## Meanings -/

/-- In a block that is awake, a command whose effect posts no byte write changes the block of the state that entered its
rank, and nothing else. -/
theorem State.at_become (s : State) (r : Nat) (f : Env → Dev → Dev) (d : Dev) (h : s.Awake r)
    (hf : f (s.enter r).env (s.enter r).dev = d) (hp : d.posts = []) : s.at r f = .next ((s.enter r).become d) := by
  subst hf
  exact State.at_quiet s r f h hp

/-- The same for a command of a block that STANDBY stops. -/
theorem State.running_become (s : State) (r : Nat) (f : Env → Dev → Dev) (d : Dev) (h : s.Running r)
    (hf : f (s.enter r).env (s.enter r).dev = d) (hp : d.posts = []) : s.running r f = .next ((s.enter r).become d) := by
  refine State.at_become s r _ d h.1 ?_ hp
  simp only [h.2, Bool.false_eq_true, if_false, hf]

/-- A meaning that applies an effect at a rank keeps all of this. -/
theorem State.at_keeps (s : State) (r : Nat) (f : Env → Dev → Dev) : ∃ t, s.at r f = .next t ∧ s.Keeps t :=
  ⟨_, rfl, (s.enter_keeps r).trans (State.run_keeps _ _)⟩

theorem State.running_keeps (s : State) (r : Nat) (f : Env → Dev → Dev) : ∃ t, s.running r f = .next t ∧ s.Keeps t :=
  s.at_keeps r _

theorem State.thenHeld_keeps (s : State) : ∃ t, s.thenHeld = .next t ∧ s.Keeps t := by
  unfold State.thenHeld
  split
  · exact ⟨_, rfl, .refl s⟩
  · exact s.at_keeps 7 _

theorem State.wakeIf_keeps (s : State) (b x : Nat) (c : Bool) : ∃ t, s.wakeIf b x c = .next t ∧ s.Keeps t :=
  ⟨_, rfl, State.Keeps.ite _ (s.wakeBy_keeps x) (.refl s)⟩

end Sys2Proof.Machine
end

