-- ==== Sys2Proof/Tests/Slice0.lean ====
section
/-!
SUPPORT. The model's own tests: ill-formed commands refused by `Instr.wf`; for each statement with hypotheses, states and
operands that meet them, clause by clause, at the ends of their ranges; and small tests of one command each against
values worked out from the spec.
-/

namespace Sys2Proof.Tests

open Machine

/-- A block at rank `r` of tick `t` with object values set and a change made to it. -/
def st (r t : Nat) (xs : List (Obj × Nat × Nat)) (f : Dev → Dev := id) : State :=
  { State.reset with
    clk := { Clock.reset with elapsed := t, rank := r },
    dev := f (xs.foldl (fun d x => d.put x.1 x.2.1 x.2.2) {}) }

/-- What a command leaves, seen by a question. -/
def after (o : Out) (q : State → Bool) : Bool :=
  match o with
  | .next t => q t
  | _ => false

/-- The state a command with a place inside its rank meets. -/
def met (s : State) (r k : Nat) : State := (s.ordered r k).enter r

/-! ## Hypotheses are met: time, rings, Innkeeper -/

theorem witness_CommandsRegisterAtTheirRank :
    Instr.rank .nvBurstDone = some 9 ∧ Instr.place (.porterCompletion 3 true) = some (8, 7) := ⟨rfl, rfl⟩

/-- The invariant holds of a state, and a command stands in front. -/
theorem witness_StepKeepsInvariant :
    State.Inv { State.reset with pending := [.tick] } ∧
      ∃ t, step { State.reset with pending := [.tick] } = .next t := by
  delta State.Inv; exact ⟨by decide, _, rfl⟩

/-- A capture armed in the last tick of the counter. -/
def lastTick : State := st 7 (2 ^ 48 - 1) [] fun d => { d with time := { d.time with capArmed := true } }

theorem witness_TicksAdvanceTimeAndCounter :
    lastTick.clk.frac < 2 ^ 28 ∧ lastTick.clk.tick = 2 ^ 48 - 1 ∧ lastTick.dev.asleep = false ∧ lastTick.Awake 7 ∧
    lastTick.dev.time.capArmed = true ∧
    ((lastTick.dev.due lastTick.env lastTick.clk.rank 9).rank9 lastTick.env).time.capArmed = true ∧
    State.reset.clk.tick ≠ 2 ^ 48 - 1 ∧ State.reset.dev.time.capArmed = false := by
  delta State.Awake; decide +kernel

/-- The time base in a state, with fifteen good intervals behind it and a master. -/
def servo (r t state : Nat) (fresh : Bool := false) : State := st r t [(.tbState, 0, state)] fun d =>
  { d with time := { d.time with master := true, run := 15, acqFromFree := true, fresh := fresh } }

theorem witness_TimeBaseFollowsItsServo :
    (servo 7 1 1).Awake 7 ∧ (670753095 < 2 ^ 32) ∧ ((servo 7 1 1).enter 7).dev.g .tbState = 1 ∧
    ((servo 7 1 2).enter 7).dev.g .tbState ≠ 1 ∧
    (servo 9 1 1).Awake 9 ∧ ((st 9 1 [(.ptpEnable, 0, 0)]).enter 9).dev.on .ptpEnable = false ∧
    ((servo 9 1 3).enter 9).dev.on .ptpEnable = true ∧ ((servo 9 1 3).enter 9).dev.g .tbState = 3 ∧
    ((servo 9 1 0).enter 9).dev.g .tbState = 0 ∧ ((servo 9 1 2).enter 9).dev.g .tbState = 2 ∧
    ((servo 9 1 1).enter 9).dev.time.master = true ∧ ((servo 9 1 1).enter 9).dev.time.fresh = false ∧
    ((servo 9 1 1).enter 9).dev.time.run = 15 ∧ ((servo 9 1 1).enter 9).dev.g .tbState = 1 ∧
    ((servo 9 1 1 true).enter 9).dev.time.fresh = true ∧
    ((servo 9 1 1 true).enter 9).dev.g .stepThreshold < (-100000000 : Int).natAbs ∧
    ¬(((servo 9 1 1 true).enter 9).dev.g .stepThreshold < (0 : Int).natAbs) ∧
    ((servo 5 12000001 1).ordered 5 0x070).Awake 5 ∧
    (met (servo 5 12000001 1) 5 0x070).dev.time.lastSync + (met (servo 5 12000001 1) 5 0x070).dev.g .holdoverTimeout * 4000
      < (met (servo 5 12000001 1) 5 0x070).clk.elapsed ∧
    (met (servo 5 12000001 2) 5 0x070).dev.g .tbState = 2 ∧
    (met (servo 5 12000001 1) 5 0x070).dev.time.acqFromFree = true := by
  delta State.Awake; decide +kernel

/-- A descriptor of 2^4 entries at the start of host memory, of a kind and with more bits of its control word. -/
def desc (kind more : Nat) : List Nat := [0, 0, 0, 0, 4 + 256 * kind + more, 0, 0, 0, 0, 0, 0, 0, 0, 0, 0, 0]

/-- Ring 5 with a descriptor in the table and in force, in a state, with two entries. -/
def ring5 (s : RingState) (ws : List Nat) (xs : List (Obj × Nat × Nat)) : State :=
  st 7 1 xs fun d => { d.putRing 5 { st := s, p := 2, c := 0, cached := ws } with descs := [(5, ws)] }

theorem witness_RingEnableCachesTheDescriptor :
    (ring5 .disabled (desc 1 0) []).Awake 7 ∧ ((ring5 .disabled (desc 1 0) []).enter 7).dev.quarantine = false ∧
    (((ring5 .enabled (desc 1 0) []).enter 7).dev.ring 5).st ≠ .disabled ∧
    (((ring5 .disabled (desc 1 0) []).enter 7).dev.ring 5).st = .disabled ∧
    descValid (((ring5 .disabled (desc 6 0) []).enter 7).dev.desc 5) = false ∧
    descValid (((ring5 .disabled (desc 1 8192) []).enter 7).dev.desc 5) = true ∧
    ((ring5 .disabled (desc 1 8192) [(.dramCoreMib, 0, 0)]).enter 7).dev.descFits (desc 1 8192) = false ∧
    descValid (((ring5 .disabled (desc 1 0) []).enter 7).dev.desc 5) = true ∧
    ((ring5 .disabled (desc 1 0) []).enter 7).dev.descFits (desc 1 0) = true ∧
    (∃ k ∈ ((ring5 .disabled (desc 2 0) [(.ptrEnable, 0, 1), (.ptrRing, 0, 5)]).enter 7).dev.consumerKinds 5,
      k ≠ descKind (desc 2 0)) ∧
    (((ring5 .disabled (desc 4 32768) [(.hqEnable, 0, 1), (.hqRing, 0, 5)]).enter 7).dev.queuesNaming 5 ≠ [] ∧
      descCores (desc 4 32768) = true) ∧
    (∀ k ∈ ((ring5 .disabled (desc 1 0) []).enter 7).dev.consumerKinds 5, k = descKind (desc 1 0)) ∧
    ((ring5 .disabled (desc 1 0) []).enter 7).dev.queuesNaming 5 = [] := by
  delta State.Awake; decide +kernel

theorem witness_RingCommandsChangeTheirRing :
    (ring5 .error (desc 1 0) []).Awake 7 ∧ ((ring5 .error (desc 1 0) []).enter 7).dev.quarantine = false ∧
    (((ring5 .error (desc 1 0) []).enter 7).dev.ring 5).st = .error ∧
    ((ring5 .error (desc 1 0) []).enter 7).dev.sessionOf (.ring 5) = none ∧
    (((ring5 .enabled (desc 1 0) []).enter 7).dev.ring 5).st ≠ .error ∧
    (((ring5 .disabled (desc 1 0) []).enter 7).dev.ring 5).st = .disabled ∧
    (((ring5 .disabled (desc 1 0) []).enter 7).dev.desc 5).length = 16 ∧
    (((ring5 .disabled (desc 1 0) []).enter 7).dev.ring
      (((ring5 .disabled (desc 1 0) []).enter 7).dev.reg 0x30008 % 65536)).st = .disabled ∧ (15 : Nat) < 16 := by
  delta State.Awake; decide +kernel

theorem witness_DoorbellMovesAnIndex :
    (ring5 .enabled (desc 1 0) []).Awake 7 ∧ ((ring5 .enabled (desc 1 0) []).enter 7).dev.quarantine = false ∧
    (let c := ((ring5 .enabled (desc 1 0) []).enter 7).dev.ring 5
     c.st ≠ .disabled ∧ descCores c.cached = false ∧ (16 + 2 ^ 32 - c.c) % 2 ^ 32 ≤ 2 ^ descN c.cached ∧
       2 ^ descN c.cached < (17 + 2 ^ 32 - c.c) % 2 ^ 32) ∧
    (let c := ((ring5 .enabled (desc 4 32768) []).enter 7).dev.ring 5
     descKind c.cached = 4 ∧ descCores c.cached = true ∧ (2 + 2 ^ 32 - c.c) % 2 ^ 32 ≤ (c.p + 2 ^ 32 - c.c) % 2 ^ 32) := by
  delta State.Awake; decide +kernel

/-- Ring 5 of a kind, ENABLED, with its consumer ready: Porter's channel 0 for kind 1. -/
def fed (kind : Nat) (taken : List Taken) : State :=
  st 7 1 [(.ptrEnable, 0, 1), (.ptrRing, 0, 5), (.ptrState, 0, 1)] fun d =>
    d.putRing 5 { st := .enabled, p := 2, c := 0, cached := desc kind 0, taken := taken }

theorem witness_EntryFetchTakesTheHead :
    (fed 1 []).dev.fetchReads (fed 1 []).env 5 [] = false ∧ ((fed 1 []).enter 7).dev.asleep = false ∧
    ((fed 1 []).enter 7).dev.entryPending 5 = none ∧ (((fed 1 []).enter 7).dev.ring 5).st = .enabled ∧
    (((fed 1 []).enter 7).dev.ring 5).p ≠ (((fed 1 []).enter 7).dev.ring 5).c ∧
    ((fed 1 []).enter 7).dev.consumerReady 5 = true ∧
    descKind (((fed 1 []).enter 7).dev.ring 5).cached = 1 ∧
    ((fed 3 [⟨0, []⟩]).enter 7).dev.entryPending 5 = some ⟨0, []⟩ ∧
    ((fed 3 [⟨0, []⟩]).enter 7).dev.arrs = [] ∧ (∀ m < 128, (((fed 3 [⟨0, []⟩]).enter 7).dev.dep m).capture = none) ∧
    descIdxWb (((fed 3 [⟨0, []⟩]).enter 7).dev.ring 5).cached = 0 ∧
    descKind (((fed 5 []).enter 7).dev.ring 5).cached = 5 ∧ (((fed 5 []).enter 7).dev.ring 5).taken = [] ∧
    ((fed 5 []).enter 7).dev.sessionOf (.ring 5) = none ∧
    (((fed 5 []).enter 7).dev.entryBytes ((fed 5 []).enter 7).env 5 []).length = 64 := by
  decide +kernel

theorem witness_WindowsAndEndpoint :
    (st 7 1 []).Awake 7 ∧ ((st 7 1 []).enter 7).dev.quarantine = false ∧
    withinPart (((st 7 1 []).enter 7).dev.ringPart.1) 4 ((st 7 1 []).enter 7).dev.ringPart = true ∧
    ((st 7 1 []).enter 7).dev.ringPart.1 < 50331648 ∧
    ¬(withinPart 0 4 ((st 7 1 []).enter 7).dev.ringPart = true ∨ withinPart 0 4 ((st 7 1 []).enter 7).dev.scratchPart = true) ∧
    (st 3 1 []).Awake 3 ∧ descCores (((ring5 .enabled (desc 1 32768) []).enter 7).dev.ring 5).cached = true ∧
    (st 9 1 []).Awake 9 ∧ ((st 7 1 []).enter 7).dev.keepFails .pcieLoop 0 3 [] = 0 := by
  delta State.Awake; decide +kernel

/-- Sources 32 to 35 IDLE, PENDING, HELD and ACTIVE on core 1, the last under a more urgent one. -/
def sources : Dev → Dev := fun d =>
  (((d.putSrc 33 { st := .pending }).putSrc 34 { st := .held }).putSrc 35 { st := .active }).putCore 1
    { stack := [(40, 0x20), (35, 0x60)] }

theorem witness_PendingBitsAndMasks :
    (st 7 1 [] sources).Awake 7 ∧ ((0xF : Nat).testBit (35 % 32) = true ∧ 35 / 32 = 1) ∧
    (((st 7 1 [] sources).enter 7).dev.src 32).st = .idle ∧ (((st 7 1 [] sources).enter 7).dev.src 33).st = .pending ∧
    (((st 7 1 [] sources).enter 7).dev.src 34).st = .held ∧ (((st 7 1 [] sources).enter 7).dev.src 35).st = .active ∧
    ((st 7 1 [] sources).enter 7).dev.keepFails .srcMask (32 * 31 + 31) 1 [] = 0 := by
  delta State.Awake; decide +kernel

theorem witness_FiringsClaimsAndArming :
    ((st 7 1 [(.lcState, 0, 131)]).enter 7).dev.quarantine = true ∧ (st 7 1 [(.lcState, 0, 131)]).Awake 7 ∧
    ((st 7 1 []).enter 7).dev.quarantine = false ∧
    (st 7 1 []).Awake 7 ∧ (st 8 1 []).Awake 8 ∧
    ((((st 8 1 []).enter 8).run fun e d => d.passOnce e.now).dev.core 3).presented = none ∧
    ((((st 8 1 [(.srcTargets, 33, 8), (.srcMask, 33, 0)] sources).enter 8).run fun e d => d.passOnce e.now).dev.core 3).presented
      = some 33 := by
  delta State.Awake; decide +kernel

theorem witness_CompletionsLeaveTheStack :
    (st 7 1 [] sources).Awake 7 ∧ (∃ p ∈ (((st 7 1 [] sources).enter 7).dev.core 1).stack, p.1 = 35) ∧
    (∀ p ∈ (((st 7 1 [] sources).enter 7).dev.core 3).stack, p.1 ≠ 35) := by
  delta State.Awake; decide +kernel

/-- Group 2 holds source 34 since tick 10, with `cg_count` 2 and `cg_time` 8. -/
def holding (t firings : Nat) : State := st 8 t [(.cgCount, 2, 2), (.cgTime, 2, 8), (.srcCgroup, 34, 2)] fun d =>
  { (d.putSrc 34 { st := .held }) with ink := { (d.putSrc 34 { st := .held }).ink with holds := [(2, ⟨10, firings⟩)] } }

theorem witness_HoldsReleaseWhenDue :
    (holding 11 1).Awake 8 ∧ ((holding 11 1).enter 8).dev.ink.holds.find 3 = none ∧
    ((holding 11 1).enter 8).dev.ink.holds.find 2 = some ⟨10, 1⟩ ∧ ((holding 11 1).enter 8).clk.elapsed < 10 + 8 ∧
    ((holding 18 1).enter 8).dev.g .cgTime 2 + 10 ≤ ((holding 18 1).enter 8).clk.elapsed ∧
    ((holding 11 2).enter 8).dev.g .cgCount 2 ≤ 2 ∧ (((holding 11 2).enter 8).dev.src 34).st = .held ∧
    ((holding 11 2).enter 8).dev.g .srcCgroup 34 = 2 := by
  delta State.Awake; decide +kernel

theorem witness_FlagBitsFireTheirSource :
    Obj.arrEventFlags.info.ty.width = 32 ∧ 2 ^ 31 < 2 ^ 32 ∧ flagSource .arrEventFlags 255 = some 0x1FF ∧
    Obj.arrEventFlags ≠ .krEventFlags ∧ (31 : Nat) < 32 := by decide

/-! ## Hypotheses are met: lanes, heads, engines, DRAM -/

/-- Ethernet lane 7 in a state, under no test, with a number of starts behind it. -/
def lane7 (r t state starts : Nat) : State := st r t [(.laneProto, 7, 1), (.laneState, 7, state)] fun d =>
  d.putLane 7 { d.lane 7 with starts := starts, last := 1 }

theorem witness_LaneAttemptsAndRecalibration :
    (lane7 9 400001 1 5).Awake 9 ∧ ((lane7 9 400001 1 5).enter 9).dev.g .laneProto 7 = 1 ∧
    ((lane7 9 400001 1 5).enter 9).dev.g .laneState 7 = 1 ∧
    (((lane7 9 400001 1 5).enter 9).dev.lane 7).last + 400000 ≤ ((lane7 9 400001 1 5).enter 9).clk.elapsed ∧
    (((lane7 9 400001 1 5).enter 9).dev.lane 7).starts = 5 ∧
    ¬((((lane7 9 400000 1 5).enter 9).dev.lane 7).last + 400000 ≤ ((lane7 9 400000 1 5).enter 9).clk.elapsed) ∧
    ((lane7 9 400001 3 5).enter 9).dev.g .laneState 7 = 3 ∧ (((lane7 9 400001 1 4).enter 9).dev.lane 7).starts ≠ 5 ∧
    (lane7 7 1 2 0).Awake 7 ∧ ((lane7 7 1 2 0).enter 7).dev.g .laneState 7 = 2 ∧
    ((lane7 7 1 1 0).enter 7).dev.g .laneState 7 ≠ 2 ∧ ((lane7 9 2 5 1).enter 9).dev.g .laneState 7 = 5 ∧
    (((lane7 9 2 5 1).enter 9).dev.lane 7).last < ((lane7 9 2 5 1).enter 9).clk.elapsed ∧
    ¬((((lane7 9 1 5 1).enter 9).dev.lane 7).last < ((lane7 9 1 5 1).enter 9).clk.elapsed) := by
  delta State.Awake; decide +kernel

theorem witness_LaneReachesUpAndLosesIt :
    (lane7 9 1 3 0).Awake 9 ∧ ((lane7 9 1 3 0).enter 9).dev.g .laneProto 7 = 1 ∧
    ((lane7 9 1 3 0).enter 9).dev.g .laneState 7 = 3 ∧ ((lane7 9 1 1 0).enter 9).dev.g .laneState 7 = 1 ∧
    ((lane7 9 1 5 0).enter 9).dev.g .laneState 7 = 5 ∧ ((lane7 9 1 2 0).enter 9).dev.g .laneState 7 = 2 ∧
    (((lane7 9 320001 3 0).enter 9).dev.lane 7).last < ((lane7 9 320001 3 0).enter 9).clk.elapsed ∧
    ((lane7 9 320001 3 0).enter 9).clk.elapsed ≤ (((lane7 9 320001 3 0).enter 9).dev.lane 7).last + 320000 ∧
    ¬(((lane7 9 320002 3 0).enter 9).clk.elapsed ≤ (((lane7 9 320002 3 0).enter 9).dev.lane 7).last + 320000) := by
  delta State.Awake; decide +kernel

/-- Quad 1, whose lanes are 4 to 7, with its PLL locked or not and lane 4 in near-end loop. -/
def quad1 (lock : Nat) : State := st 9 1 [(.laneProto, 7, 1), (.laneState, 7, 2), (.laneLoop, 4, 1)] fun d =>
  d.putReg 0x84000 lock

theorem witness_QuadPllMovesItsLanes :
    (quad1 1).Awake 9 ∧ ((quad1 1).enter 9).dev.reg (0x80000 + 0x4000 * 1) = 1 ∧
    ((quad1 0).enter 9).dev.reg (0x80000 + 0x4000 * 1) ≠ 1 ∧ ((quad1 0).enter 9).dev.stopped = false ∧
    ((quad1 0).enter 9).dev.laneTested 4 = true ∧ ((quad1 0).enter 9).dev.laneTested 7 = false ∧
    ((quad1 0).enter 9).dev.g .laneProto 7 ≠ 0 ∧ ((quad1 1).enter 9).dev.g .laneState 7 ≠ 6 ∧ 7 / 4 = 1 ∧ (11 : Nat) < 12 := by
  delta State.Awake; decide +kernel

theorem witness_EqualiserFreezesAndReadapts :
    (lane7 9 40000000 2 0).Awake 9 ∧ ((lane7 9 40000000 2 0).enter 9).dev.g .laneProto 7 = 1 ∧
    ((lane7 9 40000000 2 0).enter 9).dev.g .laneState 7 = 2 ∧
    (((lane7 9 40000000 2 0).enter 9).dev.lane 7).frozen = false ∧
    (((lane7 9 40000000 2 0).enter 9).dev.lane 7).adapted + 40000000 ≤ ((lane7 9 40000000 2 0).enter 9).clk.elapsed ∧
    ¬((((lane7 9 39999999 2 0).enter 9).dev.lane 7).adapted + 40000000 ≤ ((lane7 9 39999999 2 0).enter 9).clk.elapsed) ∧
    (((lane7 9 40000000 2 0).enter 9).dev.lane 7).ctle ≤ 15 ∧
    (∀ x ∈ (((lane7 9 40000000 2 0).enter 9).dev.lane 7).dfe, -128 ≤ x ∧ x ≤ 127) := by
  delta State.Awake; decide +kernel

/-- Lane 7 in TEST behind a loop, its quad locked, its checker locked or not. -/
def tested (r test loop : Nat) (locked : Bool) : State :=
  st r 1 [(.laneState, 7, 4), (.laneTest, 7, test), (.laneLoop, 7, loop), (.lanePattern, 7, 5)] fun d =>
    (d.putReg 0x84000 1).putLane 7 { d.lane 7 with locked := locked }

theorem witness_LaneTestsAndCheckers :
    (tested 7 3 1 true).Awake 7 ∧ ((tested 7 3 1 true).enter 7).dev.keepFails .laneTest 7 3 [] = 0 ∧
    ((tested 7 3 1 true).enter 7).dev.keepFails .laneLoop 7 1 [] = 0 ∧
    ((tested 7 3 1 true).enter 7).dev.reg (0x80000 + 0x4000 * (7 / 4)) = 1 ∧
    ((tested 7 3 1 true).enter 7).dev.g .laneState 7 ≠ 6 ∧
    ((tested 7 3 1 true).enter 7).dev.keepFails .laneInject 7 1 [] = 0 ∧
    ((tested 7 3 1 true).enter 7).dev.g .laneLoop 7 = 1 ∧ ((tested 7 3 1 true).enter 7).dev.g .laneTest 7 = 3 ∧
    (((tested 7 3 1 true).enter 7).dev.lane 7).locked = true ∧ (((tested 7 3 1 true).enter 7).dev.lane 7).erred = false ∧
    ((tested 7 3 0 true).enter 7).dev.g .laneLoop 7 = 0 ∧
    (tested 9 2 3 true).Awake 9 ∧ ((tested 9 2 3 true).enter 9).dev.g .laneState 7 = 4 ∧
    (((tested 9 2 3 true).enter 9).dev.g .laneTest 7).testBit 1 = true ∧
    (((tested 9 1 3 true).enter 9).dev.g .laneTest 7).testBit 1 = false ∧
    (((tested 9 1 3 false).enter 9).dev.lane 7).locked = false ∧ ((tested 9 2 3 true).enter 9).dev.g .laneLoop 7 = 3 := by
  delta State.Awake; decide +kernel

theorem witness_AcceptedWritesPassTheChecks :
    (st 7 1 []).Awake 7 ∧ Instr.objectWritten (.laneTest 47 4) = some (.laneTest, 47, 4) ∧
    Obj.rangeFails .laneTest 4 ≠ 0 ∧ Obj.rangeFails .laneTest 3 = 0 ∧
    ((st 7 1 []).enter 7).dev.ownCode 3 .laneTest 47 3 = 0 ∧ ((st 7 1 []).enter 7).dev.keepFails .laneTest 47 3 [] = 0 ∧
    Instr.objectWritten (.ptpEnable true) = some (.ptpEnable, 0, 1) ∧ Obj.rangeFails .ptpEnable 1 = 0 ∧
    ((st 7 1 [(.nvProtect, 0, 1)]).enter 7).dev.keepFails .ptpEnable 0 1 [] ≠ 0 ∧
    Obj.laneTest.isTest = true := by
  delta State.Awake; decide +kernel

/-- Head 3, HPD high or low, in a state; departure 9 is bound to it or not; its partner absent since a tick. -/
def head3 (r t hpd state : Nat) (bound : Bool) (absent : Option Nat) : State :=
  st r t ([(.headHpd, 3, hpd), (.headState, 3, state)] ++ (if bound then [(.depBind, 9, 2), (.depHead, 9, 3), (.depState, 9, 2)] else []))
    fun d => d.putHead 3 { d.head 3 with absent := absent, poll := 1, failed := 1 }

theorem witness_HeadsFollowTheirPartner :
    (head3 9 8000 1 3 true none).Awake 9 ∧
    (((head3 9 8000 1 3 true none).enter 9).dev.head 3).hpdAt + 8000 ≤ ((head3 9 8000 1 3 true none).enter 9).clk.elapsed ∧
    ¬((((head3 9 7999 1 3 true none).enter 9).dev.head 3).hpdAt + 8000 ≤ ((head3 9 7999 1 3 true none).enter 9).clk.elapsed) ∧
    ((head3 9 1 0 1 true none).enter 9).dev.on .headHpd 3 = false ∧
    ((head3 9 1 1 3 true none).enter 9).dev.on .headHpd 3 = true ∧ ((head3 9 1 1 3 true none).enter 9).dev.g .headState 3 = 3 ∧
    ((head3 9 1 1 0 false none).enter 9).dev.g .headState 3 = 0 ∧
    ((head3 9 1 0 1 true none).enter 9).dev.blob .headEdid 3 ≠ [1#8] ∧
    (((head3 9 1 1 2 true none).enter 9).dev.head 3).absent = none ∧
    ((head3 9 1 1 2 true none).enter 9).dev.g .headState 3 ≠ 3 ∧
    (((head3 9 2000004 1 2 true (some 5)).enter 9).dev.head 3).absent = some 5 ∧
    ((head3 9 2000004 1 2 true (some 5)).enter 9).clk.elapsed < 5 + 2000000 ∧
    5 + 2000000 ≤ ((head3 9 2000005 1 2 true (some 5)).enter 9).clk.elapsed ∧
    (((head3 9 400001 1 2 true (some 5)).enter 9).dev.head 3).poll + 400000 ≤ ((head3 9 400001 1 2 true (some 5)).enter 9).clk.elapsed ∧
    ((head3 9 400000 1 2 true (some 5)).enter 9).clk.elapsed < (((head3 9 400000 1 2 true (some 5)).enter 9).dev.head 3).poll + 400000
    := by
  delta State.Awake; decide +kernel

/-- Head 3 with a partner of four lanes at the highest rate. -/
def trained (r t state cand : Nat) : State :=
  let s := head3 r t 1 state true none
  State.become s ((s.dev.putBlob .headDpcdCaps 3 [0x14#8, 0x1E#8, 0xC4#8]).putHead 3
    { s.dev.head 3 with cand := cand })

theorem witness_HeadsTrainTheirLink :
    (trained 9 1 2 0).Awake 9 ∧ ((trained 9 1 2 0).enter 9).dev.headOwner 3 = some 9 ∧
    ((trained 9 1 2 0).enter 9).dev.g .headState 3 = 2 ∧ (((trained 9 1 2 0).enter 9).dev.head 3).absent = none ∧
    ((st 9 1 []).enter 9).dev.headOwner 3 = none ∧
    ((trained 9 4000001 5 0).enter 9).dev.g .headState 3 = 5 ∧
    (((trained 9 4000001 5 0).enter 9).dev.head 3).failed + 4000000 ≤ ((trained 9 4000001 5 0).enter 9).clk.elapsed ∧
    ((head3 9 4000001 1 5 true none).enter 9).dev.headOwner 3 = some 9 ∧
    ((head3 9 4000001 1 5 true none).enter 9).dev.candidates 3 9 = [] ∧
    ((trained 9 1 3 0).enter 9).dev.on .headHpd 3 = true ∧ (trained 7 1 3 0).Awake 7 ∧
    ((trained 9 1 2 0).enter 9).dev.candidates 3 9 ≠ [] ∧
    0 + 1 < (((trained 9 1 2 0).enter 9).dev.candidates 3 9).length ∧
    (((trained 9 1 2 0).enter 9).dev.candidates 3 9).length ≤ (((trained 9 1 2 99).enter 9).dev.head 3).cand + 1 := by
  delta State.Awake; decide +kernel

/-- A partner that shows all four lanes locked, and one that has lost lane 3. -/
theorem witness_HeadsTrainTheirLink_pulses :
    (((trained 9 1000 3 0).enter 9).dev.head 3).hpdAt + 1000 ≤ ((trained 9 1000 3 0).enter 9).clk.elapsed ∧
    ¬((((trained 9 999 3 0).enter 9).dev.head 3).hpdAt + 1000 ≤ ((trained 9 999 3 0).enter 9).clk.elapsed) ∧
    linkHolds 4 [0, 0, 0x77, 0x77, 1, 0] = true ∧ linkHolds 4 [0, 0, 0x77, 0x07, 1, 0] = false ∧
    ((trained 9 1000 5 0).enter 9).dev.g .headState 3 = 5 ∧ ((trained 9 1000 5 0).enter 9).dev.headOwner 3 = some 9 ∧
    ((trained 9 1000 5 0).enter 9).dev.candidates 3 9 ≠ [] := by decide +kernel

/-- Engine 23 in a state, with a self-test running or not, beside the spare. -/
def engine23 (r t state : Nat) (run : Bool) : State := st r t [(.engState, 23, state), (.depBind, 4, 1), (.depEngine, 4, 23), (.depState, 4, 2)] fun d =>
  if run then { d with test := { d.test with engRun := [(23, 7)] } } else d

/-- The same with the spare RETIRED; and the spare active, departure 4 on its way to it. -/
def lastEngine : State := st 3 9 [(.depBind, 4, 1), (.depEngine, 4, 23), (.depState, 4, 2), (.engState, 24, 1)]
def spare : State := st 3 9 [(.engState, 24, 4), (.engState, 23, 1), (.depBind, 4, 1), (.depEngine, 4, 23), (.depState, 4, 2)] fun d =>
  d.putDep 4 { d.dep 4 with moveTo := some 24 }

theorem witness_EngineFaultsRetireTheEngine :
    ((engine23 3 9 0 true).ordered 3 0x097).Running 3 ∧ (met (engine23 3 9 1 false) 3 0x097).dev.g .engState 23 = 1 ∧
    (met (engine23 3 9 2 false) 3 0x097).dev.g .engState 23 = 2 ∧ (met (engine23 3 9 0 true) 3 0x097).dev.g .engState 23 = 0 ∧
    (met (engine23 3 9 0 true) 3 0x097).dev.g .engState 24 = 3 ∧ (met (engine23 3 9 0 true) 3 0x097).dev.served 23 ≠ [] ∧
    (met (engine23 3 9 0 true) 3 0x097).dev.test.engRun.find 23 ≠ none ∧
    (met (engine23 3 9 0 false) 3 0x097).dev.test.engRun.find 23 = none ∧
    (met lastEngine 3 0x097).dev.g .engState 24 = 1 ∧ 4 ∈ (met lastEngine 3 0x097).dev.served 23 ∧
    (met lastEngine 3 0x097).dev.g .depState 4 = 2 ∧ (spare.ordered 3 0x098).Running 3 ∧
    (met spare 3 0x098).dev.g .engState 24 = 4 ∧ ((met spare 3 0x098).dev.dep 4).moveTo = some 24 ∧
    (met spare 3 0x098).dev.g .depState 4 = 2 := by
  delta State.Running; decide +kernel

/-- Codec engine 23 in a state, with a self-test running or not. -/
def codec23 (r t state : Nat) (run : Bool) : State := st r t [(.cdcState, 23, state)] fun d =>
  if run then { d with test := { d.test with cdcRun := [(23, 7)] } } else d

theorem witness_EnginesAreReadmitted :
    (engine23 7 9 1 false).Awake 7 ∧ ((engine23 7 9 1 false).enter 7).dev.keepFails .engReadmit 0 23 [] = 0 ∧
    ((engine23 7 9 0 false).enter 7).dev.g .engState 23 ≠ 1 ∧ ((engine23 7 9 1 false).enter 7).dev.g .engState 23 = 1 ∧
    ((codec23 7 9 1 false).enter 7).dev.keepFails .cdcReadmit 0 23 [] = 0 ∧
    ((codec23 7 9 1 false).enter 7).dev.g .cdcState 23 = 1 ∧ ((codec23 7 9 0 false).enter 7).dev.g .cdcState 23 ≠ 1 ∧
    (engine23 9 9 2 false).Awake 9 ∧ ((engine23 9 9 2 false).enter 9).dev.g .engState 23 = 2 ∧
    ((codec23 9 9 2 false).enter 9).dev.g .cdcState 23 = 2 ∧ ((codec23 9 9 0 false).enter 9).dev.g .cdcState 23 ≠ 2 ∧
    ((st 9 9 [(.engState, 24, 2)]).enter 9).dev.g .engState 24 = 2 ∧
    (∀ k < 24, ((st 9 9 [(.engState, 24, 2)]).enter 9).dev.g .engState k ≠ 1) := by
  delta State.Awake; decide +kernel

theorem witness_CodecFaultsReleaseTheStreams :
    ((codec23 3 9 0 true).ordered 3 0x0B7).Running 3 ∧ (met (codec23 3 9 0 true) 3 0x0B7).dev.g .cdcState 23 = 0 ∧
    (met (codec23 3 9 1 false) 3 0x0B7).dev.g .cdcState 23 = 1 ∧ (met (codec23 3 9 2 false) 3 0x0B7).dev.g .cdcState 23 = 2 ∧
    (met (codec23 3 9 0 true) 3 0x0B7).dev.test.cdcRun.find 23 ≠ none ∧
    (met (codec23 3 9 0 false) 3 0x0B7).dev.test.cdcRun.find 23 = none := by
  delta State.Running; decide +kernel

theorem witness_BackgroundTestsRunInTheirSlots :
    (engine23 9 200007 0 true).Running 9 ∧ ((engine23 9 200007 0 true).enter 9).dev.test.engRun.find 23 = some 7 ∧
    7 + 200000 ≤ ((engine23 9 200007 0 true).enter 9).clk.elapsed ∧ ((engine23 9 200006 0 true).enter 9).clk.elapsed < 7 + 200000 ∧
    ((codec23 9 200007 0 true).enter 9).dev.test.cdcRun.find 23 = some 7 ∧
    ((engine23 9 8000000 0 false).enter 9).dev.bistDue ((engine23 9 8000000 0 false).enter 9).clk.elapsed 23 25
      (((engine23 9 8000000 0 false).enter 9).dev.test.engLast.find 23) = true ∧
    ((codec23 9 8000000 0 false).enter 9).dev.bistDue ((codec23 9 8000000 0 false).enter 9).clk.elapsed 23 24
      (((codec23 9 8000000 0 false).enter 9).dev.test.cdcLast.find 23) = true ∧
    ((st 9 1 []).enter 9).dev.bus.older.getD 85 0 = 0 ∧
    0 < ((st 9 1 [] fun d => { d with bus := { d.bus with older := [(85, 1)] } }).enter 9).dev.bus.older.getD 85 0 := by
  delta State.Running; decide +kernel

theorem witness_ForcedFaultsRegisterInTheNextTick :
    (engine23 7 9 0 false).Awake 7 ∧ ((engine23 7 9 0 false).enter 7).dev.keepFails .bistForceFault 0 0x97 [] = 0 ∧
    ((engine23 7 9 0 false).enter 7).dev.g .engState 23 = 0 ∧ ((engine23 7 9 1 false).enter 7).dev.g .engState 23 = 1 ∧
    ((codec23 7 9 0 false).enter 7).dev.g .cdcState (0x97 - 0x80) = 0 ∧
    ((codec23 7 9 1 false).enter 7).dev.g .cdcState (0x97 - 0x80) ≠ 0 ∧
    ({ test := { forced := [(0x97, 10)] } } : Dev).test.forced = [(0x97, 9 + 1)] := by
  delta State.Awake; decide +kernel

/-- Perturbation slot 7 with a kind, a lifetime of 100 ticks and a state, armed at tick 1; group 5 has one line of blanking. -/
def slot7 (t kind state : Nat) : State :=
  st 7 t [(.ptKind, 7, kind), (.ptTarget, 7, 5), (.ptAmount, 7, 1), (.tgActiveLines, 5, 1124), (.ptLifetime, 7, 100), (.ptState, 7, state)] fun d =>
    { d with test := { d.test with armed := [(7, 1)] } }

theorem witness_PerturbationSlots :
    (slot7 9 1 0).Awake 7 ∧ ((slot7 9 1 0).enter 7).dev.keepFails .ptGo 7 1 [] = 0 ∧
    ((slot7 9 1 1).enter 7).dev.g .ptState 7 = 1 ∧ ((slot7 9 1 0).enter 7).dev.g .ptState 7 ≠ 1 ∧
    4 < ((slot7 9 5 0).enter 7).dev.g .ptKind 7 ∧ ((slot7 9 3 0).enter 7).dev.ptRangeOk 7 = true ∧
    ((slot7 9 3 0).enter 7).dev.skewLimit 5 < ((slot7 9 3 0).enter 7).dev.g .ptAmount 7 ∧
    ((slot7 9 1 0).enter 7).dev.ptRangeOk 7 = true ∧ ((slot7 9 1 0).enter 7).dev.g .ptKind 7 ≠ 3 ∧
    ((slot7 9 1 0).enter 7).dev.keepFails .ptGo 7 2 [] = 0 ∧
    ((slot7 101 1 1).enter 7).dev.test.armed.getD 7 0 + ((slot7 101 1 1).enter 7).dev.g .ptLifetime 7
      ≤ ((slot7 101 1 1).enter 7).clk.elapsed ∧
    ((slot7 100 1 1).enter 7).clk.elapsed < ((slot7 100 1 1).enter 7).dev.test.armed.getD 7 0
      + ((slot7 100 1 1).enter 7).dev.g .ptLifetime 7 := by
  delta State.Awake; decide +kernel

/-- DRAM channel 7 in a state, trained or not; parts of a 16 GiB memory where asked. -/
def channel7 (r state cap : Nat) (trained : Bool) : State := st r 9 [(.dchState, 7, state), (.dramCapMib, 0, cap)] fun d =>
  { d with dram := { d.dram with trained := [(7, trained)] } }

/-- The same with every other channel EVACUATED, and one in training during step 5 of start-up. -/
def full7 : State := st 7 9 ((.dramCapMib, 0, 4096) :: (List.range 7).map fun k => (.dchState, k, 2))
def starting7 : State := st 9 9 [(.dchState, 7, 3)] fun d => { d with pwr := { d.pwr with began := [(5, 1)] } }

theorem witness_ChannelsEvacuateTrainAndReturn :
    (channel7 7 0 0 false).Awake 7 ∧ ((channel7 7 1 0 false).enter 7).dev.g .dchState 7 ≠ 0 ∧
    ((channel7 7 0 0 false).enter 7).dev.g .dchState 7 = 0 ∧ ((channel7 7 0 0 false).enter 7).dev.evacuateCode 7 = 0 ∧
    ((channel7 7 0 0 false).enter 7).dev.usedOn (takenMasks ((channel7 7 0 0 false).enter 7).dev.dram.allocs) 7 = [] ∧
    ((channel7 7 0 4096 false).enter 7).dev.usedOn (takenMasks ((channel7 7 0 4096 false).enter 7).dev.dram.allocs) 7 ≠ [] ∧
    ((((full7.enter 7).dev.otherChannels 7).map fun k => ((full7.enter 7).dev.freeOn
      (takenMasks (full7.enter 7).dev.dram.allocs) k).length).sum
        < ((full7.enter 7).dev.usedOn (takenMasks (full7.enter 7).dev.dram.allocs) 7).length) ∧
    ((st 7 9 [(.roomUsed, 0, 4294967295)]).enter 7).dev.g .dchState 7 = 0 ∧
    (((st 7 9 [(.roomUsed, 0, 4294967295)]).enter 7).dev.put .dchState 7 1).roomPoolBytes
      < ((st 7 9 [(.roomUsed, 0, 4294967295)]).enter 7).dev.g .roomUsed ∧
    ((channel7 7 2 0 true).enter 7).dev.g .dchState 7 = 2 ∧ ((channel7 7 4 0 true).enter 7).dev.g .dchState 7 = 4 ∧
    ((channel7 7 2 0 true).enter 7).dev.dram.trained.getD 7 false = true ∧
    (channel7 9 3 0 false).Awake 9 ∧ ((channel7 9 3 0 false).enter 9).dev.g .dchState 7 = 3 ∧
    ((channel7 9 3 0 false).enter 9).dev.startTraining = false ∧ (starting7.enter 9).dev.startTraining = true ∧
    (starting7.enter 9).dev.g .dchState 7 = 3 := by
  delta State.Awake; decide +kernel

/-- Channel 7 EVACUATING with stripes left, one of them on its way to a slot. -/
def moving7 (left : List Nat) : State := st 9 64009 [(.dchState, 7, 1)] fun d =>
  { d with dram := { d.dram with left := [(7, left)], moving := [(7, ⟨15, 2, 40, 64009⟩)], mr4 := [(7, (3, 9))] } }

theorem witness_StripesLoopsAndScrubbing :
    (moving7 [15]).Awake 9 ∧ (⟨15, 2, 40, 64009⟩ : Moving).due ≤ (((moving7 [15]).enter 9).clk.elapsed : Rat) ∧
    (((moving7 [15]).enter 9).clk.elapsed : Rat) < (⟨15, 2, 40, 64010⟩ : Moving).due ∧ ((moving7 [15]).enter 9).dev.g .dchState 7 = 1 ∧
    ((moving7 [15]).enter 9).dev.dram.moving.find 7 = some ⟨15, 2, 40, 64009⟩ ∧ ((moving7 [15]).enter 9).dev.dram.left.getD 7 [] = [15] ∧
    ((moving7 [15, 23]).enter 9).dev.dram.left.getD 7 [] = [15, 23] ∧
    (channel7 7 2 0 true).Awake 7 ∧ ((channel7 7 2 0 true).enter 7).dev.keepFails .dchLoop 7 3 [] = 0 ∧
    ((channel7 7 0 0 true).enter 7).dev.g .dchState 7 ≠ 2 ∧ ((channel7 7 0 0 true).enter 7).dev.g .dchState 7 ≠ 4 ∧
    ((moving7 [15]).enter 9).dev.dram.mr4.find 7 = some (3, 9) ∧ 9 + 64000 ≤ ((moving7 [15]).enter 9).clk.elapsed ∧
    ((moving7 [15]).enter 9).dev.dram.mr4.find 6 = none := by
  delta State.Awake; decide +kernel

/-! ## Hypotheses are met: Ethernet -/

/-- MAC 23 with its link UP, its SecY enabled or not, on a block with arrival 255 of kind 1. -/
def mac23 (r : Nat) (sec : Nat) (xs : List (Obj × Nat × Nat)) (f : Dev → Dev := id) : State :=
  st r 240000009 ([(.ethLink, 23, 1), (.msEnable, 23, sec), (.arrKind, 255, 1), (.arrMac, 255, 23), (.arrDstIp, 255, 7),
    (.arrUdpPort, 255, 5004), (.arrPt, 255, 96)] ++ xs) f

def frame (len : Nat) (body : EthBody) : EthFrame := ⟨len, true, false, none, none, true, body, true⟩
def rtp (ip : Nat) : Rtp := ⟨1, ip, 5004, 96, 0, 0, 0, false, .raw [] false⟩

theorem witness_ReceivePathDropsInOrder :
    (mac23 4 1 []).Awake 4 ∧ ((mac23 4 0 [(.ethLink, 23, 0)]).enter 4).dev.on .ethLink 23 = false ∧
    ((mac23 4 1 []).enter 4).dev.on .ethLink 23 = true ∧ ({ frame 64 .eapol with fcsOk := false } : EthFrame).fcsOk = false ∧
    ((mac23 4 1 []).enter 4).dev.on .ethLoop 23 = false ∧ ((mac23 4 1 [(.ethSpeed, 23, 1)]).enter 4).dev.g .ethSpeed 23 = 1 ∧
    ({ frame 64 .eapol with fecOk := false } : EthFrame).fecOk = false ∧ (frame 64 .eapol).fecOk = true ∧
    ((mac23 4 1 []).enter 4).dev.g .ethMaxFrame 23 < (frame 1523 .ptp).len ∧
    (frame 1522 .ptp).len ≤ ((mac23 4 1 []).enter 4).dev.g .ethMaxFrame 23 ∧ (frame 63 .ptp).len < 64 ∧
    64 ≤ (frame 64 .ptp).len ∧ (frame 64 .other).sec = none ∧ (frame 64 .other).body ≠ .eapol ∧ (frame 64 .other).body ≠ .ptp ∧
    ((mac23 4 1 []).enter 4).dev.on .msEnable 23 = true ∧ ((mac23 4 0 []).enter 4).dev.on .msEnable 23 = false ∧
    ((mac23 4 1 []).enter 4).dev.rxChannel 23 none = none ∧
    ((List.range 4).map fun k => bitsAt (((mac23 4 0 []).enter 4).dev.g .ethVidRx 23) (16 * k) 16).contains 4094 = false ∧
    (frame 64 .ptp).vid.getD 0 = 0 ∧ ((mac23 4 0 []).enter 4).dev.g .ptpMac ≠ 23 ∧
    ((mac23 4 0 [(.ptpMac, 0, 23)]).enter 4).dev.g .ptpMac = 23 ∧
    ((mac23 4 0 []).enter 4).dev.arrMatch 23 (rtp 8) = none ∧ ((mac23 4 0 []).enter 4).dev.flowMatch 23 (rtp 8) = none ∧
    ((mac23 4 0 []).enter 4).dev.arrMatch 23 (rtp 7) = some (255, false) ∧ ((mac23 4 0 []).enter 4).dev.stopped = false ∧
    (frame 64 (.rtp (rtp 7) false)).body = .rtp (rtp 7) false := by
  delta State.Awake; decide +kernel

/-- A PTP event message as it waits in a queue. -/
def sync : TxFrame := { bytes := 148, ptp := some (7, 0), body := .firmware .ptp false }

/-- MAC 23 with a frame waiting in queue 0, its wire busy or not, and timestamps held. -/
def mac23tx (r link : Nat) (busy : Nat) (q : List TxFrame) (stamps : List (Nat × Nat × Nat)) : State :=
  mac23 r 0 [(.ethLink, 23, link)] fun d =>
    d.putMac 23 { d.mac 23 with busy := busy, queues := [q, [], [], []], stamps := stamps }

def fw : FwFrame := ⟨128, some (7, 0), .ptp, true, false⟩

theorem witness_TransmitQueuesAndTimestamps :
    (mac23tx 9 1 0 [] []).Awake 9 ∧
    ((mac23tx 9 1 60000002500 [] []).enter 9).env.free + 250 ≤ (((mac23tx 9 1 60000002500 [] []).enter 9).dev.mac 23).busy ∧
    ((mac23tx 9 0 60000002500 [] []).enter 9).dev.on .ethLink 23 = false ∧
    ((mac23tx 9 1 60000002500 [] []).enter 9).dev.on .ethLink 23 = true ∧ ({ fw with resolved := false } : FwFrame).resolved = false ∧
    fw.resolved = true ∧ (((mac23tx 9 1 60000002500 [] []).enter 9).dev.mac 23).queues.length = 4 ∧
    ¬(((mac23tx 9 1 60000002499 [] []).enter 9).env.free + 250 ≤ (((mac23tx 9 1 60000002499 [] []).enter 9).dev.mac 23).busy) ∧
    (((mac23tx 9 1 0 [sync] []).enter 9).dev.mac 23).queues.getD 0 [] = sync :: [] ∧
    ((mac23tx 9 1 0 [] []).enter 9).dev.on .msEnable 23 = false ∧
    (((mac23tx 9 1 0 [] [(1, 0, 5)]).enter 9).dev.mac 23).stamps.length < 16 ∧
    (mac23tx 8 1 0 [] []).Awake 8 ∧ (((mac23tx 8 1 0 [] []).enter 8).dev.mac 23).stamps = [] ∧
    (((mac23tx 8 1 0 [] [(0xFFFF, 15, 5)]).enter 8).dev.mac 23).stamps = (0xFFFF, 15, 5) :: [] := by
  delta State.Awake; decide +kernel

/-- MAC 23 with a fault registered at a tick and an ARP entry confirmed at a tick. -/
def mac23arp (fault : Option Nat) (confirmed : Nat) : State := mac23 9 0 [] fun d =>
  d.putMac 23 { d.mac 23 with fault := fault, arp := [(5, (6, confirmed))] }

theorem witness_LinksFollowFaultsAndLoops :
    (mac23arp none 9).Awake 9 ∧ ((mac23arp none 9).enter 9).dev.on .ethLoop 23 = false ∧
    (mac23 9 0 [(.ethLoop, 23, 1)]).Awake 9 ∧ ((mac23 9 0 [(.ethLoop, 23, 1)]).enter 9).dev.on .ethLoop 23 = true ∧
    ((mac23arp none 9).enter 9).dev.on .ethLink 23 = true ∧ (((mac23arp none 9).enter 9).dev.mac 23).fault = none ∧
    (((mac23arp (some 239996010) 9).enter 9).dev.mac 23).fault = some 239996010 ∧
    ((mac23arp none 9).enter 9).clk.elapsed < 239996010 + 4000 ∧ 239996009 + 4000 ≤ ((mac23arp none 9).enter 9).clk.elapsed ∧
    (((mac23arp none 9).enter 9).dev.mac 23).arp.find 4 = none ∧ (((mac23arp none 9).enter 9).dev.mac 23).arp.find 5 = some (6, 9) ∧
    9 + 240000000 ≤ ((mac23arp none 9).enter 9).clk.elapsed ∧ ((mac23arp none 10).enter 9).clk.elapsed < 10 + 240000000 ∧
    (mac23 7 0 []).Awake 7 ∧ ((mac23 7 0 []).enter 7).dev.keepFails .ethLoop 23 1 [] = 0 := by
  delta State.Awake; decide +kernel

/-- MAC 23's associations: transmit 0 IN_USE, transmit 3 in a state, receive channel 191's 3 in a state since a tick; a
load due at a tick. -/
def mac23sa (r mode tx rx since due : Nat) : State := mac23 r 1 [(.msMode, 23, mode)] fun d =>
  { d with io := { d.io with
      sas := [(92, ⟨2, 1, 5, 0⟩), (95, ⟨tx, 2, 1, 0⟩), (863, ⟨rx, 3, 0, since⟩)], loads := [⟨23, 23, 3, 9, due⟩] } }

theorem witness_SecureAssociationsChangeState :
    (mac23sa 9 2 1 3 0 0).Awake 9 ∧ ((mac23sa 9 2 1 3 0 240000010).enter 9).dev.dueLoad 240000009 23 = none ∧
    ((mac23sa 9 2 1 3 0 240000009).enter 9).dev.dueLoad 240000009 23 = some ⟨23, 23, 3, 9, 240000009⟩ ∧
    ((mac23sa 9 2 1 3 0 0).enter 9).dev.g .krIslandState ≠ 1 ∧
    ((mac23 9 1 [(.krIslandState, 0, 1)]).enter 9).dev.g .krIslandState = 1 ∧
    (((mac23sa 9 2 1 3 0 0).enter 9).dev.sa (24 + 191) 3).st = 3 ∧
    (((mac23sa 9 2 1 3 228000009 0).enter 9).dev.sa (24 + 191) 3).since + ((mac23sa 9 2 1 3 0 0).enter 9).dev.g .msRxOverlap 23 * 4000
      ≤ ((mac23sa 9 2 1 3 228000009 0).enter 9).clk.elapsed ∧
    ¬((((mac23sa 9 2 1 3 228000010 0).enter 9).dev.sa (24 + 191) 3).since + ((mac23sa 9 2 1 3 0 0).enter 9).dev.g .msRxOverlap 23 * 4000
      ≤ ((mac23sa 9 2 1 3 228000010 0).enter 9).clk.elapsed) ∧
    (mac23sa 7 2 1 3 0 0).Awake 7 ∧ (((mac23sa 7 2 1 3 0 0).enter 7).dev.sa 23 3).st = 1 ∧
    ¬((((mac23sa 7 2 0 3 0 0).enter 7).dev.sa 23 3).st = 1 ∨ (((mac23sa 7 2 0 3 0 0).enter 7).dev.sa 23 3).st = 2) ∧
    ((mac23sa 7 2 1 3 0 0).enter 7).dev.g .msTxAn 23 ≠ 3 ∧ ((mac23sa 7 2 1 3 0 0).enter 7).dev.g .msTxAn 23 < 4 ∧
    (((mac23sa 7 2 1 3 0 0).enter 7).dev.sa 23 0).st = 2 ∧ ((mac23sa 7 2 1 3 0 0).enter 7).dev.keepFails .msTxAn 23 3 [] = 0 ∧
    ((mac23sa 7 1 1 3 0 0).enter 7).dev.g .msMode 23 = 1 ∧ ((mac23sa 7 2 1 3 0 0).enter 7).dev.g .msMode 23 ≠ 1 := by
  delta State.Awake; decide +kernel

/-! ## Hypotheses are met: slices, arrivals, frames, packets -/

/-- A frame in progress of two lines of two pixels, begun at a tick, spans of some lines there, going somewhere. -/
def asm (start : Nat) (got : Tab (List (Nat × Nat))) (dest : Dest) : Asm :=
  { start := start, startTb := 0, ts := 0, time := 2 ^ 64, field := 0, dest := dest, pic := { w := 2, h := 2 }, got := got }

/-- Arrival 255 of a kind with a frame in progress. -/
def arr255 (r t kind : Nat) (x : Option Asm) (xs : List (Obj × Nat × Nat)) (f : Dev → Dev := id) : State :=
  st r t ([(.arrKind, 255, kind), (.arrRing, 255, 255), (.arrState, 255, 1)] ++ xs) fun d =>
    f (d.putArr 255 { d.arr 255 with asm := x, starts := [7] })

/-- A codestream of 1,080 lines in slices of 16, its picture header whole, a slice next to decode since tick 1. -/
def tall (next : Nat) : Asm := { asm 0 [] (.room 0) with
  pic := { w := 2, h := 1080 }, sliceLines := some 16, next := next, held := [(next, (1, true))],
  parts := [⟨0, none, true, false, []⟩, ⟨1, some 0, true, true, []⟩] }

/-- Departure 127 composing, a slice of its codestream next to encode since tick 1 on an engine, of a profile. -/
def dep127 (t c profile next : Nat) : State := st 9 t [(.depXsCodec, 127, c), (.depXsProfile, 127, profile)] fun d =>
  d.putDep 127 { d.dep 127 with composing := true, encNext := next, encReady := [(next, 1)] }

/-- Arrival 255 with that codestream on an engine. -/
def coded (t kind c next : Nat) : State := arr255 4 t kind (some (tall next)) [(.arrCodec, 255, c)]

theorem witness_SlicesOfCodestreams :
    (coded 82 2 23 0).Running 4 ∧ ((coded 82 2 23 0).enter 4).dev.workSince (.decode 255) = some 1 ∧
    (((coded 82 2 23 0).enter 4).dev.arr 255).asm = some (tall 0) ∧ ((coded 82 2 23 0).enter 4).dev.g .arrKind 255 = 2 ∧
    ((coded 82 2 23 0).enter 4).dev.g .arrCodec 255 < 24 ∧ (tall 0).sliceLines = some 16 ∧ (tall 67).next = 67 ∧
    67 * 16 < (tall 67).pic.h ∧ (tall 67).pic.h ≤ 67 * 16 + 16 ∧ 66 * 16 + 16 < (tall 66).pic.h ∧
    (tall 67).whole none = true ∧ ((coded 82 2 23 67).enter 4).dev.servesNext 23 1 = true ∧
    (tall 0).held.find 0 = some (1, true) ∧ 1 + 80 < ((coded 82 2 23 0).enter 4).clk.elapsed ∧
    ¬(1 + 80 < ((coded 81 2 23 0).enter 4).clk.elapsed) ∧ ((coded 82 1 23 0).enter 4).dev.g .arrKind 255 ≠ 2 ∧
    ¬(((coded 82 2 24 0).enter 4).dev.g .arrCodec 255 < 24) ∧ (((arr255 4 1 2 none []).enter 4).dev.arr 255).asm = none ∧
    (dep127 82 23 1 67).Running 9 ∧ ((dep127 82 23 1 67).enter 9).dev.workSince (.encode 127) = some 1 ∧
    ((dep127 82 23 1 67).enter 9).dev.g .depXsCodec 127 < 24 ∧ ((dep127 82 23 1 67).enter 9).dev.g .depXsProfile 127 ≠ 0xFF ∧
    67 < ((dep127 82 23 1 67).enter 9).dev.xsSlices 127 ∧ ((dep127 82 23 1 67).enter 9).dev.xsSlices 127 ≤ 68 ∧
    67 = (((dep127 82 23 1 67).enter 9).dev.dep 127).encNext ∧ ((dep127 82 23 1 67).enter 9).dev.servesNext 23 1 = true ∧
    1 + 80 < ((dep127 82 23 1 67).enter 9).clk.elapsed ∧ ¬(((dep127 82 24 1 0).enter 9).dev.g .depXsCodec 127 < 24) := by
  delta State.Running; decide +kernel

/-- The bytes of an injection entry of a 2 × 2 surface of the default sampling and depth, the first byte given. -/
def entry (b : Byte) : List Byte := [b, 0, 0, 0x15] ++ List.replicate 12 0 ++ [64, 0, 0, 2, 2, 0, 2, 0] ++ List.replicate 40 0

/-- Arrival 255 of kind 3, its rooms given, on a ring of the Pantry with an entry there, its first byte given; a take at
a tick, a frame in progress, an entry being taken. -/
def injecting (loc : Nat) (b : Byte) (lastTake : Option Nat) (rooms : List Room) (x : Option Asm) (j : Option Inject)
    (taken : List Taken := []) : State :=
  let s := arr255 4 66668 3 x [] fun d =>
    (d.putArr 255 { d.arr 255 with lastTake := lastTake, inject := j, rooms := rooms, asm := x }).putRing 255
      { st := .enabled, p := 1, c := 0, cached := desc 2 (4096 * loc), taken := taken }
  { s with mem := s.mem.apply ((entry b).zipIdx.map fun x => ⟨.pantry, s.dev.ringPart.1 + x.2, x.1⟩) }

def job (bytes : List Byte) (abandoned : Bool) : Inject := ⟨255, ⟨0, bytes⟩, 0, abandoned⟩

/-- The two ways a take finds its entry: in the Pantry, the bytes there, and in host memory, to be read. -/
theorem witness_ArrivalFramesStartAndStore :
    (injecting 1 1 (some 1) [{}] none none).Running 4 ∧
    (((injecting 1 1 (some 1) [{}] none none).enter 4).dev.g .arrKind 255 = 3 ∧
      (((injecting 1 1 (some 1) [{}] none none).enter 4).dev.arr 255).inject = none ∧
      (((injecting 1 1 (some 1) [{}] none none).enter 4).dev.ring 255).st = .enabled ∧
      (((injecting 1 1 (some 1) [{}] none none).enter 4).dev.ring 255).p ≠
        (((injecting 1 1 (some 1) [{}] none none).enter 4).dev.ring 255).c ∧
      (((injecting 1 1 (some 1) [{}] none none).enter 4).dev.ring 255).taken = [] ∧
      (((injecting 1 1 (some 1) [{}] none none).enter 4).dev.arr 255).lastTake = some 1) ∧
    ((injecting 1 1 (some 1) [{}] none none).enter 4).dev.envPeriod 255 ≤
      ((250 * (((injecting 1 1 (some 1) [{}] none none).enter 4).clk.elapsed - 1) : Nat) : Rat) ∧
    ¬(((injecting 1 1 (some 2) [{}] none none).enter 4).dev.envPeriod 255 ≤
      ((250 * (((injecting 1 1 (some 2) [{}] none none).enter 4).clk.elapsed - 2) : Nat) : Rat)) ∧
    descLoc (((injecting 0 1 (some 1) [{}] none none).enter 4).dev.ring 255).cached = 0 ∧
    descLoc (((injecting 1 1 (some 1) [{}] none none).enter 4).dev.ring 255).cached ≠ 0 ∧
    ((injecting 1 1 (some 1) [{}] none none).enter 4).dev.entryBytes ((injecting 1 1 (some 1) [{}] none none).enter 4).env 255 []
      = entry 1 ∧
    ((injecting 1 1 (some 1) [{}] none none).enter 4).dev.injectBad 255 ⟨0, entry 1⟩ = false ∧
    ((injecting 1 0 (some 1) [{}] none none).enter 4).dev.injectBad 255 ⟨0, entry 0⟩ = true ∧
    (((injecting 1 1 (some 1) [{}] none none).enter 4).dev.arr 255).asm = none ∧
    (((injecting 1 1 (some 1) [{}] none none).enter 4).dev.claimable 255).isSome = true ∧
    (((injecting 1 1 (some 1) [] none none).enter 4).dev.claimable 255).isSome = false ∧
    ((injecting 1 1 (some 1) [] none none).enter 4).dev.g .arrStorage 255 = 0 ∧
    ((arr255 4 1 5 none []).enter 4).dev.g .arrKind 255 ≠ 3 := by
  delta State.Running; decide +kernel

/-- Generated frames, and the entry being taken: abandoned, to be read, of no format, there. -/
theorem witness_ArrivalFramesStartAndStore_ends :
    ((arr255 4 1 4 none []).enter 4).dev.g .arrKind 255 ≠ 5 ∧ (((arr255 4 1 5 none []).enter 4).dev.arr 255).asm = none ∧
    ((arr255 4 1 5 (some (asm 0 [] .skip)) []).enter 4).dev.g .arrKind 255 = 5 ∧
    ((((arr255 4 1 5 (some (asm 0 [] .skip)) []).enter 4).dev.claimDue 255).arr 255).asm = some (asm 0 [] .skip) ∧
    ((((arr255 4 1 5 (some (asm 0 [] (.room 0))) []).enter 4).dev.claimDue 255).arr 255).asm = some (asm 0 [] (.room 0)) ∧
    (asm 0 [] (.room 0)).dest ≠ .skip ∧ (asm 0 [] .skip).dest = .skip ∧
    (((injecting 1 1 none [{}] none (some (job [] true))).enter 4).dev.arr 255).inject = some (job [] true) ∧
    (job [] true).entry.bytes = [] ∧ (job (entry 1) true).entry.bytes ≠ [] ∧ (job (entry 1) true).abandoned = true ∧
    (job (entry 1) false).abandoned = false ∧ injectSurf ⟨0, [1, 0, 0, 0xF]⟩ = none ∧
    (injectSurf (job (entry 1) false).entry).isSome = true ∧
    ((((injecting 1 1 none [{}] (some (asm 0 [] (.room 0))) (some (job (entry 1) false))).enter 4).dev.claimDue 255).arr 255).asm
      = some (asm 0 [] (.room 0)) := by decide +kernel

/-- Arrival 255 with path B UP, silent since a tick. -/
def path255 (lastB : Nat) : State := arr255 4 9000000 1 none [(.arrPathState, 255, 2), (.arrPathTimeout, 255, 1)] fun d =>
  d.putArr 255 { d.arr 255 with lastB := lastB }

theorem witness_ArrivalFramesCloseAndSourcesAreLost :
    (path255 8995999).Running 4 ∧ (((path255 8995999).enter 4).dev.g .arrPathState 255).testBit 1 = true ∧
    (((path255 8995999).enter 4).dev.arr 255).lastB + ((path255 8995999).enter 4).dev.g .arrPathTimeout 255 * 4000
      < ((path255 8995999).enter 4).clk.elapsed ∧
    ¬((((path255 8996000).enter 4).dev.arr 255).lastB + ((path255 8996000).enter 4).dev.g .arrPathTimeout 255 * 4000
      < ((path255 8996000).enter 4).clk.elapsed) ∧
    ((arr255 4 1 4 none []).enter 4).dev.g .arrKind 255 ≠ 1 ∧ ((arr255 4 1 4 none []).enter 4).dev.g .arrKind 255 ≠ 2 ∧
    (arr255 4 100001 1 (some (asm 0 [] (.room 0))) [(.arrConcealMax, 255, 2)]).Running 4 ∧
    ((((arr255 4 100001 1 (some (asm 0 [] (.room 0))) [(.arrConcealMax, 255, 2)]).enter 4).dev.claimDue 255).arr 255).asm
      = some (asm 0 [] (.room 0)) ∧ ¬(1 : Nat) ≥ 2 ∧
    3 / 2 * ((arr255 4 100001 1 none []).enter 4).dev.envPeriod 255 < ((250 * (100001 - 0) : Nat) : Rat) ∧
    ¬(3 / 2 * ((arr255 4 100000 1 none []).enter 4).dev.envPeriod 255 < ((250 * (100000 - 0) : Nat) : Rat)) ∧
    (asm 0 [] (.room 0)).missing + ((asm 0 [] (.room 0)).holes 0 2).length ≤
      ((arr255 4 100001 1 none [(.arrConcealMax, 255, 2)]).enter 4).dev.g .arrConcealMax 255 ∧
    ((arr255 4 100001 1 none [(.arrConcealMax, 255, 1)]).enter 4).dev.g .arrConcealMax 255 <
      (asm 0 [] (.room 0)).missing + ((asm 0 [] (.room 0)).holes 0 2).length ∧
    (asm 0 [] (.room 0)).dest ≠ .skip ∧ (asm 0 [(0, [(0, 2)]), (1, [(0, 2)])] (.room 0)).missing + ((asm 0 [(0, [(0, 2)]), (1, [(0, 2)])] (.room 0)).holes 0 2).length = 0 ∧
    ((arr255 5 133341 1 none []).ordered 5 0x1FF).Running 5 ∧ (met (arr255 5 133341 1 none []) 5 0x1FF).dev.g .arrState 255 = 1 ∧
    ((met (arr255 5 133341 1 none []) 5 0x1FF).dev.arr 255).starts.head? = some 7 ∧
    (met (arr255 5 133341 1 none []) 5 0x1FF).dev.g .arrLossFrames 255 * (met (arr255 5 133341 1 none []) 5 0x1FF).dev.envPeriod 255
      < ((250 * (133341 - 7) : Nat) : Rat) ∧
    ¬((met (arr255 5 133340 1 none []) 5 0x1FF).dev.g .arrLossFrames 255 * (met (arr255 5 133340 1 none []) 5 0x1FF).dev.envPeriod 255
      < ((250 * (133340 - 7) : Nat) : Rat)) ∧ ((st 5 1 []).enter 5).dev.g .arrState 255 = 0 := by
  delta State.Running; decide +kernel

/-- Group 31, free-running, in a frame begun at 0 of 40 ns; departure 127 follows it in a state. -/
def group31 (r t state : Nat) (started committed : Bool) (f : Dev → Dev := id) : State :=
  st r t [(.tgMode, 31, 0), (.depGroup, 127, 31), (.depState, 127, state)] fun d =>
    f (d.putGroup 31 { started := started, start := 0, period := 1000, committed := committed })

theorem witness_FramesStartAndCommit :
    ((group31 6 4 2 true true).ordered 6 1).Awake 6 ∧ ((group31 6 4 2 true false).ordered 6 0).Awake 6 ∧ (31 : Nat) < 32 ∧ ((met (group31 6 4 2 false false) 6 1).dev.group 31).started = false ∧
    ((met (group31 6 4 2 true true) 6 1).dev.group 31).committed = true ∧
    ((met (group31 6 4 2 true true) 6 1).dev.group 31).start + ((met (group31 6 4 2 true true) 6 1).dev.group 31).period
      ≤ (met (group31 6 4 2 true true) 6 1).dev.groupNow (met (group31 6 4 2 true true) 6 1).env 31 ∧
    ¬(((met (group31 6 3 2 true true) 6 1).dev.group 31).start + ((met (group31 6 3 2 true true) 6 1).dev.group 31).period
      ≤ (met (group31 6 3 2 true true) 6 1).dev.groupNow (met (group31 6 3 2 true true) 6 1).env 31) ∧
    (met (group31 6 4 2 true true) 6 1).dev.g .depGroup 127 = 31 ∧ (met (group31 6 4 2 true true) 6 1).dev.g .depState 127 = 2 ∧
    (met (group31 6 4 0 true true) 6 1).dev.g .depState 127 = 0 ∧
    (met (group31 6 4 1 true true) 6 1).dev.g .depState 127 = 1 ∧
    (met (group31 6 4 1 true true fun d => { d with pwr := { d.pwr with ended := [(5, 0)] } }) 6 1).dev.picturesRun = true ∧
    ((met (group31 6 4 2 true false) 6 0).dev.group 31).committed = false ∧
    (met (group31 6 4 2 true false) 6 0).dev.commitInstant 31 + ((250 * (met (group31 6 4 2 true false) 6 0).dev.skew 31 : Nat) : Rat)
      < (met (group31 6 4 2 true false) 6 0).dev.groupNow (met (group31 6 4 2 true false) 6 0).env 31 ∧
    ¬((met (group31 6 3 2 true false) 6 0).dev.commitInstant 31 + ((250 * (met (group31 6 3 2 true false) 6 0).dev.skew 31 : Nat) : Rat)
      < (met (group31 6 3 2 true false) 6 0).dev.groupNow (met (group31 6 3 2 true false) 6 0).env 31) := by
  delta State.Awake; decide +kernel

/-- Departure 127 composing its first line, of origin 20 us, in a state; a frame written back and one captured. -/
def line127 (r t state : Nat) (x : Dest) (bytes : List Byte) : State := group31 r t state true false fun d =>
  ((((d.put .arrKind 255 4).put .arrWbDep 255 127).putArr 255 { d.arr 255 with asm := some (asm 0 [] x) }).putDep 127
    { d.dep 127 with composing := true, origin := 20000, wbPic := some {}, capDone := [(⟨255, 3, 0, 0⟩, {})] }).putRing 255
    { d.ring 255 with taken := [⟨3, bytes⟩] }

theorem witness_LinesJoinTheFrame :
    (line127 9 1 3 .skip [1]).Running 9 ∧ (((line127 9 1 3 .skip [1]).enter 9).dev.dep 127).composing = true ∧
    (((line127 9 1 3 .skip [1]).enter 9).dev.group (((line127 9 1 3 .skip [1]).enter 9).dev.g .depGroup 127)).committed = false ∧
    (((line127 9 1 3 .skip [1]).enter 9).dev.dep 127).raster.length = 0 ∧ 0 < ((line127 9 1 3 .skip [1]).enter 9).dev.g .depHeight 127 ∧
    ((line127 9 1 3 .skip [1]).enter 9).dev.lineTick 127 0 - 80 ≤ (((line127 9 1 3 .skip [1]).enter 9).clk.elapsed : Int) ∧
    ((line127 9 0 3 .skip [1]).enter 9).dev.lineTick 127 0 - 80 ≤ (((line127 9 0 3 .skip [1]).enter 9).clk.elapsed : Int) ∧
    ((line127 9 1 3 .skip [1]).enter 9).dev.g .depState 127 = 3 ∧ ((line127 9 1 2 .skip [1]).enter 9).dev.g .depState 127 ≠ 3 ∧
    (line127 4 1 2 (.room 0) [1]).Running 4 ∧ (((line127 4 1 2 (.room 0) [1]).enter 4).dev.dep 127).wbPic = some {} ∧
    (((group31 4 1 2 true false).enter 4).dev.dep 127).wbPic = none ∧
    ((line127 4 1 2 (.room 0) [1]).enter 4).dev.loopOf 127 = some 255 ∧
    ((((line127 4 1 2 (.room 0) [1]).enter 4).dev.claimDue 255).arr 255).asm = some (asm 0 [] (.room 0)) ∧
    (((group31 9 1 2 true false).enter 9).dev.dep 127).capDone = [] ∧
    (((line127 9 1 2 .skip [1]).enter 9).dev.dep 127).capDone = [(⟨255, 3, 0, 0⟩, {})] ∧
    ((line127 9 1 2 .skip [1]).enter 9).dev.capEntry ⟨255, 3, 0, 0⟩ = some ⟨3, [1]⟩ ∧
    ((line127 9 1 2 .skip []).enter 9).dev.capEntry ⟨255, 3, 0, 0⟩ = some ⟨3, []⟩ ∧
    ((line127 9 1 2 .skip [1]).enter 9).dev.capEntry ⟨255, 4, 0, 0⟩ = none ∧
    captureSmall (((line127 9 1 2 .skip [1]).enter 9).dev.captureSurf 127 ⟨3, [1]⟩ {}) ⟨3, [1]⟩
      (((line127 9 1 2 .skip [1]).enter 9).dev.captureCount 127 0).2 = false ∧
    captureSmall (((line127 9 1 2 .skip [1]).enter 9).dev.captureSurf 127 ⟨3, [1]⟩ { w := 2 }) ⟨3, [1]⟩
      (((line127 9 1 2 .skip [1]).enter 9).dev.captureCount 127 0).2 = true := by
  delta State.Running; decide +kernel

/-- Departure 127 sending from path A at a tick, its lines composed at a tick, the first packet due at an instant. -/
def sending (t : Nat) (origin : Rat) (lineAt : List Nat) : State := group31 9 t 2 true false fun d =>
  (d.put .depBind 127 1).putDep 127 { d.dep 127 with composing := true, origin := origin, lineAt := lineAt }

theorem witness_PacketsLeaveWhenDueAndReady :
    (sending 4 1000 [3, 4]).Running 9 ∧ ((sending 4 1000 [3, 4]).enter 9).dev.packetLeft 127 = true ∧
    ((sending 4 1000 [3, 4]).enter 9).dev.packetReady 127 0 = some 3 ∧ ((sending 4 1000 []).enter 9).dev.packetReady 127 0 = none ∧
    ((sending 4 1000 [5, 5]).enter 9).dev.packetReady 127 0 = some 5 ∧ ((sending 4 1000 []).enter 9).dev.packetLeft 126 = false ∧
    ((sending 4 1249 [3, 4]).enter 9).dev.packetTick 127 = 4 ∧ ((sending 4 1250 [3, 4]).enter 9).dev.packetTick 127 = 5 ∧
    (((sending 4 1250 [3, 4]).enter 9).dev.dep 127).packet = 0 := by
  delta State.Running; decide +kernel

/-! ## Hypotheses are met: audio, Porter -/

/-- TDM port 15 in a mode and a state, its stamps given, synced with a mask in force. -/
def port15 (r mode state : Nat) (stamps : List Nat) : State :=
  st r 200 [(.tdmMode, 15, mode), (.tdmState, 15, state), (.napPorts, 0, 0x7FFF)] fun d =>
    d.putTdm 15 { d.tdm 15 with synced := true, stamps := stamps, now := { rx := 0x80 }, before := { rx := 0x80 } }

/-- The same with its slots offset by 31 bit clocks, so that slot 7 ends in the interval after its own. -/
def wrapping : State :=
  let s := port15 4 0 2 [150, 100]
  s.become (s.dev.put .tdmSlotOffset 15 31)

/-- PLL 3 in a state with a reference since tick 9. -/
def pll3 (t state ref : Nat) : State := st 9 t [(.pllState, 3, state), (.pllRef, 3, ref)] fun d =>
  { d with audio := { d.audio with plls := [(3, 9)] } }

/-- Tracker 2 in a state, of ASRC channel 127's clocks; the channel feeds destination 0. -/
def tracker2 (state : Nat) : State := st 9 1 [(.dstSrc0, 0, 895)] fun d =>
  { d with audio := { d.audio with trackers := [(2, ⟨d.asrcQuad 127, state, 0⟩)] } }

/-- Stamps of 65 frames, a number of ticks apart. -/
def stamps (step : Nat) : List Nat := (List.range 65).map fun k => 200 - 1 - k * step

theorem witness_AudioPortsAndClocks :
    (port15 4 0 1 []).Running 4 ∧ ((port15 4 0 0 []).enter 4).dev.g .tdmState 15 = 0 ∧
    ((port15 4 0 1 []).enter 4).dev.g .tdmState 15 ≠ 0 ∧ ((port15 4 0 1 []).enter 4).dev.g .tdmMode 15 ≠ 1 ∧
    (((port15 4 0 1 []).enter 4).dev.tdm 15).synced = true ∧ (((port15 4 0 1 []).enter 4).dev.tdm 15).now.loop = 0 ∧
    (((port15 4 0 1 []).enter 4).dev.g .napPorts).testBit 15 = false ∧
    (7 < ((port15 4 0 1 []).enter 4).dev.g .tdmSlots 15 ∧ (((port15 4 0 1 []).enter 4).dev.tdm 15).now.rx.testBit 7 = true) ∧
    ((port15 4 1 2 []).enter 4).dev.g .tdmMode 15 = 1 ∧ ((port15 4 1 2 []).enter 4).dev.g .tdmState 15 = 2 ∧
    ¬((List.replicate 255 1).length = ((port15 4 1 2 []).enter 4).dev.g .tdmFrameLen 15) ∧
    (((port15 4 0 2 [150, 100]).enter 4).dev.tdm 15).slip = 0 ∧ ((port15 4 0 2 [150, 100]).enter 4).dev.slotWraps 15 7 = false ∧
    (wrapping.enter 4).dev.slotWraps 15 7 = true ∧ 2 ≤ ((wrapping.enter 4).dev.tdm 15).stamps.length ∧
    ((wrapping.enter 4).dev.tdm 15).wireBad = false ∧ ((wrapping.enter 4).dev.tdm 15).before.rx.testBit 7 = true ∧
    ((port15 5 1 2 [33]).ordered 5 0x0DF).Running 5 ∧ ((met (port15 5 1 2 [33]) 5 0x0DF).dev.tdm 15).stamps.head? = some 33 ∧
    2000000000 < 250 * ((met (port15 5 1 2 [33]) 5 0x0DF).clk.elapsed - 33) * (met (port15 5 1 2 [33]) 5 0x0DF).dev.g .tdmRate 15 ∧
    ¬(2000000000 < 250 * ((met (port15 5 1 2 [34]) 5 0x0DF).clk.elapsed - 34) * (met (port15 5 1 2 [34]) 5 0x0DF).dev.g .tdmRate 15) ∧
    (met (port15 5 1 2 [34]) 5 0x0DF).dev.tdmOffRate 15 = false ∧ (met (port15 5 1 2 (stamps 3)) 5 0x0DF).dev.tdmOffRate 15 = true ∧
    (pll3 4000009 2 0).Awake 9 ∧ ((pll3 4000009 2 0).enter 9).dev.g .pllState 3 = 2 ∧
    ((pll3 4000009 2 0).enter 9).dev.audio.plls.getD 3 0 + 4000000 ≤ ((pll3 4000009 2 0).enter 9).clk.elapsed ∧
    ¬(((pll3 4000008 2 0).enter 9).dev.audio.plls.getD 3 0 + 4000000 ≤ ((pll3 4000008 2 0).enter 9).clk.elapsed) ∧
    ((pll3 1 3 0x1F).enter 9).dev.g .pllState 3 = 3 ∧ ((pll3 1 3 0x1F).enter 9).dev.g .pllRef 3 ≠ 1 ∧
    ((pll3 1 3 1).enter 9).dev.g .pllRef 3 = 1 ∧ ((pll3 1 4 0).enter 9).dev.g .pllState 3 = 4 ∧
    ((pll3 1 3 0xF).enter 9).dev.g .pllRef 3 < 0x10 ∧ (met (pll3 1 3 0x1F) 5 0x0DF).dev.g .pllRef 3 = 0x10 + 15 ∧
    (met (pll3 1 3 0x1F) 5 0x0DF).dev.g .pllState 3 = 3 ∧
    (tracker2 1).Running 9 ∧
    ((tracker2 1).enter 9).dev.audio.trackers.find 2 = some ⟨((tracker2 1).enter 9).dev.asrcQuad 127, 1, 0⟩ ∧
    ((tracker2 2).enter 9).dev.audio.trackers.find 2 = some ⟨((tracker2 2).enter 9).dev.asrcQuad 127, 2, 0⟩ := by
  delta State.Running State.Awake; decide +kernel

/-- A term of source 5 settled at 0 dB. -/
def settled (seen : Nat) : Term :=
  { slot := 0, src := 5, start := 0, step := 48, len := 48, last := 2 ^ 24,
    gain := some { gain := 0, ducked := false, depth := 0 }, seen := seen }

theorem witness_AudioPortsAndClocks_used : 127 ∈ ((tracker2 1).enter 9).dev.asrcUsed :=
  List.mem_filter.mpr ⟨by decide, List.any_eq_true.mpr ⟨(0, 895),
    List.mem_flatten.mpr ⟨[(0, 895)], List.mem_map.mpr ⟨0, by simp, by decide +kernel⟩, by simp⟩, by decide⟩⟩

/-- Destination 1023 routed from source 5 at 0 dB, settled; destination 1022 unrouted. -/
def routed : State := st 9 2 [(.dstSrc0, 1023, 5)] fun d => d.putDst 1023 { d.dst 1023 with terms := [settled 0] }

/-- Send flow 63 of one network channel, with a number of samples gathered. -/
def send63 (count : Nat) : State := st 9 1 [(.nsEnable, 63, 1), (.nsFirst, 63, 255), (.nsChannels, 63, 1)] fun d =>
  { d with audio := { d.audio with sends := [(63, { seq := 0xFFFF, samples := List.replicate count [0] })] } }

/-- Receive flow 63 of network channel 255 in a state, last heard at tick 5, holding sample 31, its gap begun or not. -/
def recv63 (r t state : Nat) (gap : Bool) (m : Nat) : State :=
  st r t [(.nrEnable, 63, 1), (.nrState, 63, state), (.nrFirst, 63, 255), (.nrChannels, 63, 1), (.nrOffset, 63, 0)] fun d =>
    d.putFlow 63 { d.flow 63 with last := 5, gap := gap, buf := [(m, [1])] }

/-- Destination 1023 ducked by a key of a peak, in a state. -/
def ducked (state peak : Nat) : State := st 9 1 [(.dstDuckKey, 1023, 4), (.dstDuckState, 1023, state)] fun d =>
  d.putDst 1023 { d.dst 1023 with keyPeak := peak }

/-- Head 7 ACTIVE, sending video and eight channels of audio. -/
def sounding : State := st 9 1 [(.headState, 7, 3), (.headAudCh, 7, 8)] fun d => d.putHead 7 { d.head 7 with video := true }

theorem witness_AudioMixesDucksAndPlays :
    routed.Running 9 ∧ (511 : Nat) < 512 ∧ 896 ≤ (896 : Nat) ∧ (routed.enter 9).dev.g .asrcState (895 - 768) ≠ 2 ∧
    ((st 9 1 [(.asrcState, 127, 2)]).enter 9).dev.g .asrcState (895 - 768) = 2 ∧
    ((send63 46).enter 9).dev.on .nsEnable 63 = true ∧
    ((send63 46).enter 9).dev.g .nsFirst 63 + ((send63 46).enter 9).dev.g .nsChannels 63 = 767 - 512 + 1 ∧
    (∀ k, k < 63 → ¬(((send63 46).enter 9).dev.on .nsEnable k = true ∧
      ((send63 46).enter 9).dev.g .nsFirst k + ((send63 46).enter 9).dev.g .nsChannels k = 767 - 512 + 1)) ∧
    (((send63 46).enter 9).dev.audio.sends.getD 63 {}).samples.length + 1 < ((send63 46).enter 9).dev.g .nsPacketSamples 63 ∧
    ((send63 47).enter 9).dev.g .nsPacketSamples 63 ≤ (((send63 47).enter 9).dev.audio.sends.getD 63 {}).samples.length + 1 ∧
    (∀ f, f < 64 → ¬((routed.enter 9).dev.on .nsEnable f = true ∧
      (routed.enter 9).dev.g .nsFirst f + (routed.enter 9).dev.g .nsChannels f = 767 - 512 + 1)) ∧
    ((routed.enter 9).dev.dstInForce 2 1022).srcs = List.replicate 8 0xFFFF ∧ ((routed.enter 9).dev.dst 1022).terms = [] ∧
    ((routed.enter 9).dev.dstInForce 2 1023).srcs = 5 :: List.replicate 7 0xFFFF ∧
    ((routed.enter 9).dev.dstInForce 2 1023).gains.getD 0 0 = 0 ∧ ((routed.enter 9).dev.dstInForce 2 1023).gain = 0 ∧
    ((routed.enter 9).dev.dstInForce 2 1023).mask.testBit 0 = false ∧
    ((routed.enter 9).dev.dst 1023).terms = [settled ((routed.enter 9).dev.srcReturns 5)] ∧
    ((routed.enter 9).dev.dstInForce 2 1023).key = 0xFFFF ∧ ((ducked 0 0).enter 9).dev.dstInForce 1 1023 = ((ducked 0 0).enter 9).dev.dstSet 1023 ∧
    (((ducked 0 0).enter 9).dev.dstInForce 1 1023).key = 4 ∧
    atLeastDb (((ducked 0 0).enter 9).dev.blockPeak ((ducked 0 0).enter 9).env 1023 4) (((ducked 0 0).enter 9).dev.dstInForce 1 1023).thresh = false ∧
    atLeastDb (((ducked 3 (2 ^ 31)).enter 9).dev.blockPeak ((ducked 3 (2 ^ 31)).enter 9).env 1023 4)
      (((ducked 3 (2 ^ 31)).enter 9).dev.dstInForce 1 1023).thresh = true ∧ ((ducked 1 0).enter 9).dev.g .dstDuckState 1023 = 1 ∧
    ((ducked 0 0).enter 9).dev.g .dstDuckState 1023 = 0 ∧ ((ducked 2 0).enter 9).dev.g .dstDuckState 1023 = 2 ∧
    ((ducked 3 0).enter 9).dev.g .dstDuckState 1023 = 3 ∧
    (sounding.enter 9).dev.g .headState 7 = headActive ∧ ((sounding.enter 9).dev.head 7).video = true ∧
    ((959 - 896) / 8 = 7 ∧ 959 % 8 < (sounding.enter 9).dev.g .headAudCh 7) ∧ ¬(959 % 8 < (routed.enter 9).dev.g .headAudCh 7) ∧
    (recv63 9 1 2 false 32).Running 9 ∧ ((recv63 9 1 2 false 32).enter 9).dev.on .nrEnable 63 = true ∧ ((recv63 9 1 2 false 32).enter 9).dev.recvFlow (767 - 512) = some 63 ∧
    ((recv63 9 1 2 false 32).enter 9).dev.g .nrState 63 = 2 ∧
    ((recv63 9 1 2 false 32).enter 9).dev.heldSample 63
      (((recv63 9 1 2 false 32).enter 9).dev.playing ((recv63 9 1 2 false 32).enter 9).env 63 + 32) ≠ none ∧
    ((recv63 9 1 2 true 33).enter 9).dev.heldSample 63
      (((recv63 9 1 2 true 33).enter 9).dev.playing ((recv63 9 1 2 true 33).enter 9).env 63 + 32) = none ∧
    ((recv63 9 1 2 true 33).enter 9).dev.heldSample 63
      (((recv63 9 1 2 true 33).enter 9).dev.playing ((recv63 9 1 2 true 33).enter 9).env 63 + 31) = none ∧
    (((recv63 9 1 2 true 33).enter 9).dev.flow 63).gap = true ∧ (((recv63 9 1 2 false 33).enter 9).dev.flow 63).gap = false ∧
    (routed.enter 9).dev.unitOf 511 = none ∧
    (routed.enter 9).dev.heldSample 0x87 ((routed.enter 9).dev.playing (routed.enter 9).env 0x87 + 32) = none ∧
    ((recv63 5 80005 2 false 0).ordered 5 0x0E0).Running 5 ∧ (met (recv63 5 80005 2 false 0) 5 0x0E0).dev.g .nrState 63 = 2 ∧
    ((met (recv63 5 80005 2 false 0) 5 0x0E0).dev.flow 63).last + 80000 ≤ (met (recv63 5 80005 2 false 0) 5 0x0E0).clk.elapsed ∧
    ¬(((met (recv63 5 80004 2 false 0) 5 0x0E0).dev.flow 63).last + 80000 ≤ (met (recv63 5 80004 2 false 0) 5 0x0E0).clk.elapsed) := by
  delta State.Running; decide +kernel

/-- A Porter entry: operation and flags, and a 2 × 2 linear surface of a height in host memory as its destination. -/
def ptrEntry (op flags h : Byte) : Taken := ⟨3, [op, flags] ++ List.replicate 6 0 ++ List.replicate 8 0 ++ [64, 0, 0, 2, 0x15, 0, h, 0, 2, 0,
  0, 0, 0, 0, 2, 0, 2, 0] ++ List.replicate 40 0⟩

/-- Channel 3 enabled on ring 255 with an entry at its head, in a state, with a job or none; channel 2 writes host
memory from byte 0, or nothing. -/
def chan3 (r state : Nat) (x : List Taken) (j : Option PtrJob) (other : Bool) : State :=
  st r 1 [(.ptrEnable, 3, 1), (.ptrRing, 3, 255), (.ptrState, 3, state)] fun d =>
    ((d.putRing 255 { d.ring 255 with taken := x }).putChan 3 { d.chan 3 with job := j }).putChan 2
      { d.chan 2 with job := if other then some ⟨ptrEntry 2 0 2, [], [], [⟨.host, 0, 1023⟩], 0, 8, 0, 0, none⟩ else none }

/-- The job of that entry with bursts left to move. -/
def moved (bursts : Nat) : PtrJob := ⟨ptrEntry 2 0 2, [], [], [], 0, 8, 1000 * bursts, 1, none⟩

/-- The code the checks of R290 find for the command of an entry, and whether its job conflicts. -/
def checked (s : State) (x : Taken) : Option (Nat × Bool) :=
  (ptrDecode x).map fun p =>
    ((met s 8 3).dev.ptrCode p none, (met s 8 3).dev.ptrConflict 3 ((met s 8 3).dev.ptrJob (met s 8 3).env x p none []).1)

theorem witness_PorterRunsItsCommands :
    ((chan3 8 1 [ptrEntry 2 0 2] none false).ordered 8 3).Running 8 ∧
    ((met (chan3 8 1 [ptrEntry 2 0 2] none false) 8 3).dev.on .ptrEnable 3 = true ∧
      ((met (chan3 8 1 [ptrEntry 2 0 2] none false) 8 3).dev.chan 3).stopped = false ∧
      (met (chan3 8 1 [ptrEntry 2 0 2] none false) 8 3).dev.g .ptrState 3 = 1 ∧
      ((met (chan3 8 1 [ptrEntry 2 0 2] none false) 8 3).dev.chan 3).job = none) ∧
    (met (chan3 8 2 [ptrEntry 2 0 2] none false) 8 3).dev.g .ptrState 3 ≠ 1 ∧ (met (chan3 8 1 [] none false) 8 3).dev.ptrHead 3 = none ∧
    (met (chan3 8 1 [ptrEntry 2 0 2] none false) 8 3).dev.ptrHead 3 = some (ptrEntry 2 0 2) ∧
    entryByte (ptrEntry 2 0 2) 0 = 2 ∧ entryByte (ptrEntry 4 0 2) 0 = 4 ∧ 3 < 4 ∧ ptrDecode (ptrEntry 4 0 2) = none ∧
    ptrDecode (ptrEntry 2 0x40 2) = none ∧ (ptrDecode (ptrEntry 0 0 2)).isSome = true ∧
    checked (chan3 8 1 [ptrEntry 2 0 0] none false) (ptrEntry 2 0 0) = some (0x0238, false) ∧
    checked (chan3 8 1 [ptrEntry 2 0 2] none false) (ptrEntry 2 0 2) = some (0, false) ∧
    checked (chan3 8 1 [ptrEntry 2 0 2] none true) (ptrEntry 2 0 2) = some (0, true) ∧
    ((chan3 8 2 [ptrEntry 2 0 2] none false).ordered 8 7).Running 8 ∧ ((met (chan3 8 2 [ptrEntry 2 0 2] none false) 8 7).dev.chan 3).job = none ∧
    ((met (chan3 8 2 [ptrEntry 2 0 2] (some (moved 0)) false) 8 7).dev.chan 3).job = some (moved 0) ∧
    (met (chan3 8 2 [ptrEntry 2 0 2] (some (moved 0)) false) 8 7).dev.ptrMoved 1 3 = true ∧
    (met (chan3 8 2 [ptrEntry 2 0 2] (some (moved 9)) false) 8 7).dev.ptrMoved 1 3 = false ∧
    (met (chan3 8 2 [ptrEntry 2 0 2] (some (moved 0)) false) 8 7).dev.ptrReads 3 = false ∧
    (met (chan3 8 2 [ptrEntry 2 0 2] (some { moved 0 with reads := [⟨.dram, 0, 1⟩] }) false) 8 7).dev.ptrReads 3 = true ∧
    (chan3 7 4 [] none false).Awake 7 ∧ ((chan3 7 4 [] none false).enter 7).dev.g .ptrState 3 = 4 ∧
    ((chan3 7 1 [] none false).enter 7).dev.g .ptrState 3 ≠ 4 := by
  delta State.Running State.Awake; decide +kernel

/-! ## Hypotheses are met: stagings, takes, the dictionary -/

/-- Session 31 of node 5 on CAN FD controller 1, in a role, the part in MAKER or as given, the dictionary ready. -/
def ses31 (r role : Nat) (xs : List (Obj × Nat × Nat)) (f : Dev → Dev := id) : State :=
  st r 1200000 ([(.sesState, 31, 1), (.sesRole, 31, role), (.canNmtState, 1, 2), (.canEnable, 1, 1)] ++ xs) fun d =>
    f { d with ses := { d.ses with opened := [(31, { peer := .can 1 5, last := 0 })] }, pwr := { d.pwr with ended := [(4, 0)] } }

/-- The same holding staging 15 in a state. -/
def stg15 (state : Nat) (es : List Entry := []) : State := ses31 7 3 [(.stgState, 15, state), (.stgOwner, 15, 31)] fun d =>
  d.putStg 15 { d.stg 15 with entries := es }

/-- Staging 0 in a state. -/
def stg0 (state : Nat) : State := st 7 1 [(.stgState, 0, state)]

/-- An entry for layer 1 of departure 127: its stacking order. -/
def layEntry : Entry := ⟨.layZ, 1017, 1, [1], 0⟩

theorem witness_StagingsOpenSealAndAreDiscarded :
    (ses31 7 3 []).Awake 7 ∧ (ses31 7 3 []).Accepts 31 .stgOpen ∧ (ses31 7 3 []).Accepts 31 .stgSeal ∧
    (ses31 7 3 []).Accepts 31 .stgAbandon ∧ ((st 7 1 []).enter 7).dev.dictReady = false ∧
    ((ses31 7 3 []).enter 7).dev.isOpen 30 = false ∧
    ((ses31 7 0 []).enter 7).dev.writeCode (((ses31 7 0 []).enter 7).dev.g .sesRole 31) .stgOpen ≠ 0 ∧
    ((stg15 1).asking 31).heldStg 31 ≠ none ∧ ((ses31 7 3 []).asking 31).heldStg 31 = none ∧
    (∀ j ≤ 15, 1 ≤ j → ((ses31 7 3 ((List.range 16).map fun k => (.stgState, k, 1))).asking 31).g .stgState j ≠ 0) ∧
    (((ses31 7 3 ((List.range 15).map fun k => (.stgState, k, 1))).asking 31).g .stgState 15 = 0 ∧
      ∀ i < 15, 1 ≤ i → ((ses31 7 3 ((List.range 15).map fun k => (.stgState, k, 1))).asking 31).g .stgState i ≠ 0) ∧
    ((stg15 1).asking 31).openStg 31 = some 15 ∧ ((stg15 3).asking 31).openStg 31 = none ∧ ((stg15 3).asking 31).heldStg 31 = some 15 ∧
    layersOfOne [] = false ∧ layersOfOne [layEntry] = true ∧
    ((stg0 1).enter 7).dev.g .stgState 0 = 1 ∧ ((stg0 3).enter 7).dev.g .stgState 0 = 3 ∧ ((stg0 0).enter 7).dev.g .stgState 0 ≠ 1 ∧
    ((stg0 0).enter 7).dev.g .stgState 0 ≠ 3 ∧ (stg0 1).Awake 7 := by
  delta State.Accepts State.Awake; dsimp only; decide +kernel

/-- Departure 127 in a state with a template, a take standing, one landed in a tick. -/
def dep127take (state mask staging : Nat) (x : Option Take) (landed : Nat) : State :=
  st 7 9 [(.depState, 127, state), (.tkMask, 127, mask), (.tkStaging, 127, staging), (.tkSrc0, 127, 0x100)] fun d =>
    { d with takes := match x with | some x => [(127, x)] | none => [], landedAt := [(127, landed)] }

def armed : Take := ⟨true, .armed, 1, [0x100], none, 0, some 31, false, 0, false, [], [], {}⟩

/-- Salvo 31 in a state with members, due at an instant. -/
def salvo31 (state due : Nat) (ms : Tab Template) (x : Option Take) : State :=
  st 7 9 [(.svState, 31, state), (.svTime, 31, due), (.tkSalvo, 127, 31), (.depState, 127, 2)] fun d =>
    { d with salvos := [(31, { members := ms })], takes := match x with | some x => [(127, x)] | none => [] }

def member (mask : Nat) : Template := ⟨mask, [0x100], 0xFF, true⟩

theorem witness_TakesAndSalvosAreAcceptedOrRefused :
    (dep127take 2 1 0xFF none 8).Awake 7 ∧ ((dep127take 1 1 0xFF none 8).enter 7).dev.g .depState 127 ≠ 2 ∧
    ((dep127take 2 0 0xFF none 8).enter 7).dev.g .depState 127 = 2 ∧ ((dep127take 2 0 0xFF none 8).enter 7).dev.g .tkMask 127 = 0 ∧
    ((dep127take 2 0 0xFF none 8).enter 7).dev.g .tkStaging 127 = 0xFF ∧
    (∃ l ∈ setBitsOf 8 (((dep127take 2 128 0xFF none 8).enter 7).dev.g .tkMask 127), ((dep127take 2 128 0xFF none 8).enter 7).dev.g .depLayers 127 ≤ l) ∧
    ((dep127take 2 1 15 none 8).enter 7).dev.takeCode 127 (((dep127take 2 1 15 none 8).enter 7).dev.template 127) = 0x0343 ∧
    ((dep127take 2 1 0xFF none 8).enter 7).dev.takeCode 127 (((dep127take 2 1 0xFF none 8).enter 7).dev.template 127) = 0 ∧
    ((dep127take 2 1 0xFF (some armed) 8).enter 7).dev.takeOf 127 ≠ none ∧ ((dep127take 2 1 0xFF none 8).enter 7).dev.takeOf 127 = none ∧
    ((dep127take 2 1 0xFF none 9).enter 7).dev.landedAt.find 127 = some ((dep127take 2 1 0xFF none 9).enter 7).clk.tick ∧
    ((dep127take 2 1 0xFF none 8).enter 7).dev.landedAt.find 127 ≠ some ((dep127take 2 1 0xFF none 8).enter 7).clk.tick ∧
    (salvo31 0 0 [] none).Awake 7 ∧ ((salvo31 0 0 [] none).enter 7).dev.g .svState (((salvo31 0 0 [] none).enter 7).dev.g .tkSalvo 127) = 0 ∧
    ¬(((salvo31 1 0 [] none).enter 7).dev.g .svState 31 = 0 ∨ ((salvo31 1 0 [] none).enter 7).dev.g .svState 31 = 3) ∧
    (((salvo31 0 0 [] none).enter 7).dev.salvo 31).members = [] ∧ (((salvo31 0 0 [(127, member 1)] none).enter 7).dev.salvo 31).members ≠ [] ∧
    ((salvo31 0 10000000001 [(127, member 1)] none).enter 7).clk.timebase + 10000000000
      < ((salvo31 0 10000000001 [(127, member 1)] none).enter 7).dev.g .svTime 31 ∧
    ((salvo31 0 10000000000 [(127, member 1)] none).enter 7).dev.g .svTime 31
      ≤ ((salvo31 0 10000000000 [(127, member 1)] none).enter 7).clk.timebase + 10000000000 ∧
    (((salvo31 0 0 [(127, member 1)] none).enter 7).dev.salvoAccept 9 31 {} [(127, member 1)]).1 = 0 ∧
    (((salvo31 0 0 [(127, member 0)] none).enter 7).dev.salvoAccept 9 31 {} [(127, member 0)]).1 = 0x0201 ∧
    ((salvo31 1 0 [] (some armed)).enter 7).dev.takeOf 127 = some armed ∧ armed.salvo = some 31 := by
  delta State.Awake; decide +kernel

/-- A peer of controller 1 as session 31, with a request under assist, a transfer in progress, a write waiting. -/
def busy31 (r since last : Nat) (waits : Bool) : State := ses31 r 3 [(.canUsdoTimeout, 1, 100)] fun d =>
  { d with ses := { d.ses with
      assists := [⟨.can 1 5, since, 0, 0, []⟩], transfers := [⟨.can 1 5, 0x2110, 1, [1], last⟩],
      held := if waits then [⟨.can 1 5, 0, 0, none⟩] else [] } }

theorem witness_DictionaryServesRequestsInOrder :
    (ses31 7 3 []).Awake 7 ∧ (ses31 7 3 []).Serves 7 (.can 1 5) ∧ ((ses31 7 3 []).enter 7).dev.hears (.can 0 127) = false ∧
    ((busy31 7 0 0 false).enter 7).dev.hears (.can 1 5) = true ∧ ((busy31 7 0 0 false).enter 7).dev.assisting (.can 1 5) = true ∧
    (∃ w ∈ ((busy31 7 0 0 true).enter 7).dev.ses.held, w.peer = .can 1 5) ∧
    (((st 7 1 [(.canNmtState, 1, 2)]).enter 7).dev.hears (.can 1 5) = true ∧ ((st 7 1 []).enter 7).dev.dictReady = false) ∧
    ((ses31 7 3 []).enter 7).dev.sessionOf (.can 1 5) = some 31 ∧ targetCode (.can 1 6) none 0x3400 5 false = 0x0102 ∧
    targetCode (.can 1 5) (some 31) 0x347F 5 false = 0 ∧ decodeObj 0x347F 5 = some (.depWidth, 127) ∧
    ((ses31 7 3 []).touched 7 (.can 1 5)).writeFails (some 31) .depWidth 127 [0x00, 0x10] = 0 ∧
    ((ses31 7 3 []).touched 7 (.can 1 5)).writeFails (some 31) .depWidth 127 [0x01, 0x10] = 0x0220 ∧
    ((ses31 7 3 []).touched 7 (.can 1 5)).mustWait .depWidth false = false ∧
    ((ses31 7 3 []).touched 7 (.can 1 5)).mustWait .depWidth true = false ∧ Obj.depWidth.opening = false ∧
    Obj.depWidth.isAssisted = false ∧ Obj.depWidth.info.apply = .commit ∧
    Obj.msMode.isAssisted = true ∧ ((ses31 7 3 []).touched 7 (.can 1 5)).writeFails (some 31) .msMode 23 [2] = 0 ∧
    ((ses31 7 3 []).enter 7).dev.coresRun 1200000 = false ∧
    ((ses31 7 3 [] fun d => { d with pwr := { d.pwr with ended := [(3, 0), (4, 0)] } }).enter 7).dev.coresRun 1200000 = true ∧
    (Obj.all.any fun o => o.info.apply == .boundary &&
      ((ses31 7 3 []).touched 7 (.can 1 5)).writeFails (some 31) o 0 (List.replicate o.info.ty.bytes 0) == 0) = true ∧
    (ses31 8 3 []).Awake 8 ∧ (ses31 8 3 []).Serves 8 (.can 1 5) ∧ targetCode (.can 1 5) (some 31) 0x347F 5 true = 0 ∧
    (Obj.depWidth.right (((ses31 8 3 []).touched 8 (.can 1 5)).roleOf (some 31))).reads = true ∧
    (Obj.ethLoop.right (((ses31 8 1 []).touched 8 (.can 1 5)).roleOf (some 31))).reads = false ∧
    ((ses31 8 3 []).touched 8 (.can 1 5)).readFails .depWidth = 0 ∧
    ((ses31 8 3 [(.krRootState, 0, 0)]).touched 8 (.can 1 5)).readFails .krLedgerPub ≠ 0 ∧
    (((busy31 7 800000 0 false).enter 7).dev.ses.assists.find? fun a => a.peer == .can 1 5) = some ⟨.can 1 5, 800000, 0, 0, []⟩ ∧
    800000 + 400000 ≤ ((busy31 7 800000 0 false).enter 7).clk.elapsed ∧ ((busy31 7 800001 0 false).enter 7).clk.elapsed < 800001 + 400000 ∧
    ((busy31 7 800000 0 false).enter 7).dev.ses.held = [] ∧ (((busy31 7 800000 0 false).enter 7).dev.openingOf (.can 1 5)).verifying = false ∧
    ((ses31 7 3 []).enter 7).dev.transferOf (.can 1 5) = none ∧
    ((busy31 7 0 800000 false).enter 7).dev.transferOf (.can 1 5) = some ⟨.can 1 5, 0x2110, 1, [1], 800000⟩ ∧
    800000 + ((busy31 7 0 0 false).enter 7).dev.g .canUsdoTimeout 1 * 4000 ≤ ((busy31 7 0 0 false).enter 7).clk.elapsed ∧
    ((busy31 7 0 0 false).enter 7).clk.elapsed < 800001 + ((busy31 7 0 0 false).enter 7).dev.g .canUsdoTimeout 1 * 4000 ∧
    ((busy31 7 0 800001 false).enter 7).dev.transferDue ((busy31 7 0 800001 false).enter 7).env (.can 1 5) = false ∧
    ((busy31 7 0 800000 false).enter 7).dev.transferDue ((busy31 7 0 800000 false).enter 7).env (.can 1 5) = true := by
  delta State.Serves State.Awake; dsimp only; decide +kernel

/-! ## Hypotheses are met: sessions, life cycle, keys -/

/-- Peer (1, 5)'s opening: a challenge of a role since a tick, its response under verification or not. -/
def opening (p : Peer) (role : Nat) (since : Option Nat) (v : Bool) (xs : List (Obj × Nat × Nat)) (f : Dev → Dev := id) : State :=
  st 7 240000001 ([(.canNmtState, 1, 1), (.lcState, 0, 0)] ++ xs) fun d =>
    f { d with ses := { d.ses with openings := [{ peer := p, role := role, chRole := role, since := since, verifying := v }] },
               pwr := { d.pwr with ended := [(4, 0)] } }

/-- The block with ring 5 a mailbox ring, its mailbox block naming a role. -/
def mailbox (role : Nat) (s : RingState) : State := opening (.ring 5) 3 (some 200000001) false [] fun d =>
  ((d.putRing 5 { st := s, cached := [0, 0, 0, 0, 4 + 256 * 5, 0, 0, 0, 0, 0, 0, 0, 0, 0, 0, 0] }).putReg 0x200000 5).putReg 0x200004 role

theorem witness_SessionsOpenByChallengeAndResponse :
    (opening (.can 1 5) 3 none false []).Awake 7 ∧ (opening (.can 1 5) 3 none false []).Serves 7 (.can 1 5) ∧
    channelOf (.can 1 5) ≠ 4 ∧ ((opening (.can 1 5) 3 none false []).enter 7).dev.sessionOf (.can 1 5) = none ∧
    ((opening (.can 1 5) 3 none false []).enter 7).dev.g .krIslandState ≠ 1 ∧
    ((opening (.can 1 5) 3 none false []).enter 7).dev.writeFails none .openGo 0 [1#8] = 0 ∧
    ((opening (.can 1 5) 3 none false []).enter 7).dev.challengeCode ((opening (.can 1 5) 3 none false []).enter 7).env (.can 1 5) 3 0 = 0 ∧
    ((opening (.can 1 5) 0 none false []).enter 7).dev.challengeCode ((opening (.can 1 5) 0 none false []).enter 7).env (.can 1 5) 0 0 = 0x0201 ∧
    ((opening (.can 1 5) 3 none false []).enter 7).dev.writeFails none .openResp 0 (List.replicate 16 0) = 0 ∧
    (List.replicate 16 (0 : Byte)).length = responseLength (.can 1 5) ∧
    ([] : List Byte).length ≠ responseLength (.can 1 5) ∧ channelOf (.ring 5) = 4 ∧
    (opening (.can 1 5) 3 none false [(.krIslandState, 0, 1)]).Serves 7 (.can 1 5) ∧
    ((opening (.can 1 5) 3 none false [(.krIslandState, 0, 1)]).enter 7).dev.writeFails none .openResp 0 [] = 0 ∧
    ((opening (.can 1 5) 3 none false [(.krIslandState, 0, 2)]).enter 7).dev.verifyCode (channelOf (.can 1 5)) ≠ 0 ∧
    240000001 ≤ 200000001 + 40000000 ∧ ¬(240000001 ≤ 200000000 + 40000000) ∧
    ((opening (.can 1 5) 3 (some 200000001) false []).enter 7).dev.verifyCode (channelOf (.can 1 5)) = 0 ∧
    (((opening (.can 1 5) 3 none false []).enter 7).dev.openingOf (.can 1 5)).verifying = false ∧
    (((opening (.can 1 5) 3 none true []).enter 7).dev.openingOf (.can 1 5)).verifying = true ∧
    ((opening (.can 1 5) 3 none true []).enter 7).dev.ses.held = [] ∧
    ((opening (.can 1 5) 3 none true []).enter 7).dev.passCode (.can 1 5) 3 = 0 ∧
    ((opening (.can 1 5) 3 none true []).enter 7).dev.freeSession (.can 1 5) = some 0 ∧
    ((opening (.can 1 5) 2 none true [(.lcState, 0, 0x81)]).enter 7).dev.passCode (.can 1 5) 2 = 0x0620 ∧
    ((([4, 3, 2, 1] : List Nat).filter fun b => decide (240000001 < b + 240000000)).length < 4) ∧
    (4 ≤ (([5, 4, 3, 2] : List Nat).filter fun b => decide (240000001 < b + 240000000)).length) ∧
    ((opening (.can 1 5) 3 none true [] fun d => { d with ses := { d.ses with locked := [(2, 1)] } }).enter 7).dev.lockedOut
      ((opening (.can 1 5) 3 none true []).enter 7).env 2 = false ∧
    ((opening (.can 1 5) 3 none true [] fun d => { d with ses := { d.ses with locked := [(2, 2)] } }).enter 7).dev.lockedOut
      ((opening (.can 1 5) 3 none true []).enter 7).env 2 = true ∧
    ((mailbox 3 .enabled).enter 7).dev.reg 0x200000 % 65536 = 5 ∧ ((mailbox 3 .enabled).enter 7).dev.reg 0x200004 % 4 = 3 ∧
    ((mailbox 3 .enabled).enter 7).dev.challengeCode ((mailbox 3 .enabled).enter 7).env (.ring 5) 3 0 = 0 ∧
    ((mailbox 0 .enabled).enter 7).dev.challengeCode ((mailbox 0 .enabled).enter 7).env (.ring 5) 0 0 = 0x0201 ∧
    ((mailbox 3 .enabled).enter 7).dev.bindable 5 = true ∧ ((mailbox 3 .disabled).enter 7).dev.bindable 5 = false ∧
    ((opening (.can 1 5) 3 none false []).enter 7).dev.dmbOpening = none ∧
    ((mailbox 3 .enabled).enter 7).dev.dmbOpening = some { peer := .ring 5, role := 3, chRole := 3, since := some 200000001 } ∧
    ((mailbox 3 .enabled).enter 7).dev.verifyCode 4 = 0 ∧
    ((mailbox 3 .enabled).enter 7).dev.openingOf (.ring 5) = { peer := .ring 5, role := 3, chRole := 3, since := some 200000001 } := by
  delta State.Serves State.Awake; dsimp only; decide +kernel

/-- Outside BLANK a response is found bad where the credential names no key; in BLANK it is found good where HMAC under the
test key says so (`Config.responseOk`). -/
theorem witness_SessionsOpenByChallengeAndResponse_verdict :
    ((opening (.can 1 5) 3 none true [(.lcState, 0, 1)]).enter 7).dev.responseOk (.can 1 5) = false ∧
    (((opening (.can 1 5) 3 none true [(.lcState, 0, 1)]).enter 7).dev.openingOf (.can 1 5)).verifying = true ∧
    ((opening (.can 1 5) 3 none true []).enter 7).dev.responseKey 2 0 = some ((List.range 97).map (Config.testKey 0)) := by
  refine ⟨by decide +kernel, by decide +kernel, ?_⟩
  have h : ((opening (.can 1 5) 3 none true []).enter 7).dev.lc = lcBlank := by decide +kernel
  rw [Dev.responseKey, if_pos h]

/-- Session 31 beside session 30 of a role, heard at a tick; a mailbox ring's session 29. -/
def two (role other last : Nat) : State := ses31 7 role [(.sesRole, 30, other), (.sesState, 30, 1)] fun d =>
  ({ d with ses := { d.ses with opened := [(29, { peer := .ring 0 }), (30, { peer := .can 1 6, last := last }), (31, { peer := .can 1 5 })] } }).put .sesIdle 0 0

/-- Controller 1 in an NMT state, its heartbeat every millisecond, the last at a tick. -/
def can1 (r state beat period : Nat) : State := st r 4009 [(.canNmtState, 1, state), (.canEnable, 1, 1), (.heartbeatTime, 0, period)] fun d =>
  { d with ses := { d.ses with beats := [(1, beat)] } }

theorem witness_SessionsCloseAndControllersFollowNmt :
    (two 2 2 0).Awake 7 ∧ (two 2 2 0).Accepts 31 .sesClose ∧ (two 2 2 0).Accepts 31 .sesKill ∧
    ((two 2 2 0).enter 7).dev.isOpen 28 = false ∧ ((two 2 2 0).enter 7).dev.isOpen 30 = true ∧
    (((two 2 3 0).enter 7).dev.g .sesRole 31 ≠ 3 ∧ ((two 2 3 0).enter 7).dev.g .sesRole 30 = 3) ∧
    (two 3 3 0).Accepts 31 .sesKill ∧ ((two 3 3 0).enter 7).dev.g .sesRole 31 = 3 ∧
    ((two 2 2 1200000).enter 7).dev.session 30 = some { peer := .can 1 6, last := 1200000 } ∧
    1200000 + ((two 2 2 1200000).enter 7).dev.g .sesIdle * 4000000 ≤ ((two 2 2 1200000).enter 7).clk.elapsed ∧
    (∀ x ∈ ((two 2 2 1200001).enter 7).dev.ses.opened, x.1 = 30 → ((two 2 2 1200001).enter 7).clk.elapsed
      < x.2.last + ((two 2 2 1200001).enter 7).dev.g .sesIdle * 4000000) ∧
    (can1 7 2 9 1).Awake 7 ∧ ((can1 7 2 9 1).enter 7).dev.on .canEnable 1 = true ∧
    ((st 7 1 []).enter 7).dev.on .canEnable 1 = false ∧ ((can1 7 0 9 1).enter 7).dev.g .canNmtState 1 = 0 ∧
    ((can1 7 2 9 1).enter 7).dev.g .canNmtState 1 ≠ 0 ∧ (can1 9 2 9 1).Awake 9 ∧
    (((can1 9 2 9 1).enter 9).dev.g .canNmtState 1 ≠ 0 ∧ ((can1 9 2 9 1).enter 9).dev.on .heartbeatTime = true ∧
      ((can1 9 2 9 1).enter 9).dev.ses.beats.getD 1 0 + ((can1 9 2 9 1).enter 9).dev.g .heartbeatTime * 4000
        ≤ ((can1 9 2 9 1).enter 9).clk.elapsed) ∧
    ¬(((can1 9 2 10 1).enter 9).dev.ses.beats.getD 1 0 + ((can1 9 2 10 1).enter 9).dev.g .heartbeatTime * 4000
        ≤ ((can1 9 2 10 1).enter 9).clk.elapsed) ∧
    ((two 2 2 0).enter 7).dev.sessionOf (.ring (((two 2 2 0).enter 7).dev.reg 0x200000 % 65536)) = some 29 ∧
    ((can1 7 2 9 1).enter 7).dev.sessionOf (.ring (((can1 7 2 9 1).enter 7).dev.reg 0x200000 % 65536)) = none := by
  delta State.Accepts State.Awake; dsimp only; decide +kernel

/-- Session 31 of a role, with objects set and a template; a change made to the block. -/
def keyring (role : Nat) (m : KeyTpl) (xs : List (Obj × Nat × Nat)) (f : Dev → Dev := id) : State :=
  ses31 7 role xs fun d => f { d with ses := { d.ses with opened := [(31, { peer := .can 1 5, tpl := m })] } }

theorem witness_LifeCycleStepsAndRecovery :
    (keyring 3 {} []).Awake 7 ∧ (keyring 3 {} []).Accepts 31 .lcStep ∧
    ((keyring 3 {} [] fun d => { d with pwr := { d.pwr with burning := some (4, 9) } }).asking 31).pwr.burning ≠ none ∧
    ((keyring 3 {} []).asking 31).pwr.burning = none ∧
    stepAllowed ((keyring 3 {} [(.lcTarget, 0, 3)]).asking 31).fuses.lc (((keyring 3 {} [(.lcTarget, 0, 3)]).asking 31).g .lcTarget) = false ∧
    stepAllowed ((keyring 3 {} [(.lcTarget, 0, 4)]).asking 31).fuses.lc (((keyring 3 {} [(.lcTarget, 0, 4)]).asking 31).g .lcTarget) = true ∧
    ((keyring 3 {} [(.lcTarget, 0, 4)]).asking 31).g .lcTarget = 4 ∧
    ((st 3 9 [] fun d => { d with pwr := { d.pwr with burning := some (4, 9), recovering := true } }).enter 3).dev.pwr.burning = some (4, 9) ∧
    ((st 3 9 [] fun d => { d with pwr := { d.pwr with burning := some (4, 9), recovering := true } }).enter 3).dev.asleep = false ∧
    ((st 3 9 [] fun d => { d with pwr := { d.pwr with burning := some (4, 9), recovering := true } }).enter 3).dev.pwr.recovering = true ∧
    ((st 3 9 []).enter 3).dev.pwr.burning = none ∧ ((st 3 9 []).enter 3).dev.pwr.recovering = false ∧
    (st 7 9 []).Awake 7 ∧ (((st 7 9 []).enter 7).dev.g .lcState).testBit 7 = false ∧
    (((st 7 9 [(.lcState, 0, 0x81)]).enter 7).dev.g .lcState).testBit 7 = true ∧
    ((st 7 9 [(.ledgerNextSeq, 0, 9), (.ledgerMarked, 0, 5)]).enter 7).dev.g .ledgerNextSeq ≤ 9 ∧
    4 < ((st 7 9 [(.ledgerNextSeq, 0, 9), (.ledgerMarked, 0, 5)]).enter 7).dev.g .ledgerMarked ∧
    ((st 7 9 [(.ledgerNextSeq, 0, 9), (.ledgerMarked, 0, 5)]).enter 7).dev.g .ledgerMarked ≤ 5 ∧
    8 < ((st 7 9 [(.ledgerNextSeq, 0, 9), (.ledgerMarked, 0, 5)]).enter 7).dev.g .ledgerNextSeq ∧
    (st 9 9 []).Awake 9 ∧ ((st 9 9 []).enter 9).clk.timebase / 3600000000000 = ((st 9 9 []).enter 9).dev.pwr.markHour ∧
    3600000000000 / 3600000000000 ≠ ((st 9 9 []).enter 9).dev.pwr.markHour := by
  delta State.Accepts State.Awake; dsimp only; decide +kernel

/-- A state in which the confirmation of a step is what a number asks. -/
def confirmed (v : Nat) : State := keyring 3 {} [(.lcTarget, 0, 2)] fun d => { d with objs := d.objs ++ [(Obj.lcConfirm.key 0 + 2 ^ 30, 0)] |>.put (Obj.lcConfirm.key 0) v }

theorem witness_LifeCycleStepsAndRecovery_confirmed :
    ((confirmed Config.serialLow).asking 31).g .lcConfirm = Config.serialLow ∧
    ((confirmed (Config.serialLow + 1)).asking 31).g .lcConfirm ≠ Config.serialLow := by
  refine ⟨rfl, ?_⟩
  show Config.serialLow + 1 ≠ Config.serialLow
  omega

/-- A template for a key of use 4 (`mka`), which does not stay. -/
def tpl (num persist : Nat) : KeyTpl := { num := num, alg := 4, use := 4, binding := 0x400, minRole := 3, persist := persist, transport := 7 }

/-- A transport key, and a wrap made under its secret. -/
def transportKey : Key := ⟨3, 3, 0x500, 1, 0, 99⟩
def head24 (num : Byte) : List Byte := [0x45, 0x5A, 0x4B, 0x31, num, 0, 0, 0, 4, 4, 0, 4, 3, 0, 0, 0] ++ List.replicate 8 0
def wrapped (d : Dev) : Dev := { d with kr := { d.kr with
  slots := [(7, transportKey), (9, ⟨4, 4, 0x400, 3, 0, 5⟩), (10, ⟨1, 1, 0x100, 3, 0, 5⟩)],
  made := [⟨some 99, 0, head24 8, List.replicate 40 1, 6⟩] } }

/-- Components open since a tick, of two parts, with values given by credentials. -/
def entering (since : Nat) (creds : List Nat) (cred : Nat) : State := keyring 3 {} [(.sesCred, 31, cred)] fun d =>
  { d with kr := { d.kr with comp := some ⟨since, 31, tpl 8 0, 2, creds, creds⟩ } }

def hashes (n : Nat) (enrolled : Bool) : State := keyring 3 {} [] fun d =>
  ({ d with fuses := { d.fuses with enrolled := enrolled } }.putBlob .imgHashEcdsa 0 (List.replicate n 1)).putBlob .imgHashMldsa 0 (List.replicate n 1)

theorem witness_KeyringCreatesLoadsAndRevokesKeys :
    (keyring 3 (tpl 8 0) []).Awake 7 ∧ (keyring 3 (tpl 8 0) []).Accepts 31 .krCmd ∧
    ((keyring 3 {} [(.krIslandState, 0, 1)]).asking 31).g .krIslandState = 1 ∧
    ((keyring 3 {} [(.krIslandState, 0, 2)]).asking 31).g .krIslandState = 2 ∧
    ((keyring 3 {} [] fun d => { d with kr := { d.kr with hold := true } }).asking 31).kr.hold = true ∧
    ((keyring 3 {} []).asking 31).g .krIslandState ≠ 1 ∧ ((keyring 3 {} []).asking 31).g .krIslandState ≠ 2 ∧
    ((keyring 3 {} []).asking 31).serviceCode true = 0 ∧ ((keyring 3 {} []).asking 31).serviceCode false = 0 ∧
    ((keyring 3 (tpl 65535 0) []).asking 31).createCode 65535 ((((keyring 3 (tpl 65535 0) []).asking 31).tpl 31).key 0) = 0 ∧
    ((keyring 3 (tpl 65535 1) []).asking 31).createCode 65535 ((((keyring 3 (tpl 65535 1) []).asking 31).tpl 31).key 0) = 0 ∧
    ((keyring 3 (tpl 65536 0) []).asking 31).createCode 65536 ((((keyring 3 (tpl 65536 0) []).asking 31).tpl 31).key 0) = 0x0201 ∧
    ((keyring 3 (tpl 9 0) [] wrapped).asking 31).invokeCode 7 (((keyring 3 (tpl 9 0) [] wrapped).asking 31).g .sesRole 31) servesTransport = 0 ∧
    ((keyring 3 (tpl 9 0) [] wrapped).asking 31).keyOf 7 = some transportKey ∧
    ((keyring 3 (tpl 9 0) [] wrapped).asking 31).unwrapKey (some 99) [] = none ∧
    ((keyring 3 (tpl 9 0) [] wrapped).asking 31).unwrapKey (some 99) (head24 8 ++ List.replicate 40 1) = some ⟨4, 4, 0x400, 3, 0, 6⟩ ∧
    ((keyring 3 (tpl 9 0) [] wrapped).asking 31).createCode (blobField (head24 8 ++ List.replicate 40 1) 4 4) ⟨4, 4, 0x400, 3, 0, 6⟩ = 0 ∧
    ((keyring 3 (tpl 9 0) [] wrapped).asking 31).keyOf 9 = some ⟨4, 4, 0x400, 3, 0, 5⟩ ∧
    ((keyring 3 (tpl 9 0) [] wrapped).asking 31).invokeCode 9 3 (fun _ => true) = 0 ∧
    ((keyring 3 (tpl 10 0) [] wrapped).asking 31).keyOf 10 = some ⟨1, 1, 0x100, 3, 0, 5⟩ ∧
    ((keyring 3 (tpl 10 0) [] wrapped).asking 31).invokeCode 10 3 (fun _ => true) = 0 ∧
    (head24 8 ++ List.replicate 40 (1 : Byte)).length = 64 ∧
    ((keyring 3 (tpl 9 0) [] wrapped).asking 31).keyState 8 = 0 ∧ ((keyring 3 (tpl 9 0) [] wrapped).asking 31).kr.slots.length < 256 ∧
    ((keyring 3 (tpl 9 0) [] wrapped).asking 31).unwrapKey none (List.replicate 64 0) = none ∧
    ((keyring 3 (tpl 8 0) [] fun d => { d with kr := { d.kr with recs := [(8, ⟨true, []⟩)] } }).asking 31).keyState 8 = 3 ∧
    (((keyring 3 (tpl 9 0) [] wrapped).asking 31).keyState 9 ≠ 0 ∧ ((keyring 3 (tpl 9 0) [] wrapped).asking 31).keyState 9 ≠ 3 ∧
      ((keyring 3 (tpl 9 0) [] wrapped).asking 31).keyRegionCode = 0 ∧ ((keyring 3 (tpl 9 0) [] wrapped).asking 31).keyPageOf 9 ≠ none) := by
  delta State.Accepts State.Awake; dsimp only; decide +kernel

theorem witness_KeyringCreatesLoadsAndRevokesKeys_values :
    (keyring 3 {} []).Awake 7 ∧ (entering 0 [3] 4).Accepts 31 .kcValue ∧ (List.replicate 31 (0 : Byte)).length ≠ 32 ∧ (List.replicate 32 (0 : Byte)).length = 32 ∧
    ((keyring 3 {} []).asking 31).components ((keyring 3 {} []).enter 7).env = none ∧
    ((entering 0 [3] 4).asking 31).components ((entering 0 [3] 4).enter 7).env = some ⟨0, 31, tpl 8 0, 2, [3], [3]⟩ ∧
    ((entering 0 [3] 3).asking 31).g .sesCred 31 ∈ [3] ∧ ((entering 0 [3] 4).asking 31).g .sesCred 31 ∉ [3] ∧
    ([] : List Nat).length + 1 < 2 ∧ 2 ≤ ([3] : List Nat).length + 1 ∧
    ((entering 0 [3] 4).asking 31).createCode 8 ((tpl 8 0).key ((([3] : List Nat) ++ [ofLe (List.replicate 32 0)]).foldl Nat.xor 0)) = 0 ∧
    ((entering 0 [3] 4).enter 7).clk.elapsed < 0 + 2400000000 ∧
    ((st 7 2400000000 [] fun _ => (entering 0 [3] 4).dev).enter 7).dev.kr.comp = some ⟨0, 31, tpl 8 0, 2, [3], [3]⟩ ∧
    0 + 2400000000 ≤ ((st 7 2400000000 [] fun _ => (entering 0 [3] 4).dev).enter 7).clk.elapsed ∧
    (keyring 3 {} []).Accepts 31 .krZeroiseAll ∧ ((keyring 3 {} []).asking 31).keyRegionCode = 0 ∧
    ((keyring 3 {} [(.nvProtect, 0, 1)]).asking 31).keyRegionCode = 0x0611 ∧
    (hashes 48 false).Accepts 31 .imgEnrolGo ∧ ((hashes 48 true).asking 31).fuses.enrolled = true ∧
    ((hashes 48 false).asking 31).fuses.enrolled = false ∧ (((hashes 48 false).asking 31).blob .imgHashEcdsa 0).length = 48 ∧
    (((hashes 48 false).asking 31).blob .imgHashMldsa 0).length = 48 ∧
    (keyring 3 {} []).Accepts 31 .rbAdvance ∧
    (((keyring 3 {} []).asking 31).pwr.images.getD (((keyring 3 {} []).asking 31).runningSlot 1) {}).security ≤ ((keyring 3 {} []).asking 31).g .rbIsland ∧
    ((keyring 3 {} []).asking 31).g .rbIsland < (((keyring 3 {} [] fun d => { d with pwr := { d.pwr with images := [(2, ⟨1, 255, true⟩)] } }).asking
      31).pwr.images.getD (((keyring 3 {} []).asking 31).runningSlot 1) {}).security := by
  delta State.Accepts State.Awake; dsimp only; decide +kernel

/-- The value of the bytes of a number is the number, as far as they reach. -/
theorem ofLe_leBytes (n v : Nat) : ofLe (leBytes n v) = v % 256 ^ n := by
  induction n generalizing v with
  | zero => simp [leBytes, ofLe, Nat.mod_one]
  | succ n ih =>
    rw [leBytes, ofLe, ih, BitVec.toNat_ofNat, show 256 ^ (n + 1) = 256 * 256 ^ n from by rw [Nat.pow_succ]; exact Nat.mul_comm _ _, Nat.mod_mul]

/-- A blob wrapped for this part under the root of MAKER: number 8, use 4. -/
def rootHead : List Byte := [0x45, 0x5A, 0x4B, 0x31, 8, 0, 0, 0, 4, 4, 0, 4, 3, 0, 1, 0] ++ leBytes 8 Config.serial
def rootMade (d : Dev) : Dev := { d with kr := { d.kr with made := [⟨none, 1, rootHead, List.replicate 40 1, 6⟩] } }

theorem witness_KeyringCreatesLoadsAndRevokesKeys_root :
    ((keyring 3 {} [] rootMade).asking 31).unwrapKey none (rootHead ++ List.replicate 40 1) = some ⟨4, 4, 0x400, 3, 0, 6⟩ ∧
    (rootHead ++ List.replicate 40 1).length = 64 ∧ blobField (rootHead ++ List.replicate 40 1) 4 4 = 8 ∧
    ((keyring 3 {} [] rootMade).asking 31).keyState 8 = 0 ∧ ((keyring 3 {} [] rootMade).asking 31).kr.slots.length < 256 ∧
    (⟨4, 4, 0x400, 3, 0, 6⟩ : Key).attrsOk = true := by
  have hk : ((keyring 3 {} [] rootMade).asking 31).kr.made = [⟨none, 1, rootHead, List.replicate 40 1, 6⟩] := rfl
  have hr : ((keyring 3 {} [] rootMade).asking 31).rootCode = 1 := by decide +kernel
  have hs : blobField (rootHead ++ List.replicate 40 1) 0x10 8 = Config.serial % 2 ^ 64 := ofLe_leBytes 8 Config.serial
  refine ⟨?_, by decide +kernel, by decide +kernel, by decide +kernel, by decide +kernel, by decide +kernel⟩
  rw [Dev.unwrapKey, hk, hr, hs, if_neg (by decide +kernel), if_neg (by simp; decide +kernel)]
  have hh : (rootHead ++ List.replicate 40 (1 : Byte)).take 24 = rootHead := rfl
  have hb : (rootHead ++ List.replicate 40 (1 : Byte)).drop 24 = List.replicate 40 1 := rfl
  simp only [hh, hb]
  simp
  decide +kernel


/-- Key 8 wrapped with its use changed to one the algorithm does not allow, key 65535 as large as a number may be, and a
template key of a contested number. -/
def badHead : List Byte := [0x45, 0x5A, 0x4B, 0x31, 8, 0, 0, 0, 4, 5, 0, 4, 3, 0, 0, 0] ++ List.replicate 8 0
def badly (d : Dev) : Dev := { d with kr := { d.kr with
  slots := [(7, transportKey), (9, ⟨4, 4, 0x400, 3, 0, 5⟩), (10, ⟨1, 1, 0x100, 3, 0, 5⟩), (11, ⟨4, 4, 0x400, 3, 0, 1⟩)],
  made := [⟨some 99, 0, badHead, List.replicate 40 1, 6⟩] } }

/-- Components complete for a number that is too large. -/
def tooLarge : State := keyring 3 {} [(.sesCred, 31, 4)] fun d =>
  { d with kr := { d.kr with comp := some ⟨0, 31, tpl 65536 0, 2, [3], [3]⟩ } }

/-- The island paused, with a session open. -/
def paused : State := keyring 3 {} [(.krIslandState, 0, 1)]

theorem witness_KeyringCreatesLoadsAndRevokesKeys_refused :
    (keyring 3 (tpl 9 0) [] badly).Accepts 31 .krCmd ∧
    ((keyring 3 {} [(.krRootState, 0, 0)]).asking 31).g .krRootState ≠ 1 ∧
    ((keyring 3 {} [(.krRootState, 0, 0)]).asking 31).g .krIslandState ≠ 1 ∧
    ((keyring 3 {} [(.krRootState, 0, 0)]).asking 31).g .krIslandState ≠ 2 ∧
    ((keyring 3 {} [(.krRootState, 0, 0)]).asking 31).kr.hold = false ∧
    ((keyring 3 {} [(.krRootState, 0, 0)]).asking 31).serviceCode true ≠ 0 ∧
    ((keyring 3 { tpl 9 0 with transport := 12 } [] badly).asking 31).invokeCode 12
      (((keyring 3 { tpl 9 0 with transport := 12 } [] badly).asking 31).g .sesRole 31) servesTransport ≠ 0 ∧
    (((keyring 3 (tpl 9 0) [] badly).asking 31).unwrapKey (some 99) (badHead ++ List.replicate 40 1)).isSome = true ∧
    ((((keyring 3 (tpl 9 0) [] badly).asking 31).unwrapKey (some 99) (badHead ++ List.replicate 40 1)).map
      fun y => ((keyring 3 (tpl 9 0) [] badly).asking 31).createCode 8 y != 0) = some true ∧
    (((keyring 3 {} []).asking 31).tpl 31).blob.length ≠ 64 ∧
    ((keyring 3 (tpl 9 0) [] badly).asking 31).keyState 9 ∉ [0, 3, 4] ∧
    (⟨4, 5, 0x500, 3, 0, 6⟩ : Key).attrsOk = false ∧
    ((keyring 3 (tpl 12 0) [] badly).asking 31).invokeCode 12 3 (fun _ => true) ≠ 0 ∧
    ((keyring 3 (tpl 10 0) [] badly).asking 31).keyOf 10 = some ⟨1, 1, 0x100, 3, 0, 5⟩ ∧
    ((keyring 3 (tpl 12 0) [] badly).asking 31).keyState 12 = 0 ∧
    (((keyring 3 (tpl 9 0) [(.nvProtect, 0, 1)] badly).asking 31).keyState 9 ∉ [0, 3] ∧
      ((keyring 3 (tpl 9 0) [(.nvProtect, 0, 1)] badly).asking 31).keyRegionCode ≠ 0) ∧
    (tooLarge.asking 31).components (tooLarge.enter 7).env = some ⟨0, 31, tpl 65536 0, 2, [3], [3]⟩ ∧
    (tooLarge.asking 31).createCode 65536 ((tpl 65536 0).key 0) ≠ 0 ∧
    (paused.Accepts 31 .kcValue ∧ paused.Accepts 31 .krZeroiseAll ∧ paused.Accepts 31 .imgEnrolGo ∧
      paused.Accepts 31 .rbAdvance ∧ (paused.asking 31).g .krIslandState = 1) ∧
    ((hashes 47 false).asking 31).serviceCode false = 0 ∧
    (keyring 3 {} [] fun d => { d with kr := { d.kr with hold := true } }).Accepts 31 .imgEnrolGo ∧
    (hashes 47 false).Accepts 31 .imgEnrolGo ∧ ((hashes 47 false).asking 31).fuses.enrolled = false ∧
    ¬((((hashes 47 false).asking 31).blob .imgHashEcdsa 0).length = 48 ∧ (((hashes 47 false).asking 31).blob .imgHashMldsa 0).length = 48) ∧
    ((keyring 3 {} [] fun d => { d with kr := { d.kr with hold := true } }).asking 31).serviceCode false ≠ 0 := by
  delta State.Accepts State.Awake; dsimp only; decide +kernel

/-! ## Hypotheses are met: the island, the NV store, resets, start-up, firmware -/

/-- The island in a state, at a rank, with a change made to the Keyring. -/
def island (r t state : Nat) (xs : List (Obj × Nat × Nat)) (f : KrUnit → KrUnit := id) : State :=
  st r t ((.krIslandState, 0, state) :: xs) fun d => { d with kr := f d.kr }

/-- The part asleep since tick 9, rank 1. -/
def sleepy (r t mask after : Nat) : State := st r t [(.pwrState, 0, 2), (.pwrWakeMask, 0, mask), (.pwrWakeAfter, 0, after)] fun d =>
  { d with pwr := { d.pwr with asleepAt := 9 } }

theorem witness_IslandTestsTampersAndMailbox :
    (island 7 9 0 []).Awake 7 ∧ ((island 7 9 1 []).enter 7).dev.g .krIslandState = 1 ∧
    ((island 7 9 2 []).enter 7).dev.g .krIslandState = 2 ∧
    (((island 7 9 0 [] ({ · with hold := true })).enter 7).dev.kr.hold = true ∧ ((island 7 9 0 [] ({ · with hold := true })).enter 7).dev.g .krIslandState = 0) ∧
    ((island 7 9 0 []).enter 7).dev.kr.hold = false ∧ ((island 7 9 0 []).enter 7).dev.ses.held = [] ∧
    ((island 7 9 0 []).enter 7).dev.kr.test = none ∧ ((island 7 9 1 [] ({ · with test := some 9 })).enter 7).dev.kr.test ≠ none ∧
    ((island 7 9 0 [(.lcState, 0, 0x81)]).enter 7).dev.quarantine = true ∧ ((island 7 9 0 []).enter 7).dev.quarantine = false ∧
    ((island 7 9 0 []).enter 7).dev.serviceCode true = 0 ∧ ((island 7 9 0 [(.krRootState, 0, 0)]).enter 7).dev.serviceCode true = 0x0641 ∧
    (island 9 345600000000 0 []).Awake 9 ∧ ((island 9 345600000000 0 []).enter 9).dev.g .krIslandState = 0 ∧
    ((island 9 345600000000 0 []).enter 9).dev.kr.hold = false ∧
    ((island 9 345600000000 0 []).enter 9).dev.kr.tested + 345600000000 ≤ ((island 9 345600000000 0 []).enter 9).clk.elapsed ∧
    ¬(((island 9 345599999999 0 []).enter 9).dev.kr.tested + 345600000000 ≤ ((island 9 345599999999 0 []).enter 9).clk.elapsed) ∧
    (¬(2 ^ 20 ≤ ((island 9 14399999999 0 []).enter 9).dev.kr.requests) ∧
      ¬(((island 9 14399999999 0 []).enter 9).dev.kr.reseeded + 14400000000 ≤ ((island 9 14399999999 0 []).enter 9).clk.elapsed)) ∧
    2 ^ 20 ≤ ((island 9 9 0 [] ({ · with requests := 2 ^ 20 })).enter 9).dev.kr.requests ∧
    ((island 9 14400000000 0 []).enter 9).dev.kr.reseeded + 14400000000 ≤ ((island 9 14400000000 0 []).enter 9).clk.elapsed ∧
    (island 3 9 0 []).Awake 3 ∧ ((island 3 9 0 []).enter 3).dev.ses.held = [] ∧ ((island 3 9 0 []).enter 3).dev.kr.test = none ∧
    ((island 3 9 1 [] ({ · with test := some 9 })).enter 3).dev.kr.test ≠ none ∧
    ((island 3 9 2 []).enter 3).dev.g .krIslandState = 2 ∧ ((island 3 9 1 []).enter 3).dev.g .krIslandState ≠ 2 := by
  delta State.Awake; decide +kernel

theorem witness_IslandTestsTampersAndMailbox_tampers :
    (island 1 400009 0 []).Awake 1 ∧ (island 1 400009 0 []).dev.asleep = false ∧
    ((island 1 400009 0 []).enter 1).dev.watches 3 = true ∧ ((island 1 400009 0 []).enter 1).dev.watches 4 = true ∧
    ((island 1 400009 0 [(.nwMeshEnable, 0, 7)]).enter 1).dev.watches 3 = false ∧ ((island 1 400009 0 []).enter 1).dev.watches 8 = false ∧
    ((island 1 400009 0 []).enter 1).dev.watches 7 = true ∧ ((island 1 400009 0 []).enter 1).dev.watches 5 = true ∧
    (((island 1 400009 0 []).enter 1).dev.g .lcState % 8 ≠ 0 ∧ ((island 1 400009 0 []).enter 1).dev.g .lcState % 8 ≠ 4) ∧
    ((island 1 400009 0 []).enter 1).dev.kr.conds.find 7 = none ∧ ((island 1 400009 0 []).enter 1).dev.pwr.started = false ∧
    (((island 1 345600000009 0 [(.nwEnvLimit, 0, 2)] ({ · with tampers := [10, 9] })).enter 1).dev.g .nwEnvLimit
      ≤ (345600000009 :: ([10, 9] : List Nat).filter fun b => decide (345600000009 < b + 345600000000)).length) ∧
    ((island 1 400009 0 [] ({ · with conds := [(7, 9)], hold := true })).enter 1).dev.kr.conds.find 7 = some 9 ∧
    9 + 400000 ≤ ((island 1 400009 0 []).enter 1).clk.elapsed ∧ ((island 1 400009 0 []).enter 1).clk.elapsed < 10 + 400000 ∧
    ((island 1 400009 0 [] ({ · with conds := [(7, 9)], hold := true })).enter 1).dev.kr.conds.del 7 = [] ∧
    ((island 1 400009 0 [] ({ · with conds := [(7, 9)], hold := true })).enter 1).dev.kr.hold = true ∧
    ((island 1 400009 0 [] ({ · with conds := [(7, 9)], hold := true })).enter 1).dev.g .krIslandState ≠ 2 ∧
    (sleepy 1 99 7 0).dev.asleep = true ∧ (sleepy 1 99 7 0).dev.watches 4 = true ∧ (sleepy 1 99 7 0).dev.watches 7 = true := by
  delta State.Awake; decide +kernel

/-- The NV store at a rank and time in a state. -/
def nvStore (r t holdup : Nat) (xs : List (Obj × Nat × Nat)) (f : NvUnit → NvUnit := id) : State :=
  st r t ((.nvHoldupState, 0, holdup) :: xs) fun d => { d with nv := f d.nv }

/-- A record of the Ledger waiting, and a burst of 256 bytes. -/
def ledgerJob : NvJob := { region := 5, id := 512, page := 0, body := [1, 2] }

theorem witness_NvStoreWritesInBursts :
    (nvStore 9 1033 1 []).Awake 9 ∧ ((nvStore 9 1033 1 [] ({ · with failing := true })).enter 9).dev.nv.failing = true ∧
    ((nvStore 9 1033 1 [] ({ · with testing := some 9 })).enter 9).dev.nv.testing = some 9 ∧
    ((nvStore 9 8408 1 [] ({ · with testing := some 9 })).enter 9).clk.elapsed < 9 + 8400 ∧
    9 + 8400 ≤ ((nvStore 9 8409 1 [] ({ · with testing := some 9 })).enter 9).clk.elapsed ∧
    (((nvStore 9 345600000000 1 []).enter 9).dev.nv.queued = 0 ∧
      ((nvStore 9 345600000000 1 []).enter 9).dev.nv.scrubbed + 345600000000 ≤ ((nvStore 9 345600000000 1 []).enter 9).clk.elapsed) ∧
    ¬(((nvStore 9 345599999999 1 []).enter 9).dev.nv.scrubbed + 345600000000 ≤ ((nvStore 9 345599999999 1 []).enter 9).clk.elapsed) ∧
    ((nvStore 9 1033 0 []).enter 9).dev.g .nvHoldupState = 0 ∧
    ¬(((nvStore 9 1033 1 []).enter 9).dev.nv.failing = true ∨ ((nvStore 9 1033 1 []).enter 9).dev.nv.testing ≠ none ∨
      ((nvStore 9 1033 1 []).enter 9).dev.g .nvHoldupState = 0 ∨ ((nvStore 9 1033 1 []).enter 9).dev.nv.running ≠ none) ∧
    ((nvStore 9 1033 1 []).enter 9).dev.ses.held = [] ∧
    ((nvStore 9 1033 1 [] ({ · with rest := [(512, [1])] })).enter 9).dev.nv.rest = (512, [1]) :: [] ∧
    ((nvStore 9 1033 1 []).enter 9).dev.on .nvProtect = false ∧ ((nvStore 9 1033 1 []).enter 9).dev.nv.rest = [] ∧
    ((nvStore 9 1033 1 [] ({ · with queue := [ledgerJob] })).enter 9).dev.nv.queue = ledgerJob :: [] ∧
    ((nvStore 9 1033 1 []).enter 9).dev.holdupLets ledgerJob = true ∧ ledgerJob.region ≠ 2 ∧
    ((nvStore 9 1033 1 []).enter 9).dev.jobBursts ((nvStore 9 1033 1 []).enter 9).env ledgerJob = (512, [1, 2]) :: [] ∧
    ((nvStore 9 1033 1 [(.nvProtect, 0, 1)]).enter 9).dev.on .nvProtect = true ∧
    ((nvStore 9 1033 1 []).enter 9).dev.nv.running = none ∧
    ((nvStore 9 1033 1 [] ({ · with running := some (512, List.replicate 256 1, 9) })).enter 9).dev.nv.running = some (512, List.replicate 256 1, 9) ∧
    9 + 64 * ceilDiv (List.replicate 256 (1 : Byte)).length 16 ≤ ((nvStore 9 1033 1 []).enter 9).clk.elapsed ∧
    ((nvStore 9 1033 1 []).enter 9).clk.elapsed < 10 + 64 * ceilDiv (List.replicate 256 (1 : Byte)).length 16 ∧
    ((nvStore 9 1033 1 []).enter 9).dev.nv.tested = none ∧
    ((nvStore 9 345600000009 1 [] ({ · with tested := some 9 })).enter 9).dev.nv.tested = some 9 ∧
    9 + 345600000000 ≤ ((nvStore 9 345600000009 1 []).enter 9).clk.elapsed ∧
    ((nvStore 9 345600000009 1 []).enter 9).clk.elapsed < 10 + 345600000000 ∧
    (nvStore 0 9 1 []).Awake 0 ∧ ((nvStore 0 9 1 []).enter 0).dev.on .nvProtect = false ∧
    ((nvStore 0 9 1 [(.nvProtect, 0, 1)]).enter 0).dev.on .nvProtect = true ∧
    (nvStore 2 9 1 []).Awake 2 ∧ ((nvStore 2 9 1 [] ({ · with failing := true })).enter 2).dev.nv.failing = true ∧
    ((nvStore 2 9 1 []).enter 2).dev.nv.failing = false ∧
    ((nvStore 2 9 1 [] ({ · with queue := [ledgerJob] })).enter 2).dev.nv.queued ≠ 0 := by
  delta State.Awake; decide +kernel

/-- The part at a rank and time, its power unit changed, with a power fail since a tick or none. -/
def power (r t : Nat) (xs : List (Obj × Nat × Nat)) (f : PowerUnit → PowerUnit := id) (fails : Option Nat := none) : State :=
  st r t xs fun d => { d with pwr := f d.pwr, nv := { d.nv with failing := fails.isSome, failedAt := fails.getD 0 } }

theorem witness_ResetsRestartThePart :
    ((sleepy 3 9 7 0).enter 3).dev.asleep = true ∧ ((power 3 40009 []).enter 3).dev.asleep = false ∧
    (((power 3 40009 [] id (some 9)).enter 3).dev.nv.failing = true ∧
      ((power 3 40009 [] id (some 9)).enter 3).dev.nv.failedAt + 40000 ≤ ((power 3 40009 [] id (some 9)).enter 3).clk.elapsed) ∧
    ¬(((power 3 40009 [] id (some 10)).enter 3).dev.nv.failedAt + 40000 ≤ ((power 3 40009 [] id (some 10)).enter 3).clk.elapsed) ∧
    ((power 3 9 [] ({ · with resetAt := some 8 })).enter 3).dev.pwr.resetAt = some 8 ∧ 8 < ((power 3 9 []).enter 3).clk.elapsed ∧
    ¬(9 < ((power 3 9 [] ({ · with resetAt := some 9 })).enter 3).clk.elapsed) ∧ ((power 3 9 []).enter 3).dev.nv.queued = 0 ∧
    (power 7 9 []).Awake 7 ∧ ((power 7 9 [] ({ · with leaving := [31] })).enter 7).dev.pwr.leaving ≠ [] ∧
    ((power 7 9 [] ({ · with sleeping := some 8 })).enter 7).dev.pwr.sleeping ≠ none ∧
    (((power 7 9 []).enter 7).dev.pwr.leaving = [] ∧ ((power 7 9 []).enter 7).dev.pwr.sleeping = none ∧
      ((power 7 9 []).enter 7).dev.pwr.resetAt = none) ∧
    ((sleepy 7 9 1 0).dev.g .pwrWakeMask).testBit 0 = true ∧ ((sleepy 7 9 2 0).dev.g .pwrWakeMask).testBit 1 = true ∧
    ((sleepy 7 9 4 0).dev.g .pwrWakeMask).testBit 2 = true ∧ ((sleepy 7 9 3 0).dev.g .pwrWakeMask).testBit 2 = false ∧
    (sleepy 7 4000009 4 1).dev.g .pwrWakeAfter ≠ 0 ∧
    (sleepy 7 4000009 4 1).dev.pwr.asleepAt + (sleepy 7 4000009 4 1).dev.g .pwrWakeAfter * 4000000 ≤ (sleepy 7 4000009 4 1).clk.elapsed ∧
    ¬((sleepy 7 4000008 4 1).dev.pwr.asleepAt + (sleepy 7 4000008 4 1).dev.g .pwrWakeAfter * 4000000 ≤ (sleepy 7 4000008 4 1).clk.elapsed) := by
  delta State.Awake; decide +kernel

/-- The cores running since the end of step 3, the last kick of core 3 and the watchdog resets behind it given. -/
def kicked (r t kick : Nat) (dogs : List Nat) : State := power r t [] fun p =>
  { p with ended := [(3, 0)], kicks := [(3, kick)], dogs := dogs }

theorem witness_StartUpPowerStatesAndCores :
    (power 9 1 []).Awake 9 ∧ (power 9 9 [] ({ · with sleeping := some 8 })).Awake 9 ∧
    ((power 9 9 [] ({ · with sleeping := some 8 })).enter 9).dev.sleepReady = true ∧
    ((power 9 9 [] ({ · with sleeping := some 8, leaving := [31] })).enter 9).dev.sleepReady = false ∧
    ((power 9 9 [] ({ · with began := [], ended := [(1, 0)] })).enter 9).dev.stepEnding = none ∧
    ((power 9 9 [] ({ · with began := [] })).enter 9).dev.stepExpiring ((power 9 9 []).enter 9).env = none ∧
    (power 7 9 []).Awake 7 ∧ ((power 7 9 [] ({ · with leaving := [31] })).enter 7).dev.pwr.leaving ≠ [] ∧
    ((power 7 9 []).enter 7).dev.g .pwrState = 0 ∧ ((power 7 9 [(.pwrState, 0, 1)]).enter 7).dev.g .pwrState = 1 ∧
    ((kicked 7 9 0 []).enter 7).dev.coresRun 9 = true ∧ ((power 7 9 []).enter 7).dev.coresRun 9 = false ∧
    (kicked 3 8000000 0 []).Awake 3 ∧ ((kicked 3 8000000 0 []).enter 3).dev.coresRun 8000000 = true ∧
    max (((kicked 3 8000000 0 []).enter 3).dev.pwr.kicks.getD 3 0) ((kicked 3 8000000 0 []).enter 3).dev.pwr.coresAt
      + ((kicked 3 8000000 0 []).enter 3).dev.g .wdtMs * 4000 ≤ ((kicked 3 8000000 0 []).enter 3).clk.elapsed ∧
    ¬(max (((kicked 3 8000000 1 []).enter 3).dev.pwr.kicks.getD 3 0) ((kicked 3 8000000 1 []).enter 3).dev.pwr.coresAt
      + ((kicked 3 8000000 1 []).enter 3).dev.g .wdtMs * 4000 ≤ ((kicked 3 8000000 1 []).enter 3).clk.elapsed) ∧
    2 ≤ (((kicked 3 2400000000 0 [2, 1]).enter 3).dev.pwr.dogs.filter fun b => decide (2400000000 < b + 2400000000)).length ∧
    (((kicked 3 2400000000 0 [1, 0]).enter 3).dev.pwr.dogs.filter fun b => decide (2400000000 < b + 2400000000)).length < 2 ∧
    ((power 9 9 [] ({ · with began := [(1, 0)] })).enter 9).dev.stepEnding = some 1 ∧
    ((power 9 (stepTimeout 1) []).enter 9).dev.stepExpiring ((power 9 (stepTimeout 1) []).enter 9).env = some 1 := by
  delta State.Awake; decide +kernel


theorem witness_waits_of_the_island_the_store_and_sleep_entry :
    (island 7 9 1 [] ({ · with test := some 9, waiting := [(0x100, 2), (31, 7), (0xFF, 0)] })).Awake 7 ∧
    ((island 7 9 1 [] ({ · with test := some 9, waiting := [(0x100, 2), (31, 7), (0xFF, 0)] })).enter 7).dev.kr.test ≠ none ∧
    ((busy31 7 9 9 true).enter 7).dev.ses.held ≠ [] ∧ ((busy31 7 9 9 true).enter 7).dev.kr.test = none ∧
    ((busy31 3 9 9 true).enter 3).dev.ses.held ≠ [] ∧ ((busy31 3 9 9 true).enter 3).dev.kr.test = none ∧
    ((busy31 9 9 9 true).enter 9).dev.ses.held ≠ [] ∧ ((busy31 9 9 9 true).enter 9).dev.g .nvHoldupState = 0 ∧
    ((nvStore 9 1033 1 [] ({ · with queue := [{ region := 0, id := 3, page := 0, body := [1, 2] }] })).enter 9).dev.nv.queue
      = ({ region := 0, id := 3, page := 0, body := [1, 2] } : NvJob) :: [] ∧
    (((nvStore 9 1033 1 []).enter 9).dev.pairAt ((nvStore 9 1033 1 []).enter 9).env 0 ({ region := 0, id := 3, page := 0, body := [1, 2] } : NvJob).k).2 = false ∧
    ((nvStore 9 1033 1 []).enter 9).dev.jobBursts ((nvStore 9 1033 1 []).enter 9).env { region := 0, id := 3, page := 0, body := [1, 2] } ≠ [] ∧
    ((nvStore 9 1033 1 [] ({ · with running := some (512, [1], 9) })).enter 9).dev.nv.running ≠ none ∧
    ((power 3 9 [(.pwrWakeMask, 0, 1)] ({ · with sleeping := some 8 })).dev.pwr.sleeping ≠ none ∧
      ((power 3 9 [(.pwrWakeMask, 0, 1)] ({ · with sleeping := some 8 })).dev.g .pwrWakeMask).testBit 0 = true) ∧
    ((power 3 9 [(.pwrWakeMask, 0, 6)] ({ · with sleeping := some 8 })).dev.g .pwrWakeMask).testBit 0 = false ∧
    ((power 9 9 [] ({ · with sleeping := some 8, wakeHeld := true })).enter 9).dev.sleepReady = true ∧
    ((power 9 9 [] ({ · with sleeping := some 8, wakeHeld := true })).enter 9).dev.pwr.wakeHeld = true ∧
    ((power 9 9 [] ({ · with sleeping := some 8 })).enter 9).dev.pwr.wakeHeld = false := by
  delta State.Awake; decide +kernel

/-- Firmware state, the slots in use and on trial, and the slots verified. -/
def slots (r state running : Nat) (verified : Tab Bool) (writing : Option Nat) : State :=
  power r 9 [(.fwState, 0, state), (.fwRunning, 0, running)] ({ · with verified := verified, writing := writing })

theorem witness_FirmwareSlotsAndRegisters :
    (slots 7 0 0 [] none).Awake 7 ∧ ((slots 7 1 0 [] none).enter 7).dev.g .fwState ≠ 0 ∧
    ((slots 7 1 0 [] none).enter 7).dev.fwWriteCode ((slots 7 1 0 [] none).enter 7).env 0 = 0x0303 ∧
    ((slots 7 0 0 [] none).enter 7).dev.g .fwState = 0 ∧
    ((slots 7 0 0 [] none).enter 7).dev.pwr.verified.getD (2 * 1 + ((slots 7 0 0 [] none).enter 7).dev.otherSlot 1) false = false ∧
    ((slots 7 0 0 [(3, true)] none).enter 7).dev.pwr.verified.getD (2 * 1 + ((slots 7 0 0 [(3, true)] none).enter 7).dev.otherSlot 1) false = true ∧
    ((slots 7 0 0 [] none).enter 7).dev.serviceCode false = 0 ∧
    ((power 7 9 [(.krIslandState, 0, 2)] ({ · with verified := [(3, true)] })).enter 7).dev.serviceCode false ≠ 0 ∧
    ((power 7 9 [(.krIslandState, 0, 2)] ({ · with verified := [(3, true)] })).enter 7).dev.pwr.verified.getD 3 false = true ∧
    (((slots 7 0 0 [] none).enter 7).dev.g .fwRunning).testBit (4 * 1 + 1) = false ∧
    (((slots 7 0 0x30 [] none).enter 7).dev.g .fwRunning).testBit (4 * 1 + 1) = true ∧ 0x10 / 16 % 2 = 1 ∧
    ((slots 7 0 0 [] none).enter 7).dev.hostBarred 0x110 14 = true ∧ ((slots 7 0 0 [] none).enter 7).dev.hostBarred 0x111 15 = false ∧
    ((slots 7 0 0 [] none).enter 7).dev.hostBarred 0x110 15 = false ∧ 0x111 % 4 ≠ 0 ∧
    ((slots 7 0 0 [] none).enter 7).dev.keepFails .ptpEnable 0 0 [] = 0 ∧ ((slots 7 0 0 [] none).enter 7).dev.keepFails .ptpEnable 0 1 [] = 0 ∧
    ((power 7 9 [(.tbState, 0, 2)]).enter 7).dev.g .tbState ≠ 0 ∧
    (slots 8 0 0 [] none).Awake 8 ∧ claimAt 0x110 = none ∧ stampAt 0x110 = none ∧ openRegister 0x110 = none ∧
    (slots 9 1 0 [] (some 3)).Awake 9 ∧ ((slots 9 1 0 [] (some 3)).enter 9).dev.pwr.writing = some 3 ∧
    ((slots 9 1 0 [] none).enter 9).dev.pwr.writing = none := by
  delta State.Awake; decide +kernel

/-- An island image of length 0 at the start of the Porter area. -/
def image : State :=
  let s := slots 7 0 0 [] none
  { s with dev := ((s.dev.put .dramCapMib 0 4096).put .dramCoreMib 0 0).put .dramPorterMib 0 2,
           mem := { s.mem with dram := [(2 ^ 22, 0x45), (2 ^ 22 + 1, 0x5A), (2 ^ 22 + 2, 0x49), (2 ^ 22 + 3, 0x31), (2 ^ 22 + 4, 1)] } }

/-- Whether signatures verify is the hashes' and the images' affair (`Config.imageOk`); where they do, the image may be
written. -/
theorem witness_FirmwareSlotsAndRegisters_image :
    Config.imageOk false [] [] ((image.enter 7).dev.porterBytes (image.enter 7).env 0 imageHead) = true →
      (image.enter 7).dev.fwWriteCode (image.enter 7).env 0x10 = 0 := by
  intro h
  have hk : fwKind 0x10 = 1 := by decide +kernel
  have ho : fwOffset 0x10 = 0 := by decide +kernel
  have hl : blobField ((image.enter 7).dev.porterBytes (image.enter 7).env 0 imageHead) 0xC 4 = 0 := by decide +kernel
  have he : (image.enter 7).dev.fuses = {} := rfl
  rw [Dev.fwWriteCode, hk, ho]
  rw [hl, he, Nat.add_zero, if_neg (by decide +kernel), if_neg (by decide +kernel), if_neg (by decide +kernel),
    if_neg (by decide +kernel), if_neg (by decide +kernel), if_neg (by decide +kernel), if_neg,
    if_neg (by decide +kernel)]
  rintro (x | x | x)
  · exact x (by decide +kernel)
  · exact x (by decide +kernel)
  · rw [h] at x; exact absurd x (by decide)

theorem witness_ObjectAddressesRoundTrip :
    (1023 : Nat) < Obj.dstSrc0.info.count ∧ decodeObj (Obj.dstSrc0.index 1023) (Obj.dstSrc0.subindex 1023) = some (.dstSrc0, 1023) := by
  decide +kernel

/-- A maker's session asks for each action object, with a value none of its actions has. -/
theorem witness_ActionObjectsActOnTheirValues :
    (.tkGo, [1, 2, 3]) ∈ actions ∧ (ses31 7 3 []).Awake 7 ∧ (ses31 7 3 []).Serves 7 (.can 1 5) ∧
    ((ses31 7 3 []).enter 7).dev.sessionOf (.can 1 5) = some 31 ∧
    decodeObj (Obj.tkGo.index 0) (Obj.tkGo.subindex 0) = some (.tkGo, 0) ∧
    targetCode (.can 1 5) (some 31) (Obj.tkGo.index 0) (Obj.tkGo.subindex 0) false = 0 ∧
    (actions.all fun x =>
      let o := x.1
      ((ses31 7 3 []).touched 7 (.can 1 5)).writeCode (((ses31 7 3 []).touched 7 (.can 1 5)).roleOf (some 31)) o == 0 &&
      o.formCode (List.replicate o.info.ty.bytes 255) == 0 &&
      !x.2.contains (o.number (List.replicate o.info.ty.bytes 255))) = true := by
  delta State.Serves State.Awake; dsimp only; decide +kernel


theorem witness_FirmwareSlotsAndRegisters_ptp :
    (power 7 9 []).Awake 7 ∧ ((power 7 9 [(.laneProto, 32, 0)]).enter 7).dev.ptpMacsOk = false ∧
    ((power 7 9 []).enter 7).dev.ptpMacsOk = true ∧
    ((power 7 9 [(.ptpEnable, 0, 0)]).enter 7).dev.on .ptpEnable = false ∧ ((power 7 9 []).enter 7).dev.on .ptpEnable = true := by
  delta State.Awake; decide +kernel

/-! ## Ill-formed commands: each checked operand just past its range, the others at their least -/

def illFormed0 : List Instr := [
  .frameStart 32, .commitPoint 32, .outputLine 128 0 [] 0 0, .writeBackComplete 128, .captureComplete 128,
  .tbAddend (2 ^ 32), .latchedRead .host (2 ^ 25), .receiveFrame 24 (frame 64 .eapol), .frameCloseTimeout 256,
  .pathTimeout 256 0, .pathTimeout 0 2, .sourceLoss 256, .injectionTake 256, .injectionCopyDone 256 [] [],
  .generatorFrameDone 256, .sliceDecodeDone 256 0 0 none 0, .sliceDecodeDone 0 256 0 none 0, .sliceEncodeDone 128 0,
  .sliceEncodeDone 0 256, .stgOpen 32, .stgSeal 32, .stgSealHeld 32, .stgAbandon 32, .take 128, .takeCancel 128,
  .salvoCopy 128, .salvoGo 32, .salvoCancel 32, .salvoClear 32, .engineHardFault 25]

def illFormed1 : List Instr := [
  .lateResponse 86, .engineBistStart 25, .engineBistResult 25 false, .bistAbandon false 25, .codecBistStart 24,
  .codecBistResult 24 false, .engReadmit 25, .engReadmitDone 25 false, .codecFault 24, .cdcReadmit 24,
  .cdcReadmitDone 24 false, .bistForceFault 65536, .packetDue 128, .latePacketHandover 128, .transmitFrame 24 none,
  .irqHpd 8 [], .unplug 8, .plug 8 [] [], .linkTrainingDone 8 .pass, .headRetry 8, .headRetrain 8, .auxTimeout 8,
  .dpcdPoll 8 false, .frameSync 16 [], .portLoss 16, .pllLock 4, .pllRefLoss 4, .trackerLock 16 0,
  .trackerLock 0 (2 ^ 32), .mixSample 1024]

def illFormed2 : List Instr := [
  .duckBlock 1024, .sampleMissing 1024, .flowLoss 64, .porterNop 4, .porterCopy 4 [], .porterFill 4 [],
  .porterBlend 4 [], .porterCompletion 4 false, .porterAbort 4, .porterResume 4, .laneAttempt 48, .laneUp 48,
  .signalLoss 48 false, .quadPllLoss 12, .quadPllLock 12, .eqFreeze 48, .eqResume 48, .readaptation 48, .laneRecal 48,
  .laneTest 48 0, .laneTest 0 256, .laneLoop 48 0, .laneLoop 0 256, .laneInject 48, .checkerClear 48,
  .arpRefresh 24 0, .arpRefresh 0 (2 ^ 32), .msTxAn 24 0 false, .msTxAn 0 4 false, .keyLoadComplete 24]

def illFormed3 : List Instr := [
  .saRetire 192 0, .saRetire 0 4, .ethLoop 24 0, .ethLoop 0 256, .tsIdPop 24, .pcieReset 4, .pcieLoop 256,
  .pantryWindowWrite (2 ^ 26) [], .ringEnable 65536, .ringDisable 65536, .ringReset 65536, .ringClearError 65536,
  .ringDescWrite (2 ^ 20) 0, .ringDescWrite 0 (2 ^ 32), .doorbell .host 65536 0 0, .doorbell .host 0 (2 ^ 64) 0,
  .doorbell .host 0 0 256, .entryFetch 65536 [] false, .dchEvacuate 8, .stripeMoved 8, .dchRetrain 8,
  .dchTrainingDone 8 false, .dchReadmit 8, .dchLoop 8 0, .dchLoop 0 256, .mr4Poll 8 0, .mr4Poll 0 8, .inkMaskSet 32 0,
  .inkMaskClr 32 0, .inkPendSet 32 0]

def illFormed4 : List Instr := [
  .inkPendClr 32 0, .inkFire 1024, .inkClaim 4, .inkComplete 4 0, .inkComplete 0 1024, .holdRelease 64, .hqArm 65536,
  .objectRead (.can 0 0) 65536 0, .objectRead (.can 0 0) 0 256, .objectWrite (.can 0 0) 65536 0 [],
  .objectWrite (.can 0 0) 0 256 [], .registerWrite .host (2 ^ 25) 0 0, .registerWrite .host 0 (2 ^ 32) 0,
  .registerWrite .host 0 0 16, .lockoutEnd 5, .sesClose 32, .sesKill 32 0, .sesKill 0 32, .sessionIdle 32, .busOff 2,
  .nmtResetNode 2, .nmtResetCommunication 2, .usdoSegment (.can 0 0) 65536 0 [] false,
  .usdoSegment (.can 0 0) 0 256 [] false, .heartbeat 2, .lcStep 32, .ledgerAck (2 ^ 64), .krGenerate 32,
  .krImportComponents 32, .krImportTransport 32]

def illFormed5 : List Instr := [
  .krExport 32, .krRevoke 32, .krLoad 32, .krQuery 32, .kcValue 32 [], .componentTimeout 32, .krZeroiseAll 32,
  .imgEnrol 32, .rbAdvance 32 0, .rbAdvance 0 2, .physicalTamper 16, .environmentalTamper 16, .tamperClear 16,
  .wdtKick 4 0, .wdtKick 0 (2 ^ 32), .watchdogExpiry 4, .fwWrite (2 ^ 64), .fwHandover (2 ^ 64), .fwConfirm (2 ^ 64),
  .ptArm 8, .ptStop 8, .ptExpiry 8, .pllLockLoss 4, .pllRefReturn 4, .dpAbsenceTimeout 8, .recalAttemptFailed 48,
  .checkerLock 48, .checkerLockLoss 48, .farEndSlip 48, .linkFaultReceived 24]

def illFormed6 : List Instr := [
  .linkFaultCleared 24, .memoryScrub 9 0 0, .nmtCommand 2 0, .nmtCommand 0 256]

theorem test_ill_formed_commands_are_refused :
    ([illFormed0, illFormed1, illFormed2, illFormed3, illFormed4, illFormed5, illFormed6].all fun cs => cs.all fun c => !c.wf) = true := by decide

/-! ## Values the spec works out -/

/-- Chapter 10's worked example: a JPEG XS send of 1920 × 1080 at 4 bits a pixel and a payload of 1,400. -/
def camera2A : Dev := (st 9 1 [(.depXsProfile, 40, 1), (.depXsBpp, 40, 64), (.depXsPayload, 40, 1400), (.depBind, 40, 1)]).dev

theorem test_codestream_of_the_departure_leg :
    camera2A.xsSlices 40 = 68 ∧ camera2A.xsSliceBytes 40 0 = 15360 ∧ camera2A.xsSlicePackets 40 0 = 11 ∧
    camera2A.xsSliceBytes 40 67 = 7680 ∧ camera2A.xsSlicePackets 40 67 = 6 ∧
    ((List.range 68).map (camera2A.xsSlicePackets 40)).sum = 744 - 1 := by
  decide +kernel

/-- Chapter 8's worked example: the needs of a full-screen layer, of an interpolating tile, of a map before and after. -/
theorem test_line_buffers_of_the_growing_map :
    (⟨3840, 2160, 1, 10, 0, 0, 3840, 2160, 0, 0, 3840, 2160⟩ : Geom).need false 4 = 28992 ∧
    (⟨1920, 1080, 1, 10, 0, 0, 1920, 1080, 0, 0, 1280, 720⟩ : Geom).need true 4 = 23296 ∧
    (⟨960, 540, 3, 10, 0, 0, 960, 540, 0, 0, 1280, 720⟩ : Geom).need true 4 = 13056 ∧
    (⟨1920, 1080, 3, 10, 0, 0, 1920, 1080, 0, 0, 1280, 720⟩ : Geom).need true 4 = 34816 ∧
    (⟨1920, 1080, 3, 10, 0, 0, 1920, 1080, 0, 0, 1280, 720⟩ : Geom).need true 2 = 17408 := by decide +kernel

/-- Chapter 5's worked example: the weight of the later frame. -/
theorem test_weights_of_the_cab_monitor :
    roundUp (64 * ((15000000 - 0 : Rat) / 40000000)) = 24 ∧ roundUp (64 * ((31666667 - 0 : Rat) / 40000000)) = 51 ∧
    roundUp (64 * ((81666667 - 80000000 : Rat) / 40000000)) = 3 := by decide +kernel

/-- Chapter 7's worked example: the segments of a 4:2:2 10-bit tile's columns, and the pitches of two formats. -/
theorem test_segments_of_a_tile :
    segmentsOf 1 10 1920 637 1282 = (List.range 27).map (24 + ·) ∧ roomPitch 1 10 1920 = 4800 ∧ roomPitch 3 8 1920 = 5760 := by
  decide +kernel

/-- Chapter 13's worked example: the coefficient of −24 dB. R257: 0 dB is 2^24. -/
theorem test_gain_coefficients : gainCoef (-2400) = 1058571 ∧ gainCoef 0 = 2 ^ 24 := by decide +kernel

/-- Chapter 12's worked example: slot 7 of eight 32-bit slots, offset 1, ends on bit clock 0; PLL 1's reference. -/
theorem test_slots_and_clocks_of_the_amplifiers :
    (st 4 1 [(.tdmSlotOffset, 3, 1), (.tdmSlotWidth, 3, 32), (.tdmFrameLen, 3, 256)]).dev.bitClock 3 7 31 % 256 = 0 ∧
    (st 4 1 [(.pllRef, 1, 0x15)]).dev.resolve 5 = 0x15 ∧ (st 4 1 []).dev.resolve 4 = 0 := by decide +kernel

/-- Chapter 23's worked example: record 9,001 lies at offset 0xC0 of page 1,700. -/
theorem test_ledger_record_address : ledgerAt 9001 = 1700 * 256 + 0xC0 ∧ ledgerAt 9003 = 1701 * 256 := by decide +kernel

/-- Chapter 3's worked example: the load of a door camera; chapter 16's: the share of a 25 Gb/s link held for media. -/
theorem test_loads_and_shares :
    (st 9 1 [(.arrKind, 17, 1)]).dev.arrLoad 17 = 124416000 ∧
    (st 9 1 [(.ethSpeed, 6, 1), (.ethAvShare, 6, 75)]).dev.macShare 6 = 18750000000 := by decide +kernel

/-- Chapter 17's worked example: an A'R'G'B' surface of 1920 × 64 has a pitch of 7,680 and 491,520 bytes. -/
theorem test_banner_surface :
    (fmtOf 0xF0).map (fun f => ((⟨0, 7680, 2, f, codingOf true 0, 64, 1920, 0, 0, 1920, 64⟩ : Surf).lineBytes,
      (⟨0, 7680, 2, f, codingOf true 0, 64, 1920, 0, 0, 1920, 64⟩ : Surf).touchedBytes)) = some (7680, 491520) := by decide +kernel

/-- R552's examples. -/
theorem test_actions_by_value :
    Obj.stgOpen.rangeFails 1 = 0 ∧ Obj.stgOpen.rangeFails 0 = 0x0201 ∧ Obj.srcPend.rangeFails 2 = 0 ∧
    Obj.srcPend.rangeFails 3 = 0x0201 ∧ Obj.tkGo.rangeFails 3 = 0 ∧ Obj.tkGo.rangeFails 4 = 0x0201 := by decide +kernel

/-- R431: layer 8 d + l stands at 0x3800 + n; R414: four destinations share an index. -/
theorem test_object_addresses :
    decodeObj 0x3BF9 0x0A = some (.layZ, 1017) ∧ decodeObj 0x42FF 0xC1 = some (.dstSrc0, 1023) ∧ decodeObj 0x0FFF 0 = none := by
  decide +kernel

/-! ## Single commands -/

/-- R32, R47: a tick of 250 ns at the nominal addend. -/
theorem test_tick_advances_the_time_base :
    after (exec .tick State.reset) (fun t => t.clk.timebase == 250 && t.clk.elapsed == 1 && t.clk.rank == 0) = true := by
  decide +kernel

/-- R38: the counter wraps at 2^48. -/
theorem test_tick_counter_wraps :
    after (exec .tick (st 9 (2 ^ 48 - 1) [])) (fun t => t.clk.tick == 0 && t.clk.elapsed == 2 ^ 48) = true := by decide +kernel

/-- R114, R130: the lowest FREE staging from 1 opens for the session. -/
theorem test_stg_open :
    after (exec (.stgOpen 31) (ses31 7 3 [(.stgState, 1, 2)])) (fun t =>
      t.dev.g .stgState 2 == 1 && t.dev.g .stgOwner 2 == 31 && t.dev.g .stgState 1 == 2 && t.dev.answer.code == 0) = true := by
  decide +kernel

/-- R417: without a session a write is refused with 0x0102; R120: a take on a departure that is not LIVE with 0x0346. -/
theorem test_refusals :
    after (exec (.stgOpen 30) (ses31 7 3 [])) (fun t => t.dev.answer.code == 0x0102) = true ∧
    after (exec (.take 127) (st 7 9 [])) (fun t => t.dev.g .tkStatus 127 == 0x0346 && t.dev.g .tkState 127 == 0) = true := by
  decide +kernel

/-- R329, R339: a read of TS_ID takes the oldest entry: sequenceId, messageType and the valid bit. -/
theorem test_ts_id_pop :
    after (exec (.tsIdPop 23) (mac23tx 8 1 0 [] [(0x1234, 2, 5), (7, 0, 6)])) (fun t =>
      t.dev.answer.word == 0x80021234 && (t.dev.mac 23).stamps == [(7, 0, 6)]) = true := by decide +kernel

/-- R322: a link fault takes the link DOWN. -/
theorem test_link_fault :
    after (exec (.linkFaultReceived 23) (mac23arp none 9)) (fun t => t.dev.g .ethLink 23 == 0 && (t.dev.mac 23).fault == some 240000009)
      = true := by decide +kernel

/-- R69: an injected frame's sequence number is one more. -/
theorem test_generated_frame_is_stored :
    after (exec (.generatorFrameDone 255) (arr255 4 1 5 (some (asm 0 [] .ring)) [(.arrSeq, 255, 2 ^ 32 - 1)])) (fun t =>
      t.dev.g .arrSeq 255 == 0 && t.dev.g .arrState 255 == 2 && t.dev.g .arrFrameTime 255 == 0) = true := by decide +kernel

/-- R460: revoking leaves the number revoked for good; creating it again is refused with 0x064F. -/
theorem test_revoked_key :
    after (exec (.krRevoke 31) (keyring 3 (tpl 9 0) [] wrapped)) (fun t => t.dev.keyState 9 == 3 && t.dev.kr.slots.find 9 == none) = true ∧
    after (exec (.krGenerate 31) (keyring 3 (tpl 8 0) [] fun d => { d with kr := { d.kr with recs := [(8, ⟨true, []⟩)] } }))
      (fun t => t.dev.answer.code == 0x064F) = true := by decide +kernel

/-- R497: an accepted software reset happens once the FIFO is empty in a later tick, with cause 3. -/
theorem test_software_reset :
    after (exec .softwareResetRegister (power 3 9 [] ({ · with resetAt := some 8 }))) (fun t => t.dev.g .suCause == 3) = true ∧
    after (exec .softwareResetRegister (power 3 9 [] ({ · with resetAt := some 9 }))) (fun t => t.dev.g .suCause == 1) = true := by
  decide +kernel

/-- R483: 1,800 nF pass, less fail. -/
theorem test_holdup :
    after (exec (.holdupTestDone 1800) (nvStore 9 8409 0 [] ({ · with testing := some 9 }))) (fun t => t.dev.g .nvHoldupState == 1) = true ∧
    after (exec (.holdupTestDone 1799) (nvStore 9 8409 0 [] ({ · with testing := some 9 }))) (fun t => t.dev.g .nvHoldupState == 2) = true := by
  decide +kernel

/-- R511, R513: a handover to a slot that is not verified answers 0x0304. -/
theorem test_handover_of_an_unverified_slot :
    after (exec (.fwHandover 0x10) (slots 7 0 0 [] none)) (fun t => t.dev.g .fwStatus == 0x0304 && t.dev.g .fwState == 0) = true := by
  decide +kernel

/-! ## A step -/

/-- The front of the queue is taken, the rest waits; an empty queue idles. -/
theorem test_step_takes_the_front :
    after (step { State.reset with pending := [.tick, .powerOn] }) (fun t => t.pending == [.powerOn] && t.clk.elapsed == 1) = true ∧
    step State.reset = .next State.reset ∧ State.reset.pending = [] := by
  refine ⟨by decide +kernel, rfl, rfl⟩

/-- The table gives no command bits, so no word spells one (log entry 122). -/
theorem test_no_word_spells_a_command : decodeTableWord 32 0xFFFFFFFF = none ∧ decodeTableWord 0 0 = none := by decide

end Sys2Proof.Tests
end

section
/-!
What every command keeps (O2): each meaning answers a next state, and that state keeps the queue, the canonical form of
the memories, the soundness of the clock and the absence of posted writes (`State.Keeps`). Most meanings are one effect at
a rank (`State.at_keeps`) or at a place inside a rank (`State.ordered_at_keeps`); the others have a lemma each.
-/

namespace Sys2Proof.Machine

/-! ## Ways to answer a state that keeps -/

theorem State.Keeps.next {s t : State} (h : s.Keeps t) : ∃ u, (.next t : Out) = .next u ∧ s.Keeps u := ⟨t, rfl, h⟩

theorem State.Keeps.andThen {s t : State} {o : Out} (h : s.Keeps t) (k : ∃ u, o = .next u ∧ t.Keeps u) :
    ∃ u, o = .next u ∧ s.Keeps u := by
  obtain ⟨u, ho, hu⟩ := k
  exact ⟨u, ho, h.trans hu⟩

theorem State.Keeps.run {s t : State} (h : s.Keeps t) (f : Env → Dev → Dev) : s.Keeps (t.run f) :=
  h.trans (t.run_keeps f)

theorem State.ordered_at_keeps (s : State) (r k q : Nat) (f : Env → Dev → Dev) :
    ∃ t, (s.ordered r k).at q f = .next t ∧ s.Keeps t :=
  (s.ordered_keeps r k).andThen (State.at_keeps _ q f)

theorem State.takeTrdp_keeps (s : State) (m : Nat) (body : EthBody) (passed : Bool) :
    ∃ t, s.takeTrdp m body passed = .next t ∧ s.Keeps t := by
  unfold State.takeTrdp
  split
  · split
    · exact s.at_keeps _ _
    · exact (State.Keeps.refl s).next
  · exact (State.Keeps.refl s).next

/-- An effect at a rank, after which the held requests may go on. -/
theorem State.enter_run_thenHeld_keeps (s : State) (r : Nat) (f : Env → Dev → Dev) :
    ∃ t, ((s.enter r).run f).thenHeld = .next t ∧ s.Keeps t :=
  ((s.enter_keeps r).run f).andThen (State.thenHeld_keeps _)

/-! ## The tick and the time base -/

theorem execTick_keeps (s : State) : ∃ t, execTick s = .next t ∧ s.Keeps t := s.closeTick_keeps.next

theorem execTickWrap_keeps (s : State) : ∃ t, execTickWrap s = .next t ∧ s.Keeps t :=
  (State.Keeps.ite _ s.closeTick_keeps (.refl s)).next

theorem execTickCaptureLatch_keeps (s : State) : ∃ t, execTickCaptureLatch s = .next t ∧ s.Keeps t :=
  (State.Keeps.ite _ s.closeTick_keeps (.refl s)).next

/-- A sync may step or slew the clock before the servo takes it. -/
theorem execServoHandoff_keeps (r : Servo) (s : State) : ∃ t, execServoHandoff r s = .next t ∧ s.Keeps t := by
  have he := s.enter_keeps 9
  unfold execServoHandoff
  by_cases ha : (s.enter 9).dev.asleep
  · simp only [ha, if_true]
    exact he.next
  · simp only [ha, Bool.false_eq_true, if_false]
    cases r with
    | sync off =>
      have hclock := State.Keeps.ite (!(s.enter 9).dev.on .ptpEnable || !(s.enter 9).dev.time.master) (.refl (s.enter 9))
        (.ite ((s.enter 9).dev.steps off) (State.stepBy_keeps _ (-off)) (State.slewBy_keeps _))
      exact ((he.trans hclock).run _).next
    | _ => exact (he.run _).next

theorem execStepGo_keeps (s : State) : ∃ t, execStepGo s = .next t ∧ s.Keeps t :=
  ((s.enter_keeps 7).trans (.ite _ (State.stepBy_keeps _ _) (.refl _))).next

theorem execTbAddend_keeps (v : Nat) (s : State) : ∃ t, execTbAddend v s = .next t ∧ s.Keeps t :=
  ((s.enter_keeps 7).trans (.ite _ (.refl _) (State.clk_keeps _ _ (Clock.addend_sound _ _)))).next

/-! ## Frames and registers -/

theorem execReceiveFrame_keeps (m : Nat) (f : EthFrame) (s : State) : ∃ t, execReceiveFrame m f s = .next t ∧ s.Keeps t :=
  ((s.enter_keeps 4).run _).andThen (State.takeTrdp_keeps _ _ _ _)

theorem execRegisterWrite_keeps (w : Who) (a v be : Nat) (s : State) :
    ∃ t, execRegisterWrite w a v be s = .next t ∧ s.Keeps t := by
  have hhost := State.Keeps.ite ((s.enter 7).dev.hostBarred a be) (State.run_keeps (s.enter 7) fun _ d => d.barDrop)
    (State.regWrite_keeps _ w a v)
  have hcore := State.Keeps.ite (be ≠ 15) (.refl (s.enter 7)) (State.regWrite_keeps _ w a v)
  exact ((s.enter_keeps 7).trans (.ite _ (.refl _) (.ite _ hhost hcore))).next

/-! ## Life cycle and tampers -/

theorem execLcFuseBurnt_keeps (s : State) : ∃ t, execLcFuseBurnt s = .next t ∧ s.Keeps t := by
  refine ((s.enter_keeps 3).trans ?_).next
  cases (s.enter 3).dev.pwr.burning with
  | none => exact .refl _
  | some b => exact .ite _ (.refl _) ((State.run_keeps _ _).trans (State.drainedReset_keeps _ 4))

theorem execLcRecoverResult_keeps (pass : Bool) (s : State) :
    ∃ t, execLcRecoverResult pass s = .next t ∧ s.Keeps t :=
  ((s.enter_keeps 3).trans (.ite _ (.refl _)
    (.ite _ ((State.run_keeps _ _).trans (State.drainedReset_keeps _ 5)) (State.run_keeps _ _)))).next

/-- In SLEEP a physical tamper wakes the part; otherwise it is an effect at rank 1. -/
theorem execPhysicalTamper_keeps (det : Nat) (s : State) : ∃ t, execPhysicalTamper det s = .next t ∧ s.Keeps t := by
  unfold execPhysicalTamper
  split
  · exact (s.sleepTamper_keeps det).next
  · exact s.at_keeps 1 _

/-- In SLEEP an environmental tamper wakes the part; otherwise held requests may go on after it. -/
theorem execEnvironmentalTamper_keeps (det : Nat) (s : State) :
    ∃ t, execEnvironmentalTamper det s = .next t ∧ s.Keeps t := by
  unfold execEnvironmentalTamper
  split
  · exact (s.sleepTamper_keeps det).next
  · exact s.enter_run_thenHeld_keeps 1 _

/-! ## Resets, sleep and wakes -/

theorem execPowerOn_keeps (s : State) : ∃ t, execPowerOn s = .next t ∧ s.Keeps t := (s.coldReset_keeps _).next

theorem execPinReset_keeps (s : State) : ∃ t, execPinReset s = .next t ∧ s.Keeps t :=
  ((s.enter_keeps 3).trans (.ite _ (.refl _) (State.warmReset_keeps _ _))).next

theorem execBrownOut_keeps (s : State) : ∃ t, execBrownOut s = .next t ∧ s.Keeps t :=
  ((s.enter_keeps 3).trans (.ite _ (State.warmReset_keeps _ _) (.refl _))).next

theorem execSoftwareResetRegister_keeps (s : State) : ∃ t, execSoftwareResetRegister s = .next t ∧ s.Keeps t :=
  ((s.enter_keeps 3).trans (.ite _ (State.warmReset_keeps _ _) (.refl _))).next

theorem execSleepEntryDone_keeps (s : State) : ∃ t, execSleepEntryDone s = .next t ∧ s.Keeps t :=
  ((s.enter_keeps 9).trans (State.endEntry_keeps _)).next

/-- During sleep entry the pin is held for later; otherwise it is a wake source like the others. -/
theorem execWakePin_keeps (s : State) : ∃ t, execWakePin s = .next t ∧ s.Keeps t := by
  unfold execWakePin
  split
  · exact (State.Keeps.ite _ (s.run_keeps _) (.refl s)).next
  · exact s.wakeIf_keeps 0 1 true

/-! ## Every command -/

/-- Every command answers a next state that keeps the queue, the form of the memories, the soundness of the clock and the
absence of posted writes. -/
theorem exec_keeps (c : Instr) (s : State) : ∃ t, exec c s = .next t ∧ s.Keeps t := by
  cases c with
  | tick => exact execTick_keeps s
  | tickWrap => exact execTickWrap_keeps s
  | tickCaptureLatch => exact execTickCaptureLatch_keeps s
  | servoHandoff r => exact execServoHandoff_keeps r s
  | stepGo => exact execStepGo_keeps s
  | tbAddend v => exact execTbAddend_keeps v s
  | receiveFrame m f => exact execReceiveFrame_keeps m f s
  | registerWrite w a v be => exact execRegisterWrite_keeps w a v be s
  | lcFuseBurnt => exact execLcFuseBurnt_keeps s
  | lcRecoverResult pass => exact execLcRecoverResult_keeps pass s
  | physicalTamper det => exact execPhysicalTamper_keeps det s
  | environmentalTamper det => exact execEnvironmentalTamper_keeps det s
  | powerOn => exact execPowerOn_keeps s
  | pinReset => exact execPinReset_keeps s
  | brownOut => exact execBrownOut_keeps s
  | softwareResetRegister => exact execSoftwareResetRegister_keeps s
  | sleepEntryDone => exact execSleepEntryDone_keeps s
  | wakePin => exact execWakePin_keeps s
  | canWake | wakeTimer => exact s.wakeIf_keeps _ _ _
  | nvBurst | entropyTestFailure | islandSelftestDone => exact s.enter_run_thenHeld_keeps _ _
  | frameStart | commitPoint | holdoverTimeout | sourceLoss | portLoss | flowLoss | engineHardFault | engineBistResult
  | codecBistResult | codecFault | porterNop | porterCopy | porterFill | porterBlend | porterCompletion =>
    exact s.ordered_at_keeps _ _ _ _
  | _ => exact s.at_keeps _ _

/-- Settles O2: `exec_keeps` gives the next state, its queue and its posted writes. -/
theorem everyCommandAnswersAndKeepsTheQueue : Obligations.EveryCommandAnswersAndKeepsTheQueue := by
  intro c s
  obtain ⟨t, hnext, hkeeps⟩ := exec_keeps c s
  exact ⟨t, hnext, hkeeps.pending, hkeeps.posts⟩

end Sys2Proof.Machine
end

section
/-!
SUPPORT. What running an effect leaves of objects, rank 9 and memories, and what an object reads after a write.
-/

namespace Sys2Proof.Machine

/-! ## Running an effect -/

@[simp] theorem State.run_g (s : State) (f : Env → Dev → Dev) (o : Obj) (i : Nat) :
    (s.run f).dev.g o i = (f s.env s.dev).g o i := rfl

@[simp] theorem State.run_late (s : State) (f : Env → Dev → Dev) : (s.run f).dev.late = (f s.env s.dev).late := rfl

@[simp] theorem State.run_time (s : State) (f : Env → Dev → Dev) : (s.run f).dev.time = (f s.env s.dev).time := rfl

theorem State.run_mem_of_posts (s : State) (f : Env → Dev → Dev) (h : (f s.env s.dev).posts = []) :
    (s.run f).mem = s.mem := by
  rw [State.run_quiet s f h]

/-- An effect that changes nothing. -/
theorem State.run_id (s : State) (f : Env → Dev → Dev) (hf : f s.env s.dev = s.dev) (h : s.dev.posts = []) :
    s.run f = s := by
  rw [State.run_quiet s f ((congrArg Dev.posts hf).trans h)]
  exact congrArg s.become hf

theorem Dev.when_of_true {c : Bool} (d : Dev) (f : Dev → Dev) (h : c = true) : d.when c f = f d := by
  unfold Dev.when
  rw [if_pos h]

theorem Dev.fire_mem_late (d : Dev) (x : Nat) : Late.fire x ∈ (d.fire x).late := by simp

/-! ## Reading an object after a write -/

@[simp] theorem Dev.g_put_same (d : Dev) (o : Obj) (i v : Nat) : (d.put o i v).g o i = v % 2 ^ o.info.ty.width := by
  simp [Dev.g]

/-- Objects of other numbers have other keys. -/
theorem Dev.g_put_other (d : Dev) (o p : Obj) (i k v : Nat) (h : p.ctorIdx % 1024 ≠ o.ctorIdx % 1024) :
    (d.put o i v).g p k = d.g p k := by
  unfold Dev.g
  rw [Dev.put_objs, Tab.getD_put_other]
  unfold Obj.key
  omega

end Sys2Proof.Machine
end

section
/-!
Steps and ticks: the queue (O1), the invariant (O3, O4), the ticks of the counter and the capture (O6).
-/

namespace Sys2Proof.Machine

/-! ## Steps -/

/-- Settles O1: both halves are the two cases of the queue. -/
theorem stepTakesFrontCommandOrIdles : Obligations.StepTakesFrontCommandOrIdles := by
  refine ⟨fun _ _ _ => rfl, fun s h => ?_⟩
  unfold step
  rw [h]

/-- Taking the command from the queue leaves what the invariant speaks of. -/
theorem State.Inv.pending {s : State} (h : s.Inv) (cs : List Instr) : State.Inv { s with pending := cs } := h

/-- Settles O3: an idle step answers the state itself, and any other is a command, which keeps (`exec_keeps`). -/
theorem stepKeepsInvariant : Obligations.StepKeepsInvariant := by
  intro s t hs hstep
  unfold step at hstep
  split at hstep
  case h_1 => cases hstep; exact hs
  case h_2 c rest _ =>
    obtain ⟨u, hnext, hkeeps⟩ := exec_keeps c { s with pending := rest }
    cases hnext.symm.trans hstep
    exact hkeeps.inv (hs.pending rest)

theorem State.reset_inv : State.reset.Inv := ⟨Clock.reset_sound, rfl, rfl⟩

/-- Settles O4: every table of the state after reset is empty, so each lookup answers its default. -/
theorem resetHoldsInvariantAndDefaults : Obligations.ResetHoldsInvariantAndDefaults :=
  ⟨State.reset_inv, fun _ _ => rfl, rfl, rfl, rfl, fun _ => ⟨rfl, rfl⟩, fun _ => rfl, fun _ => rfl, fun _ => rfl,
    rfl, rfl, rfl, rfl⟩

/-! ## The clock's advance -/

@[simp] theorem Clock.next_elapsed (c : Clock) : c.next.elapsed = c.elapsed + 1 := rfl

/-- One carry moves from the fraction into the time base, so the two together grow as one number of 92 bits (R32). -/
theorem Clock.next_timebase_frac (c : Clock) :
    c.next.timebase * 2 ^ 28 + c.next.frac = (c.timebase * 2 ^ 28 + c.frac + 100 * c.addend) % 2 ^ 92 := by
  simp only [Clock.next]
  omega

/-- The counter wraps after its last tick (R38). -/
theorem Clock.next_tick_of_last (c : Clock) (h : c.tick = 2 ^ 48 - 1) : c.next.tick = 0 := by
  simp only [Clock.tick, Clock.next_elapsed] at h ⊢
  omega

/-! ## The tick boundary -/

/-- A wrap of the counter fires in the tick that begins (R38, R45). -/
theorem Dev.boundary_fires_wrap (e : Env) (d : Dev) (h : e.clk.next.tick = 0) :
    Late.fire 0x073 ∈ (d.boundary e).late := by
  unfold Dev.boundary
  simp only [h, if_true]
  exact Dev.fire_mem_late _ _

/-- An armed capture takes the tick and the time base of the boundary, and is disarmed (R47). -/
theorem Dev.boundary_latches (e : Env) (d : Dev) (h : d.time.capArmed = true) :
    (d.boundary e).time.capArmed = false ∧ (d.boundary e).time.capTime = e.clk.next.timebase ∧
      (d.boundary e).time.capTick = e.clk.next.tick := by
  unfold Dev.boundary
  simp only [h, if_true]
  split <;> exact ⟨rfl, rfl, rfl⟩

/-- In a block that is awake the tick ends with its ranks and the boundary. -/
theorem State.tickEnd_awake (s : State) (h : s.dev.asleep = false) :
    s.dev.tickEnd s.env = ((s.dev.due s.env s.clk.rank 9).rank9 s.env).boundary s.env := by
  unfold Dev.tickEnd
  rw [h, if_neg Bool.false_ne_true, State.env]

theorem State.closeTick_late (s : State) : s.closeTick.dev.late = (s.dev.tickEnd s.env).late := rfl

theorem State.closeTick_time (s : State) : s.closeTick.dev.time = (s.dev.tickEnd s.env).time := rfl

theorem execTick_eq (s : State) : exec .tick s = .next s.closeTick := rfl

theorem execTickWrap_eq (s : State) :
    exec .tickWrap s = .next (if s.clk.tick = 2 ^ 48 - 1 then s.closeTick else s) := rfl

theorem execTickCaptureLatch_eq (s : State) :
    exec .tickCaptureLatch s = .next (if s.dev.time.capArmed then s.closeTick else s) := rfl

/-! ## Ticks, wraps and captures -/

/-- The last tick of the counter ends with the counter at 0 and its firing left for the tick that begins (R38, R45). -/
theorem tickWrap_last (s : State) (h : s.clk.tick = 2 ^ 48 - 1) (ha : s.dev.asleep = false) :
    ∃ t, exec .tickWrap s = .next t ∧ t.clk.tick = 0 ∧ t.clk.elapsed = s.clk.elapsed + 1 ∧
      Late.fire 0x073 ∈ t.dev.late := by
  have hwrap := Clock.next_tick_of_last s.clk h
  refine ⟨s.closeTick, by rw [execTickWrap_eq, if_pos h], hwrap, rfl, ?_⟩
  rw [State.closeTick_late, s.tickEnd_awake ha]
  exact Dev.boundary_fires_wrap s.env _ hwrap

/-- TICK_CAPTURE arms the capture and leaves the rest (R47). -/
theorem tickCapture_arms (s : State) (h : s.Awake 7) : exec .tickCapture s =
    .next ((s.enter 7).become { (s.enter 7).dev with time := { (s.enter 7).dev.time with capArmed := true } }) :=
  s.at_become 7 (fun _ d => { d with time := { d.time with capArmed := true } }) _ h rfl rfl

/-- The boundary after the request latches the clock of the tick that begins (R47). -/
theorem tickCaptureLatch_armed (s : State) (h : s.dev.time.capArmed = true) (ha : s.dev.asleep = false)
    (hend : ((s.dev.due s.env s.clk.rank 9).rank9 s.env).time.capArmed = true) :
    ∃ t, exec .tickCaptureLatch s = .next t ∧ t.dev.time.capArmed = false ∧
      t.dev.time.capTime = t.clk.timebase ∧ t.dev.time.capTick = t.clk.tick ∧ t.clk = s.clk.next := by
  have hlatch := Dev.boundary_latches s.env _ hend
  rw [← s.tickEnd_awake ha, ← State.closeTick_time] at hlatch
  obtain ⟨hdisarmed, htime, htick⟩ := hlatch
  exact ⟨s.closeTick, by rw [execTickCaptureLatch_eq, if_pos h], hdisarmed, htime, htick, rfl⟩

/-- Settles O6: the clock's advance, the wrap at its last tick, and the capture at the boundary. -/
theorem ticksAdvanceTimeAndCounter : Obligations.TicksAdvanceTimeAndCounter := by
  refine ⟨⟨fun s _ => ⟨s.closeTick, execTick_eq s, rfl, rfl, rfl, s.clk.next_timebase_frac⟩,
    fun s => ⟨tickWrap_last s, fun h => ?_⟩⟩, fun s => ⟨tickCapture_arms s, tickCaptureLatch_armed s, fun h => ?_⟩⟩
  · rw [execTickWrap_eq, if_neg h]
  · rw [execTickCaptureLatch_eq, h, if_neg Bool.false_ne_true]

end Sys2Proof.Machine
end

section
/-!
The servo and the time base (O7). A step or a slew of the time base leaves the servo's own objects and record
(`Dev.KeepsServo`); the servo's result and HOLDOVER_TIMEOUT are read off `Dev.setTbState`.
-/

namespace Sys2Proof.Machine

/-! ## What keeps the servo's state -/

/-- The objects the servo reads and writes. -/
def servoObjs : List Obj := [.ptpEnable, .tbState, .offsetLast]

/-- From `d` to `d'` the servo's objects and record stand, nothing left for rank 9 is lost, and no byte write is posted. -/
structure Dev.KeepsServo (d d' : Dev) : Prop where
  objs : ∀ o ∈ servoObjs, d'.g o 0 = d.g o 0
  time : d'.time = d.time
  late : ∀ l ∈ d.late, l ∈ d'.late
  posts : d'.posts = d.posts

theorem Dev.KeepsServo.refl (d : Dev) : d.KeepsServo d := ⟨fun _ _ => rfl, rfl, fun _ h => h, rfl⟩

theorem Dev.KeepsServo.trans {a b c : Dev} (h : a.KeepsServo b) (k : b.KeepsServo c) : a.KeepsServo c :=
  ⟨fun o ho => (k.objs o ho).trans (h.objs o ho), k.time.trans h.time, fun l hl => k.late l (h.late l hl),
    k.posts.trans h.posts⟩

theorem Dev.KeepsServo.ite {a b c : Dev} (p : Prop) [Decidable p] (h : a.KeepsServo b) (k : a.KeepsServo c) :
    a.KeepsServo (if p then b else c) := by
  split
  · exact h
  · exact k

theorem Dev.KeepsServo.tbState {a b : Dev} (h : a.KeepsServo b) : b.g .tbState = a.g .tbState := h.objs _ (by decide)

theorem Dev.KeepsServo.offsetLast {a b : Dev} (h : a.KeepsServo b) : b.g .offsetLast = a.g .offsetLast :=
  h.objs _ (by decide)

theorem Dev.KeepsServo.ptp {a b : Dev} (h : a.KeepsServo b) : b.on .ptpEnable = a.on .ptpEnable := by
  unfold Dev.on
  rw [h.objs _ (by decide)]

/-! Updates of other parts of the block. -/

theorem Dev.deps_keepsServo (d : Dev) (x : Tab DepCtx) : d.KeepsServo { d with deps := x } :=
  ⟨fun _ _ => rfl, rfl, fun _ h => h, rfl⟩

theorem Dev.audio_keepsServo (d : Dev) (x : AudioUnit) : d.KeepsServo { d with audio := x } :=
  ⟨fun _ _ => rfl, rfl, fun _ h => h, rfl⟩

theorem Dev.nv_keepsServo (d : Dev) (x : NvUnit) : d.KeepsServo { d with nv := x } :=
  ⟨fun _ _ => rfl, rfl, fun _ h => h, rfl⟩

theorem Dev.pwr_keepsServo (d : Dev) (x : PowerUnit) : d.KeepsServo { d with pwr := x } :=
  ⟨fun _ _ => rfl, rfl, fun _ h => h, rfl⟩

theorem Dev.putGroup_keepsServo (d : Dev) (g : Nat) (c : Group) : d.KeepsServo (d.putGroup g c) :=
  ⟨fun _ _ => rfl, rfl, fun _ h => h, rfl⟩

theorem Dev.later_keepsServo (d : Dev) (l : Late) : d.KeepsServo (d.later l) :=
  ⟨fun _ _ => rfl, rfl, fun _ h => by simp [h], rfl⟩

theorem Dev.put_keepsServo (d : Dev) (o : Obj) (i v : Nat)
    (h : ∀ p ∈ servoObjs, p.ctorIdx % 1024 ≠ o.ctorIdx % 1024) : d.KeepsServo (d.put o i v) :=
  ⟨fun p hp => d.g_put_other o p i 0 v (h p hp), rfl, fun _ h => h, rfl⟩

theorem Dev.KeepsServo.put {a b : Dev} (k : a.KeepsServo b) (o : Obj) (i v : Nat)
    (h : ∀ p ∈ servoObjs, p.ctorIdx % 1024 ≠ o.ctorIdx % 1024) : a.KeepsServo (b.put o i v) :=
  k.trans (b.put_keepsServo o i v h)

theorem Dev.KeepsServo.later {a b : Dev} (k : a.KeepsServo b) (l : Late) : a.KeepsServo (b.later l) :=
  k.trans (b.later_keepsServo l)

theorem Dev.forEach_keepsServo (d : Dev) (ns : List Nat) (f : Dev → Nat → Dev)
    (h : ∀ (d : Dev) n, d.KeepsServo (f d n)) :
    d.KeepsServo (d.forEach ns f) := by
  unfold Dev.forEach
  induction ns generalizing d with
  | nil => exact .refl d
  | cons n ns ih => exact (h d n).trans (ih (f d n))

/-! ## Groups, PLLs and the Ledger keep it -/

theorem Dev.startSlew_keepsServo (d : Dev) (g : Nat) : d.KeepsServo (d.startSlew g) :=
  .ite _ (((d.putGroup_keepsServo g _).put .tgState g 2 (by decide)).later _) (.refl d)

/-- A step shifts the locked groups and fires; the servo's state stands (R35). -/
theorem Dev.stepGroups_keepsServo (d : Dev) (delta : Int) : d.KeepsServo (d.stepGroups delta) := by
  unfold Dev.stepGroups
  refine .later (.trans (Dev.forEach_keepsServo d _ _ fun d g => ?_) (Dev.deps_keepsServo _ _)) _
  exact .ite _ ((d.putGroup_keepsServo g _).trans (Dev.startSlew_keepsServo _ g)) (.refl d)

theorem Dev.stepGroups_fires (d : Dev) (delta : Int) : Late.fire 0x072 ∈ (d.stepGroups delta).late :=
  Dev.fire_mem_late _ _

theorem Dev.setPll_keepsServo (now : Nat) (d : Dev) (k st : Nat) : d.KeepsServo (d.setPll now k st) := by
  unfold Dev.setPll
  refine .ite _ (d.audio_keepsServo _) (.trans ?_ (Dev.audio_keepsServo _ _))
  have hstate (x : AudioUnit) :
      d.KeepsServo ((({ d with audio := x } : Dev).put .pllState k st).flag .pllEventFlags k 0) :=
    ((d.audio_keepsServo x).put .pllState k st (by decide)).later _
  exact .ite _ ((hstate _).put .pllOffset k _ (by decide)) (hstate _)

theorem Dev.stepPhase_keepsServo (now : Nat) (delta : Int) (d : Dev) (k : Nat) :
    d.KeepsServo (d.stepPhase now delta k) := by
  unfold Dev.stepPhase
  have hphase (x : Int) : d.KeepsServo (d.puti .pllPhaseErr k x) := d.put_keepsServo _ _ _ (by decide)
  exact .ite _ (.refl d) (.ite _ (hphase _)
    (((hphase _).trans (Dev.setPll_keepsServo now _ k _)).trans (Dev.audio_keepsServo _ _)))

theorem Dev.reportPages_keepsServo (d : Dev) : d.KeepsServo d.reportPages := by
  have hput := d.put_keepsServo .nvParamFree 0 d.nv.freePages (by decide)
  exact .ite _ (hput.later _) hput

theorem Dev.nvWrite_keepsServo (d : Dev) (j : NvJob) : d.KeepsServo (d.nvWrite j) := by
  have hlost : d.KeepsServo (d.jobLost j) :=
    .ite _ ((d.nv_keepsServo _).trans (Dev.reportPages_keepsServo _)) (.refl d)
  exact .ite _ (hlost.later _) ((d.nv_keepsServo _).put .nvQueue 0 _ (by decide))

/-- A Ledger record moves the Ledger's own objects and the store's (R441, R442). -/
theorem Dev.ledgerPut_keepsServo (e : Env) (d : Dev) (kind : Nat) (w : Origin) (mid : List Byte) (detail : Nat) :
    d.KeepsServo (d.ledgerPut e kind w mid detail) := by
  unfold Dev.ledgerPut
  refine .trans ?_ (Dev.nvWrite_keepsServo _ _)
  have hnext := d.put_keepsServo .ledgerNextSeq 0 (d.g .ledgerNextSeq + 1) (by decide)
  have holdest := Dev.KeepsServo.ite (decide (4096 + d.g .ledgerOldestSeq ≤ d.g .ledgerNextSeq) = true)
    (hnext.put .ledgerOldestSeq 0 (d.g .ledgerNextSeq + 1 - 4096) (by decide)) hnext
  have hlost := Dev.KeepsServo.ite ((decide (4096 + d.g .ledgerOldestSeq ≤ d.g .ledgerNextSeq) &&
    decide (d.g .ledgerMarked + 4096 < d.g .ledgerNextSeq)) = true)
    ((holdest.later (.add .ledgerLost 0 1)).later (.flag .ledgerEventFlags 0 (2 ^ 1))) holdest
  exact .ite _ (hlost.later _) hlost

theorem Dev.timeMark_keepsServo (e : Env) (d : Dev) : d.KeepsServo (d.timeMark e) :=
  (d.pwr_keepsServo _).trans (Dev.ledgerPut_keepsServo e _ _ _ _ _)

/-! ## A change of the time base's state -/

/-- A change of state puts `tb_state` and fires 0x070; the first lock goes on to the groups (R34, R36). -/
theorem Dev.setTbState_of_ne (d : Dev) (v : Nat) (h : d.g .tbState ≠ v) :
    ∃ x : TimeUnit, ({ (d.put .tbState 0 v).fire 0x070 with time := x } : Dev).KeepsServo (d.setTbState v) := by
  unfold Dev.setTbState
  rw [if_neg h]
  dsimp only
  split
  · exact ⟨_, Dev.forEach_keepsServo _ _ _ Dev.startSlew_keepsServo⟩
  · exact ⟨_, .refl _⟩

theorem Dev.setTbState_tbState (d : Dev) (v : Nat) (hv : v < 256) : (d.setTbState v).g .tbState = v := by
  by_cases h : d.g .tbState = v
  · unfold Dev.setTbState
    rw [if_pos h, h]
  · obtain ⟨x, hkeeps⟩ := d.setTbState_of_ne v h
    exact (hkeeps.tbState.trans (d.g_put_same .tbState 0 v)).trans (Nat.mod_eq_of_lt hv)

theorem Dev.setTbState_fires (d : Dev) (v : Nat) (h : d.g .tbState ≠ v) :
    Late.fire 0x070 ∈ (d.setTbState v).late := by
  obtain ⟨x, hkeeps⟩ := d.setTbState_of_ne v h
  exact hkeeps.late _ (Dev.fire_mem_late _ _)

/-- From `d` to `d'` `offset_last` stands, and nothing left for rank 9 is lost. -/
structure Dev.KeepsOffset (d d' : Dev) : Prop where
  offset : d'.g .offsetLast = d.g .offsetLast
  late : ∀ l ∈ d.late, l ∈ d'.late

theorem Dev.KeepsOffset.trans {a b c : Dev} (h : a.KeepsOffset b) (k : b.KeepsOffset c) : a.KeepsOffset c :=
  ⟨k.offset.trans h.offset, fun l hl => k.late l (h.late l hl)⟩

theorem Dev.KeepsServo.keepsOffset {a b : Dev} (h : a.KeepsServo b) : a.KeepsOffset b := ⟨h.offsetLast, h.late⟩

theorem Dev.time_keepsOffset (d : Dev) (x : TimeUnit) : d.KeepsOffset { d with time := x } := ⟨rfl, fun _ h => h⟩

theorem Dev.setTbState_keepsOffset (d : Dev) (v : Nat) : d.KeepsOffset (d.setTbState v) := by
  by_cases h : d.g .tbState = v
  · unfold Dev.setTbState
    rw [if_pos h]
    exact (Dev.KeepsServo.refl d).keepsOffset
  · obtain ⟨x, hkeeps⟩ := d.setTbState_of_ne v h
    have hput : d.KeepsOffset (d.put .tbState 0 v) := ⟨d.g_put_other _ _ _ _ _ (by decide), fun _ hl => hl⟩
    exact ((hput.trans (Dev.later_keepsServo _ _).keepsOffset).trans (Dev.time_keepsOffset _ x)).trans hkeeps.keepsOffset

theorem Dev.acquire_keepsOffset (now : Nat) (d : Dev) (fromFree : Bool) : d.KeepsOffset (d.acquire now fromFree) :=
  (d.time_keepsOffset _).trans (Dev.setTbState_keepsOffset _ _)

theorem Dev.acquire_tbState (now : Nat) (d : Dev) (fromFree : Bool) : (d.acquire now fromFree).g .tbState = 1 :=
  Dev.setTbState_tbState _ _ (by decide)

/-- Entering ACQUIRING from another state fires 0x070 (R34). -/
theorem Dev.acquire_fires (now : Nat) (d : Dev) (fromFree : Bool) (h : d.g .tbState ≠ 1) :
    Late.fire 0x070 ∈ (d.acquire now fromFree).late :=
  Dev.setTbState_fires _ _ h

/-! ## The servo's result -/

/-- A selection in FREE or HOLDOVER acquires (R34). -/
theorem Dev.servo_selected (e : Env) (d : Dev) (hptp : d.on .ptpEnable = true)
    (h : d.g .tbState = 0 ∨ d.g .tbState = 3) :
    ∃ fromFree, d.servo e .selected = d.acquire e.now fromFree := by
  obtain h | h := h
  · exact ⟨true, by simp [Dev.servo, hptp, h, tbFree]⟩
  · exact ⟨false, by simp [Dev.servo, hptp, h, tbFree, tbHoldover]⟩

/-- A grandmaster change in LOCKED fires 0x071 and acquires (R34). -/
theorem Dev.servo_grandmaster (e : Env) (d : Dev) (hptp : d.on .ptpEnable = true) (h : d.g .tbState = 2) :
    d.servo e .grandmaster = (d.fire 0x071).acquire e.now false := by
  simp [Dev.servo, hptp, h, tbLocked]

/-- The block with the offset of a sync in `offset_last`. -/
def Dev.noteOffset (d : Dev) (off : Int) : Dev := d.puti .offsetLast 0 (clampInt (-(2 ^ 31)) (2 ^ 31 - 1) off)

theorem Dev.noteOffset_offsetLast (d : Dev) (off : Int) :
    (d.noteOffset off).g .offsetLast = ofInt 32 (clampInt (-(2 ^ 31)) (2 ^ 31 - 1) off) :=
  (d.g_put_same .offsetLast 0 _).trans (Nat.mod_eq_of_lt (ofInt_lt 32 _))

theorem Dev.noteOffset_tbState (d : Dev) (off : Int) : (d.noteOffset off).g .tbState = d.g .tbState :=
  d.g_put_other _ _ _ _ _ (by decide)

/-- Syncs in a row within 1 us, with this one. -/
def Dev.goodRun (d : Dev) (off : Int) : Nat := if off.natAbs ≤ 1000 then d.time.run + 1 else 0

/-- The record of a sync of the master. -/
def Dev.tookSync (d : Dev) (now run : Nat) : Dev :=
  { d with time := { d.time with run := run, fresh := false, lastSync := now } }

/-- A sync of the master by the state it meets (R34). -/
theorem Dev.servo_sync (e : Env) (d : Dev) (off : Int) (hptp : d.on .ptpEnable = true) (hmaster : d.time.master = true) :
    d.servo e (.sync off) =
      if d.g .tbState = tbHoldover then (d.noteOffset off).acquire e.now false
      else if d.g .tbState = tbAcquiring then
        if 16 ≤ d.goodRun off then (((d.noteOffset off).tookSync e.now (d.goodRun off)).setTbState tbLocked).timeMark e
        else (d.noteOffset off).tookSync e.now (d.goodRun off)
      else (d.noteOffset off).tookSync e.now d.time.run :=
  if_neg (by simp [hptp, hmaster])

theorem Dev.tookSync_keepsOffset (d : Dev) (now run : Nat) : d.KeepsOffset (d.tookSync now run) := d.time_keepsOffset _

/-- What a sync does after its offset is noted keeps that offset (R34). -/
theorem Dev.servo_sync_keepsOffset (e : Env) (d : Dev) (off : Int) (hptp : d.on .ptpEnable = true)
    (hmaster : d.time.master = true) : (d.noteOffset off).KeepsOffset (d.servo e (.sync off)) := by
  rw [d.servo_sync e off hptp hmaster]
  split
  · exact Dev.acquire_keepsOffset _ _ _
  · split
    · split
      · exact ((Dev.tookSync_keepsOffset _ _ _).trans (Dev.setTbState_keepsOffset _ _)).trans
          (Dev.timeMark_keepsServo e _).keepsOffset
      · exact Dev.tookSync_keepsOffset _ _ _
    · exact Dev.tookSync_keepsOffset _ _ _

/-- The sixteenth good sync in a row locks the time base (R34). -/
theorem Dev.servo_sync_locks (e : Env) (d : Dev) (off : Int) (hptp : d.on .ptpEnable = true)
    (hmaster : d.time.master = true) (hst : d.g .tbState = 1) (hrun : d.time.run = 15) (hoff : off.natAbs ≤ 1000) :
    (d.servo e (.sync off)).g .tbState = 2 ∧ Late.fire 0x070 ∈ (d.servo e (.sync off)).late := by
  have hgood : 16 ≤ d.goodRun off := by simp [Dev.goodRun, hoff, hrun]
  rw [d.servo_sync e off hptp hmaster, if_neg (by rw [hst]; decide), if_pos (show _ = tbAcquiring from hst), if_pos hgood]
  have hkeeps := Dev.timeMark_keepsServo e (((d.noteOffset off).tookSync e.now (d.goodRun off)).setTbState tbLocked)
  have hnoted : (d.noteOffset off).g .tbState = 1 := (d.noteOffset_tbState off).trans hst
  refine ⟨hkeeps.tbState.trans (Dev.setTbState_tbState _ _ (by decide)), hkeeps.late _ (Dev.setTbState_fires _ _ ?_)⟩
  change (d.noteOffset off).g .tbState ≠ 2
  omega

/-! ## Steps and slews of the time base -/

/-- What a step of the time base does to the block: the groups and the PLLs follow (R35, R242). -/
def Dev.stepTime (now : Nat) (d : Dev) (delta : Int) : Dev :=
  (d.stepGroups delta).forEach (List.range 4) (Dev.stepPhase now delta)

theorem Dev.stepTime_keepsServo (now : Nat) (d : Dev) (delta : Int) : d.KeepsServo (d.stepTime now delta) :=
  (d.stepGroups_keepsServo delta).trans (Dev.forEach_keepsServo _ _ _ (Dev.stepPhase_keepsServo now delta))

theorem Dev.stepTime_fires (now : Nat) (d : Dev) (delta : Int) : Late.fire 0x072 ∈ (d.stepTime now delta).late :=
  (Dev.forEach_keepsServo _ _ _ (Dev.stepPhase_keepsServo now delta)).late _ (Dev.stepGroups_fires _ _)

theorem State.stepBy_eq (s : State) (delta : Int) : s.stepBy delta =
    { s.run (fun e d => d.stepTime e.now delta) with
      clk := { s.clk with timebase := ofInt 64 (s.clk.timebase + delta) } } := rfl

theorem State.stepBy_dev (s : State) (delta : Int) :
    (s.stepBy delta).dev = (s.run fun e d => d.stepTime e.now delta).dev := rfl

/-- A step leaves the servo's state (R35). -/
theorem State.stepBy_keepsServo (s : State) (delta : Int) (h : s.dev.posts = []) :
    s.dev.KeepsServo (s.stepBy delta).dev := by
  have hkeeps := s.dev.stepTime_keepsServo s.env.now delta
  rw [State.stepBy_dev]
  exact ⟨fun o ho => (s.run_g _ o 0).trans (hkeeps.objs o ho), (s.run_time _).trans hkeeps.time,
    fun l hl => by rw [State.run_late]; exact hkeeps.late l hl, (s.run_posts _).trans h.symm⟩

theorem State.stepBy_fires (s : State) (delta : Int) : Late.fire 0x072 ∈ (s.stepBy delta).dev.late := by
  rw [State.stepBy_dev, State.run_late]
  exact Dev.stepTime_fires _ _ _

theorem State.stepBy_mem (s : State) (delta : Int) (h : s.dev.posts = []) : (s.stepBy delta).mem = s.mem := by
  have hposts := (s.dev.stepTime_keepsServo s.env.now delta).posts.trans h
  rw [State.stepBy_eq]
  dsimp only
  exact s.run_mem_of_posts _ hposts

theorem State.stepBy_clk (s : State) (delta : Int) :
    (s.stepBy delta).clk = { s.clk with timebase := ofInt 64 (s.clk.timebase + delta) } := rfl

theorem State.slewBy_keepsServo (s : State) : s.dev.KeepsServo s.slewBy.dev := ⟨fun _ _ => rfl, rfl, fun _ h => h, rfl⟩

/-- A slew changes the addend alone, and keeps it within 500 ppm (R47). -/
theorem State.slewBy_clk (s : State) : s.slewBy.clk = { s.clk with addend := s.slewBy.clk.addend } ∧
    670753096 ≤ s.slewBy.clk.addend ∧ s.slewBy.clk.addend ≤ 671424184 :=
  ⟨rfl, clampAddend_bounds _⟩

/-! ## The commands -/

theorem exec_tbAddend (v : Nat) (s : State) (h : s.Awake 7) : exec (.tbAddend v) s =
    .next { s.enter 7 with clk := { (s.enter 7).clk with addend := clampAddend (v % 2 ^ 32) } } := by
  change Host.Outcome.next (if (s.enter 7).dev.asleep then _ else _) = _
  rw [h, if_neg Bool.false_ne_true]

theorem clampAddend_eq (v : Nat) :
    clampAddend v = if v < 670753096 then 670753096 else if 671424184 < v then 671424184 else v := by
  unfold clampAddend
  split
  · omega
  · split <;> omega

theorem exec_stepGo (s : State) (h : s.Awake 7) : exec .stepGo s =
    .next (if (s.enter 7).dev.g .tbState = 1 then (s.enter 7).stepBy (s.enter 7).dev.stepAmount else s.enter 7) := by
  change Host.Outcome.next (if _ ∧ (!(s.enter 7).dev.asleep) = true then _ else _) = _
  rw [h]
  simp only [Bool.not_false, and_true, tbAcquiring]

/-- A servo result but a sync is its effect on the block (R34). -/
theorem exec_servoHandoff (r : Servo) (s : State) (h : s.Awake 9) (hr : ∀ off, r ≠ .sync off) :
    exec (.servoHandoff r) s = .next ((s.enter 9).run fun e d => d.servo e r) := by
  change execServoHandoff r s = _
  unfold execServoHandoff
  cases r with
  | sync off => exact absurd rfl (hr off)
  | _ => simp only [show (s.enter 9).dev.asleep = false from h, Bool.false_eq_true, if_false]

/-- The state a sync of the master is taken in: the clock steps or slews first (R35). -/
def State.syncClock (s : State) (off : Int) : State := if s.dev.steps off then s.stepBy (-off) else s.slewBy

/-- A sync of the master moves the clock first; the servo then takes it in the state that leaves. -/
theorem exec_servoHandoff_sync (off : Int) (s : State) (h : s.Awake 9) (hptp : (s.enter 9).dev.on .ptpEnable = true)
    (hmaster : (s.enter 9).dev.time.master = true) :
    ∃ t, exec (.servoHandoff (.sync off)) s = .next t ∧ t.clk = ((s.enter 9).syncClock off).clk ∧
      (∀ o i, t.dev.g o i =
        (((s.enter 9).syncClock off).dev.servo ((s.enter 9).syncClock off).env (.sync off)).g o i) ∧
      t.dev.late = (((s.enter 9).syncClock off).dev.servo ((s.enter 9).syncClock off).env (.sync off)).late := by
  refine ⟨((s.enter 9).syncClock off).run fun e d => d.servo e (.sync off), ?_,
    State.run_clk _ _, State.run_g _ _, State.run_late _ _⟩
  change execServoHandoff (.sync off) s = _
  unfold execServoHandoff
  simp only [show (s.enter 9).dev.asleep = false from h, hptp, hmaster, Bool.false_eq_true, Bool.not_true, Bool.or_self,
    if_false]
  rfl

theorem State.syncClock_of_steps (s : State) (off : Int) (h : s.dev.steps off = true) :
    s.syncClock off = s.stepBy (-off) :=
  if_pos h

theorem State.syncClock_clk_of_steps (s : State) (off : Int) (h : s.dev.steps off = true) :
    (s.syncClock off).clk = { s.clk with timebase := ofInt 64 (s.clk.timebase - off) } := by
  rw [s.syncClock_of_steps off h, State.stepBy_clk, Int.sub_eq_add_neg]

theorem State.syncClock_fires_of_steps (s : State) (off : Int) (h : s.dev.steps off = true) :
    Late.fire 0x072 ∈ (s.syncClock off).dev.late := by
  rw [s.syncClock_of_steps off h]
  exact s.stepBy_fires _

theorem State.syncClock_clk_of_not_steps (s : State) (off : Int) (h : s.dev.steps off = false) :
    (s.syncClock off).clk = { s.clk with addend := (s.syncClock off).clk.addend } ∧
      670753096 ≤ (s.syncClock off).clk.addend ∧ (s.syncClock off).clk.addend ≤ 671424184 := by
  have hslew : s.syncClock off = s.slewBy := if_neg (by rw [h]; exact Bool.false_ne_true)
  rw [hslew]
  exact s.slewBy_clk

theorem State.syncClock_keepsServo (s : State) (off : Int) (h : s.dev.posts = []) :
    s.dev.KeepsServo (s.syncClock off).dev := by
  unfold State.syncClock
  split
  · exact s.stepBy_keepsServo _ h
  · exact s.slewBy_keepsServo

/-- An offset steps the time base where it is the first since the selection in ACQUIRING and above the threshold (R35). -/
theorem Dev.steps_iff (d : Dev) (off : Int) : d.steps off = true ↔
    d.g .tbState = 1 ∧ d.time.fresh = true ∧ d.g .stepThreshold < off.natAbs := by
  simp [Dev.steps, tbAcquiring, and_assoc]

/-! ## HOLDOVER_TIMEOUT -/

/-- Where the time base goes when no sync has come for the timeout (R34). -/
def Dev.holdoverNext (d : Dev) : Nat := if d.g .tbState = tbAcquiring ∧ d.time.acqFromFree then tbFree else tbHoldover

theorem Dev.holdover_eq (d : Dev) : d.holdover =
    Dev.setTbState { d with time := { d.time with run := 0 } } d.holdoverNext := rfl

theorem Dev.holdover_tbState (d : Dev) (h : d.holdoverNext < 256) : d.holdover.g .tbState = d.holdoverNext := by
  rw [Dev.holdover_eq]
  exact Dev.setTbState_tbState _ _ h

theorem Dev.holdover_fires (d : Dev) (h : d.g .tbState ≠ d.holdoverNext) : Late.fire 0x070 ∈ d.holdover.late := by
  rw [Dev.holdover_eq]
  exact Dev.setTbState_fires _ _ h

theorem Dev.holdoverNext_locked {d : Dev} (h : d.g .tbState = 2) : d.holdoverNext = 3 :=
  if_neg fun ⟨hacquiring, _⟩ => absurd (h.symm.trans hacquiring) (by decide)

theorem Dev.holdoverNext_fromFree {d : Dev} (h : d.g .tbState = 1) (hfree : d.time.acqFromFree = true) :
    d.holdoverNext = 0 :=
  if_pos ⟨h, hfree⟩

theorem Dev.holdoverDue_of_past {e : Env} {d : Dev} (hst : d.g .tbState = 1 ∨ d.g .tbState = 2)
    (hpast : d.time.lastSync + d.g .holdoverTimeout * 4000 < e.clk.elapsed) : d.holdoverDue e = true := by
  simpa [Dev.holdoverDue, tbAcquiring, tbLocked, Env.now, hpast] using hst

theorem exec_holdoverTimeout (s : State) : exec .holdoverTimeout s =
    (s.ordered 5 0x070).at 5 fun e d => d.when (d.holdoverDue e) Dev.holdover := rfl

/-! ## The clauses of the statement -/

/-- TB_ADDEND leaves the value clamped and nothing else changed (R47). -/
theorem tbAddend_clamps (s : State) (h : s.Awake 7) (v : Nat) (hv : v < 2 ^ 32) :
    exec (.tbAddend v) s = .next { s.enter 7 with clk := { (s.enter 7).clk with
      addend := if v < 670753096 then 670753096 else if 671424184 < v then 671424184 else v } } := by
  rw [exec_tbAddend v s h, Nat.mod_eq_of_lt hv, clampAddend_eq]

/-- STEP_GO in ACQUIRING steps the time base and fires 0x072 (R35, R47). -/
theorem stepGo_acquiring (s : State) (h : s.Awake 7) (hst : (s.enter 7).dev.g .tbState = 1) :
    ∃ t, exec .stepGo s = .next t ∧
      t.clk = { (s.enter 7).clk with timebase := ofInt 64 ((s.enter 7).clk.timebase +
        asInt 64 ((s.enter 7).dev.reg 0x1000C + (s.enter 7).dev.reg 0x10010 * 2 ^ 32)) } ∧
      Late.fire 0x072 ∈ t.dev.late ∧ t.mem = (s.enter 7).mem :=
  ⟨_, (exec_stepGo s h).trans (by rw [if_pos hst, Dev.stepAmount]), State.stepBy_clk _ _, State.stepBy_fires _ _,
    State.stepBy_mem _ _ (s.enter_posts 7)⟩

theorem stepGo_otherwise (s : State) (h : s.Awake 7) (hst : (s.enter 7).dev.g .tbState ≠ 1) :
    exec .stepGo s = .next (s.enter 7) := by
  rw [exec_stepGo s h, if_neg hst]

theorem servoHandoff_rejected (s : State) (h : s.Awake 9) :
    exec (.servoHandoff .rejected) s = .next ((s.enter 9).become ((s.enter 9).dev.fire 0x074)) := by
  rw [exec_servoHandoff _ s h (by simp), State.run_quiet _ _ (s.enter_posts 9)]
  rfl

theorem servoHandoff_selected_disabled (s : State) (h : s.Awake 9) (hptp : (s.enter 9).dev.on .ptpEnable = false) :
    exec (.servoHandoff .selected) s = .next (s.enter 9) := by
  rw [exec_servoHandoff _ s h (by simp), State.run_id _ _ (by simp [Dev.servo, hptp]) (s.enter_posts 9)]

/-- A selection in FREE or HOLDOVER enters ACQUIRING (R34). -/
theorem servoHandoff_selected (s : State) (h : s.Awake 9) (hptp : (s.enter 9).dev.on .ptpEnable = true)
    (hst : (s.enter 9).dev.g .tbState = 0 ∨ (s.enter 9).dev.g .tbState = 3) :
    ∃ t, exec (.servoHandoff .selected) s = .next t ∧ t.dev.g .tbState = 1 ∧ Late.fire 0x070 ∈ t.dev.late ∧
      t.clk = (s.enter 9).clk := by
  obtain ⟨fromFree, hservo⟩ := Dev.servo_selected (s.enter 9).env (s.enter 9).dev hptp hst
  refine ⟨_, exec_servoHandoff _ s h (by simp), ?_, ?_, rfl⟩
  · rw [State.run_g, hservo]
    exact Dev.acquire_tbState _ _ _
  · rw [State.run_late, hservo]
    exact Dev.acquire_fires _ _ _ (by omega)

/-- A grandmaster change in LOCKED enters ACQUIRING (R34). -/
theorem servoHandoff_grandmaster (s : State) (h : s.Awake 9) (hptp : (s.enter 9).dev.on .ptpEnable = true)
    (hst : (s.enter 9).dev.g .tbState = 2) :
    ∃ t, exec (.servoHandoff .grandmaster) s = .next t ∧ t.dev.g .tbState = 1 ∧ Late.fire 0x071 ∈ t.dev.late ∧
      Late.fire 0x070 ∈ t.dev.late ∧ t.clk = (s.enter 9).clk := by
  have hservo := Dev.servo_grandmaster (s.enter 9).env (s.enter 9).dev hptp hst
  refine ⟨_, exec_servoHandoff _ s h (by simp), ?_, ?_, ?_, rfl⟩
  · rw [State.run_g, hservo]
    exact Dev.acquire_tbState _ _ _
  · rw [State.run_late, hservo]
    exact (Dev.acquire_keepsOffset _ _ _).late _ (Dev.fire_mem_late _ _)
  · rw [State.run_late, hservo]
    exact Dev.acquire_fires _ _ _ (by rw [Dev.fire_g]; omega)

/-- The sixteenth sync in a row within 1 us enters LOCKED (R34). -/
theorem servoHandoff_sync_locks (s : State) (h : s.Awake 9) (off : Int) (hptp : (s.enter 9).dev.on .ptpEnable = true)
    (hmaster : (s.enter 9).dev.time.master = true) (hst : (s.enter 9).dev.g .tbState = 1)
    (hoff : off.natAbs ≤ 1000) (hrun : (s.enter 9).dev.time.run = 15) :
    ∃ t, exec (.servoHandoff (.sync off)) s = .next t ∧ t.dev.g .tbState = 2 ∧ Late.fire 0x070 ∈ t.dev.late := by
  have hkeeps := (s.enter 9).syncClock_keepsServo off (s.enter_posts 9)
  obtain ⟨hlocked, hfires⟩ := Dev.servo_sync_locks ((s.enter 9).syncClock off).env _ off (hkeeps.ptp.trans hptp)
    (hkeeps.time ▸ hmaster) (hkeeps.tbState.trans hst) (hkeeps.time ▸ hrun) hoff
  obtain ⟨t, hnext, -, hobjs, hlate⟩ := exec_servoHandoff_sync off s h hptp hmaster
  exact ⟨t, hnext, (hobjs _ _).trans hlocked, by rw [hlate]; exact hfires⟩

/-- Every sync of the master notes its offset; it steps the time base, or answers with a new addend (R33, R35). -/
theorem servoHandoff_sync (s : State) (h : s.Awake 9) (off : Int) (hptp : (s.enter 9).dev.on .ptpEnable = true)
    (hmaster : (s.enter 9).dev.time.master = true) :
    ∃ t, exec (.servoHandoff (.sync off)) s = .next t ∧
      t.dev.g .offsetLast = ofInt 32 (clampInt (-(2 ^ 31)) (2 ^ 31 - 1) off) ∧
      ((s.enter 9).dev.steps off = true →
        t.clk = { (s.enter 9).clk with timebase := ofInt 64 ((s.enter 9).clk.timebase - off) } ∧
          Late.fire 0x072 ∈ t.dev.late) ∧
      (¬(s.enter 9).dev.steps off = true → t.clk = { (s.enter 9).clk with addend := t.clk.addend } ∧
        670753096 ≤ t.clk.addend ∧ t.clk.addend ≤ 671424184) := by
  have hclock := (s.enter 9).syncClock_keepsServo off (s.enter_posts 9)
  have hservo := Dev.servo_sync_keepsOffset ((s.enter 9).syncClock off).env _ off (hclock.ptp.trans hptp)
    (hclock.time ▸ hmaster)
  obtain ⟨t, hnext, hclk, hobjs, hlate⟩ := exec_servoHandoff_sync off s h hptp hmaster
  refine ⟨t, hnext, ?_, fun hsteps => ⟨?_, ?_⟩, fun hsteps => ?_⟩
  · rw [hobjs, hservo.offset, Dev.noteOffset_offsetLast]
  · rw [hclk, State.syncClock_clk_of_steps _ _ hsteps]
  · rw [hlate]
    exact hservo.late _ (State.syncClock_fires_of_steps _ _ hsteps)
  · rw [hclk]
    exact State.syncClock_clk_of_not_steps _ _ (Bool.eq_false_iff.mpr hsteps)

/-- Past the timeout the time base leaves its state for another one, which fires 0x070 (R34). -/
theorem holdoverTimeout_enters (s : State) (h : (s.ordered 5 0x070).Awake 5) (v : Nat)
    (hdue : ((s.ordered 5 0x070).enter 5).dev.holdoverDue ((s.ordered 5 0x070).enter 5).env = true)
    (hnext : ((s.ordered 5 0x070).enter 5).dev.holdoverNext = v)
    (hv : v < 256) (hne : ((s.ordered 5 0x070).enter 5).dev.g .tbState ≠ v) :
    ∃ t, exec .holdoverTimeout s = .next t ∧ t.dev.g .tbState = v ∧ Late.fire 0x070 ∈ t.dev.late := by
  subst hnext
  refine ⟨_, (exec_holdoverTimeout s).trans (State.at_awake _ _ _ h), ?_, ?_⟩
  · rw [State.run_g, Dev.when_of_true _ _ hdue]
    exact Dev.holdover_tbState _ hv
  · rw [State.run_late, Dev.when_of_true _ _ hdue]
    exact Dev.holdover_fires _ hne

/-- Settles O7: a lemma for each clause above; `Dev.steps_iff` says which syncs step. -/
theorem timeBaseFollowsItsServo : Obligations.TimeBaseFollowsItsServo := by
  refine ⟨fun s h => ⟨tbAddend_clamps s h, stepGo_acquiring s h, stepGo_otherwise s h⟩,
    fun s => ⟨fun h => ?_, fun h => ?_⟩⟩
  · refine ⟨servoHandoff_rejected s h, servoHandoff_selected_disabled s h, servoHandoff_selected s h,
      servoHandoff_grandmaster s h, fun off hptp hmaster hst _ hoff hrun =>
        servoHandoff_sync_locks s h off hptp hmaster hst hoff hrun, fun off hptp hmaster => ?_⟩
    have hsync := servoHandoff_sync s h off hptp hmaster
    rw [Dev.steps_iff] at hsync
    exact hsync
  · intro u d hpast
    refine ⟨fun hst => ?_, fun hst hfree => ?_⟩
    · exact holdoverTimeout_enters s h 3 (Dev.holdoverDue_of_past (.inr hst) hpast) (Dev.holdoverNext_locked hst)
        (by decide) (by rw [hst]; decide)
    · exact holdoverTimeout_enters s h 0 (Dev.holdoverDue_of_past (.inl hst) hpast)
        (Dev.holdoverNext_fromFree hst hfree) (by decide) (by rw [hst]; decide)

end Sys2Proof.Machine
end

section
/-!
Two statements that fail: a failure of the entropy tests goes on to rank 7 where a request waits (O5), and a held write of
apply class boundary may name any object, `tg_last_commit` among them (O41).
-/

namespace Sys2Proof.Machine

/-! ## Ranks (O5) -/

/-- Where nothing keeps the held requests waiting they are accepted at rank 7 (R465, R480). -/
theorem State.thenHeld_rank (s : State) (hheld : s.dev.ses.held.isEmpty = false) (hqueue : s.dev.nv.queued < 256)
    (hisland : s.dev.g .krIslandState ≠ 1) : ∃ t, s.thenHeld = .next t ∧ t.clk.rank = 7 := by
  unfold State.thenHeld
  rw [if_neg (by simp [hheld, hqueue, hisland])]
  exact ⟨_, rfl, rfl⟩

/-- What a failure of the entropy tests does at rank 3, before held requests go on. -/
def State.entropyFails (s : State) : State :=
  (s.enter 3).run fun e d =>
    if d.asleep then d else d.when (!d.islandError) fun d => (d.count .esFailures).islandFails e

theorem exec_entropyTestFailure (s : State) : exec .entropyTestFailure s = s.entropyFails.thenHeld := rfl

/-- The island runs its tests, and one request of a CAN peer waits for their end. -/
def requestWaitsForIsland : State :=
  { State.reset with
    clk := { Clock.reset with elapsed := 9, rank := 3 }
    dev := { ({} : Dev).put .krIslandState 0 1 with
      kr := { test := some 5 }, ses := { held := [⟨.can 1 5, 0x2100, 1, none⟩] } } }

theorem requestWaitsForIsland_goesOn :
    requestWaitsForIsland.entropyFails.dev.ses.held.isEmpty = false ∧
      requestWaitsForIsland.entropyFails.dev.nv.queued < 256 ∧
      requestWaitsForIsland.entropyFails.dev.g .krIslandState ≠ 1 := by
  decide +kernel

/-- Refutes O5: ENTROPY_TEST_FAILURE has rank 3, but with its failure the island's pause ends, and a request held for the
pause is accepted in the same command, which leaves the block at rank 7. -/
theorem not_commandsRegisterAtTheirRank : ¬ Obligations.CommandsRegisterAtTheirRank := by
  intro h
  obtain ⟨t, ht, hclk⟩ := h.1 .entropyTestFailure 3 requestWaitsForIsland rfl
  obtain ⟨hheld, hqueue, hisland⟩ := requestWaitsForIsland_goesOn
  obtain ⟨u, hu, hrank⟩ := State.thenHeld_rank _ hheld hqueue hisland
  rw [exec_entropyTestFailure, hu] at ht
  cases ht
  rw [hclk] at hrank
  exact absurd hrank (by decide)

/-! ## Commit points (O41) -/

/-- Group 31, free-running, in a frame of 1 us begun at 0 and past its commit instant; departure 127, the one it has, holds
a write of `tg_last_commit` for the commit point. -/
def lastCommitIsHeld : State :=
  { State.reset with
    clk := { Clock.reset with elapsed := 4, rank := 6 }
    dev := (((({} : Dev).put .tgMode 31 0).put .depGroup 127 31).putGroup 31 { started := true, period := 1000 }).putDep 127
      { boundary := [⟨.tgLastCommit, 31, 7, {}⟩] } }

/-- The state that entered the commit point's rank. -/
def lastCommitIsHeldEntered : State := (lastCommitIsHeld.ordered 6 0).enter 6

theorem lastCommitIsHeldEntered_due :
    lastCommitIsHeldEntered.dev.asleep = false ∧ lastCommitIsHeldEntered.clk.tick = 4 ∧
      lastCommitIsHeldEntered.dev.commitDue lastCommitIsHeldEntered.env 31 = true := by
  decide +kernel

/-- The held write lands after the commit point has put its tick (R115). -/
theorem commitPoint_lands_heldLastCommit :
    (lastCommitIsHeldEntered.dev.commitPoint lastCommitIsHeldEntered.env 31).g .tgLastCommit 31 = 7 := by
  decide +kernel

theorem exec_commitPoint (g : Nat) (s : State) : exec (.commitPoint g) s =
    (s.ordered 6 0).at 6 fun e d => d.when (g < 32 && d.commitDue e g) fun d => d.commitPoint e g := rfl

/-- A commit point that is due in a block that is awake runs `Dev.commitPoint` on the state that entered rank 6. -/
theorem commitPoint_of_due (g : Nat) (s : State) (hg : g < 32) (ha : (s.ordered 6 0).Awake 6)
    (hdue : ((s.ordered 6 0).enter 6).dev.commitDue ((s.ordered 6 0).enter 6).env g = true) :
    ∃ t, exec (.commitPoint g) s = .next t ∧ ∀ o i,
      t.dev.g o i = (((s.ordered 6 0).enter 6).dev.commitPoint ((s.ordered 6 0).enter 6).env g).g o i := by
  rw [exec_commitPoint, State.at_awake _ _ _ ha]
  refine ⟨_, rfl, fun o i => ?_⟩
  rw [State.run_g, Dev.when_of_true _ _ (by rw [decide_eq_true hg, Bool.true_and]; exact hdue)]

/-- Refutes O41: after COMMIT_POINT `tg_last_commit` is 7, the value of a held write, in place of the tick 4. The clause
ranges over every state, also over one whose held write names an object that no peer may write. -/
theorem not_framesStartAndCommit : ¬ Obligations.FramesStartAndCommit := by
  intro h
  obtain ⟨hawake, htick, hdue⟩ := lastCommitIsHeldEntered_due
  obtain ⟨-, hends⟩ := h.2 lastCommitIsHeld 31 hawake
  obtain ⟨t, ht, -, hlast, -⟩ := hends (by decide +kernel)
  obtain ⟨u, hu, hobjs⟩ := commitPoint_of_due 31 lastCommitIsHeld (by decide) hawake hdue
  cases ht.symm.trans hu
  have hseven : t.dev.g .tgLastCommit 31 = 7 := (hobjs _ _).trans commitPoint_lands_heldLastCommit
  have hfour : t.dev.g .tgLastCommit 31 = 4 := hlast.trans htick
  omega

end Sys2Proof.Machine
end

section
/-!
SUPPORT. What happens to the frame in progress of an arrival. Until it closes, publishing and claiming leave which frame
is in progress (`Dev.KeepsFrame`); closing it gives way to the frame received behind it (`Dev.Closes`, R68, R70). Neither
moves a codec stream, changes a codec engine's state, or loses what is left for rank 9 (`Dev.KeepsPlaces`).
-/

namespace Sys2Proof.Machine

/-! ## What keeps the placement of codec streams -/

/-- The objects that say which engine a stream is on and what state an engine is in. -/
def placeObjs : List Obj := [.arrCodec, .depXsCodec, .cdcState]

/-- From `d` to `d'` every stream stays on its engine, every codec engine keeps its state, and nothing left for rank 9 is
lost. -/
structure Dev.KeepsPlaces (d d' : Dev) : Prop where
  objs : ∀ o ∈ placeObjs, ∀ i, d'.g o i = d.g o i
  late : ∀ l ∈ d.late, l ∈ d'.late

theorem Dev.KeepsPlaces.refl (d : Dev) : d.KeepsPlaces d := ⟨fun _ _ _ => rfl, fun _ h => h⟩

theorem Dev.KeepsPlaces.trans {a b c : Dev} (h : a.KeepsPlaces b) (k : b.KeepsPlaces c) : a.KeepsPlaces c :=
  ⟨fun o ho i => (k.objs o ho i).trans (h.objs o ho i), fun l hl => k.late l (h.late l hl)⟩

theorem Dev.KeepsPlaces.ite {a b c : Dev} (p : Prop) [Decidable p] (h : a.KeepsPlaces b) (k : a.KeepsPlaces c) :
    a.KeepsPlaces (if p then b else c) := by
  split
  · exact h
  · exact k

theorem Dev.KeepsPlaces.foldl {α : Type} (d : Dev) (xs : List α) (f : Dev → α → Dev)
    (h : ∀ (d : Dev) x, d.KeepsPlaces (f d x)) : d.KeepsPlaces (xs.foldl f d) := by
  induction xs generalizing d with
  | nil => exact .refl d
  | cons x xs ih => exact (h d x).trans (ih (f d x))

theorem Dev.KeepsPlaces.cdcState {a b : Dev} (h : a.KeepsPlaces b) (c : Nat) : b.g .cdcState c = a.g .cdcState c :=
  h.objs _ (by decide) c

theorem Dev.KeepsPlaces.codecOf {a b : Dev} (h : a.KeepsPlaces b) (s : Stream) : b.codecOf s = a.codecOf s := by
  cases s with
  | decode n => exact h.objs .arrCodec (by decide) n
  | encode n => exact h.objs .depXsCodec (by decide) n

theorem Dev.later_keepsPlaces (d : Dev) (l : Late) : d.KeepsPlaces (d.later l) :=
  ⟨fun _ _ _ => rfl, fun _ h => by simp [h]⟩

theorem Dev.put_keepsPlaces (d : Dev) (o : Obj) (i v : Nat)
    (h : ∀ p ∈ placeObjs, p.ctorIdx % 1024 ≠ o.ctorIdx % 1024) : d.KeepsPlaces (d.put o i v) :=
  ⟨fun p hp k => d.g_put_other o p i k v (h p hp), fun _ h => h⟩

theorem Dev.putArr_keepsPlaces (d : Dev) (a : Nat) (c : ArrCtx) : d.KeepsPlaces (d.putArr a c) :=
  ⟨fun _ _ _ => rfl, fun _ h => h⟩

theorem Dev.putDep_keepsPlaces (d : Dev) (n : Nat) (c : DepCtx) : d.KeepsPlaces (d.putDep n c) :=
  ⟨fun _ _ _ => rfl, fun _ h => h⟩

/-! ## What keeps the frame in progress -/

/-- What tells a frame in progress from another, and how far it is decoded. -/
def Asm.mark (x : Asm) : Nat × Nat := (x.start, x.next)

/-- From `d` to `d'` the frame in progress of arrival `a` is the same, as far decoded, and the frame behind it the same. -/
structure Dev.KeepsFrame (a : Nat) (d d' : Dev) : Prop where
  places : d.KeepsPlaces d'
  mark : (d'.arr a).asm.map Asm.mark = (d.arr a).asm.map Asm.mark
  recv : (d'.arr a).recv.map Asm.start = (d.arr a).recv.map Asm.start

/-- From `d` to `d'` a frame in progress of arrival `a` gives way to the frame received behind it. -/
structure Dev.Closes (a : Nat) (d d' : Dev) : Prop where
  places : d.KeepsPlaces d'
  frame : (d.arr a).asm.isSome = true → (d'.arr a).asm.map Asm.start = (d.arr a).recv.map Asm.start

section
variable {a : Nat}

theorem Dev.KeepsFrame.refl (d : Dev) : d.KeepsFrame a d := ⟨.refl d, rfl, rfl⟩

theorem Dev.KeepsFrame.trans {b c d : Dev} (h : b.KeepsFrame a c) (k : c.KeepsFrame a d) : b.KeepsFrame a d :=
  ⟨h.places.trans k.places, k.mark.trans h.mark, k.recv.trans h.recv⟩

theorem Dev.KeepsFrame.ite {b c d : Dev} (p : Prop) [Decidable p] (h : b.KeepsFrame a c) (k : b.KeepsFrame a d) :
    b.KeepsFrame a (if p then c else d) := by
  split
  · exact h
  · exact k

theorem Dev.KeepsFrame.start {d d' : Dev} (h : d.KeepsFrame a d') :
    (d'.arr a).asm.map Asm.start = (d.arr a).asm.map Asm.start := by
  have hfirst := congrArg (Option.map Prod.fst) h.mark
  rw [Option.map_map, Option.map_map] at hfirst
  exact hfirst

theorem Dev.KeepsFrame.next {d d' : Dev} (h : d.KeepsFrame a d') :
    (d'.arr a).asm.map Asm.next = (d.arr a).asm.map Asm.next := by
  have hsecond := congrArg (Option.map Prod.snd) h.mark
  rw [Option.map_map, Option.map_map] at hsecond
  exact hsecond

theorem Dev.KeepsFrame.isSome {d d' : Dev} (h : d.KeepsFrame a d') :
    (d'.arr a).asm.isSome = (d.arr a).asm.isSome := by
  simpa only [Option.isSome_map] using congrArg Option.isSome h.mark

theorem Dev.Closes.ite {b c d : Dev} (p : Prop) [Decidable p] (h : b.Closes a c) (k : b.Closes a d) :
    b.Closes a (if p then c else d) := by
  split
  · exact h
  · exact k

/-- Where no frame is in progress there is none to give way. -/
theorem Dev.Closes.of_none {d d' : Dev} (h : d.KeepsPlaces d') (hnone : (d.arr a).asm = none) : d.Closes a d' :=
  ⟨h, fun hsome => by rw [hnone] at hsome; cases hsome⟩

theorem Dev.KeepsFrame.closes {b c d : Dev} (h : b.KeepsFrame a c) (k : c.Closes a d) : b.Closes a d :=
  ⟨h.places.trans k.places, fun hsome => (k.frame (h.isSome.trans hsome)).trans h.recv⟩

theorem Dev.Closes.keeps {b c d : Dev} (h : b.Closes a c) (k : c.KeepsFrame a d) : b.Closes a d :=
  ⟨h.places.trans k.places, fun hsome => k.start.trans (h.frame hsome)⟩

end

/-! Updates of the block. -/

@[simp] theorem Dev.arr_putArr_same (d : Dev) (a : Nat) (c : ArrCtx) : (d.putArr a c).arr a = c := by
  simp [Dev.arr]

theorem Dev.later_keepsFrame (a : Nat) (d : Dev) (l : Late) : d.KeepsFrame a (d.later l) :=
  ⟨d.later_keepsPlaces l, rfl, rfl⟩

theorem Dev.put_keepsFrame (a : Nat) (d : Dev) (o : Obj) (i v : Nat)
    (h : ∀ p ∈ placeObjs, p.ctorIdx % 1024 ≠ o.ctorIdx % 1024) : d.KeepsFrame a (d.put o i v) :=
  ⟨d.put_keepsPlaces o i v h, rfl, rfl⟩

theorem Dev.spend_keepsFrame (a : Nat) (d : Dev) (x : Asm) : d.KeepsFrame a (d.spend x) :=
  ⟨⟨fun _ _ _ => rfl, fun _ h => h⟩, rfl, rfl⟩

theorem Dev.putArr_keepsFrame (a : Nat) (d : Dev) (c : ArrCtx) (hmark : c.asm.map Asm.mark = (d.arr a).asm.map Asm.mark)
    (hrecv : c.recv.map Asm.start = (d.arr a).recv.map Asm.start) : d.KeepsFrame a (d.putArr a c) :=
  ⟨d.putArr_keepsPlaces a c, by rw [Dev.arr_putArr_same, hmark], by rw [Dev.arr_putArr_same, hrecv]⟩

theorem Dev.putArr_closes (a : Nat) (d : Dev) (c : ArrCtx) (h : c.asm = (d.arr a).recv) : d.Closes a (d.putArr a c) :=
  ⟨d.putArr_keepsPlaces a c, fun _ => by rw [Dev.arr_putArr_same, h]⟩

theorem Dev.countConcealed_keepsFrame (a : Nat) (d : Dev) (b n : Nat) : d.KeepsFrame a (d.countConcealed b n) := by
  unfold Dev.countConcealed
  have hcount := Dev.KeepsFrame.ite (n = 0) (.refl d) (d.later_keepsFrame a (.add .arrXsLinesConcealed b n))
  exact .ite _ (hcount.trans (Dev.later_keepsFrame a _ _)) hcount

theorem Dev.setArrState_keepsFrame (a : Nat) (d : Dev) (v : Nat) : d.KeepsFrame a (d.setArrState a v) :=
  .ite _ (.refl d) ((d.put_keepsFrame a .arrState a v (by decide)).trans (Dev.later_keepsFrame a _ _))

theorem Dev.reportBpp_keepsFrame (a : Nat) (d : Dev) (x : Asm) : d.KeepsFrame a (d.reportBpp a x) :=
  .ite _ (d.put_keepsFrame a .arrXsBppNow a _ (by decide)) (.refl d)

/-! ## Rooms -/

theorem Dev.claim'_keepsFrame (d : Dev) (a : Nat) : d.KeepsFrame a (d.claim' a).2 := by
  unfold Dev.claim'
  split
  · exact d.putArr_keepsFrame a _ rfl rfl
  · exact ((d.later_keepsFrame a _).trans (Dev.later_keepsFrame a _ _)).trans
      (Dev.put_keepsFrame a _ .arrSliceCause a 9 (by decide))

@[simp] theorem ArrCtx.binds_asm (c : ArrCtx) (x : Asm) (dest : Dest) : (c.binds x dest).asm = c.asm := by
  cases dest <;> rfl

@[simp] theorem ArrCtx.binds_recv (c : ArrCtx) (x : Asm) (dest : Dest) : (c.binds x dest).recv = c.recv := by
  cases dest <;> rfl

/-- The frame in progress claims its room, if it has yet to. -/
def Dev.claimFirst (d : Dev) (a : Nat) : Dev :=
  match (d.arr a).asm with
  | none => d
  | some x =>
    if x.dest = Dest.pending then
      (d.claim' a).2.updArr a fun c => { c.binds x (d.claim' a).1 with asm := some { x with dest := (d.claim' a).1 } }
    else d

/-- The frame received behind it claims its room, if it has yet to. -/
def Dev.claimBehind (d : Dev) (a : Nat) : Dev :=
  match (d.arr a).recv with
  | none => d
  | some x =>
    if x.dest = Dest.pending then
      (d.claim' a).2.updArr a fun c => { c.binds x (d.claim' a).1 with recv := some { x with dest := (d.claim' a).1 } }
    else d

theorem Dev.claimDue_eq (d : Dev) (a : Nat) : d.claimDue a = (d.claimFirst a).claimBehind a := rfl

theorem Dev.claimFirst_keepsFrame (d : Dev) (a : Nat) : d.KeepsFrame a (d.claimFirst a) := by
  have hclaim := d.claim'_keepsFrame a
  unfold Dev.claimFirst
  split
  case h_1 => exact .refl d
  case h_2 x hx =>
    refine .ite _ (hclaim.trans (Dev.putArr_keepsFrame a _ _ ?_ ?_)) (.refl d)
    · rw [hclaim.mark, hx]; rfl
    · rw [ArrCtx.binds_recv]

theorem Dev.claimBehind_keepsFrame (d : Dev) (a : Nat) : d.KeepsFrame a (d.claimBehind a) := by
  have hclaim := d.claim'_keepsFrame a
  unfold Dev.claimBehind
  split
  case h_1 => exact .refl d
  case h_2 x hx =>
    refine .ite _ (hclaim.trans (Dev.putArr_keepsFrame a _ _ ?_ ?_)) (.refl d)
    · rw [ArrCtx.binds_asm]
    · rw [hclaim.recv, hx]; rfl

theorem Dev.claimDue_keepsFrame (d : Dev) (a : Nat) : d.KeepsFrame a (d.claimDue a) := by
  rw [Dev.claimDue_eq]
  exact (d.claimFirst_keepsFrame a).trans (Dev.claimBehind_keepsFrame _ a)

theorem Dev.freeRoom_keepsFrame (d : Dev) (a : Nat) (x : Dest) : d.KeepsFrame a (d.freeRoom a x) := by
  unfold Dev.freeRoom
  split
  · exact d.putArr_keepsFrame a _ rfl rfl
  · exact .refl d

/-! ## Slices -/

theorem Dev.beginSlice_keepsFrame (e : Env) (d : Dev) (a k : Nat) : d.KeepsFrame a (d.beginSlice e a k) := by
  unfold Dev.beginSlice
  dsimp only
  split
  · exact .refl d
  · split
    · split <;> exact d.putArr_keepsFrame a _ rfl rfl
    · exact d.putArr_keepsFrame a _ rfl rfl

theorem Dev.publish_keepsFrame (e : Env) (d : Dev) (a k : Nat) : d.KeepsFrame a (d.publish e a k) := by
  unfold Dev.publish
  dsimp only
  split
  case h_1 => exact .refl d
  case h_2 x hx =>
    refine d.putArr_keepsFrame a _ ?_ ?_
    · rw [hx]
      split <;> rfl
    · split <;> rfl

theorem Dev.publishDue_keepsFrame (e : Env) (a fuel upto : Nat) (d : Dev) :
    d.KeepsFrame a (Dev.publishDue e a fuel upto d) := by
  induction fuel generalizing d with
  | zero => exact .refl d
  | succ fuel ih =>
    have hpublish (d : Dev) (k : Nat) : d.KeepsFrame a (Dev.publishDue e a fuel upto (d.publish e a k)) :=
      (d.publish_keepsFrame e a k).trans (ih _)
    unfold Dev.publishDue
    split
    case h_1 => exact .refl d
    case h_2 x hx =>
      refine .ite _ (.refl d) (.ite _ (hpublish _ _) (.ite _ (.trans ?_ (hpublish _ _)) (.refl d)))
      refine (d.spend_keepsFrame a x).trans (Dev.putArr_keepsFrame a _ _ ?_ rfl)
      rw [(d.spend_keepsFrame a x).mark, hx]
      split <;> rfl

/-! ## The end of a frame -/

theorem Dev.rejectFrame_closes (d : Dev) (a : Nat) : d.Closes a (d.rejectFrame a) := by
  unfold Dev.rejectFrame
  split
  case h_1 hnone => exact .of_none (.refl d) hnone
  case h_2 => exact (d.freeRoom_keepsFrame a _).closes (Dev.putArr_closes a _ _ rfl)

theorem Dev.rejectIncomplete_closes (d : Dev) (a : Nat) : d.Closes a (d.rejectIncomplete a) :=
  ((d.rejectFrame_closes a).keeps (Dev.later_keepsFrame a _ _)).keeps (Dev.later_keepsFrame a _ _)

/-- The objects a stored frame gives values. -/
theorem Dev.storedObjs_keepsFrame (d : Dev) (a format seq time tick : Nat) :
    d.KeepsFrame a (((((d.put .arrFormatNow a format).put .arrSeq a seq).put .arrFrameTime a time).put .arrFrameTick a
      tick).count .arrFrames a) :=
  ((((d.put_keepsFrame a _ _ _ (by decide)).trans (Dev.put_keepsFrame a _ _ _ _ (by decide))).trans
    (Dev.put_keepsFrame a _ _ _ _ (by decide))).trans (Dev.put_keepsFrame a _ _ _ _ (by decide))).trans
      (Dev.later_keepsFrame a _ _)

theorem Dev.storeFrame_closes (e : Env) (d : Dev) (a : Nat) (p : Pic) : d.Closes a (d.storeFrame e a p) := by
  unfold Dev.storeFrame
  split
  case h_1 hnone => exact .of_none (.refl d) hnone
  case h_2 =>
    split
    · exact d.putArr_closes a _ rfl
    · refine ((d.storedObjs_keepsFrame a _ _ _ _).closes (Dev.putArr_closes a _ _ ?_)).keeps
        (Dev.setArrState_keepsFrame a _ _)
      split <;> rfl

theorem Dev.deliverFrame_closes (e : Env) (d : Dev) (a : Nat) (p : Pic) (field : Nat) :
    d.Closes a (d.deliverFrame e a p field) := by
  unfold Dev.deliverFrame
  refine (d.claimDue_keepsFrame a).closes (.ite _ (Dev.storeFrame_closes e _ a p) ?_)
  refine (Dev.storeFrame_closes e _ a _).keeps (Dev.putArr_keepsFrame a _ _ ?_ ?_) <;> (split <;> rfl)

/-- The frame in progress with its missing lines concealed, and the block that has counted them or spent free values. -/
def Dev.concealRest (d : Dev) (a : Nat) (x : Asm) : Asm × Dev :=
  if d.g .arrKind a = 2 then
    ((x.concealXs (d.blackOf a) 0 x.pic.h).1, d.countConcealed a (x.concealXs (d.blackOf a) 0 x.pic.h).2)
  else (x.conceal d.drawn 0 x.pic.h, d.spend x)

theorem Dev.concealRest_mark (d : Dev) (a : Nat) (x : Asm) : (d.concealRest a x).1.mark = x.mark := by
  unfold Dev.concealRest
  split <;> rfl

theorem Dev.concealRest_keepsFrame (d : Dev) (a : Nat) (x : Asm) : d.KeepsFrame a (d.concealRest a x).2 := by
  unfold Dev.concealRest
  split
  · exact d.countConcealed_keepsFrame a a _
  · exact d.spend_keepsFrame a x

/-- A frame whose missing lines are concealed is rejected for their number, or published and stored. -/
def Dev.finishFrame (e : Env) (d : Dev) (a : Nat) (y : Asm) : Dev :=
  if d.g .arrConcealMax a < y.missing then d.rejectIncomplete a
  else
    let d := d.updArr a fun c => { c with asm := some y }
    let d := if d.sliced a then Dev.publishDue e a (sliceCount y.pic.h) (sliceCount y.pic.h) d else d
    if y.dest = .skip then d.deliverFrame e a y.pic y.field
    else
      let d := if 0 < y.missing then (d.count .arrConcealed a).flag .arrEventFlags a 3 else d
      (d.deliverFrame e a y.pic y.field).reportBpp a y

theorem Dev.closeFrame_eq (e : Env) (d : Dev) (a : Nat) : d.closeFrame e a =
    match ((d.claimDue a).arr a).asm with
    | none => d.claimDue a
    | some x => Dev.finishFrame e ((d.claimDue a).concealRest a x).2 a ((d.claimDue a).concealRest a x).1 := rfl

theorem Dev.finishFrame_closes (e : Env) (d : Dev) (a : Nat) (y : Asm)
    (h : (d.arr a).asm.map Asm.mark = some y.mark) : d.Closes a (d.finishFrame e a y) := by
  have hshown := d.putArr_keepsFrame a { d.arr a with asm := some y } h.symm rfl
  have hpublished := hshown.trans (.ite ((d.putArr a { d.arr a with asm := some y }).sliced a = true)
    (Dev.publishDue_keepsFrame e a (sliceCount y.pic.h) (sliceCount y.pic.h) _) (.refl _))
  have hcounted := hpublished.trans (.ite (0 < y.missing)
    ((Dev.later_keepsFrame a _ (.add .arrConcealed a 1)).trans (Dev.later_keepsFrame a _ (.flag .arrEventFlags a (2 ^ 3))))
    (.refl _))
  exact .ite _ (d.rejectIncomplete_closes a) (.ite _ (hpublished.closes (Dev.deliverFrame_closes e _ a _ _))
    ((hcounted.closes (Dev.deliverFrame_closes e _ a _ _)).keeps (Dev.reportBpp_keepsFrame a _ y)))

/-- Closing a frame gives way to the frame received behind it, whether the frame is stored, skipped or rejected (R70). -/
theorem Dev.closeFrame_closes (e : Env) (d : Dev) (a : Nat) : d.Closes a (d.closeFrame e a) := by
  have hclaim := d.claimDue_keepsFrame a
  rw [Dev.closeFrame_eq]
  split
  case h_1 hnone => exact hclaim.closes (.of_none (.refl _) hnone)
  case h_2 x hx =>
    have hrest := (d.claimDue a).concealRest_keepsFrame a x
    refine (hclaim.trans hrest).closes (Dev.finishFrame_closes e _ a _ ?_)
    rw [hrest.mark, hx, Dev.concealRest_mark]
    rfl

end Sys2Proof.Machine
end

section
/-!
Codec engines that fault (O28). A fault in service is a chain: the engine is retired, its streams' frames are cut, the
streams leave it, and each goes to another engine in service where one has room (R203). A stream off an engine that is not
in service stays off it through every placement.
-/

namespace Sys2Proof.Machine

/-! ## Commands of blocks that STANDBY stops -/

/-- Where the blocks that STANDBY stops run, a command's next state is its effect on the state that entered its rank. -/
theorem State.running_run (s : State) (r : Nat) (f : Env → Dev → Dev) (h : s.Running r) :
    s.running r f = .next ((s.enter r).run f) := by
  obtain ⟨hawake, hstopped⟩ := h
  unfold State.running
  rw [State.at_awake _ _ _ hawake]
  unfold State.run
  simp only [hstopped, Bool.false_eq_true, if_false]

/-- A command whose effect changes nothing leaves the state that entered its rank. -/
theorem State.running_id (s : State) (r : Nat) (f : Env → Dev → Dev) (h : s.Running r)
    (hf : f (s.enter r).env (s.enter r).dev = (s.enter r).dev) : s.running r f = .next (s.enter r) :=
  s.running_become r f _ h hf (s.enter_posts r)

@[simp] theorem State.run_codecOf (s : State) (f : Env → Dev → Dev) (x : Stream) :
    (s.run f).dev.codecOf x = (f s.env s.dev).codecOf x := by
  cases x <;> rfl

/-! ## Placement -/

theorem Dev.g_put_eq_or (d : Dev) (o p : Obj) (i k v : Nat) :
    (d.put o i v).g p k = v % 2 ^ o.info.ty.width ∨ (d.put o i v).g p k = d.g p k := by
  unfold Dev.g
  rw [Dev.put_objs]
  by_cases h : p.key k = o.key i
  · rw [h, Tab.getD_put_same]; exact .inl rfl
  · rw [Tab.getD_put_other _ _ _ _ _ h]; exact .inr rfl

@[simp] theorem Dev.placeStream_cdcState (d : Dev) (s : Stream) (v c : Nat) :
    (d.placeStream s v).g .cdcState c = d.g .cdcState c := by
  cases s <;> exact d.g_put_other _ _ _ _ _ (by decide)

@[simp] theorem Dev.placeStream_late (d : Dev) (s : Stream) (v : Nat) : (d.placeStream s v).late = d.late := by
  cases s <;> rfl

@[simp] theorem Dev.placeStream_codecOf_same (d : Dev) (s : Stream) (v : Nat) :
    (d.placeStream s v).codecOf s = v % 256 := by
  cases s <;> exact d.g_put_same _ _ _

theorem Dev.placeStream_codecOf_eq_or (d : Dev) (s x : Stream) (v : Nat) :
    (d.placeStream s v).codecOf x = v % 256 ∨ (d.placeStream s v).codecOf x = d.codecOf x := by
  cases s <;> cases x <;> exact d.g_put_eq_or _ _ _ _ _

/-- A placement on another engine leaves a stream off the engine it is off. -/
theorem Dev.placeStream_codecOf_ne (d : Dev) (s x : Stream) {v c : Nat} (hv : v % 256 ≠ c) (h : d.codecOf x ≠ c) :
    (d.placeStream s v).codecOf x ≠ c := by
  obtain heq | heq := d.placeStream_codecOf_eq_or s x v
  · rwa [heq]
  · rwa [heq]

/-- A stream is placed on an engine in service only (R197). -/
theorem Dev.codecFor_inService {d : Dev} {ls : List (Stream × Rat)} {n k : Nat} {s : Stream}
    (h : d.codecFor ls n s = some k) : k < n ∧ d.g .cdcState k = 0 := by
  have hmem := List.mem_of_find?_eq_some h
  simp only [List.mem_filter, List.mem_range, Bool.and_eq_true, beq_iff_eq] at hmem
  obtain ⟨hlt, ⟨hstate, -⟩, -⟩ := hmem
  exact ⟨hlt, hstate⟩

/-- From `d` to `d'` engine `c` stays retired, no stream comes to it, and nothing left for rank 9 is lost. -/
structure Dev.KeepsOff (c : Nat) (d d' : Dev) : Prop where
  state : d.g .cdcState c = 1 → d'.g .cdcState c = 1
  off : d.g .cdcState c = 1 → ∀ x, d.codecOf x ≠ c → d'.codecOf x ≠ c
  late : ∀ l ∈ d.late, l ∈ d'.late

section
variable {c : Nat}

theorem Dev.KeepsOff.refl (d : Dev) : d.KeepsOff c d := ⟨id, fun _ _ h => h, fun _ h => h⟩

theorem Dev.KeepsOff.trans {d d₁ d₂ : Dev} (h : d.KeepsOff c d₁) (k : d₁.KeepsOff c d₂) : d.KeepsOff c d₂ :=
  ⟨fun hs => k.state (h.state hs), fun hs x hx => k.off (h.state hs) x (h.off hs x hx),
    fun l hl => k.late l (h.late l hl)⟩

theorem Dev.KeepsOff.foldl {α : Type} (d : Dev) (xs : List α) (f : Dev → α → Dev)
    (h : ∀ (d : Dev) x, d.KeepsOff c (f d x)) : d.KeepsOff c (xs.foldl f d) := by
  induction xs generalizing d with
  | nil => exact .refl d
  | cons x xs ih => exact (h d x).trans (ih (f d x))

theorem Dev.KeepsPlaces.keepsOff {d d' : Dev} (h : d.KeepsPlaces d') : d.KeepsOff c d' :=
  ⟨(h.cdcState c).trans, fun _ x hx => by rwa [h.codecOf x], h.late⟩

theorem Dev.placeStream_keepsOff (d : Dev) (s : Stream) {v : Nat} (hv : v % 256 ≠ c) :
    d.KeepsOff c (d.placeStream s v) :=
  ⟨(d.placeStream_cdcState s v c).trans, fun _ x => d.placeStream_codecOf_ne s x hv,
    fun l hl => by rwa [d.placeStream_late s v]⟩

/-- Loose streams go to engines in service, never to a retired one (R203). -/
theorem Dev.placeLoose_keepsOff (d : Dev) (ls : List (Stream × Rat)) (ss : List Stream) (h : d.g .cdcState c = 1) :
    d.KeepsOff c (d.placeLoose ls ss) := by
  unfold Dev.placeLoose
  generalize byLoad ls ss = xs
  induction xs generalizing d with
  | nil => exact .refl d
  | cons x xs ih =>
    rw [List.foldl_cons]
    split
    case h_1 k hk =>
      obtain ⟨hlt, hstate⟩ := Dev.codecFor_inService hk
      have hne : k % 256 ≠ c := by
        rintro rfl
        rw [Nat.mod_eq_of_lt (by omega), hstate] at h
        exact absurd h (by decide)
      have hplace := d.placeStream_keepsOff x hne
      exact hplace.trans (ih _ (hplace.state h))
    case h_2 => exact ih d h

end

/-! ## The steps of a fault -/

/-- The engine is retired, counted and its master reset. -/
def Dev.retireCodec (d : Dev) (c : Nat) : Dev :=
  (((d.put .cdcState c 1).count .cdcFaults c).flag .cdcEventFlags c 0).masterReset (49 + c)

/-- The frames of a stream that its engine holds end: both frames of an arrival close, a departure's is cut short. -/
def Dev.cutStream (e : Env) (d : Dev) : Stream → Dev
  | .decode a => (d.closeFrame e a).closeFrame e a
  | .encode n => d.updDep n fun x => { x with encodeCut := true }

/-- Streams leave their engine. -/
def Dev.unplace (d : Dev) (ss : List Stream) : Dev := ss.foldl (fun d s => d.placeStream s 0xFF) d

/-- Loose streams of engine `c` are placed anew, flagged where one finds no engine, and the placement is reported. -/
def Dev.placeAnew (d : Dev) (ls : List (Stream × Rat)) (ss : List Stream) (c : Nat) : Dev :=
  let d := d.placeLoose ls ss
  let d := if ss.any fun s => d.codecOf s == 0xFF then d.flag .cdcEventFlags c 1 else d
  d.reportCodecs

/-- The streams that engine `c` holds. -/
def Dev.streamsOn (d : Dev) (c : Nat) : List Stream := (d.engineStreams d.heldStreams c).map fun p => p.1

theorem Dev.codecFaults_inService (e : Env) (d : Dev) (c : Nat) (h1 : d.g .cdcState c ≠ 1) (h2 : d.g .cdcState c ≠ 2) :
    d.codecFaults e c =
      (((d.streamsOn c).foldl (Dev.cutStream e) (d.retireCodec c)).unplace (d.streamsOn c)).placeAnew d.heldStreams
        (d.streamsOn c) c := by
  unfold Dev.codecFaults
  rw [if_neg h1, if_neg h2]
  rfl

theorem Dev.masterReset_keepsPlaces (d : Dev) (m : Nat) :
    ((d.count .bmResets).flag .bmEventFlags 0 1).KeepsPlaces (d.masterReset m) := by
  unfold Dev.masterReset
  dsimp only
  split
  · exact .refl _
  · exact ⟨fun _ _ _ => rfl, fun _ h => h⟩

theorem Dev.retireCodec_cdcState (d : Dev) (c : Nat) : (d.retireCodec c).g .cdcState c = 1 :=
  ((Dev.masterReset_keepsPlaces _ _).cdcState c).trans (d.g_put_same .cdcState c 1)

theorem Dev.retireCodec_late (d : Dev) (c : Nat) {l : Late}
    (h : l ∈ d.late ++ [.add .cdcFaults c 1, .flag .cdcEventFlags c 1, .add .bmResets 0 1]) :
    l ∈ (d.retireCodec c).late :=
  (Dev.masterReset_keepsPlaces _ _).late l (List.mem_append_left _ (by simpa [or_assoc] using h))

theorem Dev.cutStream_keepsPlaces (e : Env) (d : Dev) (s : Stream) : d.KeepsPlaces (d.cutStream e s) := by
  cases s with
  | decode a => exact (d.closeFrame_closes e a).places.trans (Dev.closeFrame_closes e _ a).places
  | encode n => exact d.putDep_keepsPlaces n _

/-- Streams that leave their engine for none come to no engine of the part. -/
theorem Dev.unplace_keepsOff {c : Nat} (d : Dev) (ss : List Stream) (hc : c < 24) : d.KeepsOff c (d.unplace ss) :=
  .foldl d ss _ fun d s => d.placeStream_keepsOff s (by omega)

theorem Dev.unplace_codecOf_ne {c : Nat} (d : Dev) (ss : List Stream) (hc : c < 24) (h : d.g .cdcState c = 1) :
    ∀ s ∈ ss, (d.unplace ss).codecOf s ≠ c := by
  induction ss generalizing d with
  | nil => simp
  | cons x ss ih =>
    have hstate : (d.placeStream x 0xFF).g .cdcState c = 1 := (d.placeStream_cdcState x _ c).trans h
    intro s hs
    obtain rfl | hs := List.mem_cons.mp hs
    · exact (Dev.unplace_keepsOff _ ss hc).off hstate s (by rw [Dev.placeStream_codecOf_same]; omega)
    · exact ih _ hstate s hs

theorem Dev.reportCodecs_keepsPlaces (d : Dev) : d.KeepsPlaces d.reportCodecs :=
  .foldl d _ _ fun d c =>
    (d.put_keepsPlaces .cdcStreams c _ (by decide)).trans (Dev.put_keepsPlaces _ .cdcLoad c _ (by decide))

theorem Dev.placeAnew_keepsOff {c : Nat} (d : Dev) (ls : List (Stream × Rat)) (ss : List Stream) (k : Nat)
    (h : d.g .cdcState c = 1) : d.KeepsOff c (d.placeAnew ls ss k) :=
  (d.placeLoose_keepsOff ls ss h).trans
    ((Dev.KeepsPlaces.ite _ (Dev.later_keepsPlaces _ _) (.refl _)).trans (Dev.reportCodecs_keepsPlaces _)).keepsOff

/-- What an engine that faults in service leaves: it is retired, the streams it held are on it no more, and the fault and
the master's reset are counted and flagged (R203, R371). -/
structure Dev.Retires (c : Nat) (d d' : Dev) : Prop where
  state : d'.g .cdcState c = 1
  off : ∀ s ∈ d.streamsOn c, d'.codecOf s ≠ c
  late : ∀ l ∈ d.late ++ [.add .cdcFaults c 1, .flag .cdcEventFlags c 1, .add .bmResets 0 1], l ∈ d'.late

theorem Dev.codecFaults_retires (e : Env) (d : Dev) {c : Nat} (hc : c < 24) (h1 : d.g .cdcState c ≠ 1)
    (h2 : d.g .cdcState c ≠ 2) : d.Retires c (d.codecFaults e c) := by
  rw [d.codecFaults_inService e c h1 h2]
  have hcut := Dev.KeepsPlaces.foldl (d.retireCodec c) (d.streamsOn c) _ (Dev.cutStream_keepsPlaces e)
  have hstate := (hcut.cdcState c).trans (d.retireCodec_cdcState c)
  have hunplaced := Dev.unplace_keepsOff ((d.streamsOn c).foldl (Dev.cutStream e) (d.retireCodec c)) (d.streamsOn c) hc
  have hanew := Dev.placeAnew_keepsOff _ d.heldStreams (d.streamsOn c) c (hunplaced.state hstate)
  refine ⟨hanew.state (hunplaced.state hstate), fun s hs => ?_, fun l hl => ?_⟩
  · exact hanew.off (hunplaced.state hstate) s (Dev.unplace_codecOf_ne _ _ hc hstate s hs)
  · exact hanew.late l (hunplaced.late l (hcut.late l (d.retireCodec_late c hl)))

theorem State.run_retires {c : Nat} {d : Dev} (s : State) {f : Env → Dev → Dev} (h : d.Retires c (f s.env s.dev)) :
    d.Retires c (s.run f).dev :=
  ⟨(s.run_g f _ _).trans h.state, fun x hx => by rw [State.run_codecOf]; exact h.off x hx,
    fun l hl => by rw [State.run_late]; exact h.late l hl⟩

/-! ## The commands -/

theorem exec_codecFault (c : Nat) (s : State) : exec (.codecFault c) s =
    (s.ordered 3 (0x0A0 + c)).running 3 fun e d => d.codecFaults e c := rfl

theorem exec_codecBistResult (c : Nat) (ok : Bool) (s : State) : exec (.codecBistResult c ok) s =
    (s.ordered 3 (0x0A0 + c)).running 3 fun e d => d.codecBistResult e c ok := rfl

theorem Dev.codecFaults_retired (e : Env) (d : Dev) (c : Nat) (h : d.g .cdcState c = 1) : d.codecFaults e c = d := by
  unfold Dev.codecFaults
  rw [if_pos h]

theorem Dev.codecFaults_underTest (e : Env) (d : Dev) (c : Nat) (h : d.g .cdcState c = 2) : d.codecFaults e c =
    ((((d.put .cdcState c 1).count .cdcFaults c).flag .cdcEventFlags c 3).put .cdcReadmit 0 0xFF).answerCode 0x0531 := by
  unfold Dev.codecFaults
  rw [if_neg (by rw [h]; decide), if_pos h]

/-- The background self-test of a codec engine has ended and is counted (R521). -/
def Dev.codecTestEnded (d : Dev) (c : Nat) : Dev :=
  ({ d with test := { d.test with cdcRun := d.test.cdcRun.del c } }).count .bistRuns

theorem Dev.codecBistResult_none (e : Env) (d : Dev) (c : Nat) (ok : Bool) (h : d.test.cdcRun.find c = none) :
    d.codecBistResult e c ok = d := by
  unfold Dev.codecBistResult
  rw [h]
  rfl

theorem Dev.codecBistResult_some (e : Env) (d : Dev) (c : Nat) (ok : Bool) (h : d.test.cdcRun.find c ≠ none) :
    d.codecBistResult e c ok =
      if ok then d.codecTestEnded c else ((d.codecTestEnded c).flag .bistEventFlags 0 1).codecFaults e c := by
  unfold Dev.codecBistResult
  rw [if_neg (by simpa [Option.isNone_iff_eq_none] using h)]
  rfl

/-- A failed self-test of an engine in service retires it (R521). -/
theorem codecBistResult_failed (s : State) (c : Nat) (hs : (s.ordered 3 (0x0A0 + c)).Running 3) (hc : c < 24)
    (hrun : ((s.ordered 3 (0x0A0 + c)).enter 3).dev.test.cdcRun.find c ≠ none)
    (h1 : ((s.ordered 3 (0x0A0 + c)).enter 3).dev.g .cdcState c ≠ 1)
    (h2 : ((s.ordered 3 (0x0A0 + c)).enter 3).dev.g .cdcState c ≠ 2) :
    ∃ t, exec (.codecBistResult c false) s = .next t ∧ t.dev.g .cdcState c = 1 ∧
      Late.add .bistRuns 0 1 ∈ t.dev.late ∧ Late.flag .bistEventFlags 0 2 ∈ t.dev.late := by
  generalize hu : (s.ordered 3 (0x0A0 + c)).enter 3 = u at hrun h1 h2
  have hretires := Dev.codecFaults_retires u.env ((u.dev.codecTestEnded c).flag .bistEventFlags 0 1) hc h1 h2
  have heffect := Dev.codecBistResult_some u.env u.dev c false hrun
  refine ⟨_, (exec_codecBistResult c false s).trans (State.running_run _ _ _ hs), ?_⟩
  rw [hu, State.run_g, State.run_late, heffect]
  exact ⟨hretires.state, hretires.late _ (by simp [Dev.codecTestEnded]), hretires.late _ (by simp [Dev.codecTestEnded])⟩

/-- A fault of an engine in service retires it, and its streams leave it (R203). -/
theorem codecFault_inService (s : State) (c : Nat) (hs : (s.ordered 3 (0x0A0 + c)).Running 3) (hc : c < 24)
    (h1 : ((s.ordered 3 (0x0A0 + c)).enter 3).dev.g .cdcState c ≠ 1)
    (h2 : ((s.ordered 3 (0x0A0 + c)).enter 3).dev.g .cdcState c ≠ 2) :
    ∃ t, exec (.codecFault c) s = .next t ∧ t.clk = ((s.ordered 3 (0x0A0 + c)).enter 3).clk ∧
      ((s.ordered 3 (0x0A0 + c)).enter 3).dev.Retires c t.dev := by
  exact ⟨_, (exec_codecFault c s).trans (State.running_run _ _ _ hs), State.run_clk _ _,
    State.run_retires _ (Dev.codecFaults_retires _ _ hc h1 h2)⟩

/-- Settles O28: a lemma for each state a fault or a self-test's result meets the engine in. -/
theorem codecFaultsReleaseTheStreams : Obligations.CodecFaultsReleaseTheStreams := by
  intro s c hs hc u d
  refine ⟨fun h => ?_, fun h => ?_, fun h1 h2 => ?_, fun ok h => ?_, fun h => ?_, codecBistResult_failed s c hs hc⟩
  · exact State.running_id _ _ _ hs (Dev.codecFaults_retired _ _ c h)
  · exact State.running_become _ _ _ _ hs (Dev.codecFaults_underTest _ _ c h) rfl
  · obtain ⟨t, hnext, hclk, hretires⟩ := codecFault_inService s c hs hc h1 h2
    exact ⟨t, hnext, hclk, hretires.state, fun x hx => hretires.off x.1 (List.mem_map_of_mem hx),
      hretires.late _ (by simp), hretires.late _ (by simp), hretires.late _ (by simp)⟩
  · exact State.running_id _ _ _ hs (Dev.codecBistResult_none _ _ c ok h)
  · exact State.running_become _ _ _ _ hs (Dev.codecBistResult_some _ _ c true h) rfl

end Sys2Proof.Machine
end

section
/-!
Slices of codestreams (O38). A slice that is due is put into the frame in progress and counted (`Dev.sliceIn`), and then
published; the picture's last closes the frame (R202). An encoded slice is counted and its packets released (R199).
-/

namespace Sys2Proof.Machine

/-! ## Counting -/

theorem cdcReg_eq (c off : Nat) : cdcReg c off = 0x180000 + off + 0x1000 * c := by
  unfold cdcReg
  omega

/-- A slice counts, and as late where its bound applies and has passed; nothing else changes. -/
theorem Dev.countSlice_eq (d : Dev) (now c t : Nat) (bound : Bool) : d.countSlice now c t bound =
    { d with late := d.late ++ .addReg (0x180010 + 0x1000 * c) 1 ::
        if bound ∧ t + 80 < now then [.addReg (0x180018 + 0x1000 * c) 1] else [] } := by
  unfold Dev.countSlice
  rw [cdcReg_eq, cdcReg_eq]
  split
  · rw [Dev.countReg, Dev.countReg, Dev.later, Dev.later, List.append_assoc]
    rfl
  · rfl

theorem Dev.countSlice_counts (d : Dev) (now c t : Nat) (bound : Bool) :
    Late.addReg (0x180010 + 0x1000 * c) 1 ∈ (d.countSlice now c t bound).late := by
  simp [Dev.countSlice_eq]

theorem Dev.countSlice_counts_late (d : Dev) (now c t : Nat) {bound : Bool} (hbound : bound = true)
    (hlate : t + 80 < now) : Late.addReg (0x180018 + 0x1000 * c) 1 ∈ (d.countSlice now c t bound).late := by
  simp [Dev.countSlice_eq, hbound, hlate]

@[simp] theorem Dev.countSlice_deps (d : Dev) (now c t : Nat) (bound : Bool) :
    (d.countSlice now c t bound).deps = d.deps := by
  rw [Dev.countSlice_eq]

theorem Dev.countSlice_keepsFrame (a : Nat) (d : Dev) (now c t : Nat) (bound : Bool) :
    d.KeepsFrame a (d.countSlice now c t bound) := by
  rw [Dev.countSlice_eq]
  exact ⟨⟨fun _ _ _ => rfl, fun _ h => List.mem_append_left _ h⟩, rfl, rfl⟩

/-! ## Decoding -/

/-- The decoder does the next slice of the frame in progress, of the height the codestream gives, inside the picture, once
the markers are there whole and its turn has come (R198, R199). -/
theorem Dev.decodeDue_eq_some_iff (d : Dev) (a k lines : Nat) (x : Asm) (t : Nat) : d.decodeDue a k lines = some (x, t) ↔
    (d.arr a).asm = some x ∧ d.workSince (.decode a) = some t ∧ d.g .arrKind a = 2 ∧ d.g .arrCodec a < 24 ∧
      x.sliceLines = some lines ∧ k = x.next ∧ k * lines < x.pic.h ∧ x.whole none = true ∧
      d.servesNext (d.g .arrCodec a) t = true := by
  unfold Dev.decodeDue
  cases hx : (d.arr a).asm with
  | none => simp
  | some y =>
    cases ht : d.workSince (.decode a) with
    | none => simp
    | some u =>
      dsimp only
      split
      case isTrue hdue =>
        simp only [Option.some.injEq, Prod.mk.injEq]
        exact ⟨fun ⟨hy, hu⟩ => by subst hy hu; exact ⟨rfl, rfl, hdue⟩, fun ⟨hy, hu, _⟩ => ⟨hy, hu⟩⟩
      case isFalse hdue =>
        simp only [Option.some.injEq, reduceCtorEq, false_iff]
        rintro ⟨rfl, rfl, hmust⟩
        exact hdue hmust

/-- The frame in progress becomes `y`. -/
def Dev.withFrame (d : Dev) (a : Nat) (y : Asm) : Dev := d.updArr a fun c => { c with asm := some y }

/-- Parse errors and `n` concealed lines of a slice are counted. -/
def Dev.noteErrors (d : Dev) (a parse n : Nat) : Dev :=
  (if parse = 0 then d else d.count .arrXsParseErrors a parse).countConcealed a n

/-- The frame in progress becomes `y` with a slice decoded; its errors and the slice, workable since `t`, are counted. -/
def Dev.sliceIn (now : Nat) (d : Dev) (a : Nat) (y : Asm) (parse n t : Nat) (bound : Bool) : Dev :=
  let d := (d.withFrame a y).noteErrors a parse n
  d.countSlice now (d.g .arrCodec a) t bound

/-- The slices of a frame that are whole are published where the arrival keeps slices (R95). -/
def Dev.publishWhole (e : Env) (d : Dev) (a : Nat) (y : Asm) : Dev :=
  if d.sliced a then Dev.publishDue e a (sliceCount y.pic.h) 0 d else d

/-- The first data of slice `k` overwrites its slot where the arrival keeps slices. -/
def Dev.beginSliced (e : Env) (d : Dev) (a k : Nat) : Dev := if d.sliced a then d.beginSlice e a k else d

theorem Dev.sliceDecoded_none (e : Env) (d : Dev) (a k lines : Nat) (lost : Option Nat) (parse : Nat)
    (h : d.decodeDue a k lines = none) : d.sliceDecoded e a k lines lost parse = d := by
  unfold Dev.sliceDecoded
  rw [h]

/-- A slice that is due is begun, put into the frame, counted and published, and the picture's last closes the frame. -/
theorem Dev.sliceDecoded_some (e : Env) (d : Dev) (a k lines : Nat) (lost : Option Nat) (parse : Nat) {x : Asm} {t : Nat}
    (h : d.decodeDue a k lines = some (x, t)) : ∃ (y : Asm) (n : Nat),
      (d.sliceDecoded e a k lines lost parse =
        let v := ((d.beginSliced e a k).sliceIn e.now a y parse n t ((x.held.find k).any fun p => p.2)).publishWhole e a y
        if min x.pic.h (k * lines + lines) < x.pic.h then v else v.closeFrame e a) ∧ y.next = k + 1 := by
  unfold Dev.sliceDecoded
  rw [h]
  exact ⟨_, _, rfl, rfl⟩

theorem Dev.beginSliced_keepsFrame (e : Env) (d : Dev) (a k : Nat) : d.KeepsFrame a (d.beginSliced e a k) :=
  .ite _ (d.beginSlice_keepsFrame e a k) (.refl d)

theorem Dev.publishWhole_keepsFrame (e : Env) (d : Dev) (a : Nat) (y : Asm) : d.KeepsFrame a (d.publishWhole e a y) :=
  .ite _ (Dev.publishDue_keepsFrame e a _ _ d) (.refl d)

/-- From `d` to `d'` slice `k` of arrival `a` is decoded, the frame behind stays, and the slice and its parse errors are
counted (R202, R207). -/
structure Dev.Decodes (now a k parse t : Nat) (bound : Bool) (d d' : Dev) : Prop where
  next : (d'.arr a).asm.map Asm.next = some (k + 1)
  recv : (d'.arr a).recv.map Asm.start = (d.arr a).recv.map Asm.start
  counts : Late.addReg (0x180010 + 0x1000 * d.g .arrCodec a) 1 ∈ d'.late
  late : bound = true → t + 80 < now → Late.addReg (0x180018 + 0x1000 * d.g .arrCodec a) 1 ∈ d'.late
  errors : parse ≠ 0 → Late.add .arrXsParseErrors a parse ∈ d'.late

section
variable {now a k parse t : Nat} {bound : Bool}

theorem Dev.KeepsFrame.decodes {b d d' : Dev} (h : b.KeepsFrame a d) (hd : d.Decodes now a k parse t bound d') :
    b.Decodes now a k parse t bound d' := by
  obtain ⟨hnext, hrecv, hcounts, hlate, herrors⟩ := hd
  rw [h.places.objs .arrCodec (by decide)] at hcounts hlate
  exact ⟨hnext, hrecv.trans h.recv, hcounts, hlate, herrors⟩

theorem Dev.Decodes.keeps {b d d' : Dev} (hd : b.Decodes now a k parse t bound d) (h : d.KeepsFrame a d') :
    b.Decodes now a k parse t bound d' where
  next := h.next.trans hd.next
  recv := h.recv.trans hd.recv
  counts := h.places.late _ hd.counts
  late := fun hbound hpast => h.places.late _ (hd.late hbound hpast)
  errors := fun hparse => h.places.late _ (hd.errors hparse)

theorem Dev.noteErrors_keepsFrame (d : Dev) (n : Nat) : d.KeepsFrame a (d.noteErrors a parse n) :=
  (Dev.KeepsFrame.ite _ (.refl d) (d.later_keepsFrame a _)).trans (Dev.countConcealed_keepsFrame a _ a n)

theorem Dev.noteErrors_counts (d : Dev) (n : Nat) (h : parse ≠ 0) :
    Late.add .arrXsParseErrors a parse ∈ (d.noteErrors a parse n).late := by
  unfold Dev.noteErrors
  rw [if_neg h]
  exact (Dev.countConcealed_keepsFrame a _ a n).places.late _ (by simp)

theorem Dev.sliceIn_decodes (d : Dev) (y : Asm) (n : Nat) (h : y.next = k + 1) :
    d.Decodes now a k parse t bound (d.sliceIn now a y parse n t bound) := by
  have harr : (d.withFrame a y).arr a = { d.arr a with asm := some y } := d.arr_putArr_same a _
  have hnote := (d.withFrame a y).noteErrors_keepsFrame (a := a) (parse := parse) n
  have hcodec : ((d.withFrame a y).noteErrors a parse n).g .arrCodec a = d.g .arrCodec a :=
    hnote.places.objs .arrCodec (by decide) a
  unfold Dev.sliceIn
  dsimp only
  rw [hcodec]
  have hcount := ((d.withFrame a y).noteErrors a parse n).countSlice_keepsFrame a now (d.g .arrCodec a) t bound
  have hall := hnote.trans hcount
  refine ⟨hall.next.trans ?_, hall.recv.trans ?_, Dev.countSlice_counts _ _ _ _ _, Dev.countSlice_counts_late _ _ _ _,
    fun hparse => hcount.places.late _ (Dev.noteErrors_counts _ n hparse)⟩
  · rw [harr, ← h]; rfl
  · rw [harr]

/-- A slice that is due is decoded; unless it is the picture's last, that is all, and the last closes the frame (R202). -/
theorem Dev.sliceDecoded_decodes (e : Env) (d : Dev) (lines : Nat) (lost : Option Nat) {x : Asm}
    (h : d.decodeDue a k lines = some (x, t)) :
    ∃ v, d.Decodes e.now a k parse t ((x.held.find k).any fun p => p.2) v ∧ d.sliceDecoded e a k lines lost parse =
      if min x.pic.h (k * lines + lines) < x.pic.h then v else v.closeFrame e a := by
  obtain ⟨y, n, heq, hnext⟩ := d.sliceDecoded_some e a k lines lost parse h
  exact ⟨_, ((d.beginSliced_keepsFrame e a k).decodes (Dev.sliceIn_decodes _ y n hnext)).keeps
    (Dev.publishWhole_keepsFrame e _ a y), heq⟩

end

theorem exec_sliceDecodeDone (a k lines : Nat) (lost : Option Nat) (parse : Nat) (s : State) :
    exec (.sliceDecodeDone a k lines lost parse) s =
      s.running 4 fun e d => d.sliceDecoded e a k lines lost parse := rfl

@[simp] theorem State.run_arr (s : State) (f : Env → Dev → Dev) (a : Nat) :
    (s.run f).dev.arr a = (f s.env s.dev).arr a := rfl

/-- SLICE_DECODE_DONE of a slice that is due (R198, R199, R202, R207). -/
theorem sliceDecodeDone_due (s : State) (hs : s.Running 4) (a k lines parse : Nat) (lost : Option Nat) {x : Asm}
    {since : Nat} (hdue : (s.enter 4).dev.decodeDue a k lines = some (x, since)) :
    ∃ t, exec (.sliceDecodeDone a k lines lost parse) s = .next t ∧
      Late.addReg (0x180010 + 0x1000 * (s.enter 4).dev.g .arrCodec a) 1 ∈ t.dev.late ∧
      (∀ b, x.held.find k = some (b, true) → since + 80 < (s.enter 4).clk.elapsed →
        Late.addReg (0x180018 + 0x1000 * (s.enter 4).dev.g .arrCodec a) 1 ∈ t.dev.late) ∧
      (parse ≠ 0 → Late.add .arrXsParseErrors a parse ∈ t.dev.late) ∧
      (k * lines + lines < x.pic.h → ∃ y, (t.dev.arr a).asm = some y ∧ y.next = k + 1) ∧
      (x.pic.h ≤ k * lines + lines → (t.dev.arr a).asm.map Asm.start = ((s.enter 4).dev.arr a).recv.map Asm.start) := by
  refine ⟨_, (exec_sliceDecodeDone a k lines lost parse s).trans (s.running_run 4 _ hs), ?_⟩
  rw [State.run_late, State.run_arr]
  obtain ⟨v, hv, heq⟩ := Dev.sliceDecoded_decodes (parse := parse) (s.enter 4).env _ lines lost hdue
  have hcloses := v.closeFrame_closes (s.enter 4).env a
  rw [heq]
  have hlate : v.KeepsPlaces
      (if min x.pic.h (k * lines + lines) < x.pic.h then v else v.closeFrame (s.enter 4).env a) :=
    .ite _ (.refl v) hcloses.places
  refine ⟨hlate.late _ hv.counts, fun b hb hpast => hlate.late _ (hv.late (by rw [hb]; rfl) hpast),
    fun hparse => hlate.late _ (hv.errors hparse), fun hmore => ?_, fun hlast => ?_⟩
  · rw [if_pos (by omega)]
    exact Option.map_eq_some_iff.mp hv.next
  · rw [if_neg (by omega)]
    obtain ⟨y, hy, -⟩ := Option.map_eq_some_iff.mp hv.next
    exact (hcloses.frame (Option.isSome_of_eq_some hy)).trans hv.recv

/-! ## Encoding -/

/-- What the encoder of departure `n` keeps once slice `k` is encoded in tick `now`. -/
def Dev.encoded (d : Dev) (now n k : Nat) : DepCtx :=
  { d.dep n with
    encNext := k + 1, released := max (d.dep n).released (d.xsReadyPackets n k)
    releasedAt := (d.dep n).releasedAt.put k now }

/-- The encoder does slice `k`, workable since `t`: it is the next one, and its turn has come (R198, R199). -/
def Dev.EncodeDue (d : Dev) (n k t : Nat) : Prop :=
  d.workSince (.encode n) = some t ∧ d.g .depXsCodec n < 24 ∧ d.g .depXsProfile n ≠ 0xFF ∧ k < d.xsSlices n ∧
    k = (d.dep n).encNext ∧ d.servesNext (d.g .depXsCodec n) t = true

/-- What keeps the encoder from a slice that is workable since `t`, as the model asks it. -/
theorem Dev.encodeDue_iff (d : Dev) (n k t : Nat) (h : d.workSince (.encode n) = some t) : d.EncodeDue n k t ↔
    ¬(24 ≤ d.g .depXsCodec n ∨ !d.xsSend n ∨ d.xsSlices n ≤ k ∨ k ≠ (d.dep n).encNext ∨
      !d.servesNext (d.g .depXsCodec n) t) := by
  simp [Dev.EncodeDue, Dev.xsSend, h, not_or]

theorem Dev.sliceEncoded_not_due (now : Nat) (d : Dev) (n k : Nat) (h : ∀ t, ¬d.EncodeDue n k t) :
    d.sliceEncoded now n k = d := by
  unfold Dev.sliceEncoded
  dsimp only
  split
  case h_1 => rfl
  case h_2 t ht => exact if_pos (Classical.not_not.mp fun hdue => h t ((d.encodeDue_iff n k t ht).mpr hdue))

/-- A slice that is due is counted and released, and the frame's last gives its bytes (R199, R200). -/
theorem Dev.sliceEncoded_due (now : Nat) {d : Dev} {n k t : Nat} (h : d.EncodeDue n k t) :
    ∃ bytes, d.sliceEncoded now n k =
      let v := (d.countSlice now (d.g .depXsCodec n) t true).putDep n (d.encoded now n k)
      if k + 1 < v.xsSlices n then v else v.put .depXsFrameBytes n bytes := by
  unfold Dev.sliceEncoded
  rw [h.1]
  dsimp only
  rw [if_neg ((d.encodeDue_iff n k t h.1).mp h), Dev.updDep, Dev.dep, Dev.countSlice_deps]
  exact ⟨_, rfl⟩

theorem Dev.sliceEncoded_deps (now : Nat) {d : Dev} {n k t : Nat} (h : d.EncodeDue n k t) :
    (d.sliceEncoded now n k).deps = d.deps.put n (d.encoded now n k) := by
  obtain ⟨bytes, heq⟩ := Dev.sliceEncoded_due now h
  rw [heq]
  dsimp only
  split <;> simp

theorem Dev.sliceEncoded_late (now : Nat) {d : Dev} {n k t : Nat} (h : d.EncodeDue n k t) :
    (d.sliceEncoded now n k).late = (d.countSlice now (d.g .depXsCodec n) t true).late := by
  obtain ⟨bytes, heq⟩ := Dev.sliceEncoded_due now h
  rw [heq]
  dsimp only
  split <;> rfl

theorem exec_sliceEncodeDone (n k : Nat) (s : State) : exec (.sliceEncodeDone n k) s =
    s.running 9 fun e d => d.sliceEncoded e.now n k := rfl

/-- SLICE_ENCODE_DONE of a slice that is due (R198, R199, R207). -/
theorem sliceEncodeDone_due (s : State) (hs : s.Running 9) (n k since : Nat) (hdue : (s.enter 9).dev.EncodeDue n k since) :
    ∃ t, exec (.sliceEncodeDone n k) s = .next t ∧
      Late.addReg (0x180010 + 0x1000 * (s.enter 9).dev.g .depXsCodec n) 1 ∈ t.dev.late ∧
      (since + 80 < (s.enter 9).clk.elapsed →
        Late.addReg (0x180018 + 0x1000 * (s.enter 9).dev.g .depXsCodec n) 1 ∈ t.dev.late) ∧
      t.dev.dep n = (s.enter 9).dev.encoded (s.enter 9).clk.elapsed n k ∧
      ∀ j, j ≠ n → t.dev.dep j = (s.enter 9).dev.dep j := by
  have hlate := Dev.sliceEncoded_late (s.enter 9).env.now hdue
  have hdeps : ((s.enter 9).run fun e d => d.sliceEncoded e.now n k).dev.deps = _ :=
    Dev.sliceEncoded_deps (s.enter 9).env.now hdue
  refine ⟨_, (exec_sliceEncodeDone n k s).trans (s.running_run 9 _ hs), ?_⟩
  rw [State.run_late, hlate]
  refine ⟨Dev.countSlice_counts _ _ _ _ _, Dev.countSlice_counts_late _ _ _ _ rfl, ?_, fun j hj => ?_⟩
  · rw [Dev.dep, hdeps, Tab.getD_put_same]; rfl
  · rw [Dev.dep, hdeps, Tab.getD_put_other _ _ _ _ _ hj]; rfl

/-- Settles O38: `Dev.decodeDue_eq_some_iff` and `Dev.EncodeDue` say which slices are due, and a lemma above for each of
the two commands what one that is due does. -/
theorem slicesOfCodestreams : Obligations.SlicesOfCodestreams := by
  refine ⟨fun s a k lines parse lost hs => ?_, fun s n k hs => ?_⟩
  · intro u d now c due
    refine ⟨fun hnone => ?_, fun x since hdue => ?_⟩
    · refine s.running_id 4 _ hs (Dev.sliceDecoded_none _ _ _ _ _ _ _ ?_)
      refine Option.eq_none_iff_forall_ne_some.mpr fun p hp => ?_
      exact hnone p.1 p.2 ((d.decodeDue_eq_some_iff a k lines p.1 p.2).mp hp)
    · exact sliceDecodeDone_due s hs a k lines parse lost ((d.decodeDue_eq_some_iff a k lines x since).mpr hdue)
  · intro u d now c due
    refine ⟨fun hnone => s.running_id 9 _ hs (Dev.sliceEncoded_not_due _ _ _ _ hnone), fun since hdue => ?_⟩
    obtain ⟨t, hnext, hcounts, hlate, hdep, hothers⟩ := sliceEncodeDone_due s hs n k since hdue
    refine ⟨t, hnext, hcounts, hlate, ?_, ?_, ?_, hothers⟩ <;> rw [hdep]
    · rfl
    · exact Tab.find_put_same _ _ _
    · rfl

end Sys2Proof.Machine
end

section
/-!
SUPPORT. What the audio blocks' effects leave. An effect that writes some objects only, and only sources from a number on,
leaves the ports' records and posts no byte write (`Dev.WritesOnly`); the trackers, the PLLs and non-audio detection are
such effects.
-/

namespace Sys2Proof.Machine

/-! ## A loop that reaches something -/

/-- A loop under an invariant reaches what one of its elements establishes and none undoes. -/
theorem foldl_reaches {α β : Type} {I P : β → Prop} {f : β → α → β} {xs : List α} {b : β} {x : α} (hx : x ∈ xs)
    (hb : I b) (hinv : ∀ b, ∀ y ∈ xs, I b → I (f b y)) (hreach : ∀ b, I b → P (f b x))
    (hkeep : ∀ b, ∀ y ∈ xs, I b → P b → P (f b y)) : P (xs.foldl f b) := by
  obtain ⟨before, after, rfl⟩ := List.append_of_mem hx
  rw [List.foldl_append, List.foldl_cons]
  have hthere : I (before.foldl f b) :=
    List.foldlRecOn before f hb fun b hb y hy => hinv b y (List.mem_append_left _ hy) hb
  refine (List.foldlRecOn (motive := fun b => I b ∧ P b) after f ⟨hinv _ x hx hthere, hreach _ hthere⟩ ?_).2
  intro b hb y hy
  have hmem : y ∈ before ++ x :: after := List.mem_append_right _ (List.mem_cons_of_mem _ hy)
  exact ⟨hinv b y hmem hb.1, hkeep b y hmem hb.1 hb.2⟩

/-! ## Objects of another index -/

theorem Dev.g_put_other_index (d : Dev) (o : Obj) (i k v : Nat) (h : k ≠ i) : (d.put o i v).g o k = d.g o k := by
  unfold Dev.g
  rw [Dev.put_objs, Tab.getD_put_other]
  unfold Obj.key
  omega

theorem Dev.g_put_of_lt (d : Dev) (o : Obj) (i v : Nat) (h : v < 2 ^ o.info.ty.width) : (d.put o i v).g o i = v :=
  (d.g_put_same o i v).trans (Nat.mod_eq_of_lt h)

/-! ## Commands of a block that is awake -/

/-- A command whose effect changes nothing leaves the state that entered its rank. -/
theorem State.at_id (s : State) (r : Nat) (f : Env → Dev → Dev) (h : s.Awake r)
    (hf : f (s.enter r).env (s.enter r).dev = (s.enter r).dev) : s.at r f = .next (s.enter r) :=
  s.at_become r f _ h hf (s.enter_posts r)

/-! ## Effects that write some objects and sources only -/

/-- From `d` to `d'` only objects of the list change, and only sources from number `n` on; the ports' records stand, nothing
left for rank 9 is lost, and no byte write is posted. -/
structure Dev.WritesOnly (os : List Obj) (n : Nat) (d d' : Dev) : Prop where
  objs : ∀ o i, (∀ w ∈ os, o.ctorIdx % 1024 ≠ w.ctorIdx % 1024) → d'.g o i = d.g o i
  srcs : ∀ x, x < n → d'.audio.srcs.getD x {} = d.audio.srcs.getD x {}
  ports : d'.audio.ports = d.audio.ports
  late : ∀ l ∈ d.late, l ∈ d'.late
  posts : d'.posts = d.posts

section
variable {os : List Obj} {n : Nat} {a b c : Dev}

theorem Dev.WritesOnly.refl (d : Dev) : d.WritesOnly os n d := ⟨fun _ _ _ => rfl, fun _ _ => rfl, rfl, fun _ h => h, rfl⟩

theorem Dev.WritesOnly.trans (h : a.WritesOnly os n b) (k : b.WritesOnly os n c) : a.WritesOnly os n c :=
  ⟨fun o i ho => (k.objs o i ho).trans (h.objs o i ho), fun x hx => (k.srcs x hx).trans (h.srcs x hx),
    k.ports.trans h.ports, fun l hl => k.late l (h.late l hl), k.posts.trans h.posts⟩

theorem Dev.WritesOnly.mono {ps : List Obj} {m : Nat} (h : a.WritesOnly os n b) (hos : os ⊆ ps) (hn : m ≤ n) :
    a.WritesOnly ps m b :=
  ⟨fun o i ho => h.objs o i fun w hw => ho w (hos hw), fun x hx => h.srcs x (Nat.lt_of_lt_of_le hx hn), h.ports, h.late,
    h.posts⟩

theorem Dev.WritesOnly.ite (p : Prop) [Decidable p] (h : a.WritesOnly os n b) (k : a.WritesOnly os n c) :
    a.WritesOnly os n (if p then b else c) := by
  split
  · exact h
  · exact k

theorem Dev.WritesOnly.foldl {α : Type} (d : Dev) (xs : List α) (f : Dev → α → Dev)
    (h : ∀ (d : Dev), ∀ x ∈ xs, d.WritesOnly os n (f d x)) : d.WritesOnly os n (xs.foldl f d) :=
  List.foldlRecOn xs f (.refl d) fun b hb x hx => hb.trans (h b x hx)

theorem Dev.WritesOnly.put (h : a.WritesOnly os n b) (o : Obj) (i v : Nat) (ho : o ∈ os) :
    a.WritesOnly os n (b.put o i v) :=
  h.trans ⟨fun p k hp => b.g_put_other o p i k v (hp o ho), fun _ _ => rfl, rfl, fun _ hl => hl, rfl⟩

theorem Dev.WritesOnly.later (h : a.WritesOnly os n b) (l : Late) : a.WritesOnly os n (b.later l) :=
  h.trans ⟨fun _ _ _ => rfl, fun _ _ => rfl, rfl, fun _ hl => by simp [hl], rfl⟩

theorem Dev.WritesOnly.putBlob (h : a.WritesOnly os n b) (o : Obj) (i : Nat) (bs : List Byte) :
    a.WritesOnly os n (b.putBlob o i bs) :=
  h.trans ⟨fun _ _ _ => rfl, fun _ _ => rfl, rfl, fun _ hl => hl, rfl⟩

/-- Another record of the audio blocks that keeps ports and sources. -/
theorem Dev.WritesOnly.audio (h : a.WritesOnly os n b) (x : AudioUnit) (hports : x.ports = b.audio.ports)
    (hsrcs : x.srcs = b.audio.srcs) : a.WritesOnly os n { b with audio := x } :=
  h.trans ⟨fun _ _ _ => rfl, fun _ _ => by rw [hsrcs], hports, fun _ hl => hl, rfl⟩

theorem Dev.WritesOnly.srcPut (h : a.WritesOnly os n b) (now m v : Nat) (hm : n ≤ m) :
    a.WritesOnly os n (b.srcPut now m v) :=
  h.trans ⟨fun _ _ _ => rfl, fun x hx => Tab.getD_put_other _ _ _ _ _ (by omega), rfl, fun _ hl => hl, rfl⟩

theorem Dev.WritesOnly.tdm (h : a.WritesOnly os n b) (p : Nat) : b.tdm p = a.tdm p := by
  unfold Dev.tdm
  rw [h.ports]

end

/-! ## Sources -/

/-- The sample a port or ASRC source last delivered. -/
def Dev.srcValue (d : Dev) (n : Nat) : Nat := (d.audio.srcs.getD n {}).value

theorem Dev.WritesOnly.srcValue {os : List Obj} {n : Nat} {a b : Dev} (h : a.WritesOnly os n b) {x : Nat} (hx : x < n) :
    b.srcValue x = a.srcValue x := congrArg SrcCtx.value (h.srcs x hx)

@[simp] theorem State.run_srcValue (s : State) (f : Env → Dev → Dev) (n : Nat) :
    (s.run f).dev.srcValue n = (f s.env s.dev).srcValue n := rfl

@[simp] theorem Dev.srcPut_srcValue_same (now : Nat) (d : Dev) (n v : Nat) : (d.srcPut now n v).srcValue n = v := by
  simp [Dev.srcValue, Dev.srcPut]

theorem Dev.srcPut_srcValue_other (now : Nat) (d : Dev) (n x v : Nat) (h : x ≠ n) :
    (d.srcPut now n v).srcValue x = d.srcValue x :=
  congrArg SrcCtx.value (Tab.getD_put_other _ _ _ _ _ h)

/-! ## Non-audio detection -/

theorem Dev.napStep_writesOnly (d : Dev) (n a b : Nat) : d.WritesOnly [] 768 (d.napStep n a b).2 := by
  unfold Dev.napStep
  dsimp only
  have hmarks (x : AudioUnit) (hports : x.ports = d.audio.ports) (hsrcs : x.srcs = d.audio.srcs) (p q : Bool) :
      d.WritesOnly [] 768 (if p then ({ d with audio := x } : Dev).flag .napEventFlags 0 0
        else if q then ({ d with audio := x } : Dev).flag .napEventFlags 0 1 else { d with audio := x }) := by
    have hx := (Dev.WritesOnly.refl (os := []) (n := 768) d).audio x hports hsrcs
    exact .ite _ (hx.later _) (.ite _ (hx.later _) hx)
  refine .ite _ ?_ (.putBlob ?_ _ _ _) <;> exact hmarks _ (by rfl) (by rfl) _ _

theorem Dev.napLine_writesOnly (d : Dev) (on : Bool) (base : Nat) (xs : List Nat) :
    d.WritesOnly [] 768 (d.napLine on base xs).2 := by
  unfold Dev.napLine
  split
  · exact .refl d
  · refine List.foldlRecOn (motive := fun p : List Nat × Dev => d.WritesOnly [] 768 p.2) _ _ (.refl d) ?_
    intro p hp j _
    exact hp.trans (p.2.napStep_writesOnly _ _ _)

theorem Dev.napLine_off (d : Dev) (base : Nat) (xs : List Nat) : d.napLine false base xs = (xs, d) := rfl

end Sys2Proof.Machine
end

section
/-!
PLLs (O44). A PLL that changes its state is put into it, with bit 0x1 of its flags, and no other PLL changes
(`Dev.setPll_movesPll`); the four events of a PLL are read off that (R241).
-/

namespace Sys2Proof.Machine

/-! ## A change of state -/

/-- The audio blocks once PLL `k` has come into a state: the tick of its entry, and the clock it feeds. -/
def Dev.pllEntered (now : Nat) (d : Dev) (k st : Nat) : AudioUnit :=
  { d.audio with
    mclk := if st ≠ pllOff ∧ d.on .pllMclkOut k then d.audio.mclk.put k (familyBase (d.g .pllFamily k))
      else d.audio.mclk.del k
    plls := d.audio.plls.put k now }

/-- A PLL comes into another state than FREE. -/
theorem Dev.setPll_of_ne (now : Nat) (d : Dev) {k st : Nat} (h : d.g .pllState k ≠ st) (hfree : st ≠ pllFree) :
    d.setPll now k st = { (d.put .pllState k st).flag .pllEventFlags k 0 with audio := d.pllEntered now k st } := by
  unfold Dev.setPll
  dsimp only
  refine (if_neg ?_).trans ?_
  · exact h
  · rw [if_neg hfree]
    rfl

/-- From `d` to `d'` PLL `k` comes into a state, with bit 0x1 of its flags; the other PLLs keep theirs. -/
structure Dev.MovesPll (k st : Nat) (d d' : Dev) : Prop where
  state : d'.g .pllState k = st
  flag : Late.flag .pllEventFlags k 1 ∈ d'.late
  others : ∀ j, j ≠ k → d'.g .pllState j = d.g .pllState j

theorem Dev.setPll_movesPll (now : Nat) (d : Dev) {k st : Nat} (h : d.g .pllState k ≠ st) (hfree : st ≠ pllFree)
    (hst : st < 256) : d.MovesPll k st (d.setPll now k st) := by
  rw [d.setPll_of_ne now h hfree]
  exact ⟨d.g_put_of_lt _ _ _ hst, List.mem_append_right _ List.mem_cons_self, fun j hj => d.g_put_other_index _ _ _ _ hj⟩

theorem Dev.setPll_writesOnly (now : Nat) (d : Dev) {k st : Nat} (h : d.g .pllState k ≠ st) (hfree : st ≠ pllFree) :
    d.WritesOnly [.pllState] 768 (d.setPll now k st) := by
  rw [d.setPll_of_ne now h hfree]
  exact (((Dev.WritesOnly.refl d).put .pllState k st (by decide)).later _).audio _ rfl rfl

/-! ## Loss and return of a reference -/

theorem Dev.pllRefLost_of_not (now : Nat) (d : Dev) (k : Nat)
    (h : ¬((d.g .pllState k = 3 ∨ d.g .pllState k = 2) ∧ d.g .pllRef k ≠ 1)) : d.pllRefLost now k = d := if_neg h

theorem Dev.pllRefLost_of (now : Nat) (d : Dev) (k : Nat)
    (h : (d.g .pllState k = 3 ∨ d.g .pllState k = 2) ∧ d.g .pllRef k ≠ 1) :
    d.pllRefLost now k = d.setPll now k 4 := if_pos h

theorem Dev.pllRefLost_movesPll (now : Nat) (d : Dev) (k : Nat)
    (h : (d.g .pllState k = 3 ∨ d.g .pllState k = 2) ∧ d.g .pllRef k ≠ 1) : d.MovesPll k 4 (d.pllRefLost now k) := by
  rw [d.pllRefLost_of now k h]
  exact d.setPll_movesPll now (by omega) (by decide) (by decide)

theorem Dev.pllRefLost_writesOnly (now : Nat) (d : Dev) (k : Nat) : d.WritesOnly [.pllState] 768 (d.pllRefLost now k) := by
  by_cases h : (d.g .pllState k = 3 ∨ d.g .pllState k = 2) ∧ d.g .pllRef k ≠ 1
  · rw [d.pllRefLost_of now k h]
    exact d.setPll_writesOnly now (by omega) (by decide)
  · rw [d.pllRefLost_of_not now k h]
    exact .refl d

/-- A loss leaves the PLLs that are in HOLDOVER there. -/
theorem Dev.pllRefLost_holdover (now : Nat) (d : Dev) (j k : Nat) (h : d.g .pllState k = 4) :
    (d.pllRefLost now j).g .pllState k = 4 := by
  by_cases hj : (d.g .pllState j = 3 ∨ d.g .pllState j = 2) ∧ d.g .pllRef j ≠ 1
  · have hkj : k ≠ j := by rintro rfl; omega
    rw [(d.pllRefLost_movesPll now j hj).others k hkj, h]
  · rw [d.pllRefLost_of_not now j hj, h]

theorem Dev.pllRefBack_writesOnly (now : Nat) (d : Dev) (k : Nat) : d.WritesOnly [.pllState] 768 (d.pllRefBack now k) := by
  unfold Dev.pllRefBack
  split
  next h => exact d.setPll_writesOnly now (by rw [h]; decide) (by decide)
  next => exact .refl d

/-! ## Lock -/

/-- The block once the free values of a PLL's lock are drawn. -/
def Dev.pllDrawn (e : Env) (d : Dev) (k : Nat) : Int × Dev := ((d.draw 16).2.draw 32).2.refOffset e k

/-- The block once a PLL has measured its phase error and its offset (R241, R242). -/
def Dev.pllMeasured (e : Env) (d : Dev) (k : Nat) : Dev :=
  let u := (d.draw 16).1
  let v := ((d.draw 16).2.draw 32).1
  let r := d.pllDrawn e k
  let pull := r.2.g .pllPull k * 1000
  (r.2.puti .pllPhaseErr k ((u % 101 : Nat) - 50)).puti .pllOffset k (r.1 + (v % (2 * pull + 1) : Nat) - pull)

theorem Dev.pllLocks_of (e : Env) (d : Dev) (k : Nat)
    (h : d.g .pllState k = 2 ∧ d.audio.plls.getD k 0 + 4000000 ≤ e.now) :
    d.pllLocks e k = (d.pllMeasured e k).setPll e.now k 3 := (if_pos h).trans rfl

theorem Dev.pllLocks_of_not (e : Env) (d : Dev) (k : Nat)
    (h : ¬(d.g .pllState k = 2 ∧ d.audio.plls.getD k 0 + 4000000 ≤ e.now)) : d.pllLocks e k = d := if_neg h

theorem Dev.pllDrawn_objs (e : Env) (d : Dev) (k : Nat) : (d.pllDrawn e k).2.objs = d.objs := by
  unfold Dev.pllDrawn Dev.refOffset
  split <;> rfl

/-- A measurement writes the phase error, within 50 ns, and the offset, and no other object. -/
theorem Dev.pllMeasured_eq (e : Env) (d : Dev) (k : Nat) : ∃ (m : Dev) (u : Nat) (off : Int), m.objs = d.objs ∧
    d.pllMeasured e k = (m.puti .pllPhaseErr k ((u % 101 : Nat) - 50)).puti .pllOffset k off :=
  ⟨(d.pllDrawn e k).2, _, _, d.pllDrawn_objs e k, rfl⟩

theorem Dev.pllMeasured_pllState (e : Env) (d : Dev) (k j : Nat) :
    (d.pllMeasured e k).g .pllState j = d.g .pllState j := by
  obtain ⟨m, u, off, hobjs, heq⟩ := d.pllMeasured_eq e k
  rw [heq, Dev.puti, Dev.puti, Dev.g_put_other _ _ _ _ _ _ (by decide), Dev.g_put_other _ _ _ _ _ _ (by decide),
    Dev.g, hobjs, Dev.g]

/-- A two's complement word of a number that fits reads as that number. -/
theorem asInt_ofInt {w : Nat} {v : Int} (hlo : -((2 ^ w : Nat) : Int) ≤ 2 * v) (hhi : 2 * v < (2 ^ w : Nat)) :
    asInt w (ofInt w v) = v := by
  unfold asInt ofInt
  by_cases hv : 0 ≤ v
  · rw [Int.emod_eq_of_lt hv (by omega), if_pos (by omega)]
    omega
  · have hmod : v % (2 ^ w : Nat) = v + (2 ^ w : Nat) := by
      rw [← Int.add_emod_right, Int.emod_eq_of_lt (by omega) (by omega)]
    rw [hmod, if_neg (by omega)]
    omega

theorem Dev.pllMeasured_phaseErr (e : Env) (d : Dev) (k : Nat) :
    -50 ≤ (d.pllMeasured e k).gi .pllPhaseErr k ∧ (d.pllMeasured e k).gi .pllPhaseErr k ≤ 50 := by
  obtain ⟨m, u, off, -, heq⟩ := d.pllMeasured_eq e k
  have hread : (d.pllMeasured e k).gi .pllPhaseErr k = ((u % 101 : Nat) : Int) - 50 := by
    unfold Dev.gi
    rw [heq, Dev.puti, Dev.puti, Dev.g_put_other _ _ _ _ _ _ (by decide), Dev.g_put_of_lt _ _ _ _ (ofInt_lt _ _)]
    exact asInt_ofInt (w := 32) (by omega) (by omega)
  omega

theorem Dev.pllLocks_movesPll (e : Env) (d : Dev) (k : Nat)
    (h : d.g .pllState k = 2 ∧ d.audio.plls.getD k 0 + 4000000 ≤ e.now) : d.MovesPll k 3 (d.pllLocks e k) := by
  have hne : (d.pllMeasured e k).g .pllState k ≠ 3 := by rw [d.pllMeasured_pllState]; omega
  obtain ⟨hstate, hflag, hothers⟩ := (d.pllMeasured e k).setPll_movesPll e.now hne (by decide) (by decide)
  rw [d.pllLocks_of e k h]
  exact ⟨hstate, hflag, fun j hj => (hothers j hj).trans (d.pllMeasured_pllState e k j)⟩

theorem Dev.pllLocks_phaseErr (e : Env) (d : Dev) (k : Nat)
    (h : d.g .pllState k = 2 ∧ d.audio.plls.getD k 0 + 4000000 ≤ e.now) :
    -50 ≤ (d.pllLocks e k).gi .pllPhaseErr k ∧ (d.pllLocks e k).gi .pllPhaseErr k ≤ 50 := by
  have hne : (d.pllMeasured e k).g .pllState k ≠ 3 := by rw [d.pllMeasured_pllState]; omega
  rw [d.pllLocks_of e k h, Dev.gi, ((d.pllMeasured e k).setPll_writesOnly e.now hne (by decide)).objs _ _ (by decide)]
  exact d.pllMeasured_phaseErr e k

/-! ## The commands -/

theorem exec_pllLock (k : Nat) (s : State) : exec (.pllLock k) s = s.at 9 fun e d => d.pllLocks e k := rfl

theorem exec_pllLockLoss (k : Nat) (s : State) : exec (.pllLockLoss k) s = s.at 9 fun e d => d.pllUnlocks e.now k := rfl

theorem exec_pllRefLoss (k : Nat) (s : State) : exec (.pllRefLoss k) s =
    s.at 9 fun e d => d.when (d.g .pllRef k < 0x10) fun d => d.pllRefLost e.now k := rfl

theorem exec_pllRefReturn (k : Nat) (s : State) : exec (.pllRefReturn k) s =
    s.at 9 fun e d => d.when (d.g .pllRef k < 0x10) fun d => d.pllRefBack e.now k := rfl

theorem Dev.when_of_false {c : Bool} (d : Dev) (f : Dev → Dev) (h : c = false) : d.when c f = d := by
  unfold Dev.when
  rw [h]
  rfl

/-- The outcome `o` of a command of rank 9 in `s` is that PLL `k` comes into a state. -/
def State.MovesPll (s : State) (k st : Nat) (o : Out) : Prop :=
  ∃ t, o = .next t ∧ t.clk = (s.enter 9).clk ∧ t.dev.g .pllState k = st ∧ Late.flag .pllEventFlags k 1 ∈ t.dev.late ∧
    ∀ j, j ≠ k → t.dev.g .pllState j = (s.enter 9).dev.g .pllState j

section
variable (s : State) (k : Nat) (h : s.Awake 9)
include h

theorem State.at_movesPll {st : Nat} (f : Env → Dev → Dev)
    (hf : (s.enter 9).dev.MovesPll k st (f (s.enter 9).env (s.enter 9).dev)) : s.MovesPll k st (s.at 9 f) :=
  ⟨_, s.at_awake 9 f h, rfl, hf.state, hf.flag, hf.others⟩

section
variable (hlong : (s.enter 9).dev.g .pllState k = 2 ∧
  (s.enter 9).dev.audio.plls.getD k 0 + 4000000 ≤ (s.enter 9).clk.elapsed)
include hlong

/-- PLL_LOCK of a PLL that has been ACQUIRING for 1 s (R241). -/
theorem pllLock_acquiring : s.MovesPll k 3 (exec (.pllLock k) s) := by
  rw [exec_pllLock]
  exact s.at_movesPll k h _ (Dev.pllLocks_movesPll _ _ _ hlong)

theorem pllLock_phaseErr : ∃ t, exec (.pllLock k) s = .next t ∧
    -50 ≤ t.dev.gi .pllPhaseErr k ∧ t.dev.gi .pllPhaseErr k ≤ 50 := by
  rw [exec_pllLock]
  exact ⟨_, s.at_awake 9 _ h, Dev.pllLocks_phaseErr _ _ _ hlong⟩

end

theorem pllLock_otherwise (hnot : ¬((s.enter 9).dev.g .pllState k = 2 ∧
    (s.enter 9).dev.audio.plls.getD k 0 + 4000000 ≤ (s.enter 9).clk.elapsed)) :
    exec (.pllLock k) s = .next (s.enter 9) := by
  rw [exec_pllLock]
  exact s.at_id 9 _ h (Dev.pllLocks_of_not _ _ _ hnot)

/-- PLL_LOCK_LOSS of a LOCKED PLL (R241). -/
theorem pllLockLoss_locked (hst : (s.enter 9).dev.g .pllState k = 3) : s.MovesPll k 2 (exec (.pllLockLoss k) s) := by
  rw [exec_pllLockLoss]
  refine s.at_movesPll k h _ ?_
  rw [Dev.pllUnlocks, if_pos (show _ = pllLocked from hst)]
  exact Dev.setPll_movesPll _ _ (by rw [hst]; decide) (by decide) (by decide)

theorem pllLockLoss_otherwise (hst : (s.enter 9).dev.g .pllState k ≠ 3) : exec (.pllLockLoss k) s = .next (s.enter 9) := by
  rw [exec_pllLockLoss]
  exact s.at_id 9 _ h (if_neg hst)

/-- PLL_REF_LOSS of an AUDCLK reference (R241). -/
theorem pllRefLoss_pin (hst : (s.enter 9).dev.g .pllState k = 2 ∨ (s.enter 9).dev.g .pllState k = 3)
    (hpin : (s.enter 9).dev.g .pllRef k < 0x10 ∧ (s.enter 9).dev.g .pllRef k ≠ 1) :
    s.MovesPll k 4 (exec (.pllRefLoss k) s) := by
  rw [exec_pllRefLoss]
  refine s.at_movesPll k h _ ?_
  rw [Dev.when_of_true _ _ (decide_eq_true hpin.1)]
  exact Dev.pllRefLost_movesPll _ _ k ⟨hst.symm, hpin.2⟩

theorem pllRefLoss_otherwise (hnot : ¬(((s.enter 9).dev.g .pllState k = 2 ∨ (s.enter 9).dev.g .pllState k = 3) ∧
    (s.enter 9).dev.g .pllRef k < 0x10 ∧ (s.enter 9).dev.g .pllRef k ≠ 1)) :
    exec (.pllRefLoss k) s = .next (s.enter 9) := by
  rw [exec_pllRefLoss]
  refine s.at_id 9 _ h ?_
  by_cases href : (s.enter 9).dev.g .pllRef k < 0x10
  · rw [Dev.when_of_true _ _ (decide_eq_true href)]
    exact Dev.pllRefLost_of_not _ _ k fun hlost => hnot ⟨hlost.1.symm, href, hlost.2⟩
  · exact Dev.when_of_false _ _ (decide_eq_false href)

/-- PLL_REF_RETURN of a reference that is no port (R241). -/
theorem pllRefReturn_holdover (hst : (s.enter 9).dev.g .pllState k = 4) (href : (s.enter 9).dev.g .pllRef k < 0x10) :
    s.MovesPll k 2 (exec (.pllRefReturn k) s) := by
  rw [exec_pllRefReturn]
  refine s.at_movesPll k h _ ?_
  rw [Dev.when_of_true _ _ (decide_eq_true href), Dev.pllRefBack, if_pos (show _ = pllHoldover from hst)]
  exact Dev.setPll_movesPll _ _ (by rw [hst]; decide) (by decide) (by decide)

theorem pllRefReturn_otherwise (hnot : ¬((s.enter 9).dev.g .pllState k = 4 ∧ (s.enter 9).dev.g .pllRef k < 0x10)) :
    exec (.pllRefReturn k) s = .next (s.enter 9) := by
  rw [exec_pllRefReturn]
  refine s.at_id 9 _ h ?_
  by_cases href : (s.enter 9).dev.g .pllRef k < 0x10
  · rw [Dev.when_of_true _ _ (decide_eq_true href)]
    exact if_neg fun hst => hnot ⟨hst, href⟩
  · exact Dev.when_of_false _ _ (decide_eq_false href)

end

end Sys2Proof.Machine
end

section
/-!
Trackers of the ASRC (O44). Trackers follow the routes, the clocks and the ports by writing their channels' own objects and
sources only (`Dev.trackersFollow_writesOnly`); a report gives each channel of the tracker its state and ratio (R245).
-/

namespace Sys2Proof.Machine

/-! ## What a report writes -/

/-- The objects of an ASRC channel that a tracker's report writes. -/
def asrcObjs : List Obj := [.asrcState, .asrcTracker, .asrcRatio]

/-- The state a channel shows of its tracker's: one whose own input clock has stopped has no input. -/
def Dev.channelState (d : Dev) (x : Tracker) (n : Nat) : Nat := if d.clockRuns (d.g .asrcInClock n) then x.st else 3

/-- A channel shows a state, and outside LOCKED delivers 0. -/
def Dev.showChannel (now : Nat) (d : Dev) (n st : Nat) : Dev :=
  let d := if d.g .asrcState n = st then d else (d.put .asrcState n st).flag .asrcEventFlags n 0
  if st = 2 then d else d.srcPut now (768 + n) 0

/-- A tracker reports to one of its channels. -/
def Dev.reportChannel (now t : Nat) (x : Tracker) (d : Dev) (n : Nat) : Dev :=
  ((d.showChannel now n (d.channelState x n)).put .asrcTracker n t).put .asrcRatio n x.ratio

theorem Dev.reportTracker_none (now : Nat) (d : Dev) (t : Nat) (used : List Nat) (h : d.audio.trackers.find t = none) :
    d.reportTracker now t used = d := by
  unfold Dev.reportTracker
  rw [h]

theorem Dev.reportTracker_some (now : Nat) (d : Dev) (t : Nat) (used : List Nat) {x : Tracker}
    (h : d.audio.trackers.find t = some x) : d.reportTracker now t used =
      (used.filter fun n => d.asrcQuad n == x.quad).foldl (Dev.reportChannel now t x) d := by
  unfold Dev.reportTracker
  rw [h]
  rfl

theorem Dev.showChannel_writesOnly (now : Nat) (d : Dev) (n st : Nat) :
    d.WritesOnly [.asrcState] 768 (d.showChannel now n st) := by
  have hstate : d.WritesOnly [.asrcState] 768
      (if d.g .asrcState n = st then d else (d.put .asrcState n st).flag .asrcEventFlags n 0) :=
    .ite _ (.refl d) (((Dev.WritesOnly.refl d).put .asrcState n st (by decide)).later _)
  exact .ite _ hstate (hstate.srcPut now (768 + n) 0 (Nat.le_add_right _ _))

theorem Dev.showChannel_asrcState (now : Nat) (d : Dev) (n m : Nat) {st : Nat} (hst : st < 256) :
    (d.showChannel now n st).g .asrcState m = if m = n then st else d.g .asrcState m := by
  have hsource (c : Prop) [Decidable c] (a : Dev) :
      (if c then a else a.srcPut now (768 + n) 0).g .asrcState m = a.g .asrcState m := by
    split <;> rfl
  refine (hsource _ _).trans ?_
  by_cases hm : m = n
  · subst hm
    rw [if_pos rfl]
    split
    next h => exact h
    next => exact d.g_put_of_lt .asrcState m st hst
  · rw [if_neg hm]
    split
    next => rfl
    next => exact d.g_put_other_index .asrcState n m st hm

section
variable (now t : Nat) (x : Tracker) (d : Dev) (n : Nat)

theorem Dev.reportChannel_writesOnly : d.WritesOnly asrcObjs 768 (d.reportChannel now t x n) :=
  (((d.showChannel_writesOnly now n _).mono (by decide) (Nat.le_refl _)).put .asrcTracker n t (by decide)).put .asrcRatio n _
    (by decide)

theorem Dev.reportChannel_asrcRatio (m : Nat) : (d.reportChannel now t x n).g .asrcRatio m =
    if m = n then x.ratio % 2 ^ 32 else d.g .asrcRatio m := by
  unfold Dev.reportChannel
  split
  next h => rw [h]; exact Dev.g_put_same _ _ _ _
  next h =>
    rw [Dev.g_put_other_index _ _ _ _ _ h, Dev.g_put_other _ _ _ _ _ _ (by decide)]
    exact (d.showChannel_writesOnly now n _).objs _ _ (by decide)

theorem Dev.reportChannel_asrcState (hst : x.st < 256) (m : Nat) : (d.reportChannel now t x n).g .asrcState m =
    if m = n then d.channelState x n else d.g .asrcState m := by
  have hshown : d.channelState x n < 256 := by
    unfold Dev.channelState
    split <;> omega
  unfold Dev.reportChannel
  rw [Dev.g_put_other _ _ _ _ _ _ (by decide), Dev.g_put_other _ _ _ _ _ _ (by decide),
    d.showChannel_asrcState now n m hshown]

end

theorem Dev.reportTracker_writesOnly (now : Nat) (d : Dev) (t : Nat) (used : List Nat) :
    d.WritesOnly asrcObjs 768 (d.reportTracker now t used) := by
  cases h : d.audio.trackers.find t with
  | none => rw [d.reportTracker_none now t used h]; exact .refl d
  | some x =>
    rw [d.reportTracker_some now t used h]
    exact .foldl d _ _ fun b n _ => b.reportChannel_writesOnly now t x n

/-- What a report writes does not change which clocks run. -/
theorem Dev.WritesOnly.channelState {d b : Dev} (h : d.WritesOnly asrcObjs 768 b) (x : Tracker) (n : Nat) :
    b.channelState x n = d.channelState x n := by
  unfold Dev.channelState Dev.clockRuns Dev.stopped
  rw [h.objs .asrcInClock n (by decide), h.objs .pwrState 0 (by decide), h.objs .tdmState _ (by decide),
    h.objs .pllState _ (by decide)]

/-- Every channel of a tracker that a route uses shows the tracker's state and ratio after a report (R245). -/
theorem Dev.reportTracker_shows (now : Nat) (d : Dev) (t : Nat) (used : List Nat) {x : Tracker} {n : Nat}
    (h : d.audio.trackers.find t = some x) (hst : x.st < 256) (hn : n ∈ used) (hquad : d.asrcQuad n = x.quad) :
    (d.reportTracker now t used).g .asrcState n = d.channelState x n ∧
      (d.reportTracker now t used).g .asrcRatio n = x.ratio % 2 ^ 32 := by
  have hmem : n ∈ used.filter fun n => d.asrcQuad n == x.quad := List.mem_filter.mpr ⟨hn, by simp [hquad]⟩
  rw [d.reportTracker_some now t used h]
  refine foldl_reaches (I := fun b => d.WritesOnly asrcObjs 768 b)
    (P := fun b : Dev => b.g .asrcState n = d.channelState x n ∧ b.g .asrcRatio n = x.ratio % 2 ^ 32)
    hmem (.refl d) ?_ ?_ ?_
  · exact fun b m _ hb => hb.trans (b.reportChannel_writesOnly now t x m)
  · intro b hb
    rw [b.reportChannel_asrcState now t x n hst, b.reportChannel_asrcRatio, if_pos rfl, if_pos rfl, hb.channelState]
    exact ⟨rfl, rfl⟩
  · intro b m _ hb ⟨hstate, hratio⟩
    rw [b.reportChannel_asrcState now t x m hst, b.reportChannel_asrcRatio, hstate, hratio]
    by_cases hnm : n = m
    · subst hnm
      rw [if_pos rfl, if_pos rfl, hb.channelState]
      exact ⟨rfl, rfl⟩
    · rw [if_neg hnm, if_neg hnm]
      exact ⟨rfl, rfl⟩

/-! ## Trackers follow the routes, clocks and ports -/

/-- Another table of trackers. -/
theorem Dev.trackers_writesOnly (d : Dev) (x : Tab Tracker) :
    d.WritesOnly asrcObjs 768 { d with audio := { d.audio with trackers := x } } :=
  (Dev.WritesOnly.refl d).audio _ rfl rfl

theorem Dev.assignTrackers_writesOnly (d : Dev) (quads : List (Nat × Nat × Nat × Nat)) :
    d.WritesOnly asrcObjs 768 (d.assignTrackers quads) := by
  refine (d.trackers_writesOnly _).trans (.foldl _ _ _ fun b q _ => .ite _ (.refl b) ?_)
  split
  · exact b.trackers_writesOnly _
  · exact .refl b

theorem Dev.idleChannel_writesOnly (now : Nat) (d : Dev) (n : Nat) : d.WritesOnly asrcObjs 768 (d.idleChannel now n) := by
  have hsource := (Dev.WritesOnly.refl (os := asrcObjs) d).srcPut now (768 + n) 0 (Nat.le_add_right 768 n)
  exact .ite _ (.refl d) ((((hsource.put .asrcState n _ (by decide)).put .asrcTracker n _ (by decide)).put .asrcRatio n _
    (by decide)).later _)

theorem Dev.trackerInput_writesOnly (now : Nat) (d : Dev) (used : List Nat) (t : Nat) :
    d.WritesOnly asrcObjs 768 (d.trackerInput now used t) := by
  unfold Dev.trackerInput
  split
  · exact .refl d
  · exact (d.trackers_writesOnly _).trans (Dev.reportTracker_writesOnly _ _ _ _)

theorem Dev.trackersFollow_writesOnly (now : Nat) (d : Dev) : d.WritesOnly asrcObjs 768 (d.trackersFollow now) :=
  ((d.assignTrackers_writesOnly _).trans (.foldl _ _ _ fun b n _ => b.idleChannel_writesOnly now n)).trans
    (.foldl _ _ _ fun b t _ => b.trackerInput_writesOnly now _ t)

/-! ## TRACKER_LOCK -/

theorem exec_trackerLock (t ratio : Nat) (s : State) : exec (.trackerLock t ratio) s =
    s.running 9 fun e d => d.trackerLocks e.now t ratio := rfl

/-- The block once a tracker has measured its ratio. -/
def Dev.trackerMeasured (d : Dev) (t ratio : Nat) (x : Tracker) : Dev :=
  d.putTracker t { x with st := 2, ratio := ratio % 2 ^ 32 }

theorem Dev.trackerLocks_acquiring (now : Nat) (d : Dev) (t ratio : Nat) {x : Tracker}
    (h : d.audio.trackers.find t = some x) (hst : x.st = 1) :
    d.trackerLocks now t ratio = ((d.trackerMeasured t ratio x).reportTracker now t d.asrcUsed).returned (80 + t) := by
  unfold Dev.trackerLocks
  rw [h]
  exact if_pos hst

theorem Dev.trackerLocks_otherwise (now : Nat) (d : Dev) (t ratio : Nat)
    (h : ∀ x : Tracker, d.audio.trackers.find t = some x → x.st ≠ 1) : d.trackerLocks now t ratio = d := by
  unfold Dev.trackerLocks
  cases hfind : d.audio.trackers.find t with
  | none => rfl
  | some x => exact if_neg (h x hfind)

/-- A tracker that locks shows LOCKED and the ratio at its channels whose input clock runs (R245). -/
theorem Dev.trackerLocks_shows (now : Nat) (d : Dev) (t ratio : Nat) {x : Tracker}
    (h : d.audio.trackers.find t = some x) (hst : x.st = 1) {n : Nat} (hn : n ∈ d.asrcUsed)
    (hquad : d.asrcQuad n = x.quad) :
    (d.trackerLocks now t ratio).g .asrcState n = (if d.clockRuns (d.g .asrcInClock n) then 2 else 3) ∧
      (d.trackerLocks now t ratio).g .asrcRatio n = ratio % 2 ^ 32 := by
  rw [d.trackerLocks_acquiring now t ratio h hst]
  obtain ⟨hstate, hratio⟩ := (d.trackerMeasured t ratio x).reportTracker_shows now t d.asrcUsed
    (Tab.find_put_same _ _ _) (by decide : (2 : Nat) < 256) hn hquad
  exact ⟨hstate, hratio.trans (Nat.mod_mod _ _)⟩

theorem trackerLock_acquiring (s : State) (hs : s.Running 9) (t ratio : Nat) {x : Tracker}
    (h : (s.enter 9).dev.audio.trackers.find t = some x) (hst : x.st = 1) :
    ∃ u, exec (.trackerLock t ratio) s = .next u ∧ u.clk = (s.enter 9).clk ∧
      ∀ n ∈ (s.enter 9).dev.asrcUsed, (s.enter 9).dev.asrcQuad n = x.quad →
        u.dev.g .asrcState n = (if (s.enter 9).dev.clockRuns ((s.enter 9).dev.g .asrcInClock n) then 2 else 3) ∧
          u.dev.g .asrcRatio n = ratio % 2 ^ 32 := by
  rw [exec_trackerLock]
  exact ⟨_, s.running_run 9 _ hs, rfl, fun n hn hquad => Dev.trackerLocks_shows _ _ t ratio h hst hn hquad⟩

theorem trackerLock_otherwise (s : State) (hs : s.Running 9) (t ratio : Nat)
    (h : ∀ x : Tracker, (s.enter 9).dev.audio.trackers.find t = some x → x.st ≠ 1) :
    exec (.trackerLock t ratio) s = .next (s.enter 9) := by
  rw [exec_trackerLock]
  exact s.running_id 9 _ hs (Dev.trackerLocks_otherwise _ _ t ratio h)

end Sys2Proof.Machine
end

section
/-!
TDM ports (O44). A frame sync's stages are named (`Dev.frameCounted` to `Dev.frameDelivered`), and what it leaves is said
once (`Dev.SyncedBy`, R235 to R238); a port that is LOST falls silent, and its PLLs go to HOLDOVER (R235, R241).
-/

namespace Sys2Proof.Machine

/-! ## A port's state -/

/-- A port's 32 sources deliver 0. -/
def Dev.silence (now p : Nat) (d : Dev) : Dev := (List.range 32).foldl (fun d s => d.srcPut now (32 * p + s) 0) d

/-- A port shows another state. -/
def Dev.showTdm (d : Dev) (p st : Nat) : Dev := (d.put .tdmState p st).flag .tdmEventFlags p 0

theorem Dev.showTdm_writesOnly (d : Dev) (p st : Nat) : d.WritesOnly [.tdmState] 768 (d.showTdm p st) :=
  ((Dev.WritesOnly.refl d).put .tdmState p st (by decide)).later _

theorem Dev.silence_writesOnly (now p : Nat) (d : Dev) : d.WritesOnly [] 0 (d.silence now p) :=
  .foldl _ _ _ fun b _ _ => (Dev.WritesOnly.refl b).srcPut _ _ _ (Nat.zero_le _)

theorem Dev.silence_srcValue (now p : Nat) (d : Dev) {k : Nat} (hk : k < 32) :
    (d.silence now p).srcValue (32 * p + k) = 0 := by
  refine foldl_reaches (I := fun _ => True) (P := fun b : Dev => b.srcValue (32 * p + k) = 0) (List.mem_range.mpr hk)
    trivial (fun _ _ _ _ => trivial) (fun b _ => b.srcPut_srcValue_same now _ 0) fun b j _ _ hb => ?_
  by_cases hj : k = j
  · rw [hj, Dev.srcPut_srcValue_same]
  · rw [Dev.srcPut_srcValue_other _ _ _ _ _ (by omega), hb]

theorem Dev.setTdm_same (now : Nat) (d : Dev) {p st : Nat} (h : d.g .tdmState p = st) : d.setTdm now p st = d := if_pos h

theorem Dev.setTdm_running (now : Nat) (d : Dev) {p : Nat} (h : d.g .tdmState p ≠ 2) : d.setTdm now p 2 =
    ((d.showTdm p 2).pllsOn p).foldl (Dev.pllRefBack now) ((d.showTdm p 2).returned p) := (if_neg h).trans rfl

theorem Dev.setTdm_lost (now : Nat) (d : Dev) {p : Nat} (h : d.g .tdmState p ≠ 3) : d.setTdm now p 3 =
    (((d.showTdm p 3).silence now p).pllsOn p).foldl (Dev.pllRefLost now) ((d.showTdm p 3).silence now p) :=
  (if_neg h).trans rfl

theorem Dev.setTdm_other (now : Nat) (d : Dev) {p st : Nat} (h : d.g .tdmState p ≠ st) (h2 : st ≠ 2) (h3 : st ≠ 3) :
    d.setTdm now p st = (d.showTdm p st).silence now p :=
  (if_neg h).trans ((if_neg h2).trans (if_neg h3))

theorem Dev.foldl_pllRefLost_writesOnly (now : Nat) (d : Dev) (ks : List Nat) :
    d.WritesOnly [.pllState] 768 (ks.foldl (Dev.pllRefLost now) d) :=
  .foldl _ _ _ fun b k _ => b.pllRefLost_writesOnly now k

theorem Dev.returned_writesOnly {os : List Obj} {n : Nat} (d : Dev) (k : Nat) : d.WritesOnly os n (d.returned k) :=
  (Dev.WritesOnly.refl d).audio _ rfl rfl

/-- A port that changes its state writes its own, those of PLLs, and sources; its own state is the new one. -/
theorem Dev.setTdm_moves (now : Nat) (d : Dev) {p st : Nat} (h : d.g .tdmState p ≠ st) :
    (d.showTdm p st).WritesOnly [.pllState] 0 (d.setTdm now p st) := by
  have hsilent := ((d.showTdm p st).silence_writesOnly now p).mono (ps := [.pllState]) (by decide) (Nat.le_refl 0)
  by_cases h2 : st = 2
  · subst h2
    rw [d.setTdm_running now h]
    exact (Dev.returned_writesOnly _ p).trans (.foldl _ _ _ fun b k _ =>
      (b.pllRefBack_writesOnly now k).mono (List.Subset.refl _) (Nat.zero_le _))
  · by_cases h3 : st = 3
    · subst h3
      rw [d.setTdm_lost now h]
      exact hsilent.trans ((Dev.foldl_pllRefLost_writesOnly now _ _).mono (List.Subset.refl _) (Nat.zero_le _))
    · rw [d.setTdm_other now h h2 h3]
      exact hsilent

theorem Dev.setTdm_writesOnly (now : Nat) (d : Dev) (p st : Nat) :
    d.WritesOnly [.tdmState, .pllState] 0 (d.setTdm now p st) := by
  by_cases h : d.g .tdmState p = st
  · rw [d.setTdm_same now h]; exact .refl d
  · exact ((d.showTdm_writesOnly p st).mono (by decide) (Nat.zero_le _)).trans
      ((d.setTdm_moves now h).mono (by decide) (Nat.le_refl 0))

theorem Dev.setTdm_tdmState (now : Nat) (d : Dev) (p : Nat) {st : Nat} (hst : st < 256) :
    (d.setTdm now p st).g .tdmState p = st := by
  by_cases h : d.g .tdmState p = st
  · rw [d.setTdm_same now h, h]
  · rw [(d.setTdm_moves now h).objs _ _ (by decide)]
    exact d.g_put_of_lt .tdmState p st hst

/-! ## The words of a frame -/

/-- The word slot `s` of a port delivers at a frame sync. -/
def Dev.receivedWord (d : Dev) (p : Nat) (line : List Nat) (bad : Bool) (s : Nat) : Nat :=
  let c := d.tdm p
  if d.g .tdmSlots p ≤ s then 0
  else if d.slotWraps p s then
    (if c.wireBad ∨ c.stamps.length < 2 ∨ !c.before.rx.testBit s then 0 else d.slotWord p s c.wire line)
  else if bad ∨ !c.synced ∨ !c.now.rx.testBit s then 0 else d.slotWord p s line []

theorem Dev.received_eq (d : Dev) (p : Nat) (line : List Nat) (bad : Bool) :
    d.received p line bad = (List.range 32).map (d.receivedWord p line bad) := rfl

/-- What a change of state writes does not bear on the words. -/
theorem Dev.WritesOnly.receivedWord {n : Nat} {d b : Dev} (h : d.WritesOnly [.tdmState, .pllState] n b) (p : Nat)
    (line : List Nat) (bad : Bool) (s : Nat) : b.receivedWord p line bad s = d.receivedWord p line bad s := by
  unfold Dev.receivedWord Dev.slotWraps Dev.slotWord Dev.bitClock
  rw [h.tdm p, h.objs .tdmSlots p (by decide), h.objs .tdmFrameLen p (by decide), h.objs .tdmSlotOffset p (by decide),
    h.objs .tdmSlotWidth p (by decide), h.objs .tdmWordLen p (by decide)]

section
variable (d : Dev) (p : Nat) (line : List Nat) (k : Nat)

/-- A slot inside the frame delivers its word under the mask in force (R235, R237). -/
theorem Dev.receivedWord_whole (hwraps : d.slotWraps p k = false) (hsynced : (d.tdm p).synced = true) :
    d.receivedWord p line false k =
      if k < d.g .tdmSlots p ∧ (d.tdm p).now.rx.testBit k = true then d.slotWord p k line [] else 0 := by
  unfold Dev.receivedWord
  by_cases hk : d.g .tdmSlots p ≤ k
  · rw [if_pos hk, if_neg (by omega)]
  · rw [if_neg hk, if_neg (by simp [hwraps])]
    by_cases hrx : (d.tdm p).now.rx.testBit k = true
    · rw [if_neg (by simp [hsynced, hrx]), if_pos ⟨Nat.not_le.mp hk, hrx⟩]
    · rw [if_pos (by simp [hrx]), if_neg fun h => hrx h.2]

/-- A slot that wraps delivers the word of the frame before, under that frame's mask (R238). -/
theorem Dev.receivedWord_wraps (bad : Bool) (hwraps : d.slotWraps p k = true) (hstamps : 2 ≤ (d.tdm p).stamps.length)
    (hgood : (d.tdm p).wireBad = false) : d.receivedWord p line bad k =
      if k < d.g .tdmSlots p ∧ (d.tdm p).before.rx.testBit k = true then d.slotWord p k (d.tdm p).wire line else 0 := by
  unfold Dev.receivedWord
  by_cases hk : d.g .tdmSlots p ≤ k
  · rw [if_pos hk, if_neg (by omega)]
  · rw [if_neg hk, if_pos hwraps]
    by_cases hrx : (d.tdm p).before.rx.testBit k = true
    · rw [if_neg (by simp [hgood, hrx]; omega), if_pos ⟨Nat.not_le.mp hk, hrx⟩]
    · rw [if_pos (by simp [hrx]), if_neg fun h => hrx h.2]

/-- A malformed frame delivers 0 in the slots inside it (R235). -/
theorem Dev.receivedWord_malformed (hwraps : d.slotWraps p k = false) : d.receivedWord p line true k = 0 := by
  unfold Dev.receivedWord
  simp [hwraps]

end

/-- The port's sources take the words of a frame. -/
def Dev.deliverWords (now p : Nat) (d : Dev) (words : List Nat) : Dev :=
  words.zipIdx.foldl (fun d (q : Nat × Nat) => d.srcPut now (32 * p + q.2) q.1) d

theorem Dev.deliverWords_writesOnly (now p : Nat) (d : Dev) (words : List Nat) :
    d.WritesOnly [] 0 (d.deliverWords now p words) :=
  .foldl _ _ _ fun b _ _ => (Dev.WritesOnly.refl b).srcPut _ _ _ (Nat.zero_le _)

theorem Dev.deliverWords_srcValue (now p : Nat) (d : Dev) (words : List Nat) {k w : Nat} (h : words[k]? = some w) :
    (d.deliverWords now p words).srcValue (32 * p + k) = w := by
  refine foldl_reaches (I := fun _ => True) (P := fun b : Dev => b.srcValue (32 * p + k) = w)
    (List.mk_mem_zipIdx_iff_getElem?.mpr h) trivial (fun _ _ _ _ => trivial) (fun b _ => b.srcPut_srcValue_same now _ w) ?_
  intro b ⟨v, j⟩ hmem _ hb
  by_cases hj : k = j
  · subst hj
    have hv : w = v := Option.some.inj (h.symm.trans (List.mk_mem_zipIdx_iff_getElem?.mp hmem))
    rw [Dev.srcPut_srcValue_same, hv]
  · rw [Dev.srcPut_srcValue_other _ _ _ _ _ (by dsimp only; omega), hb]

/-! ## The stages of a frame sync -/

section
variable (e : Env) (d : Dev) (p : Nat) (wire : List Nat)

/-- The wire interval that ends holds as many bits as a frame. -/
def Dev.wireWhole : Bool := wire.length == d.g .tdmFrameLen p

/-- Well-formed frames in a row, with this one. -/
def Dev.goodFrames : Nat :=
  if !(d.tdm p).synced then 0 else if d.wireWhole p wire then (d.tdm p).good + 1 else 0

/-- The port's state after the frame sync: a master runs, a slave from 16 well-formed frames on. -/
def Dev.stateAfterSync : Nat :=
  if !(d.g .tdmMode p == 1) then tdmRunning
  else if d.g .tdmState p ≠ tdmRunning ∧ 16 ≤ d.goodFrames p wire then tdmRunning else d.g .tdmState p

/-- The frame is malformed: a slave's, of another length. -/
def Dev.malformedFrame : Bool := d.g .tdmMode p == 1 && !d.wireWhole p wire

/-- The bits the port receives: those of the wire, or its own under a loop. -/
def Dev.wireLine : List Nat :=
  if (d.tdm p).now.loop = 1 ∨ (d.tdm p).now.loop = 2 then (d.tdm p).sdo.map (· % 2) else wire

/-- The frame is counted. -/
def Dev.frameCounted : Dev :=
  if (d.g .tdmMode p == 1) ∧ (d.tdm p).synced ∧ !d.wireWhole p wire then
    ((d.count .tdmFrames p).count .tdmMalformed p).flag .tdmEventFlags p 1
  else d.count .tdmFrames p

/-- The port has the state after the frame sync. -/
def Dev.frameStated : Dev := (d.frameCounted p wire).setTdm e.now p (d.stateAfterSync p wire)

/-- The frame's words, once those of pairs under non-audio detection have passed it. -/
def Dev.frameWords : List Nat × Dev :=
  let f := d.frameStated e p wire
  f.napLine ((f.g .napPorts).testBit p) (32 * p) (f.received p (d.wireLine p wire) (d.malformedFrame p wire))

/-- The frame's words are delivered. -/
def Dev.frameDelivered : Dev :=
  if d.stateAfterSync p wire = tdmRunning ∧ (d.tdm p).slip = 0 then
    (d.frameWords e p wire).2.deliverWords e.now p (d.frameWords e p wire).1
  else (d.frameWords e p wire).2

/-- What the port latches. -/
def Dev.latchAfterSync : TdmLatch :=
  let l := (d.frameDelivered e p wire).tdmLatch p
  if (d.tdm p).slip = 1 then { l with samples := (d.tdm p).now.samples } else l

theorem Dev.frameSync_off (h : d.g .tdmState p = 0) : d.frameSync e p wire = d := if_pos h

theorem Dev.frameSync_eq (h : d.g .tdmState p ≠ 0) : ∃ (changed : Bool) (c : TdmCtx),
    d.frameSync e p wire = ((if changed then (d.frameDelivered e p wire).flag .tdmEventFlags p 3
      else d.frameDelivered e p wire).putTdm p c).put .tdmLastLatch p e.tick ∧
    c.synced = true ∧ c.good = d.goodFrames p wire ∧ c.now = d.latchAfterSync e p wire :=
  ⟨_, _, (if_neg h).trans rfl, rfl, rfl, rfl⟩

/-! What each stage writes. -/

theorem Dev.frameCounted_writesOnly : d.WritesOnly [.tdmState, .pllState] 0 (d.frameCounted p wire) :=
  .ite _ ((((Dev.WritesOnly.refl d).later _).later _).later _) ((Dev.WritesOnly.refl d).later _)

theorem Dev.frameCounted_counts : Late.add .tdmFrames p 1 ∈ (d.frameCounted p wire).late := by
  unfold Dev.frameCounted
  split <;> simp

theorem Dev.frameCounted_counts_malformed (hslave : d.g .tdmMode p = 1) (hsynced : (d.tdm p).synced = true)
    (hwhole : wire.length ≠ d.g .tdmFrameLen p) : Late.add .tdmMalformed p 1 ∈ (d.frameCounted p wire).late := by
  unfold Dev.frameCounted
  rw [if_pos (by simp [hslave, hsynced, Dev.wireWhole, hwhole])]
  simp

theorem Dev.frameStated_writesOnly : (d.frameCounted p wire).WritesOnly [.tdmState, .pllState] 0 (d.frameStated e p wire) :=
  Dev.setTdm_writesOnly _ _ _ _

theorem Dev.frameWords_writesOnly : (d.frameStated e p wire).WritesOnly [] 0 (d.frameWords e p wire).2 :=
  (Dev.napLine_writesOnly _ _ _ _).mono (List.Subset.refl _) (Nat.zero_le _)

theorem Dev.frameDelivered_writesOnly : (d.frameStated e p wire).WritesOnly [] 0 (d.frameDelivered e p wire) :=
  (d.frameWords_writesOnly e p wire).trans (.ite _ (Dev.deliverWords_writesOnly _ _ _ _) (.refl _))

theorem Dev.frameDelivered_writes :
    (d.frameCounted p wire).WritesOnly [.tdmState, .pllState] 0 (d.frameDelivered e p wire) :=
  (d.frameStated_writesOnly e p wire).trans
    ((d.frameDelivered_writesOnly e p wire).mono (List.nil_subset _) (Nat.le_refl 0))

/-! What the stages come to. -/

theorem Dev.stateAfterSync_master (h : d.g .tdmMode p ≠ 1) : d.stateAfterSync p wire = 2 :=
  if_pos (by simp [h])

theorem Dev.stateAfterSync_running (h : d.g .tdmState p = 2) : d.stateAfterSync p wire = 2 := by
  unfold Dev.stateAfterSync
  rw [h]
  split
  · rfl
  · exact ite_self _

theorem Dev.frameDelivered_tdmState (h : d.stateAfterSync p wire = 2) : (d.frameDelivered e p wire).g .tdmState p = 2 := by
  rw [(d.frameDelivered_writesOnly e p wire).objs _ _ (by decide), Dev.frameStated, h]
  exact Dev.setTdm_tdmState _ _ _ (by decide)

/-- A port that runs, without non-audio detection or a slip, delivers the frame's words. -/
theorem Dev.frameDelivered_srcValue (h : d.stateAfterSync p wire = 2) (hslip : (d.tdm p).slip = 0)
    (hnap : (d.g .napPorts).testBit p = false) {k : Nat} (hk : k < 32) : (d.frameDelivered e p wire).srcValue (32 * p + k) =
      d.receivedWord p (d.wireLine p wire) (d.malformedFrame p wire) k := by
  have hstated : d.WritesOnly [.tdmState, .pllState] 0 (d.frameStated e p wire) :=
    (d.frameCounted_writesOnly p wire).trans (d.frameStated_writesOnly e p wire)
  unfold Dev.frameDelivered
  rw [if_pos ⟨h, hslip⟩]
  refine Dev.deliverWords_srcValue _ _ _ _ ?_
  unfold Dev.frameWords
  dsimp only
  rw [hstated.objs .napPorts 0 (by decide), hnap, Dev.napLine_off, Dev.received_eq, List.getElem?_map,
    List.getElem?_range hk, Option.map_some, hstated.receivedWord]

theorem Dev.latchAfterSync_eq : (d.latchAfterSync e p wire).tx = d.g .tdmTxMask p ∧
    (d.latchAfterSync e p wire).rx = d.g .tdmRxMask p ∧ (d.latchAfterSync e p wire).loop = d.g .tdmLoop p := by
  have hlatch : (d.latchAfterSync e p wire).tx = (d.frameDelivered e p wire).g .tdmTxMask p ∧
      (d.latchAfterSync e p wire).rx = (d.frameDelivered e p wire).g .tdmRxMask p ∧
      (d.latchAfterSync e p wire).loop = (d.frameDelivered e p wire).g .tdmLoop p := by
    unfold Dev.latchAfterSync
    split <;> exact ⟨rfl, rfl, rfl⟩
  have hwrites := (d.frameCounted_writesOnly p wire).trans (d.frameDelivered_writes e p wire)
  rwa [hwrites.objs _ _ (by decide), hwrites.objs _ _ (by decide), hwrites.objs _ _ (by decide)] at hlatch

end

/-! ## What a frame sync leaves -/

/-- `d'` is what a frame sync leaves of `d` where the port is not OFF. -/
structure Dev.SyncedBy (e : Env) (p : Nat) (wire : List Nat) (d d' : Dev) : Prop where
  counts : Late.add .tdmFrames p 1 ∈ d'.late
  countsMalformed : d.g .tdmMode p = 1 → (d.tdm p).synced = true → wire.length ≠ d.g .tdmFrameLen p →
    Late.add .tdmMalformed p 1 ∈ d'.late
  lastLatch : d'.g .tdmLastLatch p = e.tick
  synced : (d'.tdm p).synced = true
  tx : (d'.tdm p).now.tx = d.g .tdmTxMask p
  rx : (d'.tdm p).now.rx = d.g .tdmRxMask p
  loop : (d'.tdm p).now.loop = d.g .tdmLoop p
  good : (d'.tdm p).good = d.goodFrames p wire
  state : d.stateAfterSync p wire = 2 → d'.g .tdmState p = 2
  delivers : d.stateAfterSync p wire = 2 → (d.tdm p).slip = 0 → (d.g .napPorts).testBit p = false → ∀ k, k < 32 →
    d'.srcValue (32 * p + k) = d.receivedWord p (d.wireLine p wire) (d.malformedFrame p wire) k
  posts : d'.posts = d.posts

theorem Dev.frameSync_syncedBy (e : Env) (d : Dev) (p : Nat) (wire : List Nat) (h : d.g .tdmState p ≠ 0) :
    d.SyncedBy e p wire (d.frameSync e p wire) := by
  obtain ⟨changed, c, heq, hsynced, hgood, hnow⟩ := d.frameSync_eq e p wire h
  have hflag : (d.frameDelivered e p wire).WritesOnly [] (32 * p + 32) (if changed then
      (d.frameDelivered e p wire).flag .tdmEventFlags p 3 else d.frameDelivered e p wire) :=
    .ite _ ((Dev.WritesOnly.refl _).later _) (.refl _)
  generalize (if changed then (d.frameDelivered e p wire).flag .tdmEventFlags p 3 else d.frameDelivered e p wire) = f
    at heq hflag
  have hwrites := (d.frameDelivered_writes e p wire).trans (hflag.mono (List.nil_subset _) (Nat.zero_le _))
  have hport : (d.frameSync e p wire).tdm p = c := by rw [heq]; exact Tab.getD_put_same _ _ _ _
  have hlate : (d.frameSync e p wire).late = f.late := by rw [heq]; rfl
  obtain ⟨htx, hrx, hloop⟩ := d.latchAfterSync_eq e p wire
  constructor
  case counts => rw [hlate]; exact hwrites.late _ (d.frameCounted_counts p wire)
  case countsMalformed =>
    intro hslave hsync hwhole
    rw [hlate]
    exact hwrites.late _ (d.frameCounted_counts_malformed p wire hslave hsync hwhole)
  case lastLatch => rw [heq]; exact Dev.g_put_of_lt _ _ _ _ (Nat.mod_lt _ (by decide))
  case synced => rw [hport, hsynced]
  case tx => rw [hport, hnow, htx]
  case rx => rw [hport, hnow, hrx]
  case loop => rw [hport, hnow, hloop]
  case good => rw [hport, hgood]
  case state =>
    intro hstate
    rw [heq, Dev.g_put_other _ _ _ _ _ _ (by decide)]
    exact (hflag.objs .tdmState p (by decide)).trans (d.frameDelivered_tdmState e p wire hstate)
  case delivers =>
    intro hstate hslip hnap k hk
    rw [← d.frameDelivered_srcValue e p wire hstate hslip hnap hk, heq]
    exact hflag.srcValue (by omega)
  case posts => rw [heq]; exact hwrites.posts.trans (d.frameCounted_writesOnly p wire).posts

/-- The trackers that follow a frame sync leave what it left. -/
theorem Dev.SyncedBy.thenWrites {e : Env} {p : Nat} {wire : List Nat} {d b c : Dev} (h : d.SyncedBy e p wire b) (hp : p < 16)
    (k : b.WritesOnly asrcObjs 768 c) : d.SyncedBy e p wire c where
  counts := k.late _ h.counts
  countsMalformed hslave hsync hwhole := k.late _ (h.countsMalformed hslave hsync hwhole)
  lastLatch := (k.objs _ _ (by decide)).trans h.lastLatch
  synced := by rw [k.tdm]; exact h.synced
  tx := by rw [k.tdm]; exact h.tx
  rx := by rw [k.tdm]; exact h.rx
  loop := by rw [k.tdm]; exact h.loop
  good := by rw [k.tdm]; exact h.good
  state hstate := (k.objs _ _ (by decide)).trans (h.state hstate)
  delivers hstate hslip hnap j hj := (k.srcValue (by omega)).trans (h.delivers hstate hslip hnap j hj)
  posts := k.posts.trans h.posts

/-- A port that has latched a frame, without a loop, a slip or non-audio detection. -/
def Dev.PlainPort (d : Dev) (p : Nat) : Prop :=
  (d.tdm p).synced = true ∧ (d.tdm p).now.loop = 0 ∧ (d.tdm p).slip = 0 ∧ (d.g .napPorts).testBit p = false

/-- A port without a loop delivers what is on the wire. -/
theorem Dev.SyncedBy.srcValue {e : Env} {p : Nat} {wire : List Nat} {d d' : Dev} (h : d.SyncedBy e p wire d')
    (hstate : d.stateAfterSync p wire = 2) (hplain : d.PlainPort p) {k : Nat} (hk : k < 32) :
    d'.srcValue (32 * p + k) = d.receivedWord p wire (d.malformedFrame p wire) k := by
  obtain ⟨-, hloop, hslip, hnap⟩ := hplain
  rw [h.delivers hstate hslip hnap k hk, Dev.wireLine, hloop]
  rfl

/-! ## FRAME_SYNC -/

theorem exec_frameSync (p : Nat) (wire : List Nat) (s : State) : exec (.frameSync p wire) s =
    s.running 4 fun e d => (d.frameSync e p wire).trackersFollow e.now := rfl

theorem frameSync_off (s : State) (p : Nat) (wire : List Nat) (hs : s.Running 4)
    (hoff : (s.enter 4).dev.g .tdmState p = 0) : exec (.frameSync p wire) s =
      .next ((s.enter 4).become ((s.enter 4).dev.trackersFollow (s.enter 4).clk.elapsed)) := by
  rw [exec_frameSync]
  refine s.running_become 4 _ _ hs ?_ ((Dev.trackersFollow_writesOnly _ _).posts.trans (s.enter_posts 4))
  rw [Dev.frameSync_off _ _ _ _ hoff]
  rfl

/-- FRAME_SYNC of a port that is not OFF changes the block alone, as `Dev.SyncedBy` says. -/
theorem frameSync_synced (s : State) (p : Nat) (wire : List Nat) (hs : s.Running 4) (hp : p < 16)
    (hon : (s.enter 4).dev.g .tdmState p ≠ 0) :
    ∃ d' : Dev, exec (.frameSync p wire) s = .next ((s.enter 4).become d') ∧
      (s.enter 4).dev.SyncedBy (s.enter 4).env p wire d' := by
  have hsync := ((s.enter 4).dev.frameSync_syncedBy (s.enter 4).env p wire hon).thenWrites hp
    (Dev.trackersFollow_writesOnly (s.enter 4).env.now _)
  rw [exec_frameSync]
  exact ⟨_, s.running_become 4 _ _ hs rfl (hsync.posts.trans (s.enter_posts 4)), hsync⟩

/-- A master in RUNNING delivers each slot's word under its frame's mask (R235, R237, R238). -/
theorem Dev.SyncedBy.master {e : Env} {p : Nat} {wire : List Nat} {d d' : Dev} (h : d.SyncedBy e p wire d')
    (hmaster : d.g .tdmMode p ≠ 1) (hplain : d.PlainPort p) {k : Nat} (hk : k < 32) :
    (d.slotWraps p k = false → d'.srcValue (32 * p + k) =
      if k < d.g .tdmSlots p ∧ (d.tdm p).now.rx.testBit k = true then d.slotWord p k wire [] else 0) ∧
    (d.slotWraps p k = true → 2 ≤ (d.tdm p).stamps.length → (d.tdm p).wireBad = false → d'.srcValue (32 * p + k) =
      if k < d.g .tdmSlots p ∧ (d.tdm p).before.rx.testBit k = true then d.slotWord p k (d.tdm p).wire wire else 0) := by
  rw [h.srcValue (d.stateAfterSync_master p wire hmaster) hplain hk]
  have hformed : d.malformedFrame p wire = false := by simp [Dev.malformedFrame, hmaster]
  refine ⟨fun hwraps => ?_, fun hwraps hstamps hgood => ?_⟩
  · rw [hformed, d.receivedWord_whole p wire k hwraps hplain.1]
  · rw [d.receivedWord_wraps p wire k _ hwraps hstamps hgood]

/-- A slave's malformed frame is counted, ends its run of good ones, and delivers 0 (R235). -/
theorem Dev.SyncedBy.malformedSlave {e : Env} {p : Nat} {wire : List Nat} {d d' : Dev} (h : d.SyncedBy e p wire d')
    (hslave : d.g .tdmMode p = 1) (hsynced : (d.tdm p).synced = true) (hwhole : wire.length ≠ d.g .tdmFrameLen p) :
    Late.add .tdmMalformed p 1 ∈ d'.late ∧ (d'.tdm p).good = 0 ∧ (d.g .tdmState p = 2 → d.PlainPort p →
      ∀ k, k < 32 → d.slotWraps p k = false → d'.srcValue (32 * p + k) = 0) := by
  have hbad : d.wireWhole p wire = false := by simp [Dev.wireWhole, hwhole]
  refine ⟨h.countsMalformed hslave hsynced hwhole, ?_, fun hrun hplain k hk hwraps => ?_⟩
  · rw [h.good, Dev.goodFrames, hsynced, hbad]
    rfl
  · have hmalformed : d.malformedFrame p wire = true := by simp [Dev.malformedFrame, hslave, hbad]
    rw [h.srcValue (d.stateAfterSync_running p wire hrun) hplain hk, hmalformed, d.receivedWord_malformed p wire k hwraps]

/-! ## PORT_LOSS -/

/-- A slave port's loss is due: it is silent for two frame periods, or off its rate (R235). -/
def Dev.PortLost (now : Nat) (d : Dev) (p : Nat) : Prop :=
  d.g .tdmMode p = 1 ∧ d.g .tdmState p = 2 ∧
    ((∃ b, (d.tdm p).stamps.head? = some b ∧ 2000000000 < 250 * (now - b) * d.g .tdmRate p) ∨ d.tdmOffRate p = true)

theorem Dev.tdmSilent_iff (e : Env) (d : Dev) (p : Nat) : d.tdmSilent e p = true ↔
    ∃ b, (d.tdm p).stamps.head? = some b ∧ 2000000000 < 250 * (e.now - b) * d.g .tdmRate p := by
  unfold Dev.tdmSilent
  cases (d.tdm p).stamps with
  | nil => simp
  | cons b bs => simp

theorem Dev.portLoss_otherwise (e : Env) (d : Dev) (p : Nat) (h : ¬d.PortLost e.now p) : d.portLoss e p = d := by
  refine if_neg fun hlost => h ?_
  obtain ⟨hslave, hrun, hcause⟩ := hlost
  exact ⟨hslave, hrun, hcause.imp_left (d.tdmSilent_iff e p).mp⟩

/-- A loss puts the port into LOST, and empties its run of good frames and its line. -/
theorem Dev.portLoss_lost (e : Env) (d : Dev) (p : Nat) (h : d.PortLost e.now p) : ∃ (f : Dev) (c : TdmCtx),
    d.WritesOnly [] 768 f ∧ d.portLoss e p = (f.setTdm e.now p 3).putTdm p c := by
  obtain ⟨hslave, hrun, hcause⟩ := h
  exact ⟨if d.tdmOffRate p then d.flag .tdmEventFlags p 2 else d, _, .ite _ ((Dev.WritesOnly.refl d).later _) (.refl d),
    (if_pos ⟨hslave, hrun, hcause.imp_left (d.tdmSilent_iff e p).mpr⟩).trans rfl⟩

/-- The PLLs that take a port for reference and are LOCKED or ACQUIRING are in HOLDOVER once it is LOST (R241). -/
theorem Dev.foldl_pllRefLost_holdover (now p : Nat) (d : Dev) {k : Nat} (hk : k < 4) (href : d.g .pllRef k = 0x10 + p)
    (hst : d.g .pllState k = 2 ∨ d.g .pllState k = 3) : ((d.pllsOn p).foldl (Dev.pllRefLost now) d).g .pllState k = 4 := by
  have hmem : k ∈ d.pllsOn p := List.mem_filter.mpr ⟨List.mem_range.mpr hk, by simp [href]⟩
  refine foldl_reaches
    (I := fun b : Dev => b.g .pllRef k ≠ 1 ∧ (b.g .pllState k = 2 ∨ b.g .pllState k = 3 ∨ b.g .pllState k = 4))
    (P := fun b : Dev => b.g .pllState k = 4) hmem ⟨by omega, by omega⟩ ?_ ?_ ?_
  · intro b j _ ⟨hb, hbst⟩
    refine ⟨by rwa [(b.pllRefLost_writesOnly now j).objs _ _ (by decide)], ?_⟩
    by_cases hj : (b.g .pllState j = 3 ∨ b.g .pllState j = 2) ∧ b.g .pllRef j ≠ 1
    · have hmoves := b.pllRefLost_movesPll now j hj
      by_cases hkj : k = j
      · exact .inr (.inr (hkj ▸ hmoves.state))
      · rwa [hmoves.others k hkj]
    · rwa [b.pllRefLost_of_not now j hj]
  · intro b ⟨hb, hbst⟩
    by_cases h4 : b.g .pllState k = 4
    · exact b.pllRefLost_holdover now k k h4
    · exact (b.pllRefLost_movesPll now k ⟨by omega, hb⟩).state
  · exact fun b j _ _ h4 => b.pllRefLost_holdover now j k h4

/-- What PORT_LOSS leaves of a port whose loss is due (R235, R241). -/
theorem Dev.portLoss_leaves (e : Env) (d : Dev) (p : Nat) (h : d.PortLost e.now p) :
    (d.portLoss e p).g .tdmState p = 3 ∧ Late.flag .tdmEventFlags p 1 ∈ (d.portLoss e p).late ∧
      (∀ k, k < 32 → p < 16 → (d.portLoss e p).srcValue (32 * p + k) = 0) ∧
      ∀ k, k < 4 → d.g .pllRef k = 0x10 + p → (d.g .pllState k = 2 ∨ d.g .pllState k = 3) →
        (d.portLoss e p).g .pllState k = 4 := by
  obtain ⟨f, c, hf, heq⟩ := d.portLoss_lost e p h
  obtain ⟨-, hrun, -⟩ := h
  have hne : f.g .tdmState p ≠ 3 := by rw [hf.objs _ _ (by decide), hrun]; decide
  have hlost := Dev.foldl_pllRefLost_writesOnly e.now ((f.showTdm p 3).silence e.now p)
    (((f.showTdm p 3).silence e.now p).pllsOn p)
  rw [heq]
  refine ⟨f.setTdm_tdmState e.now p (by decide), (f.setTdm_moves e.now hne).late _ (by simp [Dev.showTdm]), ?_, ?_⟩
  · intro k hk hp
    rw [f.setTdm_lost e.now hne]
    exact (hlost.srcValue (by omega)).trans (Dev.silence_srcValue _ _ _ hk)
  · intro k hk href hst
    have hsilent : d.WritesOnly [.tdmState] 0 ((f.showTdm p 3).silence e.now p) :=
      ((hf.mono (List.nil_subset _) (Nat.zero_le _)).trans
        ((f.showTdm_writesOnly p 3).mono (List.Subset.refl _) (Nat.zero_le _))).trans
        ((Dev.silence_writesOnly e.now p _).mono (List.nil_subset _) (Nat.le_refl 0))
    rw [f.setTdm_lost e.now hne]
    refine Dev.foldl_pllRefLost_holdover e.now p _ hk ?_ ?_
    · rw [hsilent.objs _ _ (by decide), href]
    · rwa [hsilent.objs _ _ (by decide)]

/-- PORT_LOSS in a state that has come to its place in rank 5. -/
def State.losesPort (s : State) (p : Nat) : Out := s.running 5 fun e d => (d.portLoss e p).trackersFollow e.now

theorem exec_portLoss (p : Nat) (s : State) : exec (.portLoss p) s = (s.ordered 5 (0x0D0 + p)).losesPort p := rfl

theorem State.losesPort_otherwise (s : State) (p : Nat) (hs : s.Running 5)
    (h : ¬(s.enter 5).dev.PortLost (s.enter 5).clk.elapsed p) :
    s.losesPort p = .next ((s.enter 5).become ((s.enter 5).dev.trackersFollow (s.enter 5).clk.elapsed)) := by
  refine s.running_become 5 _ _ hs ?_ ((Dev.trackersFollow_writesOnly _ _).posts.trans (s.enter_posts 5))
  rw [Dev.portLoss_otherwise (s.enter 5).env _ p h]
  rfl

/-- PORT_LOSS of a port whose loss is due (R235, R241). -/
theorem State.losesPort_lost (s : State) (p : Nat) (hs : s.Running 5) (hp : p < 16)
    (h : (s.enter 5).dev.PortLost (s.enter 5).clk.elapsed p) : ∃ t, s.losesPort p = .next t ∧ t.dev.g .tdmState p = 3 ∧
      Late.flag .tdmEventFlags p 1 ∈ t.dev.late ∧ (∀ k, k < 32 → t.dev.srcValue (32 * p + k) = 0) ∧
      ∀ k, k < 4 → (s.enter 5).dev.g .pllRef k = 0x10 + p →
        ((s.enter 5).dev.g .pllState k = 2 ∨ (s.enter 5).dev.g .pllState k = 3) → t.dev.g .pllState k = 4 := by
  obtain ⟨hstate, hflag, hsrcs, hplls⟩ := Dev.portLoss_leaves (s.enter 5).env _ p h
  have hfollow := Dev.trackersFollow_writesOnly (s.enter 5).env.now ((s.enter 5).dev.portLoss (s.enter 5).env p)
  refine ⟨_, s.running_run 5 _ hs, ?_⟩
  rw [State.run_g, State.run_late]
  refine ⟨(hfollow.objs _ _ (by decide)).trans hstate, hfollow.late _ hflag, fun k hk => ?_, fun k hk href hst => ?_⟩
  · rw [State.run_srcValue, hfollow.srcValue (by omega), hsrcs k hk hp]
  · rw [State.run_g, hfollow.objs _ _ (by decide), hplls k hk href hst]

/-! ## The statement -/

/-- Settles O44: FRAME_SYNC leaves what `Dev.SyncedBy` says, PORT_LOSS what `Dev.portLoss_leaves` says; a lemma above for
each event of a PLL and for TRACKER_LOCK. -/
theorem audioPortsAndClocks : Obligations.AudioPortsAndClocks := by
  refine ⟨fun s p wire hs hp => ?_, fun s p hs hp => ?_, fun s k hs => ?_, fun s k ratio hs => ?_⟩
  · intro u d c whole plain delivers
    refine ⟨frameSync_off s p wire hs, fun hon => ?_⟩
    obtain ⟨d', hnext, h⟩ := frameSync_synced s p wire hs hp hon
    refine ⟨_, hnext, rfl, rfl, h.counts, h.lastLatch, h.synced, h.tx, h.rx, h.loop, ?_, fun hslave hsync hwhole => ?_⟩
    · exact fun hmaster => ⟨h.state (d.stateAfterSync_master p wire hmaster),
        fun hplain k hk => h.master hmaster hplain hk⟩
    · exact h.malformedSlave hslave hsync hwhole
  · intro u d lost
    rw [exec_portLoss]
    exact ⟨State.losesPort_otherwise _ p hs, State.losesPort_lost _ p hs hp⟩
  · exact ⟨fun hst hlong => ⟨pllLock_acquiring s k hs ⟨hst, hlong⟩, pllLock_phaseErr s k hs ⟨hst, hlong⟩⟩,
      pllLock_otherwise s k hs, pllLockLoss_locked s k hs, pllLockLoss_otherwise s k hs, pllRefLoss_pin s k hs,
      pllRefLoss_otherwise s k hs, pllRefReturn_holdover s k hs, pllRefReturn_otherwise s k hs⟩
  · exact ⟨fun x => trackerLock_acquiring s hs k ratio, trackerLock_otherwise s hs k ratio⟩

end Sys2Proof.Machine
end

section
/-!
SUPPORT. What a destination's own work leaves of the block. Mixing and ducking write records of destinations and two of
their objects only (`Dev.WritesDsts`); sources, flows, slots and what the destination's objects say stand (R257 to R259).
-/

namespace Sys2Proof.Machine

/-! ## Effects that write destinations only -/

/-- The objects of a destination that the part itself writes (R271). -/
def dstShown : List Obj := [.dstDuckState, .dstPeak]

/-- From `d` to `d'` only records of destinations and the objects that show them change. -/
structure Dev.WritesDsts (d d' : Dev) : Prop where
  objs : ∀ o i, (∀ w ∈ dstShown, o.ctorIdx % 1024 ≠ w.ctorIdx % 1024) → d'.g o i = d.g o i
  audio : { d'.audio with dsts := d.audio.dsts } = d.audio
  io : d'.io = d.io
  embBlocks : d'.embBlocks = d.embBlocks
  late : d'.late = d.late
  posts : d'.posts = d.posts

section
variable {a b c : Dev}

theorem Dev.WritesDsts.refl (d : Dev) : d.WritesDsts d := ⟨fun _ _ _ => rfl, rfl, rfl, rfl, rfl, rfl⟩

theorem Dev.WritesDsts.trans (h : a.WritesDsts b) (k : b.WritesDsts c) : a.WritesDsts c :=
  ⟨fun o i ho => (k.objs o i ho).trans (h.objs o i ho),
    (congrArg (fun x : AudioUnit => { x with dsts := a.audio.dsts }) k.audio).trans h.audio, k.io.trans h.io,
    k.embBlocks.trans h.embBlocks, k.late.trans h.late, k.posts.trans h.posts⟩

theorem Dev.put_writesDsts (d : Dev) (o : Obj) (i v : Nat) (ho : o ∈ dstShown) : d.WritesDsts (d.put o i v) :=
  ⟨fun p k hp => d.g_put_other o p i k v (hp o ho), rfl, rfl, rfl, rfl, rfl⟩

theorem Dev.putDst_writesDsts (d : Dev) (n : Nat) (x : DstCtx) : d.WritesDsts (d.putDst n x) :=
  ⟨fun _ _ _ => rfl, rfl, rfl, rfl, rfl, rfl⟩

end

/-! ## What such an effect leaves of sources -/

section
variable {d d' : Dev} (h : d.WritesDsts d')
include h

theorem Dev.WritesDsts.flow (f : Nat) : d'.flow f = d.flow f :=
  (congrArg (fun x : AudioUnit => x.flows.getD f {}) h.audio :)

theorem Dev.WritesDsts.src (n : Nat) : d'.audio.srcs.getD n {} = d.audio.srcs.getD n {} :=
  (congrArg (fun x : AudioUnit => x.srcs.getD n {}) h.audio :)

theorem Dev.WritesDsts.returns (k : Nat) : d'.audio.returns.getD k 0 = d.audio.returns.getD k 0 :=
  (congrArg (fun x : AudioUnit => x.returns.getD k 0) h.audio :)

theorem Dev.WritesDsts.caravan (c : Nat) : d'.audio.caravans.getD c {} = d.audio.caravans.getD c {} :=
  (congrArg (fun x : AudioUnit => x.caravans.getD c {}) h.audio :)

theorem Dev.WritesDsts.send (f : Nat) : d'.audio.sends.getD f {} = d.audio.sends.getD f {} :=
  (congrArg (fun x : AudioUnit => x.sends.getD f {}) h.audio :)

theorem Dev.WritesDsts.head (k : Nat) : d'.head k = d.head k := congrArg (fun x : IoUnit => x.heads.getD k {}) h.io

theorem Dev.WritesDsts.recvFlow (ch : Nat) : d'.recvFlow ch = d.recvFlow ch := by
  simp (disch := decide) only [Dev.recvFlow, Dev.on, h.objs]

theorem Dev.WritesDsts.unitOf (n : Nat) : d'.unitOf n = d.unitOf n := by
  simp (disch := decide) only [Dev.unitOf, Dev.on, h.recvFlow, h.objs]

theorem Dev.WritesDsts.caravanOf (m : Nat) : d'.caravanOf m = d.caravanOf m := by
  simp (disch := decide) only [Dev.caravanOf, h.objs]

theorem Dev.WritesDsts.playRate (m : Nat) : d'.playRate m = d.playRate m := by
  simp (disch := decide) only [Dev.playRate, h.objs]

theorem Dev.WritesDsts.playDelay (m : Nat) : d'.playDelay m = d.playDelay m := by
  simp (disch := decide) only [Dev.playDelay, h.caravanOf, h.objs]

theorem Dev.WritesDsts.playing (e : Env) (m : Nat) : d'.playing e m = d.playing e m := by
  rw [Dev.playing, h.playDelay, h.playRate, Dev.playing]

theorem Dev.WritesDsts.heldSample (u : Nat) (m : Int) : d'.heldSample u m = d.heldSample u m := by
  rw [Dev.heldSample, h.flow, h.embBlocks, Dev.heldSample]

theorem Dev.WritesDsts.playFactor (e : Env) (u : Nat) (m : Int) : d'.playFactor e u m = d.playFactor e u m := by
  simp only [Dev.playFactor, h.heldSample, h.caravanOf, h.playRate, h.caravan]

theorem Dev.WritesDsts.playSample (e : Env) (u ch : Nat) (m : Int) : d'.playSample e u ch m = d.playSample e u ch m := by
  simp only [Dev.playSample, h.heldSample, h.playFactor]

theorem Dev.WritesDsts.srcSample (e : Env) (n : Nat) : d'.srcSample e n = d.srcSample e n := by
  simp only [Dev.srcSample, h.unitOf, h.playing, h.playSample, h.src]

theorem Dev.WritesDsts.srcReturns (n : Nat) : d'.srcReturns n = d.srcReturns n := by
  simp (disch := decide) only [Dev.srcReturns, h.recvFlow, h.objs, h.returns]

theorem Dev.WritesDsts.dstSet (n : Nat) : d'.dstSet n = d.dstSet n := by
  simp (disch := decide) only [Dev.dstSet, Dev.dstSrcs, Dev.dstGains, Dev.gi, h.objs]

theorem Dev.WritesDsts.dstInForce (now : Nat) {n : Nat} (hsets : (d'.dst n).sets = (d.dst n).sets) :
    d'.dstInForce now n = d.dstInForce now n := by
  rw [Dev.dstInForce, hsets, h.dstSet, Dev.dstInForce]

end

/-! ## Records of destinations -/

@[simp] theorem Dev.putDst_dst_same (d : Dev) (n : Nat) (x : DstCtx) : (d.putDst n x).dst n = x :=
  Tab.getD_put_same _ _ _ _

theorem Dev.putDst_dst_other (d : Dev) {n k : Nat} (x : DstCtx) (h : k ≠ n) : (d.putDst n x).dst k = d.dst k :=
  Tab.getD_put_other _ _ _ _ _ h

end Sys2Proof.Machine
end

section
/-!
SUPPORT. Ducking (R259). A destination's duck comes into a state from the gain it has reached (`Dev.enterDuck`); which
state the duck comes into of itself is `Dev.nextDuck`, and DUCK_BLOCK is a block's measurement, an active key's ATTACK, and
that move.
-/

namespace Sys2Proof.Machine

/-! ## Coming into a state -/

theorem Dev.enterDuck_same (e : Env) (d : Dev) {n st : Nat} (q : DstSet) (h : d.g .dstDuckState n = st) :
    d.enterDuck e n st q = d := if_pos h

theorem Dev.enterDuck_of_ne (e : Env) (d : Dev) {n st : Nat} (q : DstSet) (h : d.g .dstDuckState n ≠ st) :
    d.enterDuck e n st q =
      (d.putDst n { d.dst n with duck := d.duckGain e n q, duckAt := e.now }).put .dstDuckState n st := if_neg h

theorem Dev.enterDuck_state (e : Env) (d : Dev) (n : Nat) {st : Nat} (q : DstSet) (hst : st < 256) :
    (d.enterDuck e n st q).g .dstDuckState n = st := by
  by_cases h : d.g .dstDuckState n = st
  · rw [d.enterDuck_same e q h, h]
  · rw [d.enterDuck_of_ne e q h]
    exact Dev.g_put_of_lt _ _ _ _ hst

/-- From `d` to `d'` only the duck of destination `n` moves: of its record the gain reached and the tick of that. -/
structure Dev.Ducks (n : Nat) (d d' : Dev) : Prop where
  writes : d.WritesDsts d'
  dst : ∃ gain tick, d'.dst n = { d.dst n with duck := gain, duckAt := tick }
  others : ∀ k, k ≠ n → d'.dst k = d.dst k

theorem Dev.Ducks.refl (n : Nat) (d : Dev) : d.Ducks n d := ⟨.refl d, ⟨_, _, rfl⟩, fun _ _ => rfl⟩

theorem Dev.Ducks.trans {n : Nat} {a b c : Dev} (h : a.Ducks n b) (k : b.Ducks n c) : a.Ducks n c := by
  obtain ⟨gain, tick, hdst⟩ := h.dst
  obtain ⟨gain', tick', hdst'⟩ := k.dst
  exact ⟨h.writes.trans k.writes, ⟨gain', tick', by rw [hdst', hdst]⟩,
    fun j hj => (k.others j hj).trans (h.others j hj)⟩

theorem Dev.Ducks.dstInForce {n : Nat} {d d' : Dev} (h : d.Ducks n d') (now : Nat) :
    d'.dstInForce now n = d.dstInForce now n := by
  obtain ⟨gain, tick, hdst⟩ := h.dst
  exact h.writes.dstInForce now (by rw [hdst])

theorem Dev.enterDuck_ducks (e : Env) (d : Dev) (n st : Nat) (q : DstSet) : d.Ducks n (d.enterDuck e n st q) := by
  by_cases h : d.g .dstDuckState n = st
  · rw [d.enterDuck_same e q h]
    exact .refl n d
  · rw [d.enterDuck_of_ne e q h]
    exact ⟨(d.putDst_writesDsts _ _).trans (Dev.put_writesDsts _ _ _ _ (by decide)), ⟨_, _, d.putDst_dst_same _ _⟩,
      fun k hk => d.putDst_dst_other _ hk⟩

/-! ## The gain -/

theorem Dev.duckGain_open (e : Env) (d : Dev) {n : Nat} (q : DstSet) (h : d.g .dstDuckState n = 0) :
    d.duckGain e n q = 0 := by
  simp [Dev.duckGain, h, duckAttack, duckDucked, duckRelease]

theorem max_le_left_iff (a b : Rat) : max a b ≤ a ↔ b ≤ a := by
  show (if a ≤ b then b else a) ≤ a ↔ b ≤ a
  by_cases h : a ≤ b
  · rw [if_pos h]
  · rw [if_neg h]
    exact iff_of_true Rat.le_refl (Rat.le_of_lt (Rat.not_le.mp h))

/-- A duck that has just come into ATTACK has reached the depth where the gain it had is at or below it. -/
theorem Dev.duckGain_enterAttack (e : Env) (d : Dev) {n : Nat} (q : DstSet) (h : d.g .dstDuckState n ≠ 1) :
    (d.enterDuck e n 1 q).duckGain e n q ≤ ((q.depth : Int) : Rat) ↔ d.duckGain e n q ≤ ((q.depth : Int) : Rat) := by
  have hstate := d.enterDuck_state e n q (st := 1) (by decide)
  have hdst : (d.enterDuck e n 1 q).dst n = { d.dst n with duck := d.duckGain e n q, duckAt := e.now } := by
    rw [d.enterDuck_of_ne e q h]
    exact d.putDst_dst_same _ _
  have hstart (gain depth attack : Rat) : gain + depth * (((0 : Nat) : Rat) / 4000) / attack = gain := by grind
  rw [Dev.duckGain, hstate, hdst]
  dsimp only
  rw [if_pos (show 1 = duckAttack from rfl), Nat.sub_self, hstart]
  exact max_le_left_iff _ _

/-! ## The state it comes into of itself -/

/-- The state the duck of a destination comes into of itself: on reaching the depth, after the hold, on reaching 0 dB. -/
def Dev.nextDuck (e : Env) (d : Dev) (n : Nat) : Nat :=
  let q := d.dstInForce e.now n
  let st := d.g .dstDuckState n
  let gain := d.duckGain e n q
  if st = 1 ∧ gain ≤ ((q.depth : Int) : Rat) then 2
  else if st = 2 ∧ (d.dst n).active + q.hold * 4000 ≤ e.now then 3
  else if st = 3 ∧ 0 ≤ gain then 0
  else st

theorem Dev.duckMoves_eq (e : Env) (d : Dev) (n : Nat) :
    d.duckMoves e n = d.enterDuck e n (d.nextDuck e n) (d.dstInForce e.now n) := by
  unfold Dev.nextDuck
  simp only [apply_ite (fun st => d.enterDuck e n st (d.dstInForce e.now n)), d.enterDuck_same e _ rfl]
  rfl

theorem Dev.nextDuck_lt (e : Env) (d : Dev) {n : Nat} (h : d.g .dstDuckState n < 256) : d.nextDuck e n < 256 := by
  unfold Dev.nextDuck
  dsimp only
  split
  · decide
  split
  · decide
  split
  · decide
  · exact h

theorem Dev.duckMoves_ducks (e : Env) (d : Dev) (n : Nat) : d.Ducks n (d.duckMoves e n) := by
  rw [d.duckMoves_eq]
  exact d.enterDuck_ducks _ _ _ _

theorem Dev.duckMoves_state (e : Env) (d : Dev) {n : Nat} (h : d.g .dstDuckState n < 256) :
    (d.duckMoves e n).g .dstDuckState n = d.nextDuck e n := by
  rw [d.duckMoves_eq]
  exact d.enterDuck_state e n _ (d.nextDuck_lt e h)

end Sys2Proof.Machine
end

section
/-!
DUCK_BLOCK (R259). A block ends: its peaks are taken, an active key takes a duck that is OPEN or in RELEASE into ATTACK, and
the duck moves on of itself; without a key it is OPEN.
-/

namespace Sys2Proof.Machine

/-- The key of a destination is active in the block that ends. -/
def Dev.keyActive (e : Env) (d : Dev) (n : Nat) : Bool :=
  let q := d.dstInForce e.now n
  atLeastDb (d.blockPeak e n q.key) q.thresh

/-- The block once the peaks of a destination's 1 ms block are taken. -/
def Dev.blockMeasured (e : Env) (d : Dev) (n : Nat) (active : Bool) : Dev :=
  let c := d.dst n
  (d.puti .dstPeak n (peakDb c.peak)).putDst n
    { c with keyPeak := 0, peak := 0, active := if active then e.now else c.active }

/-- A duck that an active key takes into ATTACK: OPEN or in RELEASE. -/
def Dev.Attacks (d : Dev) (n : Nat) (active : Bool) : Prop :=
  active = true ∧ (d.g .dstDuckState n = 0 ∨ d.g .dstDuckState n = 3)

section
variable (e : Env) (d : Dev) (n : Nat) (active : Bool)

theorem Dev.blockMeasured_writesDsts : d.WritesDsts (d.blockMeasured e n active) :=
  (d.put_writesDsts _ _ _ (by decide)).trans (Dev.putDst_writesDsts _ _ _)

theorem Dev.blockMeasured_dst : (d.blockMeasured e n active).dst n =
    { d.dst n with keyPeak := 0, peak := 0, active := if active then e.now else (d.dst n).active } :=
  Dev.putDst_dst_same _ _ _

theorem Dev.blockMeasured_dst_other {k : Nat} (hk : k ≠ n) : (d.blockMeasured e n active).dst k = d.dst k :=
  Dev.putDst_dst_other _ _ hk

theorem Dev.blockMeasured_state : (d.blockMeasured e n active).g .dstDuckState n = d.g .dstDuckState n :=
  d.g_put_other _ _ _ _ _ (by decide)

theorem Dev.blockMeasured_dstInForce : (d.blockMeasured e n active).dstInForce e.now n = d.dstInForce e.now n :=
  (d.blockMeasured_writesDsts e n active).dstInForce _ (by rw [d.blockMeasured_dst])

theorem Dev.blockMeasured_duckGain (q : DstSet) :
    (d.blockMeasured e n active).duckGain e n q = d.duckGain e n q := by
  simp only [Dev.duckGain, d.blockMeasured_dst, d.blockMeasured_state]

end

/-! ## What the block comes to -/

section
variable (e : Env) (d : Dev) (n : Nat)

theorem Dev.duckBlock_keyless (h : (d.dstInForce e.now n).key = 0xFFFF) :
    d.duckBlock e n = (d.blockMeasured e n false).enterDuck e n 0 (d.dstInForce e.now n) := by
  unfold Dev.duckBlock
  simp only [h, bne_self_eq_false, Bool.false_and, if_true]
  rfl

theorem Dev.duckBlock_attacks (hkey : (d.dstInForce e.now n).key ≠ 0xFFFF) (h : d.Attacks n (d.keyActive e n)) :
    d.duckBlock e n = ((d.blockMeasured e n true).enterDuck e n 1 (d.dstInForce e.now n)).duckMoves e n := by
  obtain ⟨hactive, hst⟩ := h
  unfold Dev.keyActive at hactive
  unfold Dev.duckBlock
  simp only [bne_iff_ne.mpr hkey, hactive, Bool.and_self, if_neg hkey, true_and]
  rw [if_pos]
  · rfl
  · exact (d.blockMeasured_state e n true).symm ▸ hst

theorem Dev.duckBlock_moves (hkey : (d.dstInForce e.now n).key ≠ 0xFFFF) (h : ¬d.Attacks n (d.keyActive e n)) :
    d.duckBlock e n = (d.blockMeasured e n (d.keyActive e n)).duckMoves e n := by
  unfold Dev.duckBlock
  simp only [bne_iff_ne.mpr hkey, Bool.true_and, if_neg hkey]
  rw [if_neg]
  · rfl
  · exact fun hattacks => h ⟨hattacks.1, (d.blockMeasured_state e n _) ▸ hattacks.2⟩

/-- Whatever the key does, once the block is measured only the duck moves. -/
theorem Dev.duckBlock_ducks : ∃ active, (d.blockMeasured e n active).Ducks n (d.duckBlock e n) := by
  by_cases hkey : (d.dstInForce e.now n).key = 0xFFFF
  · rw [d.duckBlock_keyless e n hkey]
    exact ⟨_, Dev.enterDuck_ducks _ _ _ _ _⟩
  by_cases h : d.Attacks n (d.keyActive e n)
  · rw [d.duckBlock_attacks e n hkey h]
    exact ⟨_, (Dev.enterDuck_ducks _ _ _ _ _).trans (Dev.duckMoves_ducks _ _ _)⟩
  · rw [d.duckBlock_moves e n hkey h]
    exact ⟨_, Dev.duckMoves_ducks _ _ _⟩

theorem Dev.duckBlock_writesDsts : d.WritesDsts (d.duckBlock e n) := by
  obtain ⟨active, hducks⟩ := d.duckBlock_ducks e n
  exact (d.blockMeasured_writesDsts e n active).trans hducks.writes

/-- The block's peaks start again. -/
theorem Dev.duckBlock_peaks : ((d.duckBlock e n).dst n).peak = 0 ∧ ((d.duckBlock e n).dst n).keyPeak = 0 := by
  obtain ⟨active, hducks⟩ := d.duckBlock_ducks e n
  obtain ⟨gain, tick, hdst⟩ := hducks.dst
  rw [hdst, d.blockMeasured_dst]
  exact ⟨rfl, rfl⟩

theorem Dev.duckBlock_dst_other {k : Nat} (hk : k ≠ n) : (d.duckBlock e n).dst k = d.dst k := by
  obtain ⟨active, hducks⟩ := d.duckBlock_ducks e n
  rw [hducks.others k hk, d.blockMeasured_dst_other e n active hk]

/-! ## The state it comes into -/

theorem Dev.duckBlock_state_keyless (h : (d.dstInForce e.now n).key = 0xFFFF) :
    (d.duckBlock e n).g .dstDuckState n = 0 := by
  rw [d.duckBlock_keyless e n h]
  exact Dev.enterDuck_state _ _ _ _ (by decide)

/-- An active key takes a duck that is OPEN or in RELEASE into ATTACK, and at once into DUCKED where the depth is reached. -/
theorem Dev.duckBlock_state_attacks (hkey : (d.dstInForce e.now n).key ≠ 0xFFFF) (h : d.Attacks n (d.keyActive e n)) :
    (d.duckBlock e n).g .dstDuckState n =
      if d.duckGain e n (d.dstInForce e.now n) ≤ (((d.dstInForce e.now n).depth : Int) : Rat) then 2 else 1 := by
  have hne : (d.blockMeasured e n true).g .dstDuckState n ≠ 1 := by
    rw [d.blockMeasured_state]
    have := h.2
    omega
  have hstate := (d.blockMeasured e n true).enterDuck_state e n (d.dstInForce e.now n) (st := 1) (by decide)
  have hreached := Dev.duckGain_enterAttack e (d.blockMeasured e n true) (d.dstInForce e.now n) hne
  rw [d.blockMeasured_duckGain] at hreached
  rw [d.duckBlock_attacks e n hkey h, Dev.duckMoves_state _ _ (by rw [hstate]; decide), Dev.nextDuck,
    (Dev.enterDuck_ducks _ _ _ _ _).dstInForce, d.blockMeasured_dstInForce, hstate]
  by_cases hgain : d.duckGain e n (d.dstInForce e.now n) ≤ (((d.dstInForce e.now n).depth : Int) : Rat)
  · rw [if_pos ⟨rfl, hreached.mpr hgain⟩, if_pos hgain]
  · rw [if_neg fun hc => hgain (hreached.mp hc.2), if_neg fun hc => absurd hc.1 (by decide),
      if_neg fun hc => absurd hc.1 (by decide), if_neg hgain]

/-- A duck that no key takes into ATTACK moves on of itself, an active block counted toward its hold. -/
theorem Dev.duckBlock_state_moves (hkey : (d.dstInForce e.now n).key ≠ 0xFFFF) (h : ¬d.Attacks n (d.keyActive e n))
    (hst : d.g .dstDuckState n < 256) : (d.duckBlock e n).g .dstDuckState n =
      if d.g .dstDuckState n = 1 ∧
        d.duckGain e n (d.dstInForce e.now n) ≤ (((d.dstInForce e.now n).depth : Int) : Rat) then 2
      else if d.g .dstDuckState n = 2 ∧
        (if d.keyActive e n then e.now else (d.dst n).active) + (d.dstInForce e.now n).hold * 4000 ≤ e.now then 3
      else if d.g .dstDuckState n = 3 ∧ 0 ≤ d.duckGain e n (d.dstInForce e.now n) then 0
      else d.g .dstDuckState n := by
  rw [d.duckBlock_moves e n hkey h, Dev.duckMoves_state _ _ (by rw [d.blockMeasured_state]; exact hst), Dev.nextDuck,
    d.blockMeasured_dstInForce, d.blockMeasured_state, d.blockMeasured_duckGain, d.blockMeasured_dst]

/-- The move of a duck with a key, from each state (R259). -/
theorem Dev.duckBlock_state (hkey : (d.dstInForce e.now n).key ≠ 0xFFFF) :
    let q := d.dstInForce e.now n
    let depth : Rat := ((q.depth : Int) : Rat)
    let gain := d.duckGain e n q
    let active := d.keyActive e n
    let heard := if active then e.now else (d.dst n).active
    let st' := (d.duckBlock e n).g .dstDuckState n
    (d.g .dstDuckState n = 0 → st' = if active then (if q.depth < 0 then 1 else 2) else 0) ∧
    (d.g .dstDuckState n = 1 → st' = if gain ≤ depth then 2 else 1) ∧
    (d.g .dstDuckState n = 2 → st' = if heard + q.hold * 4000 ≤ e.now then 3 else 2) ∧
    (d.g .dstDuckState n = 3 → st' = if active then (if gain ≤ depth then 2 else 1) else if 0 ≤ gain then 0 else 3) := by
  intro q depth gain active heard st'
  refine ⟨fun hst => ?_, fun hst => ?_, fun hst => ?_, fun hst => ?_⟩
  · by_cases hactive : active = true
    · have hstate := d.duckBlock_state_attacks e n hkey ⟨hactive, .inl hst⟩
      rw [d.duckGain_open e _ hst] at hstate
      rw [if_pos hactive]
      refine hstate.trans ?_
      by_cases hdepth : q.depth < 0
      · rw [if_pos hdepth, if_neg fun hc => absurd (Rat.intCast_nonneg.mp hc) (Int.not_le.mpr hdepth)]
      · rw [if_neg hdepth, if_pos (Rat.intCast_nonneg.mpr (Int.not_lt.mp hdepth))]
    · have hstate := d.duckBlock_state_moves e n hkey (fun h => hactive h.1) (by rw [hst]; decide)
      rw [if_neg hactive]
      refine hstate.trans ?_
      simp [hst]
  · refine (d.duckBlock_state_moves e n hkey (fun h => ?_) (by rw [hst]; decide)).trans ?_
    · have := h.2
      omega
    · simp [hst, gain, depth, q]
  · refine (d.duckBlock_state_moves e n hkey (fun h => ?_) (by rw [hst]; decide)).trans ?_
    · have := h.2
      omega
    · simp [hst, heard, active, q]
  · by_cases hactive : active = true
    · rw [if_pos hactive]
      exact d.duckBlock_state_attacks e n hkey ⟨hactive, .inr hst⟩
    · rw [if_neg hactive]
      refine (d.duckBlock_state_moves e n hkey (fun h => hactive h.1) (by rw [hst]; decide)).trans ?_
      simp [hst, gain, q]

end

end Sys2Proof.Machine
end

section
/-!
MIX_SAMPLE (R257, R258). What the terms of a destination come to in a sample period, and the sample they form: silence where
nothing is routed, the source's own sample where its one route has settled at 0 dB.
-/

namespace Sys2Proof.Machine

/-! ## Terms -/

/-- A term that has ended its ramp and follows 0 dB, ducked by nothing (R257). -/
def Term.settled (src ramp seen : Nat) (start last : Int) : Term :=
  { slot := 0, src := src, start := start, step := ramp, len := ramp, last := last,
    gain := some { gain := 0, ducked := false, depth := 0 }, seen := seen }

/-- The objects route a destination from one source alone, by its first term at 0 dB without the duck. -/
structure DstSet.Direct (q : DstSet) (r : Nat) : Prop where
  routed : r ≠ 0xFFFF
  srcs : q.srcs = r :: List.replicate 7 0xFFFF
  termGain : q.gains.getD 0 0 = 0
  gain : q.gain = 0
  mask : q.mask.testBit 0 = false

theorem gainCoef_zero : gainCoef 0 = 2 ^ 24 := by decide +kernel

theorem Dev.retarget_unrouted (d : Dev) (n : Nat) {c : DstCtx} {q : DstSet} (hterms : c.terms = [])
    (hsrcs : q.srcs = List.replicate 8 0xFFFF) : d.retarget n c q = [] := by
  simp [Dev.retarget, hterms, hsrcs, List.range_succ, List.replicate]

theorem DstSet.Direct.want {q : DstSet} {r : Nat} (h : q.Direct r) :
    q.want 0 = some { gain := 0, ducked := false, depth := 0 } := by
  simp only [DstSet.want, h.termGain, h.gain, h.mask]
  rfl

/-- A settled route that stands is left as it is. -/
theorem Dev.retarget_settled (d : Dev) (n : Nat) {c : DstCtx} {q : DstSet} {r k : Nat} {start last : Int}
    (h : q.Direct r) (hterms : c.terms = [Term.settled r k (d.srcReturns r) start last]) :
    d.retarget n c q = c.terms := by
  simp [Dev.retarget, hterms, h.srcs, h.want, h.routed, Term.settled, List.range_succ, List.replicate]

theorem Dev.termCoef_settled (e : Env) (d : Dev) (n : Nat) (q : DstSet) (r k seen : Nat) (start last : Int) :
    d.termCoef e n q (Term.settled r k seen start last) = 2 ^ 24 := by
  simp [Dev.termCoef, Term.settled, clampInt, gainCoef_zero]

theorem Term.coef_settled (r k seen : Nat) (start last target : Int) :
    (Term.settled r k seen start last).coef target = target := if_neg (Nat.lt_irrefl k)

/-! ## The sample -/

section
variable (e : Env) (d : Dev) (n : Nat)

/-- A destination's sample is the saturated sum of its terms' samples, each by its coefficient, rounded (R257). -/
theorem Dev.mixSample_out : (d.mixSample e n).1 =
    saturate32 ((((d.duckMoves e n).retarget n ((d.duckMoves e n).dst n) (d.dstInForce e.now n)).map fun t =>
      (asInt 32 (d.srcSample e t.src) *
        t.coef ((d.duckMoves e n).termCoef e n (d.dstInForce e.now n) t) + 2 ^ 23) / 2 ^ 24).foldl (· + ·) 0) := by
  have hducks := d.duckMoves_ducks e n
  unfold Dev.mixSample
  simp only [hducks.dstInForce, hducks.writes.srcSample, List.map_map]
  rfl

/-- The sample formed stands in the destination's record. -/
theorem Dev.mixSample_dst_out : ((d.mixSample e n).2.dst n).out = (d.mixSample e n).1 :=
  congrArg DstCtx.out (Dev.putDst_dst_same _ _ _)

theorem Dev.mixSample_writesDsts : d.WritesDsts (d.mixSample e n).2 :=
  (d.duckMoves_ducks e n).writes.trans (Dev.putDst_writesDsts _ _ _)

variable {n}

theorem Dev.duckMoves_terms : ((d.duckMoves e n).dst n).terms = (d.dst n).terms := by
  obtain ⟨gain, tick, hdst⟩ := (d.duckMoves_ducks e n).dst
  rw [hdst]

/-- An unrouted destination is silent (R257). -/
theorem Dev.mixSample_unrouted (hsrcs : (d.dstInForce e.now n).srcs = List.replicate 8 0xFFFF)
    (hterms : (d.dst n).terms = []) : (d.mixSample e n).1 = 0 := by
  rw [d.mixSample_out, Dev.retarget_unrouted _ _ ((d.duckMoves_terms e).trans hterms) hsrcs]
  exact (by decide : saturate32 0 = 0)

/-- One whose one route has settled at 0 dB carries its source's sample (R257). -/
theorem Dev.mixSample_settled {r k : Nat} {start last : Int} (h : (d.dstInForce e.now n).Direct r)
    (hterms : (d.dst n).terms = [Term.settled r k (d.srcReturns r) start last]) :
    (d.mixSample e n).1 = saturate32 (asInt 32 (d.srcSample e r)) := by
  have hthere : ((d.duckMoves e n).dst n).terms = [Term.settled r k ((d.duckMoves e n).srcReturns r) start last] := by
    rw [d.duckMoves_terms, hterms, (d.duckMoves_ducks e n).writes.srcReturns]
  have hround (v : Int) : (v * 2 ^ 24 + 2 ^ 23) / 2 ^ 24 = v := by omega
  rw [d.mixSample_out, Dev.retarget_settled _ _ h hthere, hthere, List.map_singleton, List.foldl_cons, List.foldl_nil,
    Term.coef_settled, Dev.termCoef_settled, hround, Int.zero_add]
  rfl

end

end Sys2Proof.Machine
end

section
/-!
Where a destination's sample goes (R245, R263, R264): to an ASRC channel, into the packet in progress of a send flow, or to
a head. None of them changes what the destination formed.
-/

namespace Sys2Proof.Machine

/-! ## ASRC channels (R245) -/

/-- A table whose entries are changed one by one, their keys kept. -/
theorem Tab.find_map {α : Type} (t : Tab α) (f : Nat × α → Nat × α) (hf : ∀ p, (f p).1 = p.1) (x : Nat) :
    Tab.find (t.map f) x = (t.find x).map fun v => (f (x, v)).2 := by
  induction t with
  | nil => rfl
  | cons p t ih =>
    obtain ⟨k, w⟩ := p
    have hcons : Tab.find (List.map f ((k, w) :: t)) x = if x = k then some (f (k, w)).2 else Tab.find (t.map f) x := by
      have hkey := hf (k, w)
      exact (show Tab.find (f (k, w) :: t.map f) x = if x = (f (k, w)).1 then _ else _ from rfl).trans (by rw [hkey])
    by_cases hx : x = k
    · subst hx
      rw [hcons, if_pos rfl, Tab.find, if_pos rfl, Option.map_some]
    · rw [hcons, if_neg hx, ih, Tab.find, if_neg hx]

theorem Dev.srcPut_posts (now : Nat) (d : Dev) (n v : Nat) : (d.srcPut now n v).posts = d.posts := rfl

/-- A source's sample raises the peaks of keys only. -/
theorem Dev.srcPut_dst_out (now : Nat) (d : Dev) (n v k : Nat) : ((d.srcPut now n v).dst k).out = (d.dst k).out := by
  unfold Dev.srcPut Dev.dst Tab.getD
  dsimp only
  rw [Tab.find_map _ _ (fun p => by split <;> rfl)]
  cases d.audio.dsts.find k with
  | none => rfl
  | some c =>
    dsimp only [Option.map_some]
    split <;> rfl

theorem Dev.asrcFeed_unlocked (now : Nat) (d : Dev) {n : Nat} (h : d.g .asrcState n ≠ 2) :
    d.asrcFeed now n = d.srcPut now (768 + n) 0 := if_neg h

theorem Dev.asrcFeed_out (now : Nat) (d : Dev) (n k : Nat) : ((d.asrcFeed now n).dst k).out = (d.dst k).out := by
  unfold Dev.asrcFeed
  split <;> exact Dev.srcPut_dst_out _ _ _ _ _

theorem Dev.asrcFeed_objs (now : Nat) (d : Dev) (n : Nat) : (d.asrcFeed now n).objs = d.objs := by
  unfold Dev.asrcFeed
  split <;> rfl

/-! ## Heads (R264) -/

theorem Dev.headFeed_dst (d : Dev) (h ch out k : Nat) : (d.headFeed h ch out).dst k = d.dst k := rfl

/-- A channel's sample is sent, cut to `head_aud_depth`, or discarded (R264). -/
theorem Dev.headFeed_find (d : Dev) (h ch out : Nat) : ((d.headFeed h ch out).head h).audio.find ch =
    if d.g .headState h = 3 ∧ (d.head h).video = true ∧ ch < d.g .headAudCh h
    then some (out / 2 ^ (32 - d.g .headAudDepth h)) else none := by
  have hhead : (d.headFeed h ch out).head h = _ := Tab.getD_put_same d.io.heads h _ {}
  rw [hhead]
  by_cases hsent : d.g .headState h = 3 ∧ (d.head h).video = true ∧ ch < d.g .headAudCh h
  · simp [hsent, headActive]
  · have hnot : (d.g .headState h == headActive && (d.head h).video && decide (ch < d.g .headAudCh h)) = false := by
      simpa [headActive, and_assoc] using hsent
    simp [hsent, hnot]

/-! ## Send flows (R263) -/

/-- Send flow `f` is enabled, and network channel `ch` is its last. -/
def Dev.Sends (d : Dev) (ch f : Nat) : Prop := d.on .nsEnable f = true ∧ d.g .nsFirst f + d.g .nsChannels f = ch + 1

theorem Dev.sends_iff (d : Dev) (ch f : Nat) :
    (d.on .nsEnable f && d.g .nsFirst f + d.g .nsChannels f == ch + 1) = true ↔ d.Sends ch f := by
  rw [Bool.and_eq_true, beq_iff_eq]
  rfl

theorem Dev.WritesDsts.sends {d d' : Dev} (h : d.WritesDsts d') (ch f : Nat) : d'.Sends ch f = d.Sends ch f := by
  rw [Dev.Sends, Dev.on, h.objs _ _ (by decide), h.objs _ _ (by decide), h.objs _ _ (by decide)]
  rfl

/-- The samples of a send flow's channels at an instant, cut to its encoding. -/
def Dev.flowLine (d : Dev) (f : Nat) : List Nat :=
  let cut := if d.g .nsEncoding f = 0 then 2 ^ 16 else 2 ^ 8
  (List.range (d.g .nsChannels f)).map fun i => (d.dst (512 + d.g .nsFirst f + i)).out / cut * cut

/-- A send flow's part of MIX_SAMPLE: the packet its sample completes is handed to the MAC. -/
def Dev.sendSample (e : Env) (d : Dev) (ch : Nat) : Dev :=
  match d.sendFeed e ch with
  | (some (f, body), d) => d.handOver (d.g .nsMac f) 2 { bytes := d.flowFrameLen f + 20, body := body }
      (d.reachable (d.g .nsMac f) (d.g .nsDstIp f))
  | (none, d) => d

theorem Dev.handOver_audio (d : Dev) (m q : Nat) (x : TxFrame) (resolved : Bool) :
    (d.handOver m q x resolved).audio = d.audio := by
  unfold Dev.handOver
  split
  · rfl
  split <;> rfl

theorem Dev.handOver_late (d : Dev) (m q : Nat) (x : TxFrame) (resolved : Bool) :
    ∀ l ∈ d.late, l ∈ (d.handOver m q x resolved).late := by
  intro l hl
  unfold Dev.handOver
  split
  · exact List.mem_append_left _ hl
  split
  · exact List.mem_append_left _ (List.mem_append_left _ hl)
  · exact hl

/-- The block with another record of a send flow. -/
def Dev.putSend (d : Dev) (f : Nat) (c : SendCtx) : Dev :=
  { d with audio := { d.audio with sends := d.audio.sends.put f c } }

@[simp] theorem Dev.putSend_send (d : Dev) (f : Nat) (c : SendCtx) : (d.putSend f c).audio.sends.getD f {} = c :=
  Tab.getD_put_same _ _ _ _

section
variable (e : Env) (d : Dev) {ch f : Nat}

theorem Dev.sendFeed_none (h : ∀ f, f < 64 → ¬d.Sends ch f) : d.sendFeed e ch = (none, d) := by
  have hfind : ((List.range 64).find? fun f => d.on .nsEnable f && d.g .nsFirst f + d.g .nsChannels f == ch + 1) = none :=
    List.find?_eq_none.mpr fun f hf hsends => h f (List.mem_range.mp hf) ((d.sends_iff ch f).mp hsends)
  unfold Dev.sendFeed
  rw [hfind]

section
variable (hf : f < 64) (h : d.Sends ch f) (hfirst : ∀ k, k < f → ¬d.Sends ch k)
include hf h hfirst

theorem Dev.find_sendFlow :
    ((List.range 64).find? fun f => d.on .nsEnable f && d.g .nsFirst f + d.g .nsChannels f == ch + 1) = some f := by
  refine List.find?_range_eq_some.mpr ⟨(d.sends_iff ch f).mpr h, List.mem_range.mpr hf, fun k hk => ?_⟩
  rw [Bool.not_eq_true']
  exact Bool.eq_false_iff.mpr fun hsends => hfirst k hk ((d.sends_iff ch k).mp hsends)

theorem Dev.sendFeed_part (hpart : (d.audio.sends.getD f {}).samples.length + 1 < d.g .nsPacketSamples f) :
    ∃ ts, d.sendFeed e ch = (none, d.putSend f { d.audio.sends.getD f {} with
      ts := ts, samples := (d.audio.sends.getD f {}).samples ++ [d.flowLine f] }) := by
  unfold Dev.sendFeed
  rw [d.find_sendFlow hf h hfirst]
  dsimp only
  rw [List.length_append, List.length_singleton, if_neg (Nat.not_le.mpr hpart), if_neg (Nat.not_le.mpr hpart)]
  exact ⟨_, rfl⟩

theorem Dev.sendFeed_full (hfull : d.g .nsPacketSamples f ≤ (d.audio.sends.getD f {}).samples.length + 1) :
    ∃ body, d.sendFeed e ch =
      (some (f, body), (d.putSend f { seq := ((d.audio.sends.getD f {}).seq + 1) % 2 ^ 16 }).count .nsPkts f) := by
  unfold Dev.sendFeed
  rw [d.find_sendFlow hf h hfirst]
  dsimp only
  rw [List.length_append, List.length_singleton, if_pos hfull, if_pos hfull]
  exact ⟨_, rfl⟩

end

end

/-! ## A sample sent -/

/-- What a send flow makes of its last channel's sample: it joins the packet in progress, or completes it and the next one
starts (R263). -/
structure Dev.Gathers (f : Nat) (d d' : Dev) : Prop where
  dst : ∀ k, d'.dst k = d.dst k
  part : (d.audio.sends.getD f {}).samples.length + 1 < d.g .nsPacketSamples f →
    (d'.audio.sends.getD f {}).seq = (d.audio.sends.getD f {}).seq ∧
    (d'.audio.sends.getD f {}).samples = (d.audio.sends.getD f {}).samples ++ [d.flowLine f]
  full : d.g .nsPacketSamples f ≤ (d.audio.sends.getD f {}).samples.length + 1 → Late.add .nsPkts f 1 ∈ d'.late ∧
    d'.audio.sends.getD f {} = { seq := ((d.audio.sends.getD f {}).seq + 1) % 2 ^ 16 }

/-- The same said of the block `d` before its destination formed the sample that `x` holds. -/
theorem Dev.Gathers.before {f : Nat} {d x d' : Dev} (h : x.Gathers f d') (hwrites : d.WritesDsts x) :
    let c := d.audio.sends.getD f {}
    let cut := if d.g .nsEncoding f = 0 then 2 ^ 16 else 2 ^ 8
    let line := (List.range (d.g .nsChannels f)).map fun i => (x.dst (512 + d.g .nsFirst f + i)).out / cut * cut
    (c.samples.length + 1 < d.g .nsPacketSamples f → (d'.audio.sends.getD f {}).seq = c.seq ∧
      (d'.audio.sends.getD f {}).samples = c.samples ++ [line]) ∧
    (d.g .nsPacketSamples f ≤ c.samples.length + 1 → Late.add .nsPkts f 1 ∈ d'.late ∧
      d'.audio.sends.getD f {} = { seq := (c.seq + 1) % 2 ^ 16 }) := by
  obtain ⟨-, hpart, hfull⟩ := h
  simp (disch := decide) only [Dev.flowLine, hwrites.send, hwrites.objs] at hpart hfull
  exact ⟨hpart, hfull⟩

theorem Dev.sendSample_none (e : Env) (d : Dev) {ch : Nat} (h : ∀ f, f < 64 → ¬d.Sends ch f) : d.sendSample e ch = d := by
  unfold Dev.sendSample
  rw [d.sendFeed_none e h]

theorem Dev.sendSample_gathers (e : Env) (d : Dev) {ch f : Nat} (hf : f < 64) (h : d.Sends ch f)
    (hfirst : ∀ k, k < f → ¬d.Sends ch k) : d.Gathers f (d.sendSample e ch) := by
  unfold Dev.sendSample
  rcases Nat.lt_or_ge ((d.audio.sends.getD f {}).samples.length + 1) (d.g .nsPacketSamples f) with hlt | hge
  · obtain ⟨ts, heq⟩ := d.sendFeed_part e hf h hfirst hlt
    rw [heq]
    exact ⟨fun _ => rfl, fun _ => by simp, fun hfull => absurd hlt (Nat.not_lt.mpr hfull)⟩
  · obtain ⟨body, heq⟩ := d.sendFeed_full e hf h hfirst hge
    rw [heq]
    dsimp only
    refine ⟨fun k => ?_, fun hpart => absurd hpart (Nat.not_lt.mpr hge), fun _ => ⟨?_, ?_⟩⟩
    · unfold Dev.dst
      rw [Dev.handOver_audio]
      rfl
    · exact Dev.handOver_late _ _ _ _ _ _ (List.mem_append_right _ List.mem_cons_self)
    · rw [Dev.handOver_audio]
      exact Dev.putSend_send _ _ _

/-- No flow sends the channel, or one of the lowest number does. -/
theorem Dev.sends_cases (d : Dev) (ch : Nat) : (∀ f, f < 64 → ¬d.Sends ch f) ∨
    ∃ f, f < 64 ∧ d.Sends ch f ∧ ∀ k, k < f → ¬d.Sends ch k := by
  cases hfind : (List.range 64).find? fun f => d.on .nsEnable f && d.g .nsFirst f + d.g .nsChannels f == ch + 1 with
  | none => exact .inl fun f hf hs => List.find?_eq_none.mp hfind f (List.mem_range.mpr hf) ((d.sends_iff ch f).mpr hs)
  | some f =>
    obtain ⟨hsends, hmem, hfirst⟩ := List.find?_range_eq_some.mp hfind
    refine .inr ⟨f, List.mem_range.mp hmem, (d.sends_iff ch f).mp hsends, fun k hk hs => ?_⟩
    have hnot := hfirst k hk
    rw [(d.sends_iff ch k).mpr hs] at hnot
    exact Bool.noConfusion hnot

theorem Dev.sendSample_dst (e : Env) (d : Dev) (ch k : Nat) : (d.sendSample e ch).dst k = d.dst k := by
  rcases d.sends_cases ch with h | ⟨f, hf, h, hfirst⟩
  · rw [d.sendSample_none e h]
  · exact (d.sendSample_gathers e hf h hfirst).dst k

end Sys2Proof.Machine
end

section
/-!
SUPPORT. Receive flows and embedding slots at their decision points, and flows that fall silent (R261, R262).
-/

namespace Sys2Proof.Machine

/-! ## Which flow or slot a source is of -/

theorem Dev.unitOf_flow (d : Dev) {n f : Nat} (hlo : 512 ≤ n) (hhi : n < 768) (hflow : d.recvFlow (n - 512) = some f)
    (hon : d.on .nrEnable f = true) (hstate : d.g .nrState f = 2) :
    d.unitOf n = some (f, n - 512 - d.g .nrFirst f) := by
  rw [Dev.unitOf, if_pos ⟨hlo, hhi⟩, hflow, Option.filter_some, hon, hstate]
  rfl

theorem Dev.unitOf_slot (d : Dev) {n : Nat} (hlo : 896 ≤ n) (hhi : n < 960) :
    d.unitOf n = some (0x80 + (n - 896) / 8, n % 8) := by
  rw [Dev.unitOf, if_neg (by omega), if_pos ⟨hlo, hhi⟩]

/-! ## Missing samples (R261) -/

@[simp] theorem Dev.putFlow_flow_same (d : Dev) (f : Nat) (c : FlowCtx) : (d.putFlow f c).flow f = c :=
  Tab.getD_put_same _ _ _ _

/-- The block once a flow or slot is in a gap. -/
def Dev.inGap (d : Dev) (u : Nat) : Dev := d.putFlow u { d.flow u with gap := true, missed := true }

@[simp] theorem Dev.inGap_flow (d : Dev) (u : Nat) :
    (d.inGap u).flow u = { d.flow u with gap := true, missed := true } := d.putFlow_flow_same _ _

section
variable (e : Env) (d : Dev) {n u ch : Nat}

theorem Dev.sampleMissing_noUnit (hunit : d.unitOf n = none) : d.sampleMissing e n = d := by
  rw [Dev.sampleMissing, hunit]

section
variable (hunit : d.unitOf n = some (u, ch))
include hunit

theorem Dev.sampleMissing_held (hheld : d.heldSample u (d.playing e u + 32) ≠ none) : d.sampleMissing e n = d := by
  rw [Dev.sampleMissing, hunit]
  exact if_pos (Option.isSome_iff_ne_none.mpr hheld)

variable (hmissing : d.heldSample u (d.playing e u + 32) = none)
include hmissing

theorem Dev.sampleMissing_slot (hslot : 0x80 ≤ u) : d.sampleMissing e n = d.inGap u := by
  simp only [Dev.sampleMissing, hunit, hmissing, Option.isSome_none, Bool.false_eq_true, if_false,
    if_neg (Nat.not_lt.mpr hslot)]
  rfl

variable (hflow : u < 0x80)
include hflow

/-- A sample of the gap already counted. -/
theorem Dev.sampleMissing_oldGap (hgap : (d.flow u).gap = true)
    (hbefore : d.heldSample u (d.playing e u + 32 - 1) = none) : d.sampleMissing e n = d.inGap u := by
  simp only [Dev.sampleMissing, hunit, hmissing, Option.isSome_none, Bool.false_eq_true, if_false, if_pos hflow, hgap,
    hbefore, Bool.not_true, Bool.or_self]
  rfl

/-- The first sample of a gap counts an underrun. -/
theorem Dev.sampleMissing_newGap
    (hnew : ¬((d.flow u).gap = true ∧ d.heldSample u (d.playing e u + 32 - 1) = none)) :
    d.sampleMissing e n = ((d.inGap u).count .nrUnderruns u).flag .nrEventFlags u 1 := by
  have hfirst : ((d.heldSample u (d.playing e u + 32 - 1)).isSome || !(d.flow u).gap) = true := by
    rw [Bool.or_eq_true, Option.isSome_iff_ne_none, Bool.not_eq_true']
    by_cases hgap : (d.flow u).gap = true
    · exact .inl fun hbefore => hnew ⟨hgap, hbefore⟩
    · exact .inr (Bool.eq_false_iff.mpr hgap)
  simp only [Dev.sampleMissing, hunit, hmissing, Option.isSome_none, Bool.false_eq_true, if_false, if_pos hflow, hfirst,
    if_true]
  rfl

/-- What a flow's missing sample leaves: a gap counts one underrun, with bit 1 (R261). -/
theorem Dev.sampleMissing_flow :
    ((d.sampleMissing e n).flow u).gap = true ∧ ((d.sampleMissing e n).flow u).missed = true ∧
    ((d.flow u).gap = true ∧ d.heldSample u (d.playing e u + 32 - 1) = none → (d.sampleMissing e n).late = d.late) ∧
    (¬((d.flow u).gap = true ∧ d.heldSample u (d.playing e u + 32 - 1) = none) →
      Late.add .nrUnderruns u 1 ∈ (d.sampleMissing e n).late ∧
      Late.flag .nrEventFlags u 2 ∈ (d.sampleMissing e n).late) := by
  have hgap := congrArg FlowCtx.gap (d.inGap_flow u)
  have hmissed := congrArg FlowCtx.missed (d.inGap_flow u)
  by_cases hold : (d.flow u).gap = true ∧ d.heldSample u (d.playing e u + 32 - 1) = none
  · rw [d.sampleMissing_oldGap e hunit hmissing hflow hold.1 hold.2]
    exact ⟨hgap, hmissed, fun _ => rfl, fun hnew => absurd hold hnew⟩
  · rw [d.sampleMissing_newGap e hunit hmissing hflow hold]
    exact ⟨hgap, hmissed, fun h => absurd h hold, fun _ =>
      ⟨List.mem_append_left _ (List.mem_append_right _ List.mem_cons_self), List.mem_append_right _ List.mem_cons_self⟩⟩

end

end

/-! ## Silent flows (R262) -/

theorem Dev.flowLoss_silent (e : Env) (d : Dev) {f : Nat} (hstate : d.g .nrState f = 2)
    (hsilent : (d.flow f).last + 80000 ≤ e.now) :
    d.flowLoss e f = (d.put .nrState f 3).flag .nrEventFlags f 0 := by
  rw [Dev.flowLoss, if_pos ⟨hstate, hsilent⟩, Dev.setFlow, if_neg (by omega)]
  exact if_neg (by decide)

/-- A flow declared LOST (R262). -/
theorem Dev.flowLoss_leaves (e : Env) (d : Dev) {f : Nat} (hstate : d.g .nrState f = 2)
    (hsilent : (d.flow f).last + 80000 ≤ e.now) : (d.flowLoss e f).g .nrState f = 3 ∧
      Late.flag .nrEventFlags f 1 ∈ (d.flowLoss e f).late ∧ (d.flowLoss e f).audio = d.audio := by
  rw [d.flowLoss_silent e hstate hsilent]
  exact ⟨d.g_put_of_lt .nrState f 3 (by decide), List.mem_append_right _ List.mem_cons_self, rfl⟩

theorem Dev.flowLoss_otherwise (e : Env) (d : Dev) {f : Nat}
    (h : ¬(d.g .nrState f = 2 ∧ (d.flow f).last + 80000 ≤ e.now)) : d.flowLoss e f = d := if_neg h

end Sys2Proof.Machine
end

section
/-!
The audio matrix (O45): MIX_SAMPLE, DUCK_BLOCK, SAMPLE_MISSING and FLOW_LOSS as commands, and the statement.
-/

namespace Sys2Proof.Machine

/-! ## Running an effect -/

@[simp] theorem State.run_dst (s : State) (f : Env → Dev → Dev) (n : Nat) :
    (s.run f).dev.dst n = (f s.env s.dev).dst n := rfl

@[simp] theorem State.run_head (s : State) (f : Env → Dev → Dev) (h : Nat) :
    (s.run f).dev.head h = (f s.env s.dev).head h := rfl

@[simp] theorem State.run_audio (s : State) (f : Env → Dev → Dev) : (s.run f).dev.audio = (f s.env s.dev).audio := rfl

/-- Running an effect, by what it makes of the block. -/
theorem State.run_eq (s : State) (f : Env → Dev → Dev) (d : Dev) (h : f s.env s.dev = d) :
    s.run f = s.run fun _ _ => d := by
  subst h
  rfl

/-! ## The commands -/

/-- Where a destination's sample goes (R245, R263, R264). -/
def Dev.feedSample (e : Env) (d : Dev) (n out : Nat) : Dev :=
  if 768 ≤ n ∧ n < 896 then d.asrcFeed e.now (n - 768)
  else if 512 ≤ n ∧ n < 768 then d.sendSample e (n - 512)
  else if 896 ≤ n ∧ n < 960 then d.headFeed ((n - 896) / 8) (n % 8) out
  else d

theorem exec_mixSample (n : Nat) (s : State) : exec (.mixSample n) s =
    s.running 9 fun e d => (d.mixSample e n).2.feedSample e n (d.mixSample e n).1 := by
  refine congrArg (State.running s 9) (funext fun e => funext fun d => ?_)
  generalize d.mixSample e n = x
  rfl

theorem exec_duckBlock (n : Nat) (s : State) : exec (.duckBlock n) s = s.running 9 fun e d => d.duckBlock e n := rfl

theorem exec_sampleMissing (n : Nat) (s : State) : exec (.sampleMissing n) s =
    s.running 9 fun e d => d.sampleMissing e n := rfl

/-- FLOW_LOSS in a state that has come to its place in rank 5. -/
def State.losesFlow (s : State) (f : Nat) : Out := s.running 5 fun e d => d.flowLoss e f

theorem exec_flowLoss (f : Nat) (s : State) : exec (.flowLoss f) s = (s.ordered 5 0x0E0).losesFlow f := rfl

/-! ## MIX_SAMPLE -/

section
variable (e : Env) (d : Dev) (n out : Nat)

theorem Dev.feedSample_asrc (hlo : 768 ≤ n) (hhi : n < 896) : d.feedSample e n out = d.asrcFeed e.now (n - 768) :=
  if_pos ⟨hlo, hhi⟩

theorem Dev.feedSample_send (hlo : 512 ≤ n) (hhi : n < 768) : d.feedSample e n out = d.sendSample e (n - 512) := by
  rw [Dev.feedSample, if_neg (by omega), if_pos ⟨hlo, hhi⟩]

theorem Dev.feedSample_head (hlo : 896 ≤ n) (hhi : n < 960) :
    d.feedSample e n out = d.headFeed ((n - 896) / 8) (n % 8) out := by
  rw [Dev.feedSample, if_neg (by omega), if_neg (by omega), if_pos ⟨hlo, hhi⟩]

theorem Dev.feedSample_other (h : n < 512 ∨ 960 ≤ n) : d.feedSample e n out = d := by
  rw [Dev.feedSample, if_neg (by omega), if_neg (by omega), if_neg (by omega)]

/-- Wherever it goes, the destination keeps the sample it formed. -/
theorem Dev.feedSample_out (k : Nat) : ((d.feedSample e n out).dst k).out = (d.dst k).out := by
  unfold Dev.feedSample
  split
  · exact d.asrcFeed_out _ _ _
  split
  · rw [d.sendSample_dst]
  split <;> rfl

end

/-- The block once destination `n` has formed its sample at rank 9, before the sample goes anywhere. -/
def State.mixed (s : State) (n : Nat) : Dev := ((s.enter 9).dev.mixSample (s.enter 9).env n).2

theorem State.mixed_writesDsts (s : State) (n : Nat) : (s.enter 9).dev.WritesDsts (s.mixed n) :=
  Dev.mixSample_writesDsts _ _ _

/-- The block that MIX_SAMPLE leaves. -/
def State.fed (s : State) (n : Nat) : Dev := (s.mixed n).feedSample (s.enter 9).env n ((s.mixed n).dst n).out

theorem State.fed_eq (s : State) (n : Nat) : ((s.enter 9).dev.mixSample (s.enter 9).env n).2.feedSample (s.enter 9).env n
    ((s.enter 9).dev.mixSample (s.enter 9).env n).1 = s.fed n := by
  rw [← Dev.mixSample_dst_out]
  rfl

section
variable (s : State) (n : Nat) (hs : s.Running 9)
include hs

theorem exec_mixSample_next : exec (.mixSample n) s = .next ((s.enter 9).run fun _ _ => s.fed n) := by
  rw [exec_mixSample, s.running_run 9 _ hs]
  exact congrArg Host.Outcome.next (State.run_eq _ _ _ (s.fed_eq n))

theorem exec_mixSample_become {x : Dev} (hfed : s.fed n = x) (hposts : x.posts = (s.mixed n).posts) :
    exec (.mixSample n) s = .next ((s.enter 9).become x) := by
  rw [exec_mixSample]
  exact s.running_become 9 _ x hs ((s.fed_eq n).trans hfed)
    (hposts.trans ((s.mixed_writesDsts n).posts.trans (s.enter_posts 9)))

theorem mixSample_other (h : n < 512 ∨ 960 ≤ n) : exec (.mixSample n) s = .next ((s.enter 9).become (s.mixed n)) :=
  exec_mixSample_become s n hs (Dev.feedSample_other _ _ _ _ h) rfl

/-- A sample for an ASRC channel that is not LOCKED (R245). -/
theorem mixSample_asrc_unlocked (hlo : 768 ≤ n) (hhi : n < 896) (hstate : (s.enter 9).dev.g .asrcState (n - 768) ≠ 2) :
    exec (.mixSample n) s = .next ((s.enter 9).become ((s.mixed n).srcPut (s.enter 9).clk.elapsed n 0)) := by
  have hmixed : (s.mixed n).g .asrcState (n - 768) ≠ 2 := by rwa [(s.mixed_writesDsts n).objs _ _ (by decide)]
  refine exec_mixSample_become s n hs ?_ (Dev.srcPut_posts _ _ _ _)
  rw [State.fed, Dev.feedSample_asrc _ _ _ _ hlo hhi, Dev.asrcFeed_unlocked _ _ hmixed, Nat.add_sub_cancel' hlo]
  rfl

theorem mixSample_asrc (hlo : 768 ≤ n) (hhi : n < 896) : ∃ t, exec (.mixSample n) s = .next t ∧
    (t.dev.dst n).out = ((s.mixed n).dst n).out ∧ t.dev.objs = (s.mixed n).objs := by
  refine ⟨_, exec_mixSample_next s n hs, Dev.feedSample_out _ _ _ _ _, ?_⟩
  exact (congrArg Dev.objs (Dev.feedSample_asrc _ _ _ _ hlo hhi)).trans (Dev.asrcFeed_objs _ _ _)

/-- A sample for a head (R264). -/
theorem mixSample_head (hlo : 896 ≤ n) (hhi : n < 960) : ∃ t, exec (.mixSample n) s = .next t ∧
    t.dev.dst n = (s.mixed n).dst n ∧ (t.dev.head ((n - 896) / 8)).audio.find (n % 8) =
      if (s.enter 9).dev.g .headState ((n - 896) / 8) = headActive ∧ ((s.enter 9).dev.head ((n - 896) / 8)).video = true ∧
        n % 8 < (s.enter 9).dev.g .headAudCh ((n - 896) / 8)
      then some (((s.mixed n).dst n).out / 2 ^ (32 - (s.enter 9).dev.g .headAudDepth ((n - 896) / 8))) else none := by
  have hwrites := s.mixed_writesDsts n
  have hfed : s.fed n = _ := Dev.feedSample_head (s.enter 9).env (s.mixed n) n ((s.mixed n).dst n).out hlo hhi
  have hfind := (s.mixed n).headFeed_find ((n - 896) / 8) (n % 8) ((s.mixed n).dst n).out
  rw [hwrites.objs _ _ (by decide), hwrites.objs _ _ (by decide), hwrites.objs _ _ (by decide), hwrites.head] at hfind
  refine ⟨_, exec_mixSample_next s n hs, ?_, ?_⟩
  · rw [State.run_dst, hfed, Dev.headFeed_dst]
  · rw [State.run_head, hfed, hfind]
    rfl

/-- A sample that no send flow waits for (R263). -/
theorem mixSample_unsent (hlo : 512 ≤ n) (hhi : n < 768) (h : ∀ f, f < 64 → ¬(s.enter 9).dev.Sends (n - 512) f) :
    exec (.mixSample n) s = .next ((s.enter 9).become (s.mixed n)) := by
  refine exec_mixSample_become s n hs ?_ rfl
  rw [State.fed, Dev.feedSample_send _ _ _ _ hlo hhi]
  refine Dev.sendSample_none _ _ fun f hf => ?_
  rw [(s.mixed_writesDsts n).sends]
  exact h f hf

/-- The sample of a send flow's last channel (R263). -/
theorem mixSample_sent (hlo : 512 ≤ n) (hhi : n < 768) {f : Nat} (hf : f < 64)
    (h : (s.enter 9).dev.Sends (n - 512) f) (hfirst : ∀ k, k < f → ¬(s.enter 9).dev.Sends (n - 512) k) :
    ∃ t, exec (.mixSample n) s = .next t ∧ (s.mixed n).Gathers f t.dev := by
  have hgathers : (s.mixed n).Gathers f ((s.mixed n).sendSample (s.enter 9).env (n - 512)) :=
    Dev.sendSample_gathers _ _ hf (by rwa [(s.mixed_writesDsts n).sends])
      fun k hk => by rw [(s.mixed_writesDsts n).sends]; exact hfirst k hk
  rw [← Dev.feedSample_send _ _ _ ((s.mixed n).dst n).out hlo hhi] at hgathers
  exact ⟨_, exec_mixSample_next s n hs, hgathers.dst, hgathers.part, hgathers.full⟩

theorem mixSample_out : ∃ t, exec (.mixSample n) s = .next t ∧
    (t.dev.dst n).out = ((s.enter 9).dev.mixSample (s.enter 9).env n).1 :=
  ⟨_, exec_mixSample_next s n hs, (Dev.feedSample_out _ _ _ _ _).trans (Dev.mixSample_dst_out _ _ _)⟩

end

/-! ## DUCK_BLOCK -/

/-- DUCK_BLOCK changes the block alone. -/
theorem duckBlock_next (s : State) (n : Nat) (hs : s.Running 9) : ∃ t, exec (.duckBlock n) s = .next t ∧
    t.clk = (s.enter 9).clk ∧ t.mem = (s.enter 9).mem ∧ t.dev = (s.enter 9).dev.duckBlock (s.enter 9).env n := by
  rw [exec_duckBlock]
  exact ⟨_, s.running_become 9 _ _ hs rfl ((Dev.duckBlock_writesDsts _ _ _).posts.trans (s.enter_posts 9)), rfl, rfl, rfl⟩

/-! ## SAMPLE_MISSING -/

section
variable (s : State) (n : Nat) (hs : s.Running 9)
include hs

theorem sampleMissing_next : exec (.sampleMissing n) s = .next ((s.enter 9).run fun e d => d.sampleMissing e n) := by
  rw [exec_sampleMissing, s.running_run 9 _ hs]

theorem sampleMissing_become {x : Dev} (h : (s.enter 9).dev.sampleMissing (s.enter 9).env n = x)
    (hposts : x.posts = (s.enter 9).dev.posts) : exec (.sampleMissing n) s = .next ((s.enter 9).become x) := by
  rw [exec_sampleMissing]
  exact s.running_become 9 _ x hs h (hposts.trans (s.enter_posts 9))

theorem sampleMissing_noUnit (h : (s.enter 9).dev.unitOf n = none) : exec (.sampleMissing n) s = .next (s.enter 9) :=
  sampleMissing_become s n hs (Dev.sampleMissing_noUnit _ _ h) rfl

section
variable {u ch : Nat} (hunit : (s.enter 9).dev.unitOf n = some (u, ch))
include hunit

theorem sampleMissing_held
    (hheld : (s.enter 9).dev.heldSample u ((s.enter 9).dev.playing (s.enter 9).env u + 32) ≠ none) :
    exec (.sampleMissing n) s = .next (s.enter 9) :=
  sampleMissing_become s n hs (Dev.sampleMissing_held _ _ hunit hheld) rfl

variable (hmissing : (s.enter 9).dev.heldSample u ((s.enter 9).dev.playing (s.enter 9).env u + 32) = none)
include hmissing

theorem sampleMissing_slot (hslot : 0x80 ≤ u) : ∃ t, exec (.sampleMissing n) s = .next t ∧
    (t.dev.flow u).missed = true ∧ t.dev.late = (s.enter 9).dev.late := by
  refine ⟨_, sampleMissing_become s n hs (Dev.sampleMissing_slot _ _ hunit hmissing hslot) rfl, ?_, rfl⟩
  exact congrArg FlowCtx.missed (Dev.inGap_flow _ _)

end

end

/-! ## FLOW_LOSS -/

section
variable (s : State) (f : Nat) (hs : s.Running 5)
include hs

theorem State.losesFlow_silent (hstate : (s.enter 5).dev.g .nrState f = 2)
    (hsilent : ((s.enter 5).dev.flow f).last + 80000 ≤ (s.enter 5).clk.elapsed) :
    ∃ t, s.losesFlow f = .next t ∧ t.dev.g .nrState f = 3 ∧ Late.flag .nrEventFlags f 1 ∈ t.dev.late ∧
      t.dev.audio = (s.enter 5).dev.audio := by
  refine ⟨_, s.running_run 5 _ hs, ?_⟩
  rw [State.run_g, State.run_late, State.run_audio]
  exact Dev.flowLoss_leaves (s.enter 5).env _ hstate hsilent

theorem State.losesFlow_otherwise (h : ¬((s.enter 5).dev.g .nrState f = 2 ∧
      ((s.enter 5).dev.flow f).last + 80000 ≤ (s.enter 5).clk.elapsed)) : s.losesFlow f = .next (s.enter 5) :=
  s.running_id 5 _ hs (Dev.flowLoss_otherwise _ _ h)

end

/-! ## The statement -/

/-- Settles O45: a lemma above for each event and each place a sample goes; the duck's moves are `Dev.duckBlock_state`. -/
theorem audioMixesDucksAndPlays : Obligations.AudioMixesDucksAndPlays := by
  refine ⟨fun s hs => ⟨fun n => ⟨mixSample_other s n hs, mixSample_asrc_unlocked s n hs,
    fun hlo hhi _ => mixSample_asrc s n hs hlo hhi, mixSample_head s n hs, ?_, mixSample_unsent s n hs, ?_, ?_⟩,
    fun n => ?_, ?_, ?_, fun n => sampleMissing_noUnit s n hs⟩, fun s f hs => ?_⟩
  · intro f hlo hhi hf hon hlast hfirst
    obtain ⟨t, hnext, hgathers⟩ := mixSample_sent s n hs hlo hhi hf ⟨hon, hlast⟩ hfirst
    obtain ⟨hpart, hfull⟩ := hgathers.before (s.mixed_writesDsts n)
    exact ⟨t, hnext, hgathers.dst n, hpart, hfull⟩
  · intro hsrcs hterms
    obtain ⟨t, hnext, hout⟩ := mixSample_out s n hs
    exact ⟨t, hnext, hout.trans (Dev.mixSample_unrouted _ _ hsrcs hterms)⟩
  · intro r k last start hr hsrcs hgain0 hgain hmask hterms
    obtain ⟨t, hnext, hout⟩ := mixSample_out s n hs
    exact ⟨t, hnext, hout.trans (Dev.mixSample_settled _ _ ⟨hr, hsrcs, hgain0, hgain, hmask⟩ hterms)⟩
  · obtain ⟨t, hnext, hclk, hmem, hdev⟩ := duckBlock_next s n hs
    obtain ⟨hpeak, hkeyPeak⟩ := (s.enter 9).dev.duckBlock_peaks (s.enter 9).env n
    refine ⟨t, hnext, hclk, hmem, ?_⟩
    rw [hdev]
    exact ⟨hpeak, hkeyPeak, fun k hk => Dev.duckBlock_dst_other _ _ _ hk,
      Dev.duckBlock_state_keyless (s.enter 9).env _ n, Dev.duckBlock_state (s.enter 9).env _ n⟩
  · intro n f hlo hhi hflow hon hstate hf
    have hunit := Dev.unitOf_flow _ hlo hhi hflow hon hstate
    exact ⟨sampleMissing_held s n hs hunit, fun hmissing =>
      ⟨_, sampleMissing_next s n hs, Dev.sampleMissing_flow (s.enter 9).env _ hunit hmissing (by omega)⟩⟩
  · intro n hlo hhi
    have hunit := Dev.unitOf_slot (s.enter 9).dev hlo hhi
    exact ⟨sampleMissing_held s n hs hunit, fun hmissing => sampleMissing_slot s n hs hunit hmissing (by omega)⟩
  · rw [exec_flowLoss]
    exact ⟨State.losesFlow_silent _ f hs, State.losesFlow_otherwise _ f hs⟩

end Sys2Proof.Machine
end

section
/-!
How a command of a Porter ring ends (R290, R297, R299). What `Dev.ptrClose` does is one statement (`Dev.Completes`), proved
in the stages of the definition: the record, the room a frame's command held, the flags, and the state the channel goes to.
What happens to the block before a command ends leaves the channels and their rings (`Dev.KeepsPorter`).
-/

namespace Sys2Proof.Machine

/-! ## Channels -/

@[simp] theorem Dev.putChan_chan_same (d : Dev) (k : Nat) (c : PtrChan) : (d.putChan k c).chan k = c :=
  Tab.getD_put_same _ _ _ _

theorem Dev.putChan_chan_other (d : Dev) {k m : Nat} (c : PtrChan) (h : m ≠ k) : (d.putChan k c).chan m = d.chan m :=
  Tab.getD_put_other _ _ _ _ _ h

/-! ## What leaves the channels and their rings -/

/-- The objects that say which ring a channel serves, what state it is in, and how its last command ended. -/
def porterObjs : List Obj := [.ptrRing, .ptrEnable, .ptrHalt, .ptrState, .ptrLastStatus]

/-- From `d` to `d'` every channel and every ring stands, nothing left for rank 9 is lost, and no byte write is posted. -/
structure Dev.KeepsPorter (d d' : Dev) : Prop where
  objs : ∀ o ∈ porterObjs, ∀ i, d'.g o i = d.g o i
  ptrs : d'.ptrs = d.ptrs
  rings : d'.rings = d.rings
  late : ∀ l ∈ d.late, l ∈ d'.late
  posts : d'.posts = d.posts

theorem Dev.KeepsPorter.refl (d : Dev) : d.KeepsPorter d := ⟨fun _ _ _ => rfl, rfl, rfl, fun _ h => h, rfl⟩

section
variable {a b c : Dev}

theorem Dev.KeepsPorter.trans (h : a.KeepsPorter b) (k : b.KeepsPorter c) : a.KeepsPorter c :=
  ⟨fun o ho i => (k.objs o ho i).trans (h.objs o ho i), k.ptrs.trans h.ptrs, k.rings.trans h.rings,
    fun l hl => k.late l (h.late l hl), k.posts.trans h.posts⟩

theorem Dev.KeepsPorter.ite (p : Prop) [Decidable p] (h : a.KeepsPorter b) (k : a.KeepsPorter c) :
    a.KeepsPorter (if p then b else c) := by
  split
  · exact h
  · exact k

theorem Dev.KeepsPorter.forEach (d : Dev) (ns : List Nat) (f : Dev → Nat → Dev) (h : ∀ (d : Dev) n, d.KeepsPorter (f d n)) :
    d.KeepsPorter (d.forEach ns f) := by
  unfold Dev.forEach
  induction ns generalizing d with
  | nil => exact .refl d
  | cons n ns ih => exact (h d n).trans (ih (f d n))

theorem Dev.KeepsPorter.chan (h : a.KeepsPorter b) (k : Nat) : b.chan k = a.chan k :=
  congrArg (fun t : Tab PtrChan => t.getD k {}) h.ptrs

theorem Dev.KeepsPorter.ring (h : a.KeepsPorter b) (r : Nat) : b.ring r = a.ring r :=
  congrArg (fun t : Tab Ring => t.getD r {}) h.rings

theorem Dev.KeepsPorter.on {o : Obj} (h : a.KeepsPorter b) (ho : o ∈ porterObjs) (i : Nat) : b.on o i = a.on o i :=
  congrArg (· != 0) (h.objs o ho i)

theorem Dev.KeepsPorter.put (h : a.KeepsPorter b) (o : Obj) (i v : Nat)
    (ho : ∀ p ∈ porterObjs, p.ctorIdx % 1024 ≠ o.ctorIdx % 1024) : a.KeepsPorter (b.put o i v) :=
  h.trans ⟨fun p hp k => b.g_put_other o p i k v (ho p hp), rfl, rfl, fun _ h => h, rfl⟩

theorem Dev.KeepsPorter.later (h : a.KeepsPorter b) (l : Late) : a.KeepsPorter (b.later l) :=
  h.trans ⟨fun _ _ _ => rfl, rfl, rfl, fun _ h => List.mem_append_left _ h, rfl⟩

theorem Dev.KeepsPorter.count (h : a.KeepsPorter b) (o : Obj) (i n : Nat) : a.KeepsPorter (b.count o i n) := h.later _

theorem Dev.KeepsPorter.flag (h : a.KeepsPorter b) (o : Obj) (i bit : Nat) : a.KeepsPorter (b.flag o i bit) := h.later _

theorem Dev.KeepsPorter.draw (h : a.KeepsPorter b) (w : Nat) : a.KeepsPorter (b.draw w).2 :=
  h.trans ⟨fun _ _ _ => rfl, rfl, rfl, fun _ h => h, rfl⟩

end

theorem Dev.followRooms_keepsPorter (d : Dev) : d.KeepsPorter d.followRooms :=
  ⟨fun _ _ _ => rfl, rfl, rfl, fun _ h => h, rfl⟩

theorem Dev.releaseOld_keepsPorter (d : Dev) (a : Nat) : d.KeepsPorter (d.releaseOld a) :=
  ⟨fun _ _ _ => rfl, rfl, rfl, fun _ h => h, rfl⟩

theorem Dev.reportDram_keepsPorter (d : Dev) : d.KeepsPorter d.reportDram :=
  .put (.forEach d _ _ fun d c => ((Dev.KeepsPorter.refl d).put .dchStripesUsed c _ (by decide)).put .dchMigLeft c _ (by decide))
    .roomPool 0 _ (by decide)

theorem Dev.reportRooms_keepsPorter (d : Dev) : d.KeepsPorter d.reportRooms :=
  ((((Dev.KeepsPorter.refl d).put .panSliceUsedKib 0 _ (by decide)).put .roomUsed 0 _ (by decide)).trans
    (Dev.followRooms_keepsPorter _)).trans (Dev.reportDram_keepsPorter _)

theorem Dev.memoryScrub_keepsPorter (d : Dev) (ch n m : Nat) : d.KeepsPorter (d.memoryScrub ch n m) := by
  have hcounted {a b : Dev} (h : a.KeepsPorter b) (o p : Obj) (i v bit : Nat) :
      a.KeepsPorter (if v = 0 then b else (b.count o i v).flag p i bit) := .ite _ h ((h.count o i v).flag p i bit)
  unfold Dev.memoryScrub
  split
  · exact hcounted (hcounted (.refl d) _ _ _ _ _) _ _ _ _ _
  · have hcorr := hcounted (.refl d) .panCorr .panEventFlags 0 n 0
    refine .ite _ hcorr (((hcorr.draw 26).trans ?_).count _ _ _ |>.flag _ _ _)
    exact ⟨fun _ _ _ => rfl, rfl, rfl, fun _ h => h, rfl⟩

theorem Dev.poisonRead_keepsPorter (d : Dev) (sp : Space) : d.KeepsPorter (d.poisonRead sp) := by
  cases sp with
  | pantry => exact d.memoryScrub_keepsPorter 8 0 1
  | dram => exact ((Dev.KeepsPorter.refl d).draw 3).trans (Dev.memoryScrub_keepsPorter _ _ 0 1)
  | host => exact ((Dev.KeepsPorter.refl d).count _ _ _).flag _ _ _
  | nv => exact .refl d

/-! ## The completion record (R355) -/

@[simp] theorem leBytes_length (n v : Nat) : (leBytes n v).length = n := by
  induction n generalizing v with
  | zero => rfl
  | succ n ih => simp [leBytes, ih]

theorem completionBytes_length (n i tag status v0 v1 : Nat) : (completionBytes n i tag status v0 v1).length = 32 := by
  simp [completionBytes]

section
variable (d : Dev) (r : Nat) (t : Taken) (status v0 v1 : Nat)

theorem Dev.ringComplete_objs : (d.ringComplete r t status v0 v1).objs = d.objs := by
  unfold Dev.ringComplete
  dsimp only
  split <;> rfl

theorem Dev.ringComplete_ptrs : (d.ringComplete r t status v0 v1).ptrs = d.ptrs := by
  unfold Dev.ringComplete
  dsimp only
  split <;> rfl

theorem Dev.ringComplete_late : ∀ l ∈ d.late, l ∈ (d.ringComplete r t status v0 v1).late := by
  intro l hl
  unfold Dev.ringComplete
  dsimp only
  split
  · exact List.mem_append_left _ hl
  · exact hl

theorem Dev.ringComplete_taken : ((d.ringComplete r t status v0 v1).ring r).taken =
    (d.ring r).taken.filter fun y => y.index != t.index := by
  unfold Dev.ringComplete
  dsimp only
  split <;> exact congrArg Ring.taken (Tab.getD_put_same _ _ _ _)

theorem Dev.ringComplete_posts : ∃ ps, ps.length = 32 ∧ (d.ringComplete r t status v0 v1).posts = d.posts ++ ps := by
  unfold Dev.ringComplete
  dsimp only
  split <;> exact ⟨_, by simp only [List.length_map, List.length_range, completionBytes_length], rfl⟩

end

/-! ## The stages of a completion -/

/-- The entry is off the ring with its record, and the channel has nothing in progress. -/
def Dev.ptrRecord (d : Dev) (k : Nat) (t : Taken) (code : Nat) : Dev :=
  let d := ((d.ringComplete (d.g .ptrRing k) t code 0 0).put .ptrLastStatus k code).count .ptrDone k
  d.putChan k { d.chan k with job := none, tag := entryField t 4 4 }

/-- The stored frame a command read is no longer held. -/
def Dev.ptrLetGo (d : Dev) (held : Option Sel) : Dev :=
  match held with
  | some h => (d.releaseOld h.arr).reportRooms
  | none => d

/-- The flags of a completion, and the count of its error. -/
def Dev.ptrSignal (d : Dev) (k : Nat) (t : Taken) (code : Nat) : Dev :=
  let d := if (entryByte t 1).testBit 5 then d.flag .ptrEventFlags k 0 else d
  if code = 0 then d else (d.count .ptrErrors k).flag .ptrEventFlags k 1

/-- The state a channel goes to when its command has ended. -/
def Dev.ptrNext (d : Dev) (k code : Nat) (halts : Bool) : Dev :=
  if code ≠ 0 ∧ halts then (d.put .ptrState k ptrHalted).flag .ptrEventFlags k 3
  else d.put .ptrState k (if d.on .ptrEnable k then ptrIdle else ptrOff)

theorem Dev.ptrClose_eq (d : Dev) (k : Nat) (t : Taken) (code : Nat) (halts : Bool) : d.ptrClose k t code halts =
    (((d.ptrRecord k t code).ptrLetGo ((d.chan k).job.bind fun j => j.hold)).ptrSignal k t code).ptrNext k code halts := by
  unfold Dev.ptrClose Dev.ptrLetGo
  cases (d.chan k).job.bind fun j => j.hold <;> rfl

section
variable (d : Dev) (k : Nat) (t : Taken) (code : Nat)

theorem Dev.ptrRecord_g (o : Obj) (i : Nat) (h : o.ctorIdx % 1024 ≠ Obj.ptrLastStatus.ctorIdx % 1024) :
    (d.ptrRecord k t code).g o i = d.g o i :=
  (Dev.g_put_other _ .ptrLastStatus o k i code h).trans
    (congrArg (fun x : Tab Nat => x.getD (o.key i) (o.default i)) (d.ringComplete_objs _ t code 0 0))

theorem Dev.ptrRecord_status (h : code < 2 ^ 16) : (d.ptrRecord k t code).g .ptrLastStatus k = code :=
  Dev.g_put_of_lt _ .ptrLastStatus k code h

theorem Dev.ptrRecord_idle : ((d.ptrRecord k t code).chan k).job = none :=
  congrArg PtrChan.job (Dev.putChan_chan_same _ _ _)

theorem Dev.ptrRecord_chan_other {m : Nat} (h : m ≠ k) : (d.ptrRecord k t code).chan m = d.chan m :=
  (Dev.putChan_chan_other _ _ h).trans
    (congrArg (fun x : Tab PtrChan => x.getD m {}) (d.ringComplete_ptrs _ t code 0 0))

theorem Dev.ptrRecord_late : ∀ l ∈ d.late, l ∈ (d.ptrRecord k t code).late :=
  fun l hl => List.mem_append_left _ (d.ringComplete_late _ t code 0 0 l hl)

theorem Dev.ptrRecord_counted : Late.add .ptrDone k 1 ∈ (d.ptrRecord k t code).late :=
  List.mem_append_right _ (List.mem_singleton_self _)

theorem Dev.ptrLetGo_keepsPorter (held : Option Sel) : d.KeepsPorter (d.ptrLetGo held) := by
  cases held with
  | none => exact .refl d
  | some h => exact (d.releaseOld_keepsPorter h.arr).trans (Dev.reportRooms_keepsPorter _)

theorem Dev.ptrSignal_keepsPorter : d.KeepsPorter (d.ptrSignal k t code) := by
  have hirq := Dev.KeepsPorter.ite ((entryByte t 1).testBit 5) ((Dev.KeepsPorter.refl d).flag .ptrEventFlags k 0) (.refl d)
  exact .ite _ hirq ((hirq.count _ _ _).flag _ _ _)

theorem Dev.ptrSignal_failed (h : code ≠ 0) : Late.add .ptrErrors k 1 ∈ (d.ptrSignal k t code).late ∧
    Late.flag .ptrEventFlags k 2 ∈ (d.ptrSignal k t code).late := by
  unfold Dev.ptrSignal
  rw [if_neg h]
  simp

variable (halts : Bool)

theorem Dev.ptrNext_state : (d.ptrNext k code halts).g .ptrState k =
    if code ≠ 0 ∧ halts = true then 4 else if d.on .ptrEnable k then 1 else 0 := by
  unfold Dev.ptrNext
  split
  · exact Dev.g_put_of_lt _ .ptrState k ptrHalted (by decide)
  · refine Dev.g_put_of_lt _ .ptrState k _ ?_
    split <;> decide

/-- The state of the channel is all that the last stage changes. -/
theorem Dev.ptrNext_g (o : Obj) (i : Nat) (h : o.ctorIdx % 1024 ≠ Obj.ptrState.ctorIdx % 1024) :
    (d.ptrNext k code halts).g o i = d.g o i := by
  unfold Dev.ptrNext
  split <;> exact d.g_put_other _ o k i _ h

theorem Dev.ptrNext_ptrs : (d.ptrNext k code halts).ptrs = d.ptrs := by
  unfold Dev.ptrNext
  split <;> rfl

theorem Dev.ptrNext_rings : (d.ptrNext k code halts).rings = d.rings := by
  unfold Dev.ptrNext
  split <;> rfl

theorem Dev.ptrNext_late : ∀ l ∈ d.late, l ∈ (d.ptrNext k code halts).late := by
  intro l hl
  unfold Dev.ptrNext
  split
  · exact List.mem_append_left _ hl
  · exact hl

theorem Dev.ptrNext_posts : (d.ptrNext k code halts).posts = d.posts := by
  unfold Dev.ptrNext
  split <;> rfl

end

/-! ## A completion -/

/-- From `d` to `d'` the command of entry `x` of channel `k` has ended with a code: the code and its counts, the entry off
the ring, the channel with nothing in progress in the state it goes to, the other channels as they were, and nothing left
for rank 9 lost. -/
structure Dev.Completes (k : Nat) (x : Taken) (code : Nat) (d d' : Dev) : Prop where
  status : d'.g .ptrLastStatus k = code
  counted : Late.add .ptrDone k 1 ∈ d'.late
  idle : (d'.chan k).job = none
  taken : (d'.ring (d.g .ptrRing k)).taken = (d.ring (d.g .ptrRing k)).taken.filter fun y => y.index != x.index
  failed : code ≠ 0 → Late.add .ptrErrors k 1 ∈ d'.late ∧ Late.flag .ptrEventFlags k 2 ∈ d'.late
  state : d'.g .ptrState k = if code ≠ 0 ∧ d.on .ptrHalt k = true then 4 else if d.on .ptrEnable k then 1 else 0
  others : ∀ m, m ≠ k → d'.chan m = d.chan m
  late : ∀ l ∈ d.late, l ∈ d'.late

section
variable {k : Nat} {x : Taken} {code : Nat}

/-- What leaves the channels and their rings may come before. -/
theorem Dev.Completes.before {d a d' : Dev} (h : Dev.Completes k x code a d') (hkeeps : d.KeepsPorter a) :
    Dev.Completes k x code d d' := by
  have hring : a.g .ptrRing k = d.g .ptrRing k := hkeeps.objs _ (by decide) k
  have htaken := h.taken
  have hstate := h.state
  rw [hring, hkeeps.ring] at htaken
  rw [hkeeps.on (by decide), hkeeps.on (by decide)] at hstate
  exact ⟨h.status, h.counted, h.idle, htaken, h.failed, hstate, fun m hm => (h.others m hm).trans (hkeeps.chan m),
    fun l hl => h.late l (hkeeps.late l hl)⟩

/-- Byte writes posted before change nothing of it. -/
theorem Dev.Completes.posted {d d' : Dev} {ps : List Post} (h : Dev.Completes k x code { d with posts := ps } d') :
    Dev.Completes k x code d d' :=
  ⟨h.status, h.counted, h.idle, h.taken, h.failed, h.state, h.others, h.late⟩

theorem Dev.ptrClose_completes (d : Dev) {halts : Bool} (hcode : code < 2 ^ 16) (hhalts : halts = d.on .ptrHalt k) :
    Dev.Completes k x code d (d.ptrClose k x code halts) := by
  rw [Dev.ptrClose_eq]
  generalize (d.chan k).job.bind (fun j => j.hold) = held
  have hkeeps := ((d.ptrRecord k x code).ptrLetGo_keepsPorter held).trans (Dev.ptrSignal_keepsPorter _ k x code)
  have hon (o : Obj) (ho : o ∈ porterObjs) (h : o.ctorIdx % 1024 ≠ Obj.ptrLastStatus.ctorIdx % 1024) :
      (((d.ptrRecord k x code).ptrLetGo held).ptrSignal k x code).on o k = d.on o k :=
    (hkeeps.on ho k).trans (congrArg (· != 0) (d.ptrRecord_g k x code o k h))
  have hfailed := fun h => ((d.ptrRecord k x code).ptrLetGo held).ptrSignal_failed k x code h
  generalize (((d.ptrRecord k x code).ptrLetGo held).ptrSignal k x code) = s at hkeeps hon hfailed ⊢
  have hlate := s.ptrNext_late k code halts
  have hchan (m : Nat) : (s.ptrNext k code halts).chan m = (d.ptrRecord k x code).chan m :=
    (congrArg (fun t : Tab PtrChan => t.getD m {}) (s.ptrNext_ptrs k code halts)).trans (hkeeps.chan m)
  have hring (r : Nat) : (s.ptrNext k code halts).ring r = (d.ptrRecord k x code).ring r :=
    (congrArg (fun t : Tab Ring => t.getD r {}) (s.ptrNext_rings k code halts)).trans (hkeeps.ring r)
  exact {
    status := (s.ptrNext_g k code halts _ k (by decide)).trans
      ((hkeeps.objs _ (by decide) k).trans (d.ptrRecord_status k x code hcode))
    counted := hlate _ (hkeeps.late _ (d.ptrRecord_counted k x code))
    idle := by rw [hchan, d.ptrRecord_idle]
    taken := by rw [hring]; exact d.ringComplete_taken _ x code 0 0
    failed := fun h => ⟨hlate _ (hfailed h).1, hlate _ (hfailed h).2⟩
    state := by rw [s.ptrNext_state, hhalts, hon _ (by decide) (by decide)]
    others := fun m hm => by rw [hchan, d.ptrRecord_chan_other k x code hm]
    late := fun l hl => hlate l (hkeeps.late l (d.ptrRecord_late k x code l hl)) }

theorem Dev.ptrEnd_completes (d : Dev) (hcode : code < 2 ^ 16) : Dev.Completes k x code d (d.ptrEnd k x code) :=
  d.ptrClose_completes hcode rfl

/-- A completion posts its record's 32 bytes. -/
theorem Dev.ptrClose_posts (d : Dev) (k : Nat) (x : Taken) (code : Nat) (halts : Bool) :
    ∃ ps, ps.length = 32 ∧ (d.ptrClose k x code halts).posts = d.posts ++ ps := by
  rw [Dev.ptrClose_eq, Dev.ptrNext_posts, (Dev.ptrSignal_keepsPorter _ k x code).posts, (Dev.ptrLetGo_keepsPorter _ _).posts]
  exact d.ringComplete_posts _ x code 0 0

/-- An early end other than by an abort is a completion that counts the bytes of the units written (R296,
[DEDUCED, log entry 152]). -/
theorem Dev.ptrPartial_completes (d : Dev) {j : PtrJob} (hjob : (d.chan k).job = some j) (hcode : code < 2 ^ 16)
    (habort : code ≠ 0x0394) : Dev.Completes k j.entry code d (d.ptrPartial k code) := by
  unfold Dev.ptrPartial
  simp only [hjob]
  refine (((Dev.ptrClose_completes _ hcode ?_).before
    (((Dev.KeepsPorter.refl _).count _ _ _).count _ _ _)).posted).before ((Dev.KeepsPorter.refl d).draw 32)
  rw [bne_iff_ne.2 habort, Bool.and_true]

end

end Sys2Proof.Machine
end

section
/-!
How a channel of Porter starts the entry at the head of its ring (R278, R290, R293): what the entry decodes to, the code of
its checks, and an equation of `Dev.ptrBegin` for each outcome.
-/

namespace Sys2Proof.Machine

/-! ## The entry and its checks (R279, R290) -/

theorem ptrDecode_op {x : Taken} {p : PtrCmd} (h : ptrDecode x = some p) : p.op = entryByte x 0 := by
  unfold ptrDecode at h
  dsimp only at h
  split at h
  · simp at h
  split at h
  · simp at h
  split at h
  · rename_i hop
    rw [← Option.some.inj h, hop]
  iterate 3
    split at h
    · simp at h
  rw [← Option.some.inj h]

/-- A reserved operation decodes to no command. -/
theorem ptrDecode_reserved {x : Taken} (h : 3 < entryByte x 0) : ptrDecode x = none := if_pos (.inl h)

theorem firstCode_lt {n : Nat} (hn : 0 < n) (l : List (Bool × Nat)) (h : ∀ p ∈ l, p.2 < n) : firstCode l < n := by
  induction l with
  | nil => exact hn
  | cons p l ih =>
    obtain ⟨b, c⟩ := p
    cases b with
    | true => exact h (true, c) List.mem_cons_self
    | false => exact ih fun q hq => h q (List.mem_cons_of_mem _ hq)

theorem Dev.ptrCode_lt (d : Dev) (p : PtrCmd) (frame : Option Sel) : d.ptrCode p frame < 2 ^ 16 := by
  unfold Dev.ptrCode
  split
  · decide
  · refine firstCode_lt (by decide) _ ?_
    simp only [List.forall_mem_cons, List.not_mem_nil, false_imp_iff, implies_true, and_true]
    decide

/-- The stored frame that the source of a command names, if any (R294). -/
def Dev.ptrSource (e : Env) (d : Dev) (p : PtrCmd) : Option Sel :=
  match p.b with
  | some b => if b.space = 3 then d.ptrFrame e b.addr else none
  | none => none

/-- The command, its source surface that of the frame it names. -/
def Dev.ptrResolved (d : Dev) (p : PtrCmd) (frame : Option Sel) : PtrCmd :=
  match p.b, frame with
  | some b, some f => { p with b := some (d.frameSurf b f) }
  | _, _ => p

theorem Dev.ptrResolved_op (d : Dev) (p : PtrCmd) (frame : Option Sel) : (d.ptrResolved p frame).op = p.op := by
  unfold Dev.ptrResolved
  split <;> rfl

/-! ## The job of a command -/

/-- A channel runs a job. -/
def Dev.ptrRun (d : Dev) (k : Nat) (j : PtrJob) : Dev :=
  (d.putChan k { d.chan k with job := some j, hostData := [], tag := entryField j.entry 4 4 }).put .ptrState k ptrRunning

/-- A channel's command waits for another's. -/
def Dev.ptrStall (d : Dev) (k : Nat) (host : List Byte) : Dev :=
  ((d.putChan k { d.chan k with hostData := host }).put .ptrState k 3).flag .ptrEventFlags k 2

section
variable (e : Env) (d : Dev) (x : Taken) (p : PtrCmd) (frame : Option Sel) (host : List Byte)

/-- Building a job draws the alpha byte of a fill and changes nothing else. -/
theorem Dev.ptrJob_snd : (d.ptrJob e x p frame host).2 = (d.draw 8).2 := rfl

theorem Dev.ptrJob_entry : (d.ptrJob e x p frame host).1.entry = x := rfl

/-! ## The outcomes of a start -/

variable {x p}
variable {k : Nat} (hhead : d.ptrHead k = some x)
include hhead

theorem Dev.ptrBegin_undecoded (h : ptrDecode x = none) : d.ptrBegin e k host false = d.ptrEnd k x 0x0201 := by
  unfold Dev.ptrBegin
  simp only [hhead, h]

/-- What a start does with a command that the entry spells. The draw of the job's alpha byte changes no channel, so whether
the job conflicts can be asked of the block before it. -/
theorem Dev.ptrBegin_decoded (h : ptrDecode x = some p) : d.ptrBegin e k host false =
    let frame := d.ptrSource e p
    let q := d.ptrResolved p frame
    let j := d.ptrJob e x q frame host
    if d.ptrCode q frame ≠ 0 then d.ptrEnd k x (d.ptrCode q frame)
    else if q.op = 0 then d.ptrEnd k x 0
    else if d.ptrConflict k j.1 = true then d.ptrStall k host
    else j.2.ptrRun k j.1 := by
  unfold Dev.ptrBegin
  simp only [hhead, h]
  rfl

end

end Sys2Proof.Machine
end

section
/-!
Porter's commands (O46): the starts of an entry, PORTER_COMPLETION, PORTER_ABORT and PORTER_RESUME, and the statement.
-/

namespace Sys2Proof.Machine

/-- From `u` to `t` the command of entry `x` of channel `k` has ended with a code, the clock as it stands. -/
def State.Ends (u t : State) (k : Nat) (x : Taken) (code : Nat) : Prop :=
  let d := u.dev
  t.clk = u.clk ∧ t.dev.g .ptrLastStatus k = code ∧ Late.add .ptrDone k 1 ∈ t.dev.late ∧ (t.dev.chan k).job = none ∧
    (t.dev.ring (d.g .ptrRing k)).taken = (d.ring (d.g .ptrRing k)).taken.filter (fun y => y.index != x.index) ∧
    (code ≠ 0 → Late.add .ptrErrors k 1 ∈ t.dev.late ∧ Late.flag .ptrEventFlags k 2 ∈ t.dev.late) ∧
    t.dev.g .ptrState k = (if code ≠ 0 ∧ d.on .ptrHalt k = true then 4 else if d.on .ptrEnable k then 1 else 0) ∧
    ∀ m, m ≠ k → t.dev.chan m = d.chan m

theorem State.run_ends {u : State} {f : Env → Dev → Dev} {k : Nat} {x : Taken} {code : Nat}
    (h : Dev.Completes k x code u.dev (f u.env u.dev)) : u.Ends (u.run f) k x code :=
  ⟨rfl, h.status, h.counted, h.idle, h.taken, h.failed, h.state, h.others⟩

theorem State.run_mem (s : State) (f : Env → Dev → Dev) : (s.run f).mem = s.mem.apply (f s.env s.dev).posts := rfl

/-! ## Starts -/

/-- Channel `k` starts the entry at the head of its ring where its operation is one of those told by `ops`. -/
def State.startsEntry (s : State) (k : Nat) (host : List Byte) (ops : Nat → Bool) : Out :=
  s.running 8 fun e d => d.when (d.ptrReady k && (d.ptrHeadOp k).any ops) fun d => d.ptrBegin e k host false

/-- The four starts are one meaning. NOP and the reserved operations read no host memory. -/
theorem exec_porterStart {c : Instr} {k op : Nat} {host : List Byte} (s : State)
    (hc : (c = .porterNop k ∧ (op = 0 ∨ 3 < op)) ∨ (c = .porterCopy k host ∧ op = 1) ∨ (c = .porterFill k host ∧ op = 2) ∨
      (c = .porterBlend k host ∧ op = 3)) :
    ∃ ops given, exec c s = (s.ordered 8 k).startsEntry k given ops ∧ ops op = true ∧
      (op = 0 ∨ 3 < op ∨ given = host) := by
  obtain ⟨rfl, hop⟩ | ⟨rfl, rfl⟩ | ⟨rfl, rfl⟩ | ⟨rfl, rfl⟩ := hc
  · exact ⟨fun o => o == 0 || 3 < o, [], rfl, by simpa using hop, hop.imp_right .inl⟩
  · exact ⟨(· == 1), host, rfl, rfl, .inr (.inr rfl)⟩
  · exact ⟨(· == 2), host, rfl, rfl, .inr (.inr rfl)⟩
  · exact ⟨(· == 3), host, rfl, rfl, .inr (.inr rfl)⟩

theorem Dev.ptrReady_iff (d : Dev) (k : Nat) : d.ptrReady k = true ↔
    d.on .ptrEnable k = true ∧ (d.chan k).stopped = false ∧ d.g .ptrState k = 1 ∧ (d.chan k).job = none := by
  simp [Dev.ptrReady, ptrIdle, and_assoc]

section
variable {s : State} {k : Nat} {host : List Byte} {ops : Nat → Bool} (hs : s.Running 8)
include hs

theorem State.startsEntry_unready (h : ¬(s.enter 8).dev.ptrReady k = true) :
    s.startsEntry k host ops = .next (s.enter 8) :=
  s.running_id 8 _ hs (by simp [Dev.when, h])

theorem State.startsEntry_empty (h : (s.enter 8).dev.ptrHead k = none) :
    s.startsEntry k host ops = .next (s.enter 8) :=
  s.running_id 8 _ hs (by simp [Dev.when, Dev.ptrHeadOp, h])

variable {x : Taken} (hready : (s.enter 8).dev.ptrReady k = true) (hhead : (s.enter 8).dev.ptrHead k = some x)
  (hop : ops (entryByte x 0) = true)
include hready hhead hop

/-- A channel that is ready begins the entry at the head of its ring. -/
theorem State.startsEntry_begins {d' : Dev} (h : (s.enter 8).dev.ptrBegin (s.enter 8).env k host false = d') :
    s.startsEntry k host ops = .next ((s.enter 8).run fun _ _ => d') := by
  refine (s.running_run 8 _ hs).trans (congrArg Host.Outcome.next (State.run_eq _ _ _ ?_))
  exact (Dev.when_of_true _ _ (by simp [hready, Dev.ptrHeadOp, hhead, hop])).trans h

theorem State.startsEntry_ends {code : Nat} (hcode : code < 2 ^ 16)
    (h : (s.enter 8).dev.ptrBegin (s.enter 8).env k host false = (s.enter 8).dev.ptrEnd k x code) :
    ∃ t, s.startsEntry k host ops = .next t ∧ (s.enter 8).Ends t k x code :=
  ⟨_, State.startsEntry_begins hs hready hhead hop h, State.run_ends (Dev.ptrEnd_completes _ hcode)⟩

theorem State.startsEntry_stalls
    (h : (s.enter 8).dev.ptrBegin (s.enter 8).env k host false = (s.enter 8).dev.ptrStall k host) :
    s.startsEntry k host ops = .next ((s.enter 8).become ((s.enter 8).dev.ptrStall k host)) := by
  rw [State.startsEntry_begins hs hready hhead hop h, State.run_quiet _ _ (s.enter_posts 8)]
  rfl

theorem State.startsEntry_runs {p : PtrCmd} {frame : Option Sel}
    (h : (s.enter 8).dev.ptrBegin (s.enter 8).env k host false =
      ((s.enter 8).dev.ptrJob (s.enter 8).env x p frame host).2.ptrRun k
        ((s.enter 8).dev.ptrJob (s.enter 8).env x p frame host).1) :
    ∃ t, s.startsEntry k host ops = .next t ∧ t.mem = (s.enter 8).mem ∧
      (t.dev.chan k).job = some ((s.enter 8).dev.ptrJob (s.enter 8).env x p frame host).1 ∧
      ((s.enter 8).dev.ptrJob (s.enter 8).env x p frame host).1.entry = x ∧ t.dev.g .ptrState k = 2 ∧
      t.dev.rings = (s.enter 8).dev.rings ∧ ∀ m, m ≠ k → t.dev.chan m = (s.enter 8).dev.chan m := by
  rw [Dev.ptrJob_snd] at h
  refine ⟨_, State.startsEntry_begins hs hready hhead hop h, State.run_mem_of_posts _ _ (s.enter_posts 8), ?_,
    Dev.ptrJob_entry _ _ _ _ _ _, Dev.g_put_of_lt _ .ptrState k 2 (by decide), rfl, fun m hm => ?_⟩
  · exact congrArg PtrChan.job (Dev.putChan_chan_same _ _ _)
  · exact Dev.putChan_chan_other _ _ hm

/-- What becomes of an entry that spells a command (R290, R293): refused with the code of its checks, done as NOP is,
waiting for another channel's command, or in progress. `given` is what the start reads of host memory. -/
theorem State.startsEntry_decoded {given : List Byte} {p : PtrCmd} (hp : ptrDecode x = some p)
    (hgiven : entryByte x 0 = 0 ∨ 3 < entryByte x 0 ∨ given = host) :
    let u := s.enter 8
    let d := u.dev
    let frame := d.ptrSource u.env p
    let code := d.ptrCode (d.ptrResolved p frame) frame
    let job := (d.ptrJob u.env x (d.ptrResolved p frame) frame host).1
    (code ≠ 0 → ∃ t, s.startsEntry k given ops = .next t ∧ u.Ends t k x code) ∧
    (code = 0 → entryByte x 0 = 0 → ∃ t, s.startsEntry k given ops = .next t ∧ u.Ends t k x 0) ∧
    (code = 0 → entryByte x 0 ≠ 0 → d.ptrConflict k job = true →
      s.startsEntry k given ops = .next (u.become (d.ptrStall k host))) ∧
    (code = 0 → entryByte x 0 ≠ 0 → d.ptrConflict k job = false → ∃ t, s.startsEntry k given ops = .next t ∧ t.mem = u.mem ∧
      (t.dev.chan k).job = some job ∧ job.entry = x ∧ t.dev.g .ptrState k = 2 ∧ t.dev.rings = d.rings ∧
      ∀ m, m ≠ k → t.dev.chan m = d.chan m) := by
  intro u d frame code job
  have hop0 : (d.ptrResolved p frame).op = entryByte x 0 := (d.ptrResolved_op p frame).trans (ptrDecode_op hp)
  have hbegin := d.ptrBegin_decoded u.env given hhead hp
  have hnop (h : entryByte x 0 ≠ 0) : given = host := by
    refine (hgiven.resolve_left h).resolve_left fun hreserved => ?_
    rw [ptrDecode_reserved hreserved] at hp
    cases hp
  dsimp only at hbegin
  rw [hop0] at hbegin
  refine ⟨fun hcode => ?_, fun hcode h => ?_, fun hcode h hconflict => ?_, fun hcode h hconflict => ?_⟩
  · rw [if_pos hcode] at hbegin
    exact State.startsEntry_ends hs hready hhead hop (d.ptrCode_lt _ _) hbegin
  · rw [if_neg (Decidable.not_not.2 hcode), if_pos h] at hbegin
    exact State.startsEntry_ends hs hready hhead hop (by decide) hbegin
  · rw [hnop h] at hbegin ⊢
    rw [if_neg (Decidable.not_not.2 hcode), if_neg h, if_pos hconflict] at hbegin
    exact State.startsEntry_stalls hs hready hhead hop hbegin
  · rw [hnop h] at hbegin ⊢
    rw [if_neg (Decidable.not_not.2 hcode), if_neg h, if_neg (Bool.eq_false_iff.1 hconflict)] at hbegin
    exact State.startsEntry_runs hs hready hhead hop hbegin

end

/-! ## PORTER_COMPLETION -/

/-- The end of a command in progress in a state that has come to its place in rank 8. -/
def State.completes (s : State) (k : Nat) (poisoned : Bool) : Out :=
  s.running 8 fun e d => d.when (if poisoned then d.ptrReads k else d.ptrMoved e.now k) fun d => d.ptrFinish k poisoned

theorem exec_porterCompletion (k : Nat) (poisoned : Bool) (s : State) :
    exec (.porterCompletion k poisoned) s = (s.ordered 8 (4 + k)).completes k poisoned := rfl

theorem Dev.ptrFinish_eq (d : Dev) {k : Nat} {j : PtrJob} (hjob : (d.chan k).job = some j) : d.ptrFinish k false =
    (({ d with posts := d.posts ++ j.units.flatten }.count .ptrBytesRead k j.bytesRead).count .ptrBytesWritten k
      j.bytesWritten).ptrEnd k j.entry 0 := by
  unfold Dev.ptrFinish
  simp only [hjob]
  rfl

theorem Dev.ptrFinish_poisoned (d : Dev) {k : Nat} {j : PtrJob} (hjob : (d.chan k).job = some j) :
    Dev.Completes k j.entry 0x0520 d (d.ptrFinish k true) := by
  unfold Dev.ptrFinish
  simp only [hjob]
  have hkeeps := d.poisonRead_keepsPorter
  exact (Dev.ptrPartial_completes _ ((congrArg PtrChan.job ((hkeeps _).chan k)).trans hjob) (by decide) (by decide)).before
    (hkeeps _)

section
variable {s : State} {k : Nat} (hs : s.Running 8)
include hs

theorem State.completes_otherwise {poisoned : Bool}
    (h : (if poisoned then (s.enter 8).dev.ptrReads k else (s.enter 8).dev.ptrMoved (s.enter 8).clk.elapsed k) = false) :
    s.completes k poisoned = .next (s.enter 8) :=
  s.running_id 8 _ hs (if_neg (Bool.eq_false_iff.1 h))

theorem State.completes_idle (poisoned : Bool) (h : ((s.enter 8).dev.chan k).job = none) :
    s.completes k poisoned = .next (s.enter 8) :=
  State.completes_otherwise hs (by cases poisoned <;> simp [Dev.ptrReads, Dev.ptrMoved, h])

theorem State.completes_run {poisoned : Bool}
    (h : (if poisoned then (s.enter 8).dev.ptrReads k else (s.enter 8).dev.ptrMoved (s.enter 8).clk.elapsed k) = true) :
    s.completes k poisoned = .next ((s.enter 8).run fun _ _ => (s.enter 8).dev.ptrFinish k poisoned) :=
  (s.running_run 8 _ hs).trans
    (congrArg Host.Outcome.next (State.run_eq _ _ _ (Dev.when_of_true _ _ h)))

variable {j : PtrJob} (hjob : ((s.enter 8).dev.chan k).job = some j)
include hjob

/-- A command whose bursts have had their time writes all its units and completes with 0. -/
theorem State.completes_moved (h : (s.enter 8).dev.ptrMoved (s.enter 8).clk.elapsed k = true) :
    ∃ t ps, s.completes k false = .next t ∧ (s.enter 8).Ends t k j.entry 0 ∧
      Late.add .ptrBytesWritten k j.bytesWritten ∈ t.dev.late ∧ Late.add .ptrBytesRead k j.bytesRead ∈ t.dev.late ∧
      ps.length = 32 ∧ t.mem = (s.enter 8).mem.apply (j.units.flatten ++ ps) := by
  have hfinish := (s.enter 8).dev.ptrFinish_eq hjob
  generalize hcounted : ({ (s.enter 8).dev with posts := _ }.count .ptrBytesRead k j.bytesRead).count .ptrBytesWritten k
    j.bytesWritten = d at hfinish
  have hends : Dev.Completes k j.entry 0 d (d.ptrEnd k j.entry 0) := d.ptrEnd_completes (by decide)
  obtain ⟨ps, hlength, hposts⟩ := d.ptrClose_posts k j.entry 0 (d.on .ptrHalt k)
  refine ⟨_, ps, State.completes_run hs h, State.run_ends ?_, ?_, ?_, hlength, ?_⟩
  · rw [hfinish]
    subst hcounted
    exact (hends.before (((Dev.KeepsPorter.refl _).count _ _ _).count _ _ _)).posted
  · rw [State.run_late, hfinish]
    exact hends.late _ (by simp [← hcounted])
  · rw [State.run_late, hfinish]
    exact hends.late _ (by simp [← hcounted])
  · rw [State.run_mem, hfinish, Dev.ptrEnd, hposts, ← hcounted]
    exact congrArg (fun l => (s.enter 8).mem.apply (l ++ j.units.flatten ++ ps)) (s.enter_posts 8)

theorem State.completes_poisoned (h : (s.enter 8).dev.ptrReads k = true) :
    ∃ t, s.completes k true = .next t ∧ (s.enter 8).Ends t k j.entry 0x0520 :=
  ⟨_, State.completes_run hs h, State.run_ends (Dev.ptrFinish_poisoned _ hjob)⟩

end

/-! ## PORTER_ABORT and PORTER_RESUME -/

theorem exec_porterAbort (k : Nat) (s : State) : exec (.porterAbort k) s = s.at 7 fun _ d => d.ptrAbort k := rfl

theorem exec_porterResume (k : Nat) (s : State) : exec (.porterResume k) s = s.at 7 fun _ d => d.ptrResume k := rfl

/-- A master reset changes the pieces in flight, and leaves its count and flag for rank 9. -/
theorem Dev.masterReset_eq (d : Dev) (m : Nat) : ∃ bus drawn, d.masterReset m =
    { ((d.count .bmResets).flag .bmEventFlags 0 1) with bus := bus, drawn := drawn } := by
  unfold Dev.masterReset
  dsimp only
  split <;> exact ⟨_, _, rfl⟩

section
variable (d : Dev) (k : Nat)

theorem Dev.ptrAbort_ptrs : (d.ptrAbort k).ptrs = (d.putChan k { d.chan k with aborting := true }).ptrs := by
  obtain ⟨bus, drawn, hreset⟩ := Dev.masterReset_eq (d.putChan k { d.chan k with aborting := true }) (73 + k)
  rw [Dev.ptrAbort, hreset]
  rfl

theorem Dev.ptrAbort_chan_same : (d.ptrAbort k).chan k = { d.chan k with aborting := true } := by
  rw [Dev.chan, Dev.ptrAbort_ptrs]
  exact Dev.putChan_chan_same _ _ _

theorem Dev.ptrAbort_chan_other {m : Nat} (h : m ≠ k) : (d.ptrAbort k).chan m = d.chan m := by
  rw [Dev.chan, Dev.ptrAbort_ptrs]
  exact Dev.putChan_chan_other _ _ h

theorem Dev.ptrAbort_objs : (d.ptrAbort k).objs = d.objs := by
  obtain ⟨bus, drawn, hreset⟩ := Dev.masterReset_eq (d.putChan k { d.chan k with aborting := true }) (73 + k)
  rw [Dev.ptrAbort, hreset]
  rfl

theorem Dev.ptrAbort_posts : (d.ptrAbort k).posts = d.posts := by
  obtain ⟨bus, drawn, hreset⟩ := Dev.masterReset_eq (d.putChan k { d.chan k with aborting := true }) (73 + k)
  rw [Dev.ptrAbort, hreset]
  rfl

theorem Dev.ptrAbort_late : (d.ptrAbort k).late = d.late ++ [.add .bmResets 0 1] ++ [.flag .bmEventFlags 0 2] := by
  obtain ⟨bus, drawn, hreset⟩ := Dev.masterReset_eq (d.putChan k { d.chan k with aborting := true }) (73 + k)
  rw [Dev.ptrAbort, hreset]
  rfl

end

theorem porterAbort_next {s : State} (hs : s.Awake 7) (k : Nat) : ∃ t, exec (.porterAbort k) s = .next t ∧
    t.dev.chan k = { (s.enter 7).dev.chan k with aborting := true } ∧ t.mem = (s.enter 7).mem ∧
    t.dev.objs = (s.enter 7).dev.objs ∧ Late.add .bmResets 0 1 ∈ t.dev.late ∧ Late.flag .bmEventFlags 0 2 ∈ t.dev.late ∧
    ∀ m, m ≠ k → t.dev.chan m = (s.enter 7).dev.chan m := by
  refine ⟨(s.enter 7).become ((s.enter 7).dev.ptrAbort k), ?_, Dev.ptrAbort_chan_same _ _, rfl, Dev.ptrAbort_objs _ _, ?_, ?_,
    fun m hm => Dev.ptrAbort_chan_other _ _ hm⟩
  · rw [exec_porterAbort]
    exact s.at_become 7 _ _ hs rfl ((Dev.ptrAbort_posts _ _).trans (s.enter_posts 7))
  all_goals
    rw [State.become, Dev.ptrAbort_late]
    simp

theorem porterResume_otherwise {s : State} (hs : s.Awake 7) {k : Nat} (h : (s.enter 7).dev.g .ptrState k ≠ 4) :
    exec (.porterResume k) s = .next (s.enter 7) :=
  (exec_porterResume k s).trans (s.at_id 7 _ hs (if_neg h))

theorem porterResume_halted {s : State} (hs : s.Awake 7) {k : Nat} (h : (s.enter 7).dev.g .ptrState k = 4) :
    exec (.porterResume k) s = .next ((s.enter 7).become
      ((s.enter 7).dev.put .ptrState k (if (s.enter 7).dev.on .ptrEnable k then 1 else 0))) :=
  (exec_porterResume k s).trans (s.at_become 7 _ _ hs (if_pos h) (s.enter_posts 7))

/-! ## The statement -/

/-- Settles O46: the starts by the outcomes of `Dev.ptrBegin_decoded`, the ends by `Dev.ptrClose_completes`. -/
theorem porterRunsItsCommands : Obligations.PorterRunsItsCommands := by
  refine fun s k => ⟨fun hs host op c hc => ?_, fun hs => ?_, fun hs => ?_⟩
  · obtain ⟨ops, given, hexec, hops, hgiven⟩ := exec_porterStart s hc
    rw [hexec]
    refine ⟨fun h => State.startsEntry_unready hs (mt (Dev.ptrReady_iff _ _).1 h), State.startsEntry_empty hs,
      fun x hhead hop hready => ?_⟩
    subst hop
    rw [← Dev.ptrReady_iff] at hready
    refine ⟨fun hnone => State.startsEntry_ends hs hready hhead hops (by decide) (Dev.ptrBegin_undecoded _ _ _ hhead hnone),
      fun p hp => ?_⟩
    exact State.startsEntry_decoded hs hready hhead hops hp hgiven
  · simp only [exec_porterCompletion]
    exact ⟨State.completes_otherwise hs (poisoned := false), State.completes_idle hs, fun j hjob =>
      ⟨State.completes_moved hs hjob, State.completes_otherwise hs (poisoned := true), State.completes_poisoned hs hjob⟩⟩
  · exact ⟨porterAbort_next hs k, porterResume_otherwise hs, porterResume_halted hs⟩

end Sys2Proof.Machine
end

section
/-!
SUPPORT. What the effects on serial lanes leave (R304 to R310). An effect that moves some lanes only leaves the state, the
cause and the context of every other lane, and every object but these and the links' (`Dev.MovesLanes`); what a lane comes
into is said by `Dev.TakesLane`. Free values drawn in a row are read off at their places (`Dev.drawEach`).
-/

namespace Sys2Proof.Machine

/-! ## Contexts -/

@[simp] theorem Dev.putLane_lane_same (d : Dev) (i : Nat) (c : LaneCtx) : (d.putLane i c).lane i = c :=
  Tab.getD_put_same _ _ _ _

theorem Dev.putLane_lane_other (d : Dev) {i j : Nat} (c : LaneCtx) (h : j ≠ i) : (d.putLane i c).lane j = d.lane j :=
  Tab.getD_put_other _ _ _ _ _ h

@[simp] theorem Dev.putLane_objs (d : Dev) (i : Nat) (c : LaneCtx) : (d.putLane i c).objs = d.objs := rfl

theorem Dev.answerCode_lane (d : Dev) (code i : Nat) : (d.answerCode code).lane i = d.lane i := rfl

/-- Objects read the same where the table of objects is the same. -/
theorem Dev.g_of_objs {a b : Dev} (h : b.objs = a.objs) (o : Obj) (i : Nat) : b.g o i = a.g o i := by
  rw [Dev.g, h, Dev.g]

/-! ## Effects that move some lanes only -/

/-- The objects that say what state a lane is in, and why. -/
def laneObjs : List Obj := [.laneState, .laneCause]

/-- From `d` to `d'` only lanes that meet `P` move: the others keep their objects and their context. Besides, only links of
MACs may change; registers stand, nothing left for rank 9 is lost, and no byte write is posted. -/
structure Dev.MovesLanes (P : Nat → Prop) (d d' : Dev) : Prop where
  writes : d.WritesOnly (.ethLink :: laneObjs) 0 d'
  objs : ∀ o ∈ laneObjs, ∀ j, ¬P j → d'.g o j = d.g o j
  lane : ∀ j, ¬P j → d'.lane j = d.lane j
  regs : d'.regs = d.regs

section
variable {P Q : Nat → Prop} {a b c : Dev}

theorem Dev.MovesLanes.refl (d : Dev) : d.MovesLanes P d := ⟨.refl d, fun _ _ _ _ => rfl, fun _ _ => rfl, rfl⟩

theorem Dev.MovesLanes.trans (h : a.MovesLanes P b) (k : b.MovesLanes P c) : a.MovesLanes P c :=
  ⟨h.writes.trans k.writes, fun o ho j hj => (k.objs o ho j hj).trans (h.objs o ho j hj),
    fun j hj => (k.lane j hj).trans (h.lane j hj), k.regs.trans h.regs⟩

theorem Dev.MovesLanes.mono (h : a.MovesLanes P b) (hPQ : ∀ j, P j → Q j) : a.MovesLanes Q b :=
  ⟨h.writes, fun o ho j hj => h.objs o ho j (mt (hPQ j) hj), fun j hj => h.lane j (mt (hPQ j) hj), h.regs⟩

theorem Dev.MovesLanes.state (h : a.MovesLanes P b) {j : Nat} (hj : ¬P j) : b.g .laneState j = a.g .laneState j :=
  h.objs _ (by decide) j hj

theorem Dev.MovesLanes.cause (h : a.MovesLanes P b) {j : Nat} (hj : ¬P j) : b.g .laneCause j = a.g .laneCause j :=
  h.objs _ (by decide) j hj

/-- An object that is neither a lane's state or cause nor a link stands. -/
theorem Dev.MovesLanes.setting (h : a.MovesLanes P b) {o : Obj} (i : Nat)
    (ho : ∀ w ∈ Obj.ethLink :: laneObjs, o.ctorIdx % 1024 ≠ w.ctorIdx % 1024) : b.g o i = a.g o i :=
  h.writes.objs o i ho

theorem Dev.MovesLanes.late (h : a.MovesLanes P b) {l : Late} (hl : l ∈ a.late) : l ∈ b.late := h.writes.late l hl

theorem Dev.MovesLanes.posts (h : a.MovesLanes P b) : b.posts = a.posts := h.writes.posts

theorem Dev.MovesLanes.ite (p : Prop) [Decidable p] (h : a.MovesLanes P b) (k : a.MovesLanes P c) :
    a.MovesLanes P (if p then b else c) := by
  split
  · exact h
  · exact k

theorem Dev.later_movesLanes (d : Dev) (l : Late) : d.MovesLanes P (d.later l) :=
  ⟨(Dev.WritesOnly.refl d).later l, fun _ _ _ _ => rfl, fun _ _ => rfl, rfl⟩

theorem Dev.putLane_movesLanes (d : Dev) (i : Nat) (x : LaneCtx) : d.MovesLanes (· = i) (d.putLane i x) :=
  ⟨⟨fun _ _ _ => rfl, fun _ _ => rfl, rfl, fun _ h => h, rfl⟩, fun _ _ _ _ => rfl,
    fun _ hj => Dev.putLane_lane_other d x hj, rfl⟩

theorem Dev.answerCode_movesLanes (d : Dev) (code : Nat) : d.MovesLanes P (d.answerCode code) :=
  ⟨⟨fun _ _ _ => rfl, fun _ _ => rfl, rfl, fun _ h => h, rfl⟩, fun _ _ _ _ => rfl, fun _ _ => rfl, rfl⟩

theorem Dev.drawn_movesLanes (d : Dev) (n : Nat) : d.MovesLanes P { d with drawn := n } :=
  ⟨⟨fun _ _ _ => rfl, fun _ _ => rfl, rfl, fun _ h => h, rfl⟩, fun _ _ _ _ => rfl, fun _ _ => rfl, rfl⟩

/-- Writing a lane's state or cause moves that lane alone. -/
theorem Dev.put_movesLanes (d : Dev) {o : Obj} (ho : o ∈ laneObjs) (i v : Nat) : d.MovesLanes (· = i) (d.put o i v) := by
  have hsmall : ∀ p ∈ laneObjs, p.ctorIdx < 1024 := by decide
  refine ⟨(Dev.WritesOnly.refl d).put o i v (List.mem_cons_of_mem _ ho), fun p hp j hj => ?_, fun _ _ => rfl, rfl⟩
  have hplace := hsmall p hp
  have hplace' := hsmall o ho
  unfold Dev.g
  rw [Dev.put_objs, Tab.getD_put_other]
  unfold Obj.key
  omega

theorem Dev.linkFollow_movesLanes (d : Dev) (m : Nat) : d.MovesLanes P (d.linkFollow m) := by
  unfold Dev.linkFollow
  refine .ite _ (.refl d) ⟨((Dev.WritesOnly.refl d).put .ethLink m _ (by decide)).later _, fun o ho j _ => ?_,
    fun _ _ => rfl, rfl⟩
  have hother : ∀ p ∈ laneObjs, p.ctorIdx % 1024 ≠ Obj.ethLink.ctorIdx % 1024 := by decide
  exact d.g_put_other _ _ _ _ _ (hother o ho)

end

/-! ## A loop over lanes -/

section
variable {f : Dev → Nat → Dev} (hf : ∀ (d : Dev) i, d.MovesLanes (· = i) (f d i))
include hf

theorem Dev.MovesLanes.foldl (is : List Nat) (d : Dev) : d.MovesLanes (· ∈ is) (is.foldl f d) :=
  List.foldlRecOn (motive := d.MovesLanes (· ∈ is)) is f (.refl d) fun b hb i hi =>
    hb.trans ((hf b i).mono fun _ hj => hj ▸ hi)

/-- A loop that takes each lane once comes to a lane as the lane stood before, and leaves it as it made it. -/
theorem Dev.MovesLanes.foldl_at {is : List Nat} (hnodup : is.Nodup) {i : Nat} (hi : i ∈ is) (d : Dev) :
    ∃ b, d.MovesLanes (· ≠ i) b ∧ (f b i).MovesLanes (· ≠ i) (is.foldl f d) := by
  obtain ⟨before, after, rfl⟩ := List.append_of_mem hi
  obtain ⟨-, hafter, hdisjoint⟩ := List.nodup_append.1 hnodup
  have hnotBefore : i ∉ before := fun h => hdisjoint i h i List.mem_cons_self rfl
  have hnotAfter : i ∉ after := (List.nodup_cons.1 hafter).1
  refine ⟨before.foldl f d, (Dev.MovesLanes.foldl hf before d).mono ?_, ?_⟩
  · rintro j hj rfl
    exact hnotBefore hj
  · rw [List.foldl_append, List.foldl_cons]
    refine (Dev.MovesLanes.foldl hf after _).mono ?_
    rintro j hj rfl
    exact hnotAfter hj

end

theorem mem_quadLanes {q i : Nat} : i ∈ quadLanes q ↔ i / 4 = q := by
  simp only [quadLanes, List.mem_map, List.mem_range]
  constructor
  · rintro ⟨k, hk, rfl⟩
    omega
  · intro h
    exact ⟨i % 4, by omega, by omega⟩

theorem quadLanes_nodup (q : Nat) : (quadLanes q).Nodup :=
  List.Pairwise.map _ (fun _ _ hne h => hne (Nat.add_left_cancel h)) List.nodup_range

/-! ## A lane comes into a state -/

/-- From `d` to `d'` lane `i` alone moves, and comes into a state for a cause, with bit 0 of its flags. -/
structure Dev.TakesLane (i st cause : Nat) (d d' : Dev) : Prop where
  moves : d.MovesLanes (· = i) d'
  state : d'.g .laneState i = st
  cause : d'.g .laneCause i = cause
  flag : Late.flag .laneEventFlags i 1 ∈ d'.late

section
variable {i st cause : Nat} {a b c : Dev}

theorem Dev.TakesLane.before (h : b.TakesLane i st cause c) (hmoves : a.MovesLanes (· = i) b) : a.TakesLane i st cause c :=
  ⟨hmoves.trans h.moves, h.state, h.cause, h.flag⟩

/-- What follows and leaves the lane's objects leaves it in its state. -/
theorem Dev.TakesLane.andThen (h : a.TakesLane i st cause b) (hmoves : b.MovesLanes (· = i) c)
    (hobjs : ∀ o ∈ laneObjs, c.g o i = b.g o i) : a.TakesLane i st cause c :=
  ⟨h.moves.trans hmoves, (hobjs _ (by decide)).trans h.state, (hobjs _ (by decide)).trans h.cause, hmoves.late h.flag⟩

theorem Dev.TakesLane.linkFollow (h : a.TakesLane i st cause b) (m : Nat) : a.TakesLane i st cause (b.linkFollow m) :=
  h.andThen (b.linkFollow_movesLanes m) fun o ho =>
    (b.linkFollow_movesLanes (P := (· ≠ i)) m).objs o ho i (not_not_intro rfl)

theorem Dev.linkFollow_lane (d : Dev) (m i : Nat) : (d.linkFollow m).lane i = d.lane i :=
  (d.linkFollow_movesLanes (P := (· ≠ i)) m).lane i (not_not_intro rfl)

theorem Dev.linkFollow_laneState (d : Dev) (m i : Nat) : (d.linkFollow m).g .laneState i = d.g .laneState i :=
  (d.linkFollow_movesLanes (P := (· ≠ i)) m).state (not_not_intro rfl)

end

theorem Dev.setLane_of_eq (d : Dev) {i st : Nat} (cause : Nat) (h : d.g .laneState i = st) : d.setLane i st cause = d :=
  if_pos h

theorem Dev.setLane_of_ne (d : Dev) {i st : Nat} (cause : Nat) (h : d.g .laneState i ≠ st) (hst : st ≠ 3) :
    d.setLane i st cause = ((d.put .laneState i st).put .laneCause i cause).flag .laneEventFlags i 0 :=
  (if_neg h).trans (if_neg hst)

/-- A lane that gives up its search for a partner sets bit 1 besides (R308). -/
theorem Dev.setLane_noPartner (d : Dev) {i : Nat} (cause : Nat) (h : d.g .laneState i ≠ 3) :
    d.setLane i 3 cause =
      (((d.put .laneState i 3).put .laneCause i cause).flag .laneEventFlags i 0).flag .laneEventFlags i 1 :=
  (if_neg h).trans (if_pos rfl)

@[simp] theorem Dev.setLane_lane (d : Dev) (i st cause j : Nat) : (d.setLane i st cause).lane j = d.lane j := by
  unfold Dev.setLane
  dsimp only
  split
  · rfl
  · split <;> rfl

theorem Dev.setLane_movesLanes (d : Dev) (i st cause : Nat) : d.MovesLanes (· = i) (d.setLane i st cause) := by
  have hput := (d.put_movesLanes (o := .laneState) (by decide) i st).trans
    (Dev.put_movesLanes _ (o := .laneCause) (by decide) i cause)
  have hflag := hput.trans (Dev.later_movesLanes _ (.flag .laneEventFlags i (2 ^ 0)))
  exact .ite _ (.refl d) (.ite _ (hflag.trans (Dev.later_movesLanes _ _)) hflag)

theorem Dev.setLane_takesLane (d : Dev) {i st cause : Nat} (h : d.g .laneState i ≠ st) (hst : st < 256)
    (hnot : st ≠ 3) (hcause : cause < 256) : d.TakesLane i st cause (d.setLane i st cause) := by
  refine ⟨d.setLane_movesLanes i st cause, ?_, ?_, ?_⟩ <;> rw [d.setLane_of_ne cause h hnot]
  · exact (Dev.g_put_other _ _ _ _ _ _ (by decide)).trans (d.g_put_of_lt _ _ _ hst)
  · exact Dev.g_put_of_lt _ _ _ _ hcause
  · exact List.mem_append_right _ List.mem_cons_self

theorem Dev.setLane_laneState (d : Dev) {i st : Nat} (cause : Nat) (hst : st < 256) (hnot : st ≠ 3) (hcause : cause < 256) :
    (d.setLane i st cause).g .laneState i = st := by
  by_cases h : d.g .laneState i = st
  · rw [d.setLane_of_eq cause h, h]
  · exact (d.setLane_takesLane h hst hnot hcause).state

/-! ## A lane seeks from start values (R308) -/

/-- The context of a lane that enters ACQUIRING in the tick `now`. -/
def LaneCtx.acquiring (c : LaneCtx) (now : Nat) (eth : Bool) : LaneCtx :=
  { c with since := now, last := now, starts := b2n eth, cdr := false, block := false, frozen := false, ctle := 0, dfe := [],
           locked := false }

/-- The block with the lane's context at start values, and the first attempt of an Ethernet lane counted. -/
def Dev.laneRestarted (now : Nat) (d : Dev) (i : Nat) : Dev :=
  let d' := d.putLane i ((d.lane i).acquiring now (d.g .laneProto i == 1))
  if d.g .laneProto i == 1 then d'.count .laneAttempts i else d'

section
variable (now : Nat) (d : Dev) (i cause : Nat)

theorem Dev.acquireLane_eq : d.acquireLane now i cause =
    ((d.laneRestarted now i).setLane i 1 cause).linkFollow ((d.laneRestarted now i).g .laneMac i) := rfl

theorem Dev.laneRestarted_movesLanes : d.MovesLanes (· = i) (d.laneRestarted now i) :=
  have hput := d.putLane_movesLanes i ((d.lane i).acquiring now (d.g .laneProto i == 1))
  .ite _ (hput.trans (Dev.later_movesLanes _ _)) hput

theorem Dev.laneRestarted_g (o : Obj) (k : Nat) : (d.laneRestarted now i).g o k = d.g o k := by
  unfold Dev.laneRestarted
  dsimp only
  split <;> rfl

theorem Dev.laneRestarted_lane : (d.laneRestarted now i).lane i = (d.lane i).acquiring now (d.g .laneProto i == 1) := by
  unfold Dev.laneRestarted
  dsimp only
  split <;> exact Dev.putLane_lane_same _ _ _

theorem Dev.laneRestarted_counts (h : d.g .laneProto i = 1) : Late.add .laneAttempts i 1 ∈ (d.laneRestarted now i).late := by
  simp [Dev.laneRestarted, h]

theorem Dev.acquireLane_movesLanes : d.MovesLanes (· = i) (d.acquireLane now i cause) :=
  ((d.laneRestarted_movesLanes now i).trans (Dev.setLane_movesLanes _ i 1 cause)).trans (Dev.linkFollow_movesLanes _ _)

theorem Dev.acquireLane_lane : (d.acquireLane now i cause).lane i = (d.lane i).acquiring now (d.g .laneProto i == 1) := by
  rw [d.acquireLane_eq, Dev.linkFollow_lane, Dev.setLane_lane, d.laneRestarted_lane]

theorem Dev.acquireLane_counts (h : d.g .laneProto i = 1) : Late.add .laneAttempts i 1 ∈ (d.acquireLane now i cause).late :=
  (Dev.linkFollow_movesLanes (P := (· = i)) _ _).late
    ((Dev.setLane_movesLanes _ i 1 cause).late (d.laneRestarted_counts now i h))

variable {cause}

theorem Dev.acquireLane_takesLane (h : d.g .laneState i ≠ 1) (hcause : cause < 256) :
    d.TakesLane i 1 cause (d.acquireLane now i cause) :=
  have hne : (d.laneRestarted now i).g .laneState i ≠ 1 := by rwa [d.laneRestarted_g]
  ((Dev.setLane_takesLane _ hne (by decide) (by decide) hcause).before (d.laneRestarted_movesLanes now i)).linkFollow _

theorem Dev.acquireLane_laneState (hcause : cause < 256) : (d.acquireLane now i cause).g .laneState i = 1 := by
  rw [d.acquireLane_eq, Dev.linkFollow_laneState]
  exact Dev.setLane_laneState _ _ (by decide) (by decide) hcause

end

/-! ## Free values in a row -/

/-- Draw a free value of `w` bits for each element of a list, and make a number of the two. -/
def Dev.drawEach {α : Type} (w : Nat) (make : Nat → α → Int) (d : Dev) (xs : List α) : List Int × Dev :=
  xs.foldl (fun p x => (p.1 ++ [make (p.2.draw w).1 x], (p.2.draw w).2)) ([], d)

/-- The loop of `Dev.drawEach`, from the numbers made so far. -/
theorem Dev.foldl_draw {α : Type} (w : Nat) (make : Nat → α → Int) (d : Dev) (xs : List α) (done : List Int) :
    xs.foldl (fun p x => (p.1 ++ [make (p.2.draw w).1 x], (p.2.draw w).2)) (done, d) =
      (done ++ xs.mapIdx fun k x => make (Config.freeValue (d.drawn + k) % 2 ^ w) x,
        { d with drawn := d.drawn + xs.length }) := by
  induction xs generalizing d done with
  | nil => rw [List.mapIdx_nil, List.append_nil]; rfl
  | cons x xs ih =>
    have hshift (k : Nat) : d.drawn + 1 + k = d.drawn + (k + 1) := by omega
    rw [List.foldl_cons, ih, List.mapIdx_cons, List.append_assoc]
    simp only [Dev.draw, hshift, List.length_cons, Nat.add_zero, List.singleton_append]

theorem Dev.drawEach_eq {α : Type} (w : Nat) (make : Nat → α → Int) (d : Dev) (xs : List α) : d.drawEach w make xs =
    (xs.mapIdx fun k x => make (Config.freeValue (d.drawn + k) % 2 ^ w) x, { d with drawn := d.drawn + xs.length }) :=
  Dev.foldl_draw w make d xs []

end Sys2Proof.Machine
end

section
/-!
Attempts and recalibration of an Ethernet lane (O18), and how it comes UP and loses its signal (O19).
-/

namespace Sys2Proof.Machine

/-! ## Commands -/

/-- A command whose effect moves lanes only changes the block alone. -/
theorem State.at_movesLanes {s : State} {r : Nat} (h : s.Awake r) {f : Env → Dev → Dev} {P : Nat → Prop}
    (hf : (s.enter r).dev.MovesLanes P (f (s.enter r).env (s.enter r).dev)) :
    s.at r f = .next ((s.enter r).become (f (s.enter r).env (s.enter r).dev)) :=
  s.at_become r f _ h rfl (hf.posts.trans (s.enter_posts r))

theorem exec_laneAttempt (i : Nat) (s : State) : exec (.laneAttempt i) s = s.at 9 fun e d => d.laneAttempt e.now i := rfl

theorem exec_laneRecal (i : Nat) (s : State) : exec (.laneRecal i) s = s.at 7 fun e d => d.recalLane e.now i := rfl

theorem exec_recalAttemptFailed (i : Nat) (s : State) :
    exec (.recalAttemptFailed i) s = s.at 9 fun e d => d.recalFails e.now i := rfl

theorem exec_laneUp (i : Nat) (s : State) : exec (.laneUp i) s = s.at 9 fun e d => d.laneReachesUp e.now i := rfl

/-- The block once the CDR of a lane whose signal detect fell lets go. -/
def Dev.signalDrops (detect : Bool) (d : Dev) (i : Nat) : Dev :=
  if detect then d.putLane i { d.lane i with cdr := false } else d

theorem exec_signalLoss (i : Nat) (detect : Bool) (s : State) : exec (.signalLoss i detect) s =
    s.at 9 fun e d => (d.laneLoses e.now i).signalDrops detect i := rfl

/-! ## LANE_ATTEMPT (R308) -/

/-- The next attempt of lane `i` starts: it seeks for an Ethernet partner, and its last start is 100 ms past. -/
def Dev.AttemptStarts (now : Nat) (d : Dev) (i : Nat) : Prop :=
  d.g .laneProto i = 1 ∧ (d.g .laneState i = 1 ∨ d.g .laneState i = 3) ∧ (d.lane i).last + 400000 ≤ now

/-- The block once an attempt has started, before the cycle's sixth start gives up. -/
def Dev.attemptStarted (d : Dev) (i : Nat) : Dev :=
  (d.putLane i { d.lane i with last := (d.lane i).last + 400000, starts := (d.lane i).starts + 1, cdr := false,
                               block := false, ctle := 0, dfe := [] }).count .laneAttempts i

theorem Dev.attemptStarted_laneState (d : Dev) (i : Nat) : (d.attemptStarted i).g .laneState i = d.g .laneState i := rfl

section
variable {now : Nat} {d : Dev} {i : Nat}

theorem Dev.laneAttempt_of_not (h : ¬d.AttemptStarts now i) : d.laneAttempt now i = d := if_neg h

theorem Dev.laneAttempt_starts (h : d.AttemptStarts now i) (hnot : (d.lane i).starts ≠ 5) :
    d.laneAttempt now i = d.attemptStarted i :=
  (if_pos h).trans (if_neg fun hsix => hnot (Nat.succ.inj hsix))

theorem Dev.laneAttempt_sixth (h : d.AttemptStarts now i) (hfive : (d.lane i).starts = 5) :
    d.laneAttempt now i = (d.attemptStarted i).setLane i 3 4 :=
  (if_pos h).trans (if_pos (congrArg Nat.succ hfive))

/-- The sixth start of a cycle gives up the search. -/
theorem Dev.laneAttempt_givesUp (h : d.AttemptStarts now i) (hfive : (d.lane i).starts = 5) (hseeks : d.g .laneState i = 1) :
    d.laneAttempt now i = ((((d.attemptStarted i).put .laneState i 3).put .laneCause i 4).flag .laneEventFlags i 0).flag
      .laneEventFlags i 1 := by
  have hne : (d.attemptStarted i).g .laneState i ≠ 3 := by rw [d.attemptStarted_laneState, hseeks]; decide
  exact (Dev.laneAttempt_sixth h hfive).trans (Dev.setLane_noPartner _ 4 hne)

/-- A lane that has given up goes on with its attempts, and counts them. -/
theorem Dev.laneAttempt_goesOn (h : d.AttemptStarts now i) (hfive : (d.lane i).starts = 5) (hgaveUp : d.g .laneState i = 3) :
    d.laneAttempt now i = d.attemptStarted i :=
  (Dev.laneAttempt_sixth h hfive).trans (Dev.setLane_of_eq _ 4 ((d.attemptStarted_laneState i).trans hgaveUp))

theorem Dev.laneAttempt_movesLanes : d.MovesLanes (· = i) (d.laneAttempt now i) :=
  have hstarted := (d.putLane_movesLanes i _).trans (Dev.later_movesLanes _ _)
  .ite _ (.ite _ (hstarted.trans (Dev.setLane_movesLanes _ i 3 4)) hstarted) (.refl d)

end

/-! ## LANE_RECAL (R312) -/

/-- A lane may be recalibrated: an Ethernet lane that is UP or NO_PARTNER. -/
def Dev.MayRecal (d : Dev) (i : Nat) : Prop := d.g .laneProto i = 1 ∧ (d.g .laneState i = 2 ∨ d.g .laneState i = 3)

/-- The block with the lane's context at start values for a recalibration, and its attempt counted. -/
def Dev.recalStarted (now : Nat) (d : Dev) (i : Nat) : Dev :=
  (d.putLane i { d.lane i with since := now, last := now, starts := 1, cdr := false, block := false, frozen := false,
                               ctle := 0, dfe := [] }).count .laneAttempts i

/-- The block once lane `i` is in RECAL. -/
def Dev.recalEntered (now : Nat) (d : Dev) (i : Nat) : Dev :=
  ((d.recalStarted now i).setLane i 5 7).linkFollow (d.g .laneMac i)

section
variable {now : Nat} {d : Dev} {i : Nat}

theorem Dev.recalLane_of_not (h : ¬d.MayRecal i) : d.recalLane now i = d.answerCode 0x0397 := if_neg h

theorem Dev.recalLane_of (h : d.MayRecal i) : d.recalLane now i = (d.recalEntered now i).answerCode 0 := if_pos h

theorem Dev.recalStarted_movesLanes : d.MovesLanes (· = i) (d.recalStarted now i) :=
  (d.putLane_movesLanes i _).trans (Dev.later_movesLanes _ _)

theorem Dev.recalStarted_laneState : (d.recalStarted now i).g .laneState i = d.g .laneState i := rfl

theorem Dev.recalStarted_counts : Late.add .laneAttempts i 1 ∈ (d.recalStarted now i).late :=
  List.mem_append_right _ List.mem_cons_self

theorem Dev.recalEntered_takesLane (h : d.MayRecal i) : d.TakesLane i 5 7 (d.recalEntered now i) := by
  have hne : (d.recalStarted now i).g .laneState i ≠ 5 := by
    obtain ⟨-, hstate⟩ := h
    rw [Dev.recalStarted_laneState]
    omega
  exact ((Dev.setLane_takesLane _ hne (by decide) (by decide) (by decide)).before Dev.recalStarted_movesLanes).linkFollow _

theorem Dev.recalEntered_counts : Late.add .laneAttempts i 1 ∈ (d.recalEntered now i).late :=
  (Dev.linkFollow_movesLanes (P := (· = i)) _ _).late ((Dev.setLane_movesLanes _ i 5 7).late Dev.recalStarted_counts)

theorem Dev.recalEntered_lane : (d.recalEntered now i).lane i = (d.recalStarted now i).lane i := by
  rw [Dev.recalEntered, Dev.linkFollow_lane, Dev.setLane_lane]

theorem Dev.recalStarted_lane : (d.recalStarted now i).lane i =
    { d.lane i with since := now, last := now, starts := 1, cdr := false, block := false, frozen := false, ctle := 0,
                    dfe := [] } := Dev.putLane_lane_same _ _ _

variable (h : d.MayRecal i)
include h

theorem Dev.recalLane_takesLane : d.TakesLane i 5 7 (d.recalLane now i) := by
  rw [Dev.recalLane_of h]
  exact (Dev.recalEntered_takesLane h).andThen (Dev.answerCode_movesLanes _ _) fun o _ => Dev.answerCode_g _ _ o i

theorem Dev.recalLane_counts : Late.add .laneAttempts i 1 ∈ (d.recalLane now i).late := by
  rw [Dev.recalLane_of h, Dev.answerCode_late]
  exact Dev.recalEntered_counts

theorem Dev.recalLane_lane : (d.recalLane now i).lane i = (d.recalStarted now i).lane i := by
  rw [Dev.recalLane_of h, Dev.answerCode_lane, Dev.recalEntered_lane]

theorem Dev.recalLane_answers : (d.recalLane now i).answer.code = 0 := by
  rw [Dev.recalLane_of h]
  rfl

end

theorem laneRecal_next {s : State} {i : Nat} (hs : s.Awake 7) (h : (s.enter 7).dev.MayRecal i) :
    ∃ t, exec (.laneRecal i) s = .next t ∧ t.clk = (s.enter 7).clk ∧ t.mem = (s.enter 7).mem ∧ t.dev.answer.code = 0 ∧
      t.dev.g .laneState i = 5 ∧ t.dev.g .laneCause i = 7 ∧ Late.add .laneAttempts i 1 ∈ t.dev.late ∧
      (t.dev.lane i).since = (s.enter 7).clk.elapsed ∧ (t.dev.lane i).starts = 1 ∧ (t.dev.lane i).cdr = false ∧
      ∀ j, j ≠ i → t.dev.lane j = (s.enter 7).dev.lane j ∧ t.dev.g .laneState j = (s.enter 7).dev.g .laneState j := by
  have htakes := Dev.recalLane_takesLane (now := (s.enter 7).clk.elapsed) h
  have hlane := (Dev.recalLane_lane (now := (s.enter 7).clk.elapsed) h).trans Dev.recalStarted_lane
  exact ⟨(s.enter 7).become ((s.enter 7).dev.recalLane (s.enter 7).clk.elapsed i),
    (exec_laneRecal i s).trans (State.at_movesLanes hs htakes.moves), rfl, rfl, Dev.recalLane_answers h, htakes.state,
    htakes.cause, Dev.recalLane_counts h, congrArg LaneCtx.since hlane, congrArg LaneCtx.starts hlane,
    congrArg LaneCtx.cdr hlane, fun j hj => ⟨htakes.moves.lane j hj, htakes.moves.state hj⟩⟩

theorem laneAttempt_next {s : State} (hs : s.Awake 9) (i : Nat) : exec (.laneAttempt i) s =
    .next ((s.enter 9).become ((s.enter 9).dev.laneAttempt (s.enter 9).clk.elapsed i)) :=
  (exec_laneAttempt i s).trans (State.at_movesLanes hs Dev.laneAttempt_movesLanes)

/-- Settles O18: an attempt by the cases of `Dev.laneAttempt`, a recalibration by `Dev.recalLane_takesLane`. -/
theorem laneAttemptsAndRecalibration : Obligations.LaneAttemptsAndRecalibration := by
  refine ⟨fun s i hs => ?_, fun s i hs => ?_, fun s i hs => ?_⟩
  · have hnext {d : Dev} (hd : (s.enter 9).dev.laneAttempt (s.enter 9).clk.elapsed i = d) :
        exec (.laneAttempt i) s = .next ((s.enter 9).become d) := hd ▸ laneAttempt_next hs i
    exact ⟨fun h => hnext (Dev.laneAttempt_of_not h), fun h hnot => hnext (Dev.laneAttempt_starts h hnot),
      fun h hfive hseeks => hnext (Dev.laneAttempt_givesUp h hfive hseeks),
      fun h hfive hgaveUp => hnext (Dev.laneAttempt_goesOn h hfive hgaveUp)⟩
  · exact ⟨fun h => (exec_laneRecal i s).trans (s.at_become 7 _ _ hs (Dev.recalLane_of_not h) rfl), laneRecal_next hs⟩
  · refine ⟨fun h => (exec_recalAttemptFailed i s).trans (s.at_id 9 _ hs (if_neg h)), fun h => ?_⟩
    have hne : (s.enter 9).dev.g .laneState i ≠ 1 := by rw [h.1]; decide
    exact (exec_recalAttemptFailed i s).trans
      (s.at_become 9 _ _ hs ((if_pos h).trans (Dev.setLane_of_ne _ 7 hne (by decide))) rfl)

/-! ## LANE_UP (R306) -/

/-- The attempt of lane `i` can reach block lock: an Ethernet lane that seeks, within the steps of an attempt that started
in an earlier tick. -/
def Dev.MayReachUp (now : Nat) (d : Dev) (i : Nat) : Prop :=
  d.g .laneProto i = 1 ∧ (d.g .laneState i = 1 ∨ d.g .laneState i = 3 ∨ d.g .laneState i = 5) ∧
    (d.lane i).last < now ∧ now ≤ (d.lane i).last + 320000

/-- The block once a lane's equaliser has settled and its CDR and block lock hold. -/
def Dev.lockHeld (now : Nat) (d : Dev) (i : Nat) : Dev :=
  (d.adaptLane i).putLane i
    { (d.adaptLane i).lane i with cdr := true, block := true, adapted := now, frozen := false,
                                  rate := (d.adaptLane i).laneRate i }

/-- The equaliser's settings are free values: the CTLE's code, then its 12 taps. -/
theorem Dev.adaptLane_eq (d : Dev) (i : Nat) :
    let r := (d.draw 4).2.drawEach 8 (fun v _ => asInt 8 v) (List.range 12)
    d.adaptLane i = r.2.putLane i { r.2.lane i with ctle := (d.draw 4).1, dfe := r.1 } := rfl

section
variable {now : Nat} {d : Dev} {i : Nat}

theorem Dev.laneReachesUp_iff : (d.g .laneProto i = 1 ∧
    (d.g .laneState i = laneAcquiring ∨ d.g .laneState i = laneNoPartner ∨ d.g .laneState i = laneRecal) ∧
    d.attemptRuns now i = true) ↔ d.MayReachUp now i := by
  simp only [Dev.attemptRuns, Bool.and_eq_true, decide_eq_true_eq]
  exact Iff.rfl

theorem Dev.laneReachesUp_of_not (h : ¬d.MayReachUp now i) : d.laneReachesUp now i = d :=
  if_neg (mt Dev.laneReachesUp_iff.1 h)

theorem Dev.laneReachesUp_of (h : d.MayReachUp now i) : d.laneReachesUp now i =
    ((d.lockHeld now i).setLane i 2 5).linkFollow ((d.lockHeld now i).g .laneMac i) :=
  if_pos (Dev.laneReachesUp_iff.2 h)

theorem Dev.adaptLane_movesLanes : d.MovesLanes (· = i) (d.adaptLane i) := by
  rw [d.adaptLane_eq, Dev.drawEach_eq]
  exact ((d.drawn_movesLanes _).trans (Dev.drawn_movesLanes _ _)).trans (Dev.putLane_movesLanes _ i _)

theorem Dev.adaptLane_objs : (d.adaptLane i).objs = d.objs := by
  rw [d.adaptLane_eq, Dev.drawEach_eq]
  rfl

theorem Dev.lockHeld_movesLanes : d.MovesLanes (· = i) (d.lockHeld now i) :=
  Dev.adaptLane_movesLanes.trans (Dev.putLane_movesLanes _ i _)

theorem Dev.lockHeld_objs (now : Nat) : (d.lockHeld now i).objs = d.objs :=
  (Dev.putLane_objs _ _ _).trans Dev.adaptLane_objs

theorem Dev.lockHeld_laneState : (d.lockHeld now i).g .laneState i = d.g .laneState i :=
  Dev.g_of_objs (Dev.lockHeld_objs now) _ _

theorem Dev.laneReachesUp_takesLane (h : d.MayReachUp now i) : d.TakesLane i 2 5 (d.laneReachesUp now i) := by
  have hne : (d.lockHeld now i).g .laneState i ≠ 2 := by
    obtain ⟨-, hstate, -⟩ := h
    rw [Dev.lockHeld_laneState]
    omega
  rw [Dev.laneReachesUp_of h]
  exact ((Dev.setLane_takesLane _ hne (by decide) (by decide) (by decide)).before Dev.lockHeld_movesLanes).linkFollow _

theorem Dev.laneReachesUp_lane (h : d.MayReachUp now i) : (d.laneReachesUp now i).lane i =
    { (d.adaptLane i).lane i with cdr := true, block := true, adapted := now, frozen := false,
                                  rate := (d.adaptLane i).laneRate i } := by
  rw [Dev.laneReachesUp_of h, Dev.linkFollow_lane, Dev.setLane_lane]
  exact Dev.putLane_lane_same _ _ _

end

/-! ## SIGNAL_LOSS (R307) -/

section
variable {now : Nat} {d : Dev} {i : Nat}

theorem Dev.laneLoses_of (h : d.g .laneProto i = 1 ∧ d.g .laneState i = 2) : d.laneLoses now i = d.acquireLane now i 2 :=
  if_pos h

theorem Dev.laneLoses_of_not (h : ¬(d.g .laneProto i = 1 ∧ d.g .laneState i = 2)) : d.laneLoses now i = d := if_neg h

theorem Dev.signalDrops_movesLanes (detect : Bool) : d.MovesLanes (· = i) (d.signalDrops detect i) :=
  .ite _ (d.putLane_movesLanes i _) (.refl d)

theorem Dev.signalDrops_objs (detect : Bool) : (d.signalDrops detect i).objs = d.objs := by
  cases detect <;> rfl

/-- A lane whose CDR has let go stands as it is when signal detect falls besides. -/
theorem Dev.signalDrops_lane (detect : Bool) (h : (d.lane i).cdr = false) : (d.signalDrops detect i).lane i = d.lane i := by
  cases detect with
  | false => rfl
  | true =>
    refine (d.putLane_lane_same i _).trans ?_
    rw [← h]

end

section
variable {s : State} {i : Nat} (hs : s.Awake 9)
include hs

theorem laneUp_next (h : (s.enter 9).dev.MayReachUp (s.enter 9).clk.elapsed i) :
    ∃ t, exec (.laneUp i) s = .next t ∧ t.clk = (s.enter 9).clk ∧ t.mem = (s.enter 9).mem ∧
      t.dev.g .laneState i = 2 ∧ t.dev.g .laneCause i = 5 ∧ Late.flag .laneEventFlags i 1 ∈ t.dev.late ∧
      (t.dev.lane i).cdr = true ∧ (t.dev.lane i).block = true ∧ (t.dev.lane i).frozen = false ∧
      (t.dev.lane i).adapted = (s.enter 9).clk.elapsed ∧
      ∀ j, j ≠ i → t.dev.lane j = (s.enter 9).dev.lane j ∧ t.dev.g .laneState j = (s.enter 9).dev.g .laneState j := by
  have htakes := Dev.laneReachesUp_takesLane h
  have hlane := Dev.laneReachesUp_lane h
  exact ⟨(s.enter 9).become ((s.enter 9).dev.laneReachesUp (s.enter 9).clk.elapsed i),
    (exec_laneUp i s).trans (State.at_movesLanes hs htakes.moves), rfl, rfl, htakes.state, htakes.cause, htakes.flag,
    congrArg LaneCtx.cdr hlane, congrArg LaneCtx.block hlane, congrArg LaneCtx.frozen hlane, congrArg LaneCtx.adapted hlane,
    fun j hj => ⟨htakes.moves.lane j hj, htakes.moves.state hj⟩⟩

theorem signalLoss_otherwise (detect : Bool)
    (h : ¬((s.enter 9).dev.g .laneProto i = 1 ∧ (s.enter 9).dev.g .laneState i = 2)) :
    exec (.signalLoss i detect) s = .next ((s.enter 9).become ((s.enter 9).dev.signalDrops detect i)) :=
  (exec_signalLoss i detect s).trans (s.at_become 9 _ _ hs (congrArg (Dev.signalDrops detect · i) (Dev.laneLoses_of_not h))
    ((Dev.signalDrops_movesLanes detect).posts.trans (s.enter_posts 9)))

theorem signalLoss_lost (detect : Bool) (h : (s.enter 9).dev.g .laneProto i = 1 ∧ (s.enter 9).dev.g .laneState i = 2) :
    ∃ t, exec (.signalLoss i detect) s = .next t ∧ t.clk = (s.enter 9).clk ∧ t.mem = (s.enter 9).mem ∧
      t.dev.g .laneState i = 1 ∧ t.dev.g .laneCause i = 2 ∧ Late.flag .laneEventFlags i 1 ∈ t.dev.late ∧
      Late.add .laneAttempts i 1 ∈ t.dev.late ∧ (t.dev.lane i).cdr = false ∧ (t.dev.lane i).block = false ∧
      (t.dev.lane i).starts = 1 ∧ (t.dev.lane i).since = (s.enter 9).clk.elapsed ∧
      ∀ j, j ≠ i → t.dev.lane j = (s.enter 9).dev.lane j ∧ t.dev.g .laneState j = (s.enter 9).dev.g .laneState j := by
  obtain ⟨heth, hup⟩ := h
  have hacquired := (s.enter 9).dev.acquireLane_lane (s.enter 9).clk.elapsed i 2
  have hcounted := (s.enter 9).dev.acquireLane_counts (s.enter 9).clk.elapsed i 2 heth
  have hentered := (s.enter 9).dev.acquireLane_takesLane (s.enter 9).clk.elapsed i (cause := 2)
    (by rw [hup]; decide) (by decide)
  have hdrops := Dev.signalDrops_movesLanes (d := (s.enter 9).dev.acquireLane (s.enter 9).clk.elapsed i 2) (i := i) detect
  have htakes := hentered.andThen hdrops fun o _ =>
    Dev.g_of_objs (Dev.signalDrops_objs detect) o i
  have hlane := (Dev.signalDrops_lane detect (by rw [hacquired]; rfl)).trans hacquired
  rw [heth] at hlane
  refine ⟨_, (exec_signalLoss i detect s).trans (s.at_become 9 _ _ hs
    (congrArg (Dev.signalDrops detect · i) (Dev.laneLoses_of ⟨heth, hup⟩)) (htakes.moves.posts.trans (s.enter_posts 9))),
    rfl, rfl, htakes.state, htakes.cause, htakes.flag, hdrops.late hcounted, congrArg LaneCtx.cdr hlane,
    congrArg LaneCtx.block hlane, congrArg LaneCtx.starts hlane, congrArg LaneCtx.since hlane,
    fun j hj => ⟨htakes.moves.lane j hj, htakes.moves.state hj⟩⟩

end

/-- Settles O19: block lock by `Dev.laneReachesUp_takesLane`, a loss by `Dev.acquireLane_takesLane`. -/
theorem laneReachesUpAndLosesIt : Obligations.LaneReachesUpAndLosesIt := fun s i hs =>
  ⟨fun h => (exec_laneUp i s).trans (s.at_id 9 _ hs (Dev.laneReachesUp_of_not h)), laneUp_next hs,
    fun detect => ⟨signalLoss_otherwise hs detect, signalLoss_lost hs detect⟩⟩

end Sys2Proof.Machine
end

section
/-!
Quads and their lanes (O20), and the equaliser of a lane that is UP (O21).
-/

namespace Sys2Proof.Machine

/-! ## Commands -/

theorem exec_quadPllLoss (q : Nat) (s : State) : exec (.quadPllLoss q) s = s.at 9 fun _ d => d.quadLoss q := rfl

theorem exec_quadPllLock (q : Nat) (s : State) : exec (.quadPllLock q) s = s.at 9 fun e d => d.quadLock e.now q := rfl

theorem exec_eqFreeze (i : Nat) (s : State) : exec (.eqFreeze i) s =
    s.at 9 fun _ d => d.when (d.g .laneProto i == 1 && d.g .laneState i == 2 && !(d.lane i).frozen) fun d =>
      (d.putLane i { d.lane i with frozen := true }).count .laneFreezes i := rfl

theorem exec_eqResume (i : Nat) (s : State) :
    exec (.eqResume i) s = s.at 9 fun _ d => d.putLane i { d.lane i with frozen := false } := rfl

theorem exec_readaptation (i : Nat) (s : State) : exec (.readaptation i) s = s.at 9 fun e d => d.readapt e.now i := rfl

/-! ## Registers -/

@[simp] theorem Dev.putReg_reg_same (d : Dev) (a v : Nat) : (d.putReg a v).reg a = v % 2 ^ 32 := Tab.getD_put_same _ _ _ _

theorem Dev.putReg_reg_other (d : Dev) {a b : Nat} (v : Nat) (h : b ≠ a) : (d.putReg a v).reg b = d.reg b :=
  Tab.getD_put_other _ _ _ _ _ h

theorem Dev.MovesLanes.reg {P : Nat → Prop} {a b : Dev} (h : a.MovesLanes P b) (x : Nat) : b.reg x = a.reg x :=
  congrArg (fun t : Tab Nat => t.getD x 0) h.regs

theorem Dev.quadLocked_iff (d : Dev) (q : Nat) : d.quadLocked q = true ↔ d.reg (quadPll q) = 1 := beq_iff_eq

theorem Dev.quadLocked_of_reg {d : Dev} {q : Nat} (h : d.reg (quadPll q) = 1) : d.quadLocked q = true :=
  (d.quadLocked_iff q).2 h

/-! ## QUAD_PLL_LOSS (R305) -/

/-- The block once a lane has lost its quad's clock. -/
def Dev.dropClock (d : Dev) (i : Nat) : Dev :=
  let d' := d.putLane i { d.lane i with cdr := false, block := false, frozen := false, locked := false }
  ((d'.setLane i 6 8).flag .laneEventFlags i 5).linkFollow (d'.g .laneMac i)

/-- The block once a quad's lock is cleared and the loss counted, before its lanes follow. -/
def Dev.quadUnlocked (d : Dev) (q : Nat) : Dev :=
  (d.putReg (quadPll q) 0).putReg (quadPll q + 4) (d.reg (quadPll q + 4) + 1)

theorem Dev.quadLoss_locked (d : Dev) {q : Nat} (h : d.quadLocked q = true) :
    d.quadLoss q = (quadLanes q).foldl Dev.dropClock (d.quadUnlocked q) := if_pos h

theorem Dev.quadUnlocked_lock (d : Dev) (q : Nat) : (d.quadUnlocked q).reg (quadPll q) = 0 :=
  (Dev.putReg_reg_other _ _ (Nat.ne_of_lt (Nat.lt_add_of_pos_right (by decide)))).trans (Dev.putReg_reg_same _ _ _)

theorem Dev.quadUnlocked_losses (d : Dev) (q : Nat) :
    (d.quadUnlocked q).reg (quadPll q + 4) = (d.reg (quadPll q + 4) + 1) % 2 ^ 32 := Dev.putReg_reg_same _ _ _

section
variable (d : Dev) (i : Nat)

theorem Dev.dropClock_movesLanes : d.MovesLanes (· = i) (d.dropClock i) :=
  (((d.putLane_movesLanes i _).trans (Dev.setLane_movesLanes _ i 6 8)).trans (Dev.later_movesLanes _ _)).trans
    (Dev.linkFollow_movesLanes _ _)

theorem Dev.dropClock_laneState : (d.dropClock i).g .laneState i = 6 :=
  (Dev.linkFollow_laneState _ _ _).trans (Dev.setLane_laneState _ _ (by decide) (by decide) (by decide))

theorem Dev.dropClock_flags : Late.flag .laneEventFlags i 32 ∈ (d.dropClock i).late :=
  (Dev.linkFollow_movesLanes (P := (· = i)) _ _).late (List.mem_append_right _ List.mem_cons_self)

variable {d i}

theorem Dev.dropClock_takesLane (h : d.g .laneState i ≠ 6) : d.TakesLane i 6 8 (d.dropClock i) :=
  ((((d.putLane i _).setLane_takesLane h (by decide) (by decide) (by decide)).before (d.putLane_movesLanes i _)).andThen
    (Dev.later_movesLanes _ _) fun _ _ => rfl).linkFollow _

end

section
variable {d : Dev} {q : Nat} (h : d.quadLocked q = true)
include h

theorem Dev.quadLoss_movesLanes : (d.quadUnlocked q).MovesLanes (· ∈ quadLanes q) (d.quadLoss q) := by
  rw [d.quadLoss_locked h]
  exact .foldl Dev.dropClock_movesLanes _ _

theorem Dev.quadLoss_lock : (d.quadLoss q).reg (quadPll q) = 0 :=
  ((Dev.quadLoss_movesLanes h).reg _).trans (d.quadUnlocked_lock q)

theorem Dev.quadLoss_losses : (d.quadLoss q).reg (quadPll q + 4) = (d.reg (quadPll q + 4) + 1) % 2 ^ 32 :=
  ((Dev.quadLoss_movesLanes h).reg _).trans (d.quadUnlocked_losses q)

theorem Dev.quadLoss_posts : (d.quadLoss q).posts = d.posts := (Dev.quadLoss_movesLanes h).posts

theorem Dev.quadLoss_other {i : Nat} (hi : i / 4 ≠ q) :
    (d.quadLoss q).g .laneState i = d.g .laneState i ∧ (d.quadLoss q).g .laneCause i = d.g .laneCause i :=
  have hout := mt mem_quadLanes.1 hi
  ⟨(Dev.quadLoss_movesLanes h).state hout, (Dev.quadLoss_movesLanes h).cause hout⟩

/-- What a loss makes of a lane of the quad: NO_CLOCK with bit 5, and cause 8 with bit 0 where the state changes. -/
theorem Dev.quadLoss_lane {i : Nat} (hi : i / 4 = q) :
    (d.quadLoss q).g .laneState i = 6 ∧ Late.flag .laneEventFlags i 32 ∈ (d.quadLoss q).late ∧
      (d.g .laneState i ≠ 6 → (d.quadLoss q).g .laneCause i = 8 ∧ Late.flag .laneEventFlags i 1 ∈ (d.quadLoss q).late) := by
  obtain ⟨b, hbefore, hafter⟩ :=
    Dev.MovesLanes.foldl_at Dev.dropClock_movesLanes (quadLanes_nodup q) (mem_quadLanes.2 hi) (d.quadUnlocked q)
  rw [← d.quadLoss_locked h] at hafter
  have hself : ¬i ≠ i := not_not_intro rfl
  refine ⟨(hafter.state hself).trans (b.dropClock_laneState i), hafter.late (b.dropClock_flags i), fun hne => ?_⟩
  have htakes := Dev.dropClock_takesLane (d := b) (i := i) (by rwa [hbefore.state hself])
  exact ⟨(hafter.cause hself).trans htakes.cause, hafter.late htakes.flag⟩

end

/-! ## QUAD_PLL_LOCK (R304, R305) -/

/-- The block once a quad's lock is set, before its lanes follow. -/
def Dev.quadRelocked (d : Dev) (q : Nat) : Dev := d.putReg (quadPll q) 1

theorem Dev.quadRelocked_lock (d : Dev) (q : Nat) : (d.quadRelocked q).reg (quadPll q) = 1 := Dev.putReg_reg_same _ _ _

theorem Dev.quadLock_unlocked (now : Nat) (d : Dev) {q : Nat} (h : ¬d.quadLocked q = true) :
    d.quadLock now q = (quadLanes q).foldl (fun d i => d.settleLane now i 8) (d.quadRelocked q) := if_neg h

/-- Outside STANDBY no lane is idle. -/
theorem Dev.laneIdle_of_running {d : Dev} (h : d.stopped = false) (i : Nat) : d.laneIdle i = false := by
  unfold Dev.laneIdle
  rw [← Dev.stopped, h, Bool.false_and]

section
variable {d : Dev} {now i cause : Nat}

theorem Dev.settleLane_movesLanes : d.MovesLanes (· = i) (d.settleLane now i cause) :=
  have hto (st : Nat) : d.MovesLanes (· = i) ((d.setLane i st cause).linkFollow (d.g .laneMac i)) :=
    (d.setLane_movesLanes i st cause).trans (Dev.linkFollow_movesLanes _ _)
  .ite _ (hto _) (.ite _ (hto _) (.ite _ (hto _) (d.acquireLane_movesLanes now i cause)))

variable (hrun : d.stopped = false) (hlock : d.quadLocked (i / 4) = true) (hcause : cause < 256)
include hrun hlock hcause

/-- A lane under test, whose quad is locked, goes to TEST (R314). -/
theorem Dev.settleLane_tested (htest : d.laneTested i = true) : (d.settleLane now i cause).g .laneState i = 4 := by
  have heq : d.settleLane now i cause = (d.setLane i 4 cause).linkFollow (d.g .laneMac i) :=
    (if_neg (by simp [htest, Dev.laneIdle_of_running hrun])).trans ((if_neg (by simp [hlock])).trans (if_pos htest))
  rw [heq, Dev.linkFollow_laneState]
  exact d.setLane_laneState _ (by decide) (by decide) hcause

/-- A lane with a protocol and under no test, whose quad is locked, seeks. -/
theorem Dev.settleLane_untested (htest : d.laneTested i = false) (hproto : d.g .laneProto i ≠ 0) :
    (d.settleLane now i cause).g .laneState i = 1 := by
  have heq : d.settleLane now i cause = d.acquireLane now i cause :=
    (if_neg (by simp [hproto, Dev.laneIdle_of_running hrun])).trans ((if_neg (by simp [hlock])).trans
      (if_neg (by simp [htest])))
  rw [heq]
  exact d.acquireLane_laneState now i hcause

end

section
variable {P : Nat → Prop} {a b : Dev} (h : a.MovesLanes P b)
include h

theorem Dev.MovesLanes.stopped : b.stopped = a.stopped :=
  congrArg (· == 1) (h.setting (o := .pwrState) 0 (by decide))

theorem Dev.MovesLanes.laneTested (i : Nat) : b.laneTested i = a.laneTested i := by
  unfold Dev.laneTested Dev.on
  rw [h.setting (o := .laneTest) i (by decide), h.setting (o := .laneLoop) i (by decide)]

theorem Dev.MovesLanes.quadLocked (q : Nat) : b.quadLocked q = a.quadLocked q := congrArg (· == 1) (h.reg (quadPll q))

end

section
variable {d : Dev} {q : Nat} (now : Nat) (h : ¬d.quadLocked q = true)
include h

theorem Dev.quadLock_movesLanes : (d.quadRelocked q).MovesLanes (· ∈ quadLanes q) (d.quadLock now q) := by
  rw [d.quadLock_unlocked now h]
  exact .foldl (fun _ _ => Dev.settleLane_movesLanes) _ _

theorem Dev.quadLock_lock : (d.quadLock now q).reg (quadPll q) = 1 :=
  ((Dev.quadLock_movesLanes now h).reg _).trans (d.quadRelocked_lock q)

theorem Dev.quadLock_posts : (d.quadLock now q).posts = d.posts := (Dev.quadLock_movesLanes now h).posts

theorem Dev.quadLock_other {i : Nat} (hi : i / 4 ≠ q) :
    (d.quadLock now q).g .laneState i = d.g .laneState i ∧ (d.quadLock now q).lane i = d.lane i :=
  have hout := mt mem_quadLanes.1 hi
  ⟨(Dev.quadLock_movesLanes now h).state hout, (Dev.quadLock_movesLanes now h).lane i hout⟩

/-- What a lock makes of a lane of the quad outside STANDBY: TEST under a test, otherwise ACQUIRING with a protocol. -/
theorem Dev.quadLock_lane {i : Nat} (hi : i / 4 = q) (hrun : d.stopped = false) :
    (d.laneTested i = true → (d.quadLock now q).g .laneState i = 4) ∧
      (d.laneTested i = false → d.g .laneProto i ≠ 0 → (d.quadLock now q).g .laneState i = 1) := by
  subst hi
  obtain ⟨b, hbefore, hafter⟩ :=
    Dev.MovesLanes.foldl_at (f := fun d i => d.settleLane now i 8) (fun _ _ => Dev.settleLane_movesLanes)
      (quadLanes_nodup (i / 4)) (mem_quadLanes.2 rfl) (d.quadRelocked (i / 4))
  rw [← d.quadLock_unlocked now h] at hafter
  have hstopped : b.stopped = false := hbefore.stopped.trans hrun
  have hlocked := (hbefore.quadLocked (i / 4)).trans (Dev.quadLocked_of_reg (d.quadRelocked_lock (i / 4)))
  have htested : b.laneTested i = d.laneTested i := hbefore.laneTested i
  have hproto : b.g .laneProto i = d.g .laneProto i := hbefore.setting i (by decide)
  have hstate := hafter.state (not_not_intro rfl)
  rw [← htested, ← hproto]
  exact ⟨fun htest => hstate.trans (Dev.settleLane_tested hstopped hlocked (by decide) htest),
    fun htest hhas => hstate.trans (Dev.settleLane_untested hstopped hlocked (by decide) htest hhas)⟩

end

/-! ## The statement on quads -/

section
variable {s : State} {q : Nat} (hs : s.Awake 9)
include hs

theorem quadPllLoss_locked (h : (s.enter 9).dev.reg (quadPll q) = 1) :
    ∃ t, exec (.quadPllLoss q) s = .next t ∧ t.clk = (s.enter 9).clk ∧ t.mem = (s.enter 9).mem ∧
      t.dev.reg (quadPll q) = 0 ∧ t.dev.reg (quadPll q + 4) = ((s.enter 9).dev.reg (quadPll q + 4) + 1) % 2 ^ 32 ∧
      (∀ i, i / 4 = q → t.dev.g .laneState i = 6 ∧ Late.flag .laneEventFlags i 32 ∈ t.dev.late ∧
        ((s.enter 9).dev.g .laneState i ≠ 6 → t.dev.g .laneCause i = 8 ∧ Late.flag .laneEventFlags i 1 ∈ t.dev.late)) ∧
      ∀ i, i / 4 ≠ q → t.dev.g .laneState i = (s.enter 9).dev.g .laneState i ∧
        t.dev.g .laneCause i = (s.enter 9).dev.g .laneCause i := by
  have hlock := Dev.quadLocked_of_reg h
  have hposts := (Dev.quadLoss_posts hlock).trans (s.enter_posts 9)
  exact ⟨_, (exec_quadPllLoss q s).trans (s.at_become 9 _ ((s.enter 9).dev.quadLoss q) hs rfl hposts), rfl, rfl,
    Dev.quadLoss_lock hlock, Dev.quadLoss_losses hlock, fun _ hi => Dev.quadLoss_lane hlock hi,
    fun _ hi => Dev.quadLoss_other hlock hi⟩

theorem quadPllLock_unlocked (h : (s.enter 9).dev.reg (quadPll q) ≠ 1) (hrun : (s.enter 9).dev.stopped = false) :
    ∃ t, exec (.quadPllLock q) s = .next t ∧ t.dev.reg (quadPll q) = 1 ∧
      (∀ i, i / 4 = q → (s.enter 9).dev.laneTested i = true → t.dev.g .laneState i = 4) ∧
      (∀ i, i / 4 = q → (s.enter 9).dev.laneTested i = false → (s.enter 9).dev.g .laneProto i ≠ 0 →
        t.dev.g .laneState i = 1) ∧
      ∀ i, i / 4 ≠ q → t.dev.g .laneState i = (s.enter 9).dev.g .laneState i ∧ t.dev.lane i = (s.enter 9).dev.lane i := by
  have hnot := mt (Dev.quadLocked_iff _ q).1 h
  have hposts := (Dev.quadLock_posts (s.enter 9).clk.elapsed hnot).trans (s.enter_posts 9)
  have hlane {i : Nat} (hi : i / 4 = q) := Dev.quadLock_lane (s.enter 9).clk.elapsed hnot hi hrun
  exact ⟨(s.enter 9).become ((s.enter 9).dev.quadLock (s.enter 9).clk.elapsed q),
    (exec_quadPllLock q s).trans (s.at_become 9 _ _ hs rfl hposts), Dev.quadLock_lock _ hnot,
    fun _ hi => (hlane hi).1, fun _ hi => (hlane hi).2, fun _ hi => Dev.quadLock_other _ hnot hi⟩

end

theorem quadPll_add_four (q : Nat) : quadPll q + 4 = 0x80004 + 0x4000 * q := by
  unfold quadPll
  omega

/-- Settles O20: the lanes of the quad by `Dev.MovesLanes.foldl_at`, the others by `Dev.MovesLanes.foldl`. -/
theorem quadPllMovesItsLanes : Obligations.QuadPllMovesItsLanes := by
  intro s q hs _
  dsimp only
  rw [← quadPll_add_four, ← quadPll]
  exact ⟨fun h => (exec_quadPllLoss q s).trans (s.at_id 9 _ hs (if_neg (mt (Dev.quadLocked_iff _ q).1 h))),
    fun h => (exec_quadPllLock q s).trans (s.at_id 9 _ hs (if_pos (Dev.quadLocked_of_reg h))),
    quadPllLoss_locked hs, quadPllLock_unlocked hs⟩

/-! ## Re-adaptation (R310) -/

/-- Lane `i` may freeze or adapt its equaliser: an UP Ethernet lane that is not frozen. -/
def Dev.Adapts (d : Dev) (i : Nat) : Prop := d.g .laneProto i = 1 ∧ d.g .laneState i = 2 ∧ (d.lane i).frozen = false

theorem clampInt_natAbs_sub_le {lo hi x y : Int} {n : Nat} (hlo : lo ≤ x) (hhi : x ≤ hi) (hnear : (y - x).natAbs ≤ n) :
    (clampInt lo hi y - x).natAbs ≤ n := by
  unfold clampInt
  split
  · omega
  · split <;> omega

/-- The CTLE's code after a re-adaptation that draws `u`. -/
def ctleMoved (c u : Nat) : Nat := (clampInt 0 15 ((c : Int) + (u % 3 : Nat) - 1)).toNat

/-- A tap after a re-adaptation that draws `v`. -/
def tapMoved (v : Nat) (t : Int) : Int := clampInt (-128) 127 (t + (v % 5 : Nat) - 2)

theorem ctleMoved_near {c : Nat} (hc : c ≤ 15) (u : Nat) : ctleMoved c u ≤ c + 1 ∧ c ≤ ctleMoved c u + 1 := by
  have hnear : (clampInt 0 15 ((c : Int) + (u % 3 : Nat) - 1) - c).natAbs ≤ 1 :=
    clampInt_natAbs_sub_le (by omega) (by omega) (by omega)
  unfold ctleMoved
  omega

theorem tapMoved_near {t : Int} (ht : -128 ≤ t ∧ t ≤ 127) (v : Nat) : (tapMoved v t - t).natAbs ≤ 2 :=
  clampInt_natAbs_sub_le ht.1 ht.2 (by omega)

/-- Lists whose elements were moved one by one differ at each place by no more than their elements. -/
theorem mapIdx_getD_near {f : Nat → Int → Int} {xs : List Int} {n : Nat}
    (h : ∀ k, ∀ x ∈ xs, (f k x - x).natAbs ≤ n) (k : Nat) :
    ((xs.mapIdx f).getD k 0 - xs.getD k 0).natAbs ≤ n := by
  rw [List.getD_eq_getElem?_getD, List.getD_eq_getElem?_getD, List.getElem?_mapIdx]
  cases hx : xs[k]? with
  | none => exact Nat.zero_le n
  | some x => exact h k x (List.mem_of_getElem? hx)

section
variable {now : Nat} {d : Dev} {i : Nat}

theorem Dev.adapts_iff : (d.g .laneProto i == 1 && d.g .laneState i == 2 && !(d.lane i).frozen) = true ↔ d.Adapts i := by
  simp [Dev.Adapts, and_assoc]

theorem Dev.readapt_iff : (d.g .laneProto i = 1 ∧ d.g .laneState i = laneUp ∧ (!(d.lane i).frozen) = true ∧
    (d.lane i).adapted + 40000000 ≤ now) ↔ (d.Adapts i ∧ (d.lane i).adapted + 40000000 ≤ now) := by
  simp only [Dev.Adapts, laneUp, Bool.not_eq_true', and_assoc]

theorem Dev.readapt_of_not (h : ¬(d.Adapts i ∧ (d.lane i).adapted + 40000000 ≤ now)) : d.readapt now i = d :=
  if_neg (mt Dev.readapt_iff.1 h)

theorem Dev.readapt_of (h : d.Adapts i) (hdue : (d.lane i).adapted + 40000000 ≤ now) :
    let r := (d.draw 8).2.drawEach 8 tapMoved (d.lane i).dfe
    d.readapt now i = r.2.putLane i
      { d.lane i with ctle := ctleMoved (d.lane i).ctle (d.draw 8).1, dfe := r.1, adapted := now } :=
  if_pos (Dev.readapt_iff.2 ⟨h, hdue⟩)

/-- A re-adaptation draws a free value for the CTLE and one for each tap, and moves them by these. -/
theorem Dev.readapt_eq (h : d.Adapts i) (hdue : (d.lane i).adapted + 40000000 ≤ now) :
    ∃ (n u : Nat) (vs : Nat → Nat), d.readapt now i = Dev.putLane { d with drawn := n } i
      { d.lane i with ctle := ctleMoved (d.lane i).ctle u, dfe := (d.lane i).dfe.mapIdx fun k t => tapMoved (vs k) t,
                      adapted := now } := by
  rw [Dev.readapt_of h hdue, Dev.drawEach_eq]
  exact ⟨_, _, _, rfl⟩

end

section
variable {s : State} {i : Nat} (hs : s.Awake 9)
include hs

theorem eqFreeze_adapts (h : (s.enter 9).dev.Adapts i) : exec (.eqFreeze i) s = .next ((s.enter 9).become
    (((s.enter 9).dev.putLane i { (s.enter 9).dev.lane i with frozen := true }).count .laneFreezes i)) :=
  (exec_eqFreeze i s).trans (s.at_become 9 _ _ hs (Dev.when_of_true _ _ (Dev.adapts_iff.2 h)) rfl)

theorem eqFreeze_otherwise (h : ¬(s.enter 9).dev.Adapts i) : exec (.eqFreeze i) s = .next (s.enter 9) :=
  (exec_eqFreeze i s).trans
    (s.at_id 9 _ hs (Dev.when_of_false _ _ (Bool.eq_false_iff.2 (mt Dev.adapts_iff.1 h))))

theorem readaptation_moves (h : (s.enter 9).dev.Adapts i)
    (hdue : ((s.enter 9).dev.lane i).adapted + 40000000 ≤ (s.enter 9).clk.elapsed)
    (hctle : ((s.enter 9).dev.lane i).ctle ≤ 15) (hdfe : ∀ x ∈ ((s.enter 9).dev.lane i).dfe, -128 ≤ x ∧ x ≤ 127) :
    ∃ t, exec (.readaptation i) s = .next t ∧ t.clk = (s.enter 9).clk ∧ t.mem = (s.enter 9).mem ∧
      t.dev.objs = (s.enter 9).dev.objs ∧ t.dev.late = (s.enter 9).dev.late ∧
      (t.dev.lane i).adapted = (s.enter 9).clk.elapsed ∧ (t.dev.lane i).ctle ≤ ((s.enter 9).dev.lane i).ctle + 1 ∧
      ((s.enter 9).dev.lane i).ctle ≤ (t.dev.lane i).ctle + 1 ∧
      (t.dev.lane i).dfe.length = ((s.enter 9).dev.lane i).dfe.length ∧
      (∀ k, ((t.dev.lane i).dfe.getD k 0 - ((s.enter 9).dev.lane i).dfe.getD k 0).natAbs ≤ 2) ∧
      ∀ j, j ≠ i → t.dev.lane j = (s.enter 9).dev.lane j := by
  obtain ⟨n, u, vs, heq⟩ := Dev.readapt_eq h hdue
  refine ⟨_, (exec_readaptation i s).trans (s.at_become 9 _ _ hs heq rfl), rfl, rfl, rfl, rfl, ?_⟩
  rw [State.become, Dev.putLane_lane_same]
  obtain ⟨hup, hdown⟩ := ctleMoved_near hctle u
  exact ⟨rfl, hup, hdown, List.length_mapIdx, mapIdx_getD_near fun k x hx => tapMoved_near (hdfe x hx) (vs k),
    fun j hj => Dev.putLane_lane_other _ _ hj⟩

end

/-- Settles O21: the freeze by `Dev.Adapts`, the codes' bounds by `ctleMoved_near` and `tapMoved_near`. -/
theorem equaliserFreezesAndReadapts : Obligations.EqualiserFreezesAndReadapts := fun s i hs =>
  ⟨eqFreeze_adapts hs, eqFreeze_otherwise hs, (exec_eqResume i s).trans (s.at_become 9 _ _ hs rfl rfl),
    fun h => (exec_readaptation i s).trans (s.at_id 9 _ hs (Dev.readapt_of_not h)), readaptation_moves hs⟩

end Sys2Proof.Machine
end

section
/-!
Object addresses (O59): what a row of the object table occupies, that no two rows share an address, and that the decoder
answers an address with the one instance that stands there.
-/

namespace Sys2Proof.Machine

/-! ## What a row of the object table occupies -/

/-- The number of indices a row of the table spans. -/
def ObjInfo.rows (n : ObjInfo) : Nat :=
  match n.scheme with
  | .one => 1
  | .plus => n.count
  | .quad => n.count / 4
  | .region _ => n.count / 16

/-- The subindices a row of the table uses at each of its indices. -/
def ObjInfo.subs (n : ObjInfo) : List Nat :=
  match n.scheme with
  | .one | .plus => [n.sub]
  | .quad => (List.range 4).map fun k => 0x40 * k + n.sub
  | .region step => (List.range 16).map fun k => 0x10 + step * k + n.sub

/-- A row's instances fill whole indices, and its subindices at one index differ. -/
def ObjInfo.fits (n : ObjInfo) : Bool :=
  match n.scheme with
  | .one => n.count == 1
  | .plus => true
  | .quad => n.count % 4 == 0 && decide (n.sub < 0x40)
  | .region step => n.count % 16 == 0 && decide (0 < step)

/-- A bit for each number of a list. -/
def bitsFor (xs : List Nat) : Nat := xs.foldr (fun x m => m ||| 2 ^ x) 0

/-- No two patterns of a list have a bit in common, nor has one with `used`. -/
def disjointFrom (used : Nat) : List Nat → Bool
  | [] => true
  | m :: ms => used &&& m == 0 && disjointFrom (used ||| m) ms

/-- A bit for each subindex of a row, at a place that its first index gives. The modulus keeps the numbers short; the first
indices of the chapters' tables all differ by it. -/
def ObjInfo.marks (n : ObjInfo) : Nat := bitsFor n.subs <<< (256 * (n.base % 339))

theorem bitsFor_testBit {xs : List Nat} {x : Nat} (h : x ∈ xs) : (bitsFor xs).testBit x = true := by
  induction xs with
  | nil => simp at h
  | cons y ys ih =>
    simp only [bitsFor, List.foldr_cons, Nat.testBit_or, Bool.or_eq_true]
    rcases List.mem_cons.1 h with rfl | hys
    · exact .inr Nat.testBit_two_pow_self
    · exact .inl (ih hys)

theorem disjointFrom_pairwise {used : Nat} {ms : List Nat} (h : disjointFrom used ms = true) :
    (∀ m ∈ ms, used &&& m = 0) ∧ ms.Pairwise fun a b => a &&& b = 0 := by
  induction ms generalizing used with
  | nil => simp
  | cons m ms ih =>
    simp only [disjointFrom, Bool.and_eq_true, beq_iff_eq] at h
    obtain ⟨hm, hms⟩ := h
    obtain ⟨hused, hpairs⟩ := ih hms
    have hboth : ∀ x ∈ ms, used &&& x = 0 ∧ m &&& x = 0 := fun x hx => by
      have h0 := hused x hx
      rwa [Nat.and_or_distrib_right, Nat.or_eq_zero_iff] at h0
    exact ⟨List.forall_mem_cons.2 ⟨hm, fun x hx => (hboth x hx).1⟩,
      List.pairwise_cons.2 ⟨fun x hx => (hboth x hx).2, hpairs⟩⟩

theorem ObjInfo.marks_testBit {n : ObjInfo} {x : Nat} (h : x ∈ n.subs) :
    n.marks.testBit (256 * (n.base % 339) + x) = true := by
  simp only [ObjInfo.marks, Nat.testBit_shiftLeft, Bool.and_eq_true, decide_eq_true_eq, Nat.add_sub_cancel_left]
  exact ⟨Nat.le_add_right _ _, bitsFor_testBit h⟩

/-! ## The table -/

theorem Obj.all_ctorIdx : Obj.all.map Obj.ctorIdx = List.range 768 := by decide +kernel

theorem Obj.ctorIdx_lt (o : Obj) : o.ctorIdx < 768 := by
  cases o <;> decide

theorem Obj.mem_all (o : Obj) : o ∈ Obj.all := by
  have hmem : o.ctorIdx ∈ Obj.all.map Obj.ctorIdx := by
    rw [Obj.all_ctorIdx]
    exact List.mem_range.2 o.ctorIdx_lt
  obtain ⟨p, hp, hidx⟩ := List.mem_map.1 hmem
  have hpo : p = o := by rw [← Obj.ofNat_ctorIdx p, hidx, Obj.ofNat_ctorIdx]
  exact hpo ▸ hp

theorem Obj.info_fits (o : Obj) : o.info.fits = true :=
  (by decide +kernel : ∀ p ∈ Obj.all, p.info.fits = true) o o.mem_all

theorem Obj.all_marks_disjointFrom : disjointFrom 0 (Obj.all.map fun o => o.info.marks) = true := by decide +kernel

/-- A bit for each index a row of the table begins at. -/
def Obj.bases : Nat := bitsFor (Obj.all.map fun o => o.info.base)

theorem Obj.rows_free : ∀ o ∈ Obj.all, (Obj.bases >>> (o.info.base + 1)) % 2 ^ (o.info.rows - 1) = 0 := by
  decide +kernel

/-- No row begins inside another. -/
theorem Obj.base_outside (o p : Obj) (h : o.info.base < p.info.base) : o.info.base + o.info.rows ≤ p.info.base := by
  by_contra hlt
  have hbit : Obj.bases.testBit p.info.base = true := bitsFor_testBit (List.mem_map.2 ⟨p, p.mem_all, rfl⟩)
  have hfree := Nat.testBit_mod_two_pow (Obj.bases >>> (o.info.base + 1)) (o.info.rows - 1)
    (p.info.base - (o.info.base + 1))
  have hpos : o.info.base + 1 + (p.info.base - (o.info.base + 1)) = p.info.base := by omega
  rw [Obj.rows_free o o.mem_all, Nat.zero_testBit, Nat.testBit_shiftRight, hpos, hbit, Bool.and_true] at hfree
  exact absurd hfree.symm (by simp; omega)

/-- Two rows that begin at one index use no common subindex. -/
theorem Obj.subs_disjoint {o p : Obj} (hne : o ≠ p) (hbase : o.info.base = p.info.base) {x : Nat} (ho : x ∈ o.info.subs) :
    x ∉ p.info.subs := by
  intro hp
  have : Std.Symm fun o p : Obj => o.info.marks &&& p.info.marks = 0 := ⟨fun a b h => (Nat.and_comm _ _).trans h⟩
  have hall : Obj.all.Pairwise fun o p => o.info.marks &&& p.info.marks = 0 :=
    List.pairwise_map.1 (disjointFrom_pairwise Obj.all_marks_disjointFrom).2
  have hboth := Nat.testBit_and o.info.marks p.info.marks (256 * (o.info.base % 339) + x)
  rw [hall.forall o.mem_all p.mem_all hne, ObjInfo.marks_testBit ho, hbase, ObjInfo.marks_testBit hp] at hboth
  simp at hboth

/-! ## Addresses -/

/-- An address an instance stands at is one of its row's. -/
theorem Obj.index_mem (o : Obj) {i : Nat} (hi : i < o.info.count) :
    o.info.base ≤ o.index i ∧ o.index i < o.info.base + o.info.rows := by
  have hfits := o.info_fits
  cases hscheme : o.info.scheme with
  | one | plus | quad | region step =>
    simp only [ObjInfo.fits, hscheme, Bool.and_eq_true, beq_iff_eq, decide_eq_true_eq] at hfits
    simp only [Obj.index, ObjInfo.rows, hscheme]
    omega

theorem Obj.subindex_mem (o : Obj) (i : Nat) : o.subindex i ∈ o.info.subs := by
  unfold Obj.subindex ObjInfo.subs
  cases o.info.scheme with
  | one | plus => exact List.mem_singleton_self _
  | quad => exact List.mem_map.2 ⟨i % 4, List.mem_range.2 (Nat.mod_lt _ (by decide)), rfl⟩
  | region step => exact List.mem_map.2 ⟨i % 16, List.mem_range.2 (Nat.mod_lt _ (by decide)), rfl⟩

/-- The decoder finds an instance of a row exactly where the table puts it. -/
theorem Obj.instAt_eq_some_iff (o : Obj) (index sub i : Nat) :
    o.instAt index sub = some i ↔ i < o.info.count ∧ o.index i = index ∧ o.subindex i = sub := by
  have hfits := o.info_fits
  cases hscheme : o.info.scheme with
  | one =>
    simp only [ObjInfo.fits, hscheme, beq_iff_eq] at hfits
    simp only [Obj.instAt, Obj.index, Obj.subindex, hscheme, Option.ite_none_right_eq_some, Option.some.injEq]
    omega
  | plus =>
    simp only [Obj.instAt, Obj.index, Obj.subindex, hscheme, Option.ite_none_right_eq_some, Option.some.injEq]
    omega
  | quad =>
    simp only [ObjInfo.fits, hscheme, Bool.and_eq_true, beq_iff_eq, decide_eq_true_eq] at hfits
    simp only [Obj.instAt, Obj.index, Obj.subindex, hscheme, Option.ite_none_right_eq_some, Option.some.injEq]
    omega
  | region step =>
    simp only [ObjInfo.fits, hscheme, Bool.and_eq_true, beq_iff_eq, decide_eq_true_eq] at hfits
    obtain ⟨hcount, hstep⟩ := hfits
    simp only [Obj.instAt, Obj.index, Obj.subindex, hscheme, Option.ite_none_right_eq_some, Option.some.injEq]
    constructor
    · rintro ⟨⟨hlo, hhi, hsub, hmod, hdiv⟩, rfl⟩
      have hwhole := Nat.div_add_mod (sub - 0x10 - o.info.sub) step
      generalize (sub - 0x10 - o.info.sub) / step = q at hdiv hwhole ⊢
      have hlow : (16 * (index - o.info.base) + q) % 16 = q := by omega
      rw [hlow]
      omega
    · rintro ⟨hi, rfl, rfl⟩
      have hlow : 0x10 + step * (i % 16) + o.info.sub - 0x10 - o.info.sub = step * (i % 16) := by omega
      rw [hlow, Nat.mul_mod_right, Nat.mul_div_cancel_left _ hstep]
      omega

/-- No address is an instance's of two objects. -/
theorem Obj.eq_of_address {o p : Obj} {i j : Nat} (hi : i < o.info.count) (hj : j < p.info.count)
    (hindex : o.index i = p.index j) (hsub : o.subindex i = p.subindex j) : o = p := by
  by_contra hne
  obtain ⟨holo, hohi⟩ := o.index_mem hi
  obtain ⟨hplo, hphi⟩ := p.index_mem hj
  rcases Nat.lt_trichotomy o.info.base p.info.base with h | h | h
  · have := o.base_outside p h
    omega
  · exact Obj.subs_disjoint hne h (o.subindex_mem i) (hsub ▸ p.subindex_mem j)
  · have := p.base_outside o h
    omega

theorem decodeObj_sound {index sub : Nat} {o : Obj} {i : Nat} (h : decodeObj index sub = some (o, i)) :
    o.instAt index sub = some i := by
  obtain ⟨p, -, hp⟩ := List.exists_of_findSome?_eq_some h
  obtain ⟨j, hj, hpair⟩ := Option.map_eq_some_iff.1 hp
  obtain ⟨rfl, rfl⟩ := Prod.mk.inj hpair
  exact hj

theorem decodeObj_address (o : Obj) {i : Nat} (hi : i < o.info.count) :
    decodeObj (o.index i) (o.subindex i) = some (o, i) := by
  have ho : o.instAt (o.index i) (o.subindex i) = some i := (o.instAt_eq_some_iff _ _ _).2 ⟨hi, rfl, rfl⟩
  obtain ⟨⟨p, j⟩, hpj⟩ : ∃ x, decodeObj (o.index i) (o.subindex i) = some x := by
    rw [← Option.isSome_iff_exists]
    exact List.findSome?_isSome_iff.2 ⟨o, o.mem_all, by simp [ho]⟩
  have hp := decodeObj_sound hpj
  obtain ⟨hj, hindex, hsub⟩ := (p.instAt_eq_some_iff _ _ _).1 hp
  obtain rfl : p = o := Obj.eq_of_address hj hi hindex hsub
  rw [hpj, Option.some.inj (hp.symm.trans ho)]

/-- Settles O59: `Obj.instAt_eq_some_iff` for each row, `Obj.eq_of_address` between rows. -/
theorem objectAddressesRoundTrip : Obligations.ObjectAddressesRoundTrip :=
  ⟨fun o _ hi => decodeObj_address o hi, fun _ _ o _ h => (o.instAt_eq_some_iff _ _ _).1 (decodeObj_sound h)⟩

end Sys2Proof.Machine
end

section
/-!
Ring commands and doorbells (O8, O9, O10): which code a command of a ring leaves, what it makes of the ring, and which
index a doorbell moves.
-/

namespace Sys2Proof.Machine

/-! ## Contexts -/

@[simp] theorem Dev.ring_putRing_same (d : Dev) (r : Nat) (c : Ring) : (d.putRing r c).ring r = c := by
  simp [Dev.ring]

theorem Dev.ring_putRing_other (d : Dev) {r k : Nat} (c : Ring) (h : k ≠ r) : (d.putRing r c).ring k = d.ring k := by
  simp [Dev.ring, Tab.getD_put_other _ _ _ _ _ h]

theorem Dev.ringBarred_of_not_quarantine {d : Dev} (h : d.quarantine = false) (r : Nat) (b : Bool) :
    d.ringBarred r b = false := by
  simp [Dev.ringBarred, h]

theorem exec_ringEnable (r : Nat) (s : State) : exec (.ringEnable r) s = s.at 7 fun _ d => d.ringEnable r := rfl
theorem exec_ringDisable (r : Nat) (s : State) : exec (.ringDisable r) s = s.at 7 fun e d => d.ringDisable e r := rfl
theorem exec_ringReset (r : Nat) (s : State) : exec (.ringReset r) s = s.at 7 fun _ d => d.ringReset r := rfl
theorem exec_ringClearError (r : Nat) (s : State) : exec (.ringClearError r) s = s.at 7 fun _ d => d.ringClear r := rfl
theorem exec_ringDescWrite (k v : Nat) (s : State) : exec (.ringDescWrite k v) s = s.at 7 fun _ d => d.descWrite k v := rfl
theorem exec_doorbell (w : Who) (r v be : Nat) (s : State) :
    exec (.doorbell w r v be) s = s.at 7 fun _ d => d.doorbell w r v be := rfl

/-! ## RING_ENABLE (R352) -/

section
variable {d : Dev} {r : Nat}

theorem Dev.enableCode_active (h : (d.ring r).st ≠ .disabled) : d.enableCode r = 0x03A0 := if_pos h

theorem Dev.enableCode_invalid (h : (d.ring r).st = .disabled) (hvalid : descValid (d.desc r) = false) :
    d.enableCode r = 0x023D := by
  simp [Dev.enableCode, h, hvalid]

theorem Dev.enableCode_outside (h : (d.ring r).st = .disabled) (hvalid : descValid (d.desc r) = true)
    (hfits : d.descFits (d.desc r) = false) : d.enableCode r = 0x0601 := by
  simp [Dev.enableCode, h, hvalid, hfits]

/-- The descriptor is checked against those who name the ring last. -/
theorem Dev.enableCode_named (h : (d.ring r).st = .disabled) (hvalid : descValid (d.desc r) = true)
    (hfits : d.descFits (d.desc r) = true) : d.enableCode r =
      if (∃ k ∈ d.consumerKinds r, k ≠ descKind (d.desc r)) ∨
        (d.queuesNaming r ≠ [] ∧ (descCores (d.desc r) = true ∨ descLoc (d.desc r) = 2)) then 0x03A1 else 0 := by
  simp only [Dev.enableCode, h, hvalid, hfits, ne_eq, not_true_eq_false, if_false, Bool.not_true, Bool.false_eq_true,
    List.any_eq_true, bne_iff_ne, Bool.and_eq_true, Bool.not_eq_true', List.isEmpty_eq_false_iff, Bool.or_eq_true,
    beq_iff_eq]
  by_cases hkinds : ∃ k ∈ d.consumerKinds r, ¬k = descKind (d.desc r)
  · rw [if_pos hkinds, if_pos (.inl hkinds)]
  · rw [if_neg hkinds]
    exact if_congr (or_iff_right hkinds).symm rfl rfl

theorem Dev.ringEnable_refused (hq : d.quarantine = false) (hcode : d.enableCode r ≠ 0) :
    d.ringEnable r = d.ringStatus (d.enableCode r) := by
  simp [Dev.ringEnable, Dev.ringBarred_of_not_quarantine hq, hcode]

theorem Dev.ringEnable_accepted (hq : d.quarantine = false) (hcode : d.enableCode r = 0) :
    d.ringEnable r = (d.putRing r { d.ring r with st := .enabled, cached := d.desc r }).ringStatus 0 := by
  simp [Dev.ringEnable, Dev.ringBarred_of_not_quarantine hq, hcode]

end

/-- Settles O8: `Dev.enableCode` by the state of the ring, its descriptor and those who name it. -/
theorem ringEnableCachesTheDescriptor : Obligations.RingEnableCachesTheDescriptor := by
  intro s r hs hq
  have hrefused {code : Nat} (hcode : (s.enter 7).dev.enableCode r = code) (h0 : code ≠ 0) : exec (.ringEnable r) s =
      .next ((s.enter 7).become ((s.enter 7).dev.ringStatus code)) :=
    (exec_ringEnable r s).trans
      (s.at_become 7 _ _ hs (hcode ▸ Dev.ringEnable_refused hq (hcode ▸ h0)) rfl)
  refine ⟨fun h => hrefused (Dev.enableCode_active h) (by decide),
    fun h hvalid => hrefused (Dev.enableCode_invalid h hvalid) (by decide),
    fun h hvalid hfits => hrefused (Dev.enableCode_outside h hvalid hfits) (by decide),
    fun h hvalid hfits hnamed => hrefused ((Dev.enableCode_named h hvalid hfits).trans (if_pos hnamed)) (by decide),
    fun h hvalid hfits hkinds hqueues => ?_⟩
  have hnot : ¬((∃ k ∈ (s.enter 7).dev.consumerKinds r, k ≠ descKind ((s.enter 7).dev.desc r)) ∨
      ((s.enter 7).dev.queuesNaming r ≠ [] ∧
        (descCores ((s.enter 7).dev.desc r) = true ∨ descLoc ((s.enter 7).dev.desc r) = 2))) := by
    rintro (⟨k, hk, hne⟩ | ⟨hnames, hwhere⟩)
    · exact hne (hkinds k hk)
    · rcases hqueues with hnone | ⟨hcores, hloc⟩
      · exact hnames hnone
      · exact hwhere.elim (fun h => Bool.false_ne_true (hcores.symm.trans h)) hloc
  exact (exec_ringEnable r s).trans
    (s.at_become 7 _ _ hs (Dev.ringEnable_accepted hq ((Dev.enableCode_named h hvalid hfits).trans (if_neg hnot))) rfl)

/-! ## Doorbells (R353) -/

theorem Ring.accepts_iff (c : Ring) (x : Nat) : c.accepts x = true ↔ (x + 2 ^ 32 - c.c) % 2 ^ 32 ≤
    if descKind c.cached = 4 then (c.p + 2 ^ 32 - c.c) % 2 ^ 32 else 2 ^ descN c.cached := by
  unfold Ring.accepts Ring.held
  split <;> exact decide_eq_true_iff

/-- The sender of a doorbell owns the ring. -/
def Ring.ownedBy (c : Ring) : Who → Prop
  | .host => descCores c.cached = false
  | .core _ => descCores c.cached = true

theorem Dev.bellOk_iff (d : Dev) (w : Who) (r x hi : Nat) : d.bellOk w r x hi = true ↔
    hi = 0 ∧ (d.ring r).st ≠ .disabled ∧ (d.ring r).ownedBy w ∧ (d.ring r).accepts x = true := by
  cases w <;> simp [Dev.bellOk, Ring.ownedBy, and_assoc]

/-- A doorbell that its byte enables and its sender's rights let through, outside QUARANTINE. -/
theorem Dev.doorbell_heard {d : Dev} {w : Who} {r v be x hi : Nat} (hq : d.quarantine = false)
    (hbe : doorbellIndex v be = some (x, hi)) : d.doorbell w r v be = if d.bellOk w r x hi = true then
      d.putRing r (if descKind (d.ring r).cached = 4 then { d.ring r with c := x } else { d.ring r with p := x })
    else d.bellRejected r := by
  simp only [Dev.doorbell, hbe, hq, Bool.false_eq_true, false_and, and_false, if_false]
  cases d.bellOk w r x hi
  · rfl
  · simp only [Bool.not_true, Bool.false_eq_true, if_false, if_true]
    split <;> rfl

theorem doorbellIndex_of (v : Nat) {be : Nat} (h : be = 0xF ∨ be = 0xFF) :
    doorbellIndex v be = some (v % 2 ^ 32, if be = 0xFF then v / 2 ^ 32 % 2 ^ 32 else 0) := by
  rcases h with rfl | rfl <;> rfl

theorem doorbellIndex_otherwise (v : Nat) {be : Nat} (h : be ≠ 0xF ∧ be ≠ 0xFF) : doorbellIndex v be = none := by
  simp [doorbellIndex, h.1, h.2]

/-- Settles O10: `Dev.bellOk_iff` says which doorbells a ring takes. -/
theorem doorbellMovesAnIndex : Obligations.DoorbellMovesAnIndex := by
  intro s w r v be hs hq
  refine ⟨fun h => ?_, fun h hhi hst howner hfar => ?_, fun h hnot => ?_⟩
  · exact (exec_doorbell w r v be s).trans (s.at_id 7 _ hs (by simp only [Dev.doorbell, doorbellIndex_otherwise v h]))
  · have hok := (Dev.bellOk_iff (s.enter 7).dev w r (v % 2 ^ 32) _).2 ⟨hhi, hst, by cases w <;> exact howner, (Ring.accepts_iff _ _).2 hfar⟩
    exact (exec_doorbell w r v be s).trans (s.at_become 7 _ _ hs
      ((Dev.doorbell_heard hq (doorbellIndex_of v h)).trans (if_pos hok)) rfl)
  · have hrejected : ¬(s.enter 7).dev.bellOk w r (v % 2 ^ 32) (if be = 0xFF then v / 2 ^ 32 % 2 ^ 32 else 0) = true := by
      rw [Dev.bellOk_iff, Ring.accepts_iff]
      rintro ⟨hhi, hst, howner, hfar⟩
      rcases hnot with h1 | h1 | h1 | h1
      · exact h1 hhi
      · exact hst h1
      · exact h1 (by cases w <;> exact howner)
      · exact absurd hfar (Nat.not_le.2 h1)
    exact (exec_doorbell w r v be s).trans (s.at_become 7 _ _ hs
      ((Dev.doorbell_heard hq (doorbellIndex_of v h)).trans (if_neg hrejected)) rfl)

end Sys2Proof.Machine
end

section
/-!
What Ledger records, queued NV writes and closing sessions leave: the Ledger and the burst FIFO write their own objects only
(`Dev.Records`), the end of a session also its staging, the takes that name it, and the session itself (`Dev.Closes`).
-/

namespace Sys2Proof.Machine

/-! ## Effects that record -/

/-- The objects the Ledger and the NV store's queue write. -/
def recordObjs : List Obj := [.ledgerNextSeq, .ledgerOldestSeq, .nvQueue, .nvParamFree]

/-- From `d` to `d'` the Ledger and the NV store's queue may have grown, and nothing else of the block has changed. -/
structure Dev.Records (d d' : Dev) : Prop where
  objs : ∀ o, o ∉ recordObjs → ∀ i, d'.g o i = d.g o i
  late : ∀ l ∈ d.late, l ∈ d'.late
  nv : d'.nv = { d.nv with queue := d'.nv.queue, pairs := d'.nv.pairs }
  same : d' = { d with objs := d'.objs, late := d'.late, nv := d'.nv }

section
variable {a b c : Dev}

theorem Dev.Records.refl (d : Dev) : d.Records d := ⟨fun _ _ _ => rfl, fun _ h => h, rfl, rfl⟩

theorem Dev.Records.trans (h : a.Records b) (k : b.Records c) : a.Records c :=
  ⟨fun o ho i => (k.objs o ho i).trans (h.objs o ho i), fun l hl => k.late l (h.late l hl),
    k.nv.trans (congrArg (fun x : NvUnit => { x with queue := c.nv.queue, pairs := c.nv.pairs }) h.nv),
    k.same.trans (congrArg (fun x : Dev => { x with objs := c.objs, late := c.late, nv := c.nv }) h.same)⟩

theorem Dev.Records.ite (p : Prop) [Decidable p] (h : a.Records b) (k : a.Records c) : a.Records (if p then b else c) := by
  split
  · exact h
  · exact k

theorem Dev.Records.foldl {α : Type} (d : Dev) (xs : List α) (f : Dev → α → Dev) (h : ∀ (b : Dev) (x : α), b.Records (f b x)) :
    d.Records (xs.foldl f d) :=
  List.foldlRecOn (motive := fun b => d.Records b) _ _ (.refl d) fun b hb x _ => hb.trans (h b x)

theorem Dev.g_put_of_ne (d : Dev) {o p : Obj} (i k v : Nat) (h : p ≠ o) : (d.put o i v).g p k = d.g p k := by
  refine d.g_put_other o p i k v fun hidx => h ?_
  have ho := o.ctorIdx_lt
  have hp := p.ctorIdx_lt
  rw [← Obj.ofNat_ctorIdx p, ← Obj.ofNat_ctorIdx o]
  exact congrArg Obj.ofNat (by omega)

theorem Dev.Records.put (h : a.Records b) (o : Obj) (i v : Nat) (ho : o ∈ recordObjs) : a.Records (b.put o i v) :=
  h.trans ⟨fun _ hp k => b.g_put_of_ne i k v fun heq => hp (heq ▸ ho), fun _ hl => hl, rfl, rfl⟩

theorem Dev.Records.later (h : a.Records b) (l : Late) : a.Records (b.later l) :=
  h.trans ⟨fun _ _ _ => rfl, fun _ hl => List.mem_append_left _ hl, rfl, rfl⟩

theorem Dev.Records.queues (h : a.Records b) (q : List NvJob) (ps : Tab (List NvPair)) :
    a.Records { b with nv := { b.nv with queue := q, pairs := ps } } :=
  h.trans ⟨fun _ _ _ => rfl, fun _ hl => hl, rfl, rfl⟩

end

theorem Dev.reportPages_records (d : Dev) : d.Records d.reportPages :=
  .ite _ (((Dev.Records.refl d).put .nvParamFree 0 _ (by decide)).later _) ((Dev.Records.refl d).put .nvParamFree 0 _ (by decide))

theorem Dev.jobLost_records (d : Dev) (j : NvJob) : d.Records (d.jobLost j) :=
  .ite _ (((Dev.Records.refl d).queues d.nv.queue _).trans (Dev.reportPages_records _)) (.refl d)

theorem Dev.nvWrite_records (d : Dev) (j : NvJob) : d.Records (d.nvWrite j) :=
  .ite _ ((d.jobLost_records j).later _) (((Dev.Records.refl d).queues _ d.nv.pairs).put .nvQueue 0 _ (by decide))

theorem Dev.keepCounter_records (d : Dev) (n v : Nat) : d.Records (d.keepCounter n v) := d.nvWrite_records _

theorem Dev.ledgerPut_records (e : Env) (d : Dev) (kind : Nat) (w : Origin) (mid : List Byte) (detail : Nat) :
    d.Records (d.ledgerPut e kind w mid detail) := by
  unfold Dev.ledgerPut
  refine .trans ?_ (Dev.nvWrite_records _ _)
  have hnext := (Dev.Records.refl d).put .ledgerNextSeq 0 (d.g .ledgerNextSeq + 1) (by decide)
  have holdest := Dev.Records.ite (decide (4096 + d.g .ledgerOldestSeq ≤ d.g .ledgerNextSeq) = true)
    (hnext.put .ledgerOldestSeq 0 (d.g .ledgerNextSeq + 1 - 4096) (by decide)) hnext
  have hlost := Dev.Records.ite ((decide (4096 + d.g .ledgerOldestSeq ≤ d.g .ledgerNextSeq) &&
    decide (d.g .ledgerMarked + 4096 < d.g .ledgerNextSeq)) = true)
    ((holdest.later (.add .ledgerLost 0 1)).later (.flag .ledgerEventFlags 0 (2 ^ 1))) holdest
  exact .ite _ (hlost.later _) hlost

theorem Dev.ledger_records (e : Env) (d : Dev) (kind : Nat) (w : Origin) (index sub status detail : Nat) :
    d.Records (d.ledger e kind w index sub status detail) := d.ledgerPut_records ..

theorem Dev.reportPages_nextSeq (d : Dev) : d.reportPages.g .ledgerNextSeq = d.g .ledgerNextSeq :=
  iteInduction (motive := fun b : Dev => b.g .ledgerNextSeq = d.g .ledgerNextSeq)
    (fun _ => Dev.g_put_of_ne d 0 0 _ (by decide)) fun _ => Dev.g_put_of_ne d 0 0 _ (by decide)

theorem Dev.nvWrite_nextSeq (d : Dev) (j : NvJob) : (d.nvWrite j).g .ledgerNextSeq = d.g .ledgerNextSeq := by
  unfold Dev.nvWrite
  split
  · unfold Dev.jobLost
    split
    · exact (Dev.reportPages_nextSeq _)
    · rfl
  · exact Dev.g_put_of_ne _ 0 0 _ (by decide)

/-- A record takes the next sequence number. -/
theorem Dev.ledgerPut_nextSeq (e : Env) (d : Dev) (kind : Nat) (w : Origin) (mid : List Byte) (detail : Nat) :
    (d.ledgerPut e kind w mid detail).g .ledgerNextSeq = (d.g .ledgerNextSeq + 1) % 2 ^ 32 := by
  unfold Dev.ledgerPut
  refine (Dev.nvWrite_nextSeq _ _).trans ?_
  let counted (b : Dev) : Prop := b.g .ledgerNextSeq = (d.g .ledgerNextSeq + 1) % 2 ^ 32
  have hnext : counted (d.put .ledgerNextSeq 0 (d.g .ledgerNextSeq + 1)) := Dev.g_put_same d .ledgerNextSeq 0 _
  have holdest := iteInduction (motive := counted) (c := decide (4096 + d.g .ledgerOldestSeq ≤ d.g .ledgerNextSeq) = true)
    (fun _ => (Dev.g_put_of_ne (o := .ledgerOldestSeq) (p := .ledgerNextSeq) _ 0 0 (d.g .ledgerNextSeq + 1 - 4096) (by decide)).trans hnext) fun _ => hnext
  have hlost : ∀ (p : Prop) [Decidable p] (b : Dev) (x y : Late), counted b →
      counted (if p then (b.later x).later y else b) :=
    fun p _ b x y hb => iteInduction (motive := counted) (fun _ => hb) fun _ => hb
  exact iteInduction (motive := counted) (fun _ => hlost _ _ _ _ holdest) fun _ => hlost _ _ _ _ holdest

/-! ## The end of a session -/

/-- The objects the end of a session writes, and with it the undoing of takes. -/
def closeObjs : List Obj := recordObjs ++ [.tkState, .tkKind, .tkUndoCause, .svState, .engDeps, .engLoad, .engShadow,
  .engLbGranted, .engLbShadow, .engLbFree, .stgState, .stgOwner, .stgEntries, .sesState, .sesRole, .sesChannel, .sesCred,
  .sesCount]

/-- From `d` to `d'` sessions may have ended, with their stagings and the takes that named these, and the Ledger and the NV
store's queue may have grown; nothing else of the block has changed. -/
structure Dev.Closings (d d' : Dev) : Prop where
  objs : ∀ o, o ∉ closeObjs → ∀ i, d'.g o i = d.g o i
  late : ∀ l ∈ d.late, l ∈ d'.late
  nv : d'.nv = { d.nv with queue := d'.nv.queue, pairs := d'.nv.pairs }
  ses : d'.ses = { d.ses with opened := d'.ses.opened, assists := d'.ses.assists, held := d'.ses.held,
                              transfers := d'.ses.transfers, trdp := d'.ses.trdp }
  opened : ∀ p ∈ d'.ses.opened, p ∈ d.ses.opened
  same : d' = { d with objs := d'.objs, late := d'.late, nv := d'.nv, stagings := d'.stagings, takes := d'.takes,
                       deps := d'.deps, salvos := d'.salvos, ses := d'.ses }

section
variable {a b c : Dev}

theorem Dev.Closings.refl (d : Dev) : d.Closings d := ⟨fun _ _ _ => rfl, fun _ h => h, rfl, rfl, fun _ h => h, rfl⟩

theorem Dev.Closings.trans (h : a.Closings b) (k : b.Closings c) : a.Closings c :=
  ⟨fun o ho i => (k.objs o ho i).trans (h.objs o ho i), fun l hl => k.late l (h.late l hl),
    k.nv.trans (congrArg (fun x : NvUnit => { x with queue := c.nv.queue, pairs := c.nv.pairs }) h.nv),
    k.ses.trans (congrArg (fun x : SesUnit => { x with opened := c.ses.opened, assists := c.ses.assists, held := c.ses.held,
                                                       transfers := c.ses.transfers, trdp := c.ses.trdp }) h.ses),
    fun p hp => h.opened p (k.opened p hp),
    k.same.trans (congrArg (fun x : Dev => { x with objs := c.objs, late := c.late, nv := c.nv, stagings := c.stagings,
                                                    takes := c.takes, deps := c.deps, salvos := c.salvos,
                                                    ses := c.ses }) h.same)⟩

theorem Dev.Closings.ite (p : Prop) [Decidable p] (h : a.Closings b) (k : a.Closings c) :
    a.Closings (if p then b else c) := by
  split
  · exact h
  · exact k

theorem Dev.Closings.foldl {α : Type} (d : Dev) (xs : List α) (f : Dev → α → Dev)
    (h : ∀ (b : Dev) (x : α), b.Closings (f b x)) : d.Closings (xs.foldl f d) :=
  List.foldlRecOn (motive := fun b => d.Closings b) _ _ (.refl d) fun b hb x _ => hb.trans (h b x)

theorem Dev.Records.closings (h : a.Records b) : a.Closings b :=
  ⟨fun o ho i => h.objs o (fun hr => ho (List.mem_append_left _ hr)) i, h.late, h.nv,
    by rw [h.same], fun p hp => by rwa [h.same] at hp, h.same.trans (by rw [h.same])⟩

theorem Dev.Closings.put (h : a.Closings b) (o : Obj) (i v : Nat) (ho : o ∈ closeObjs) : a.Closings (b.put o i v) :=
  h.trans ⟨fun _ hp k => b.g_put_of_ne i k v fun heq => hp (heq ▸ ho), fun _ hl => hl, rfl, rfl, fun _ hp => hp, rfl⟩

theorem Dev.Closings.later (h : a.Closings b) (l : Late) : a.Closings (b.later l) :=
  h.trans ⟨fun _ _ _ => rfl, fun _ hl => List.mem_append_left _ hl, rfl, rfl, fun _ hp => hp, rfl⟩

/-- Takes, stagings, salvos and departures may change in any way. -/
theorem Dev.Closings.parts (h : a.Closings b) (ts : Tab Take) (ss : Tab Staging) (vs : Tab Salvo) (ds : Tab DepCtx) :
    a.Closings { b with takes := ts, stagings := ss, salvos := vs, deps := ds } :=
  h.trans ⟨fun _ _ _ => rfl, fun _ hl => hl, rfl, rfl, fun _ hp => hp, rfl⟩

/-- Sessions may end, with what waited for them. -/
theorem Dev.Closings.sessions (h : a.Closings b) (u : SesUnit)
    (hu : u = { b.ses with opened := u.opened, assists := u.assists, held := u.held, transfers := u.transfers,
                           trdp := u.trdp })
    (hopened : ∀ p ∈ u.opened, p ∈ b.ses.opened) : a.Closings { b with ses := u } :=
  h.trans ⟨fun _ _ _ => rfl, fun _ hl => hl, rfl, hu, hopened, rfl⟩

end

theorem Dev.reportEngine_closings (d : Dev) (n : Nat) : d.Closings (d.reportEngine n) :=
  ((((((Dev.Closings.refl d).put .engDeps n _ (by decide)).put .engLoad n _ (by decide)).put .engShadow n _ (by decide)).put
    .engLbGranted n _ (by decide)).put .engLbShadow n _ (by decide)).put .engLbFree n _ (by decide)

theorem Dev.reportEngines_closings (d : Dev) : d.Closings d.reportEngines :=
  .foldl d _ _ Dev.reportEngine_closings

theorem Dev.salvoDrop_closings (d : Dev) (s n : Nat) : d.Closings (d.salvoDrop s n) := by
  have hsalvo := (Dev.Closings.refl d).parts d.takes d.stagings
    (d.salvos.put s { d.salvos.getD s {} with live := (d.salvos.getD s {}).live.filter (· != n) }) d.deps
  exact .ite _ ((hsalvo.put .svState s 3 (by decide)).later _) hsalvo

/-- What a departure keeps once its take is undone. -/
def Dev.takeDropped (d : Dev) (n : Nat) (t : Take) : DepCtx :=
  { d.dep n with linger := (d.dep n).linger ++ (t.shadow.map fun p => p.2.holds).flatten, shadow := []
                 holdPic := if t.phase = .capture then none else (d.dep n).holdPic }

theorem Dev.undoOne_closings (d : Dev) (n cause : Nat) : d.Closings (d.undoOne n cause) := by
  unfold Dev.undoOne
  split
  next => exact .refl d
  next t _ =>
    have hundone := ((((((Dev.Closings.refl d).parts (d.takes.del n) d.stagings d.salvos
      (d.deps.put n (d.takeDropped n t))).put .tkState n 0 (by decide)).put .tkKind n 0 (by decide)).put
      .tkUndoCause n cause (by decide)).later (.add .tkUndone n 1)).later (.flag .tkEventFlags n (2 ^ 1))
    cases t.salvo with
    | none => exact hundone
    | some v => exact hundone.trans (Dev.salvoDrop_closings _ _ _)

theorem Dev.undo_closings (d : Dev) (n cause : Nat) : d.Closings (d.undo n cause) :=
  ((d.undoOne_closings n cause).trans (.foldl _ _ _ fun b p => b.undoOne_closings p 9)).trans (Dev.reportEngines_closings _)

theorem Dev.undoWhere_closings (d : Dev) (cause : Nat) (p : Dev → Nat → Take → Bool) : d.Closings (d.undoWhere cause p) :=
  .foldl d _ _ fun b n => b.undo_closings n cause

theorem Dev.freeStg_closings (d : Dev) (k : Nat) : d.Closings (d.freeStg k) :=
  ((((Dev.Closings.refl d).parts d.takes (d.stagings.put k {}) d.salvos d.deps).put .stgState k stgFree (by decide)).put
    .stgOwner k 0xFFFF (by decide)).put .stgEntries k 0 (by decide)

theorem Dev.abandonStg_closings (d : Dev) (k : Nat) : d.Closings (d.abandonStg k) :=
  (d.undoWhere_closings 10 _).trans (Dev.freeStg_closings _ k)

theorem Tab.del_eq_filter {α : Type} (t : Tab α) (x : Nat) : t.del x = t.filter fun p => p.1 != x := by
  induction t with
  | nil => rfl
  | cons p t ih =>
    by_cases h : x = p.1
    · simp [Tab.del, ← h, ih]
    · simp [Tab.del, h, Ne.symm h, ih]

theorem Tab.mem_del {α : Type} {t : Tab α} {x : Nat} {p : Nat × α} : p ∈ t.del x ↔ p ∈ t ∧ p.1 ≠ x := by
  rw [Tab.del_eq_filter, List.mem_filter, bne_iff_ne]

theorem Tab.fst_ne_of_find_none {α : Type} {t : Tab α} {x : Nat} (h : t.find x = none) : ∀ p ∈ t, p.1 ≠ x := by
  induction t with
  | nil => exact fun _ hp => absurd hp List.not_mem_nil
  | cons q t ih =>
    rw [Tab.find] at h
    split at h
    · exact absurd h (Option.some_ne_none _)
    next hne =>
      intro p hp
      rcases List.mem_cons.1 hp with rfl | hp
      · exact Ne.symm hne
      · exact ih h p hp

/-- What is left of the block once the staging of the session is discarded and the Ledger has the session's end. -/
def Dev.sessionLeft (e : Env) (d : Dev) (s cause : Nat) : Dev :=
  let b := match d.heldStg s with
    | some k => (d.abandonStg k).flag .stgEvent k 2
    | none => d
  b.ledger e 0x21 (b.origin s) 0 0 0 cause

theorem Dev.sessionLeft_closings (e : Env) (d : Dev) (s cause : Nat) : d.Closings (d.sessionLeft e s cause) := by
  unfold Dev.sessionLeft
  refine .trans ?_ (Dev.ledger_records ..).closings
  cases d.heldStg s with
  | none => exact .refl d
  | some k => exact (d.abandonStg_closings k).later _

/-- The session unit without session `s`, and without what its peer `p` had waiting. -/
def SesUnit.without (u : SesUnit) (s : Nat) (p : Peer) : SesUnit :=
  { u with opened := u.opened.del s
           assists := u.assists.filter fun a => a.peer != p
           held := u.held.filter fun a => a.peer != p
           transfers := u.transfers.filter fun t => t.peer != p
           trdp := u.trdp.filter fun h => h.peer != p || h.op == 5 }

/-- The objects of a session once it is closed. -/
def Dev.sessionCleared (d : Dev) (s : Nat) : Dev :=
  let d := (d.put .sesState s 0).put .sesRole s 0 |>.put .sesChannel s 0 |>.put .sesCred s 0
  (d.put .sesCount 0 (d.g .sesCount - 1)).fire 0x2B0

theorem Dev.closeSession_none (e : Env) {d : Dev} {s : Nat} (cause : Nat) (h : d.session s = none) :
    d.closeSession e s cause = d := by
  simp only [Dev.closeSession, h]

theorem Dev.closeSession_some (e : Env) {d : Dev} {s : Nat} {x : Session} (cause : Nat) (h : d.session s = some x) :
    d.closeSession e s cause =
      Dev.sessionCleared { d.sessionLeft e s cause with ses := (d.sessionLeft e s cause).ses.without s x.peer } s := by
  simp only [Dev.closeSession, h]
  rfl

theorem Dev.sessionCleared_closings (d : Dev) (s : Nat) : d.Closings (d.sessionCleared s) :=
  (((((Dev.Closings.refl d).put .sesState s 0 (by decide)).put .sesRole s 0 (by decide)).put .sesChannel s 0 (by decide)).put
    .sesCred s 0 (by decide)).put .sesCount 0 _ (by decide) |>.later _

theorem Dev.closeSession_closings (e : Env) (d : Dev) (s cause : Nat) : d.Closings (d.closeSession e s cause) := by
  cases h : d.session s with
  | none => rw [Dev.closeSession_none e cause h]; exact .refl d
  | some x =>
    rw [Dev.closeSession_some e cause h]
    exact ((d.sessionLeft_closings e s cause).sessions ((d.sessionLeft e s cause).ses.without s x.peer) rfl fun p hp => (Tab.mem_del.1 hp).1).trans
      (Dev.sessionCleared_closings _ s)

theorem Dev.closeSession_ended (e : Env) (d : Dev) (s cause : Nat) :
    ∀ p ∈ (d.closeSession e s cause).ses.opened, p.1 ≠ s := by
  cases h : d.session s with
  | none => rw [Dev.closeSession_none e cause h]; exact Tab.fst_ne_of_find_none h
  | some x => rw [Dev.closeSession_some e cause h]; exact fun p hp => (Tab.mem_del.1 hp).2

theorem Dev.closeWhere_closings (e : Env) (d : Dev) (cause : Nat) (p : Dev → Nat → Session → Bool) :
    d.Closings (d.closeWhere e cause p) :=
  .foldl d _ _ fun b x => b.closeSession_closings e x.1 cause

theorem Dev.closeAll_ended (e : Env) (cause : Nat) (xs : List (Nat × Session)) (d : Dev) :
    ∀ q ∈ (xs.foldl (fun d (x : Nat × Session) => d.closeSession e x.1 cause) d).ses.opened,
      q ∈ d.ses.opened ∧ ∀ x ∈ xs, q.1 ≠ x.1 := by
  induction xs generalizing d with
  | nil => exact fun q hq => ⟨hq, fun _ hx => absurd hx List.not_mem_nil⟩
  | cons x xs ih =>
    intro q hq
    obtain ⟨hmem, hrest⟩ := ih (d.closeSession e x.1 cause) q hq
    exact ⟨(d.closeSession_closings e x.1 cause).opened q hmem, fun y hy => (List.mem_cons.1 hy).elim
      (fun heq => heq ▸ d.closeSession_ended e x.1 cause q hmem) (hrest y)⟩

/-- No session that satisfied the test is open after it. -/
theorem Dev.closeWhere_ended (e : Env) (d : Dev) (cause : Nat) (p : Dev → Nat → Session → Bool) :
    ∀ q ∈ (d.closeWhere e cause p).ses.opened, q ∈ d.ses.opened ∧ p d q.1 q.2 = false := by
  intro q hq
  obtain ⟨hmem, hrest⟩ := d.closeAll_ended e cause _ q hq
  refine ⟨hmem, ?_⟩
  by_contra hp
  exact hrest q (List.mem_filter.2 ⟨hmem, by simpa using hp⟩) rfl

theorem Dev.sessionOf_eq_none {d : Dev} {p : Peer} : d.sessionOf p = none ↔ ∀ q ∈ d.ses.opened, q.2.peer ≠ p := by
  simp [Dev.sessionOf, List.find?_eq_none]

theorem Dev.closeWhere_of_none (e : Env) {d : Dev} (cause : Nat) {p : Dev → Nat → Session → Bool}
    (h : ∀ q ∈ d.ses.opened, p d q.1 q.2 = false) : d.closeWhere e cause p = d := by
  unfold Dev.closeWhere
  rw [List.filter_eq_nil_iff.2 fun q hq => by simp [h q hq]]
  rfl

end Sys2Proof.Machine
end

section
/-!
Ring commands that end what a ring carried, and the descriptor window (O9).
-/

namespace Sys2Proof.Machine

theorem Dev.Closings.ring {a b : Dev} (h : a.Closings b) (r : Nat) : b.ring r = a.ring r :=
  (congrArg (fun x : Dev => x.ring r) h.same :)

theorem Dev.closeRing_closings (e : Env) (d : Dev) (r : Nat) : d.Closings (d.closeRing e r) := d.closeWhere_closings e 4 _

/-- No session is bound to the ring any more. -/
theorem Dev.sessionOf_closeRing (e : Env) (d : Dev) (r : Nat) : (d.closeRing e r).sessionOf (.ring r) = none :=
  Dev.sessionOf_eq_none.2 fun q hq => by simpa using (d.closeWhere_ended e 4 _ q hq).2

theorem Dev.closeRing_of_none (e : Env) {d : Dev} {r : Nat} (h : d.sessionOf (.ring r) = none) : d.closeRing e r = d :=
  Dev.closeWhere_of_none e 4 fun q hq => by simpa using Dev.sessionOf_eq_none.1 h q hq

section
variable {d : Dev} {r : Nat}

theorem Dev.ringDisable_refused (e : Env) (hq : d.quarantine = false) (h : (d.ring r).st = .disabled) :
    d.ringDisable e r = d.ringStatus 0x03A0 := by
  simp [Dev.ringDisable, Dev.ringBarred_of_not_quarantine hq, h]

theorem Dev.ringDisable_accepted (e : Env) (hq : d.quarantine = false) (h : (d.ring r).st ≠ .disabled) :
    d.ringDisable e r = ((d.setRing r .disabled).closeRing e r).ringStatus 0 := by
  simp [Dev.ringDisable, Dev.ringBarred_of_not_quarantine hq, h]

theorem Dev.ringReset_eq (hq : d.quarantine = false) : d.ringReset r =
    if (d.ring r).st ≠ .disabled then d.ringStatus 0x03A0
    else (d.putRing r { d.ring r with p := 0, c := 0 }).ringStatus 0 := by
  rw [Dev.ringReset, Dev.ringBarred_of_not_quarantine hq]
  rfl

theorem Dev.ringClear_eq (hq : d.quarantine = false) : d.ringClear r =
    if (d.ring r).st ≠ .error then d.ringStatus 0x03A0 else (d.setRing r .enabled).ringStatus 0 := by
  rw [Dev.ringClear, Dev.ringBarred_of_not_quarantine hq]
  rfl

/-- A write of a word of the window while the selected ring is DISABLED. -/
theorem Dev.descWrite_accepted (k v : Nat) (hr : d.reg 0x30008 % 65536 = r) (h : (d.ring r).st = .disabled) :
    d.descWrite k v =
      Dev.ringStatus { d with descs := d.descs.put r ((d.desc r).set (k % 16) (v % 2 ^ 32)) } 0 := by
  subst hr
  exact if_neg (not_not.2 h)

theorem Dev.desc_put_same (r : Nat) (ws : List Nat) : Dev.desc { d with descs := d.descs.put r ws } r = ws :=
  Tab.getD_put_same ..

theorem Dev.desc_put_other {k : Nat} (ws : List Nat) (h : k ≠ r) :
    Dev.desc { d with descs := d.descs.put r ws } k = d.desc k :=
  Tab.getD_put_other _ _ _ _ _ h

end

@[simp] theorem Dev.reg_putReg_same (d : Dev) (a v : Nat) : (d.putReg a v).reg a = v % 2 ^ 32 := Tab.getD_put_same ..

theorem descWord_set_same {ws : List Nat} {k : Nat} (v : Nat) (h : k < ws.length) : descWord (ws.set k v) k = v := by
  simp [descWord, List.getD, h]

theorem descWord_set_other (ws : List Nat) {k j : Nat} (v : Nat) (h : j ≠ k) : descWord (ws.set k v) j = descWord ws j := by
  simp [descWord, List.getD, List.getElem?_set_ne (Ne.symm h)]

/-- Settles O9: each operation of RING_CMD by its equation; `closeRing` ends the sessions bound to a ring and leaves every
ring. -/
theorem ringCommandsChangeTheirRing : Obligations.RingCommandsChangeTheirRing := by
  refine ⟨fun s r hs hq => ⟨fun h => ?_, fun h hnone => ?_, fun h => ?_, fun h => ?_, fun h => ?_, fun h => ?_, fun h => ?_⟩,
    fun s k v hs hk => ⟨fun h => ?_, fun h => ?_⟩⟩
  · exact (exec_ringDisable r s).trans (s.at_become 7 _ _ hs (Dev.ringDisable_refused _ hq h) rfl)
  · refine (exec_ringDisable r s).trans (s.at_become 7 _ _ hs ((Dev.ringDisable_accepted _ hq h).trans ?_) rfl)
    rw [Dev.closeRing_of_none]
    · rfl
    · exact hnone
  · have hclose := Dev.closeRing_closings (s.enter 7).env ((s.enter 7).dev.setRing r .disabled) r
    have hring : ((((s.enter 7).dev.setRing r .disabled).closeRing (s.enter 7).env r).ringStatus 0).ring r =
        { (s.enter 7).dev.ring r with st := .disabled } := (hclose.ring r).trans (Dev.ring_putRing_same ..)
    refine ⟨_, (exec_ringDisable r s).trans (s.at_become 7 _ _ hs (Dev.ringDisable_accepted _ hq h) ?_), ?_, ?_, ?_, ?_, ?_⟩
    · exact (congrArg Dev.posts hclose.same :)
    · exact (congrArg Ring.st hring :)
    · exact (congrArg Ring.p hring :)
    · exact (congrArg Ring.c hring :)
    · exact (congrArg Ring.taken hring :)
    · exact Dev.sessionOf_closeRing ..
  · exact (exec_ringReset r s).trans (s.at_become 7 _ _ hs ((Dev.ringReset_eq hq).trans (if_pos h)) rfl)
  · exact (exec_ringReset r s).trans (s.at_become 7 _ _ hs ((Dev.ringReset_eq hq).trans (if_neg (not_not.2 h))) rfl)
  · exact (exec_ringClearError r s).trans (s.at_become 7 _ _ hs ((Dev.ringClear_eq hq).trans (if_pos h)) rfl)
  · exact (exec_ringClearError r s).trans (s.at_become 7 _ _ hs ((Dev.ringClear_eq hq).trans (if_neg (not_not.2 h))) rfl)
  · exact (exec_ringDescWrite k v s).trans (s.at_become 7 _ _ hs (if_pos h) rfl)
  · have hmod : k % 16 = k := Nat.mod_eq_of_lt hk
    refine ⟨_, (exec_ringDescWrite k v s).trans (s.at_become 7 _ _ hs (Dev.descWrite_accepted k v rfl h) rfl), rfl, rfl, rfl,
      rfl, Dev.reg_putReg_same .., fun hlen => ?_, fun j hj => ?_, fun r' hr' => Dev.desc_put_other _ hr'⟩
    · exact (congrArg (descWord · k) (Dev.desc_put_same _ _)).trans
        (by rw [hmod]; exact descWord_set_same _ (hlen ▸ hk))
    · exact (congrArg (descWord · j) (Dev.desc_put_same _ _)).trans (by rw [hmod]; exact descWord_set_other _ _ hj)

end Sys2Proof.Machine
end

section
/-!
ENTRY_FETCH (O11): a failed read of an entry in the part's own memory is also counted where the poison lies.
-/

namespace Sys2Proof.Machine

/-- Porter's first channel takes its commands from ring 0, which holds one entry, in the Pantry. -/
def pantryRingHolds : State :=
  { State.reset with
    dev := (((({} : Dev).put .ptrEnable 0 1).put .ptrState 0 ptrIdle).put .ptrRing 0 0).putRing 0
      { st := .enabled, p := 1, c := 0, cached := [0, 0, 0, 0, 4 + 2 ^ 8 + 2 ^ 12] } }

theorem pantryRingHolds_fetchReads : pantryRingHolds.dev.fetchReads pantryRingHolds.env 0 [] = false := by decide +kernel

theorem pantryRingHolds_ready : (pantryRingHolds.enter 7).dev.asleep = false ∧
    (pantryRingHolds.enter 7).dev.entryPending 0 = none ∧ ((pantryRingHolds.enter 7).dev.ring 0).st = .enabled ∧
    ((pantryRingHolds.enter 7).dev.ring 0).p ≠ ((pantryRingHolds.enter 7).dev.ring 0).c ∧
    (pantryRingHolds.enter 7).dev.consumerReady 0 = true ∧
    descKind ((pantryRingHolds.enter 7).dev.ring 0).cached = 1 ∧
    descLoc ((pantryRingHolds.enter 7).dev.ring 0).cached = 1 := by decide +kernel

/-- The failed read is the first free value drawn: the address of the poison (R375). -/
theorem pantryRingHolds_draws : (pantryRingHolds.enter 7).dev.drawn = 0 ∧
    ((pantryRingHolds.enter 7).dev.entryFetch (pantryRingHolds.enter 7).env 0 [] false).drawn = 1 := by decide +kernel

theorem exec_entryFetch (r : Nat) (bytes : List Byte) (ok : Bool) (s : State) : exec (.entryFetch r bytes ok) s =
    s.at (if s.dev.fetchReads s.env r bytes then 8 else 7) fun e d => d.entryFetch e r bytes ok := rfl

/-- An effect that only changes a ring and leaves something for rank 9 draws no free value. -/
theorem drawn_of_run_eq_become {s : State} {f : Env → Dev → Dev} {r : Nat} {c : Ring} {l : Late}
    (h : (.next (s.run f) : Out) = .next (s.become ((s.dev.putRing r c).later l))) : (f s.env s.dev).drawn = s.dev.drawn :=
  congrArg (fun t : State => t.dev.drawn) (Host.Outcome.next.inj h)

/-- Refutes O11: the read of the entry in the Pantry fails, and with the ring's ERROR the poison is counted in `pan_uncorr`,
its address a free value drawn; the statement has nothing but the ring and its group's flag change. -/
theorem not_entryFetchTakesTheHead : ¬ Obligations.EntryFetchTakesTheHead := by
  intro h
  obtain ⟨hawake, hpending, henabled, hholds, hready, hkind, hloc⟩ := pantryRingHolds_ready
  obtain ⟨hbefore, hafter⟩ := pantryRingHolds_draws
  have hrank : (if pantryRingHolds.dev.fetchReads pantryRingHolds.env 0 [] then 8 else 7) = 7 :=
    if_neg (by rw [pantryRingHolds_fetchReads]; decide)
  have hspec := h pantryRingHolds 0 []
  simp only [hrank] at hspec
  obtain ⟨hcommand, -⟩ := hspec hawake
  obtain ⟨-, hfails⟩ := hcommand hpending henabled hholds hready hkind
  rw [if_neg (by rw [hloc]; decide), exec_entryFetch, hrank, State.at_awake _ _ _ hawake] at hfails
  have hdrawn := drawn_of_run_eq_become hfails
  exact absurd ((hafter.symm.trans hdrawn).trans hbefore) (by decide)

end Sys2Proof.Machine
end

section
/-!
PCIE_RESET on a ring table that lists a ring twice (O12), and a register row refused because the Ledger is full (O23).
-/

namespace Sys2Proof.Machine

theorem run_of_at_eq {s : State} {r : Nat} {f : Env → Dev → Dev} {t : State} (hs : s.Awake r) (h : s.at r f = .next t) :
    (s.enter r).run f = t := by
  rw [State.at_awake _ _ _ hs] at h
  exact Host.Outcome.next.inj h

theorem ring_of_at_eq {s : State} {r : Nat} {f : Env → Dev → Dev} {t : State} (hs : s.Awake r) (h : s.at r f = .next t)
    (k : Nat) : t.dev.ring k = (f (s.enter r).env (s.enter r).dev).ring k :=
  run_of_at_eq hs h ▸ rfl

theorem late_of_at_eq {s : State} {r : Nat} {f : Env → Dev → Dev} {t : State} (hs : s.Awake r) (h : s.at r f = .next t) :
    t.dev.late = (f (s.enter r).env (s.enter r).dev).late :=
  run_of_at_eq hs h ▸ rfl

theorem late_become_answerCode (s : State) (code : Nat) : (s.become (s.dev.answerCode code)).dev.late = s.dev.late := rfl

/-! ## PCIE_RESET (R347) -/

theorem exec_pcieReset (kind : Nat) (s : State) : exec (.pcieReset kind) s = s.at 3 fun e d => d.pcieReset e kind := rfl

/-- The ring table lists ring 5 twice: owned by the cores where it is found, owned by the host behind that. -/
def ringListedTwice : State :=
  { State.reset with
    dev := { ({} : Dev) with
      rings := [(5, { st := .enabled, cached := [0, 0, 0, 0, 2 ^ 15] }), (5, { st := .enabled, cached := [] })] } }

theorem ringListedTwice_awake : ringListedTwice.Awake 3 ∧
    descCores ((ringListedTwice.enter 3).dev.ring 5).cached = true ∧
    ((ringListedTwice.enter 3).dev.ring 5).st = .enabled := by
  delta State.Awake; decide +kernel

theorem pcieReset_disables_ringListedTwice :
    (((ringListedTwice.enter 3).dev.pcieReset (ringListedTwice.enter 3).env 0).ring 5).st = .disabled := by
  decide +kernel

/-- Refutes O12: the clause on PCIE_RESET ranges over every block, also over one whose ring table lists a ring twice; the
reset goes through the table's entries, and for the host's entry it disables the ring the cores own. -/
theorem not_windowsAndEndpoint : ¬ Obligations.WindowsAndEndpoint := by
  intro h
  obtain ⟨hawake, hcores, henabled⟩ := ringListedTwice_awake
  obtain ⟨t, ht, -, hstands, -⟩ := h.2.1 ringListedTwice 0 hawake
  have hring := ring_of_at_eq hawake ((exec_pcieReset 0 _).symm.trans ht) 5
  have hdisabled := (congrArg Ring.st hring).trans pcieReset_disables_ringListedTwice
  exact absurd ((hdisabled.symm.trans (hstands 5 hcores)).trans henabled) (by decide)

/-! ## Register rows of objects (R411, R444) -/

theorem exec_laneTest (i v : Nat) (s : State) :
    exec (.laneTest i v) s = s.at 7 fun e d => d.directWrite e .laneTest i v := rfl

/-- The Ledger keeps its unacknowledged records, and has no place left. -/
def ledgerIsFull : State :=
  { State.reset with
    dev := (((({} : Dev).put .ledgerPolicy 0 1).put .ledgerNextSeq 0 5000).put .ledgerOldestSeq 0 904).put .ledgerMarked 0 0 }

theorem ledgerIsFull_refuses : ledgerIsFull.Awake 7 ∧ Obj.laneTest.rangeFails 1 = 0 ∧
    (ledgerIsFull.enter 7).dev.ownCode 3 .laneTest 0 1 = 0 ∧
    (ledgerIsFull.enter 7).dev.keepFails .laneTest 0 1 [] = 0x0417 ∧ (ledgerIsFull.enter 7).dev.late = [] := by
  delta State.Awake; decide +kernel

/-- The refused request sets bit 3 of the Ledger's flags (R444). -/
theorem directWrite_ledgerIsFull : ((ledgerIsFull.enter 7).dev.directWrite (ledgerIsFull.enter 7).env .laneTest 0 1).late =
    [.flag .ledgerEventFlags 0 8] := by
  decide +kernel

/-- Refutes O23: a test object's row refused with 0x0417 also sets bit 3 of `ledger_event_flags` at rank 9, where the
statement has nothing but the answer change. -/
theorem not_acceptedWritesPassTheChecks : ¬ Obligations.AcceptedWritesPassTheChecks := by
  intro h
  obtain ⟨hawake, hrange, hown, hkeep, hlate⟩ := ledgerIsFull_refuses
  obtain ⟨-, -, hrefused, -⟩ := h ledgerIsFull (.laneTest 0 1) .laneTest 0 1 hawake rfl
  have hwrite := late_of_at_eq hawake
    ((exec_laneTest 0 1 _).symm.trans (hrefused hrange hown (by rw [hkeep]; decide)))
  rw [late_become_answerCode, hlate, directWrite_ledgerIsFull] at hwrite
  exact absurd hwrite (by decide)

end Sys2Proof.Machine
end

section
/-!
Register rows of objects (R23, R411): the write that is refused, the write that acts, and what its record leaves.
-/

namespace Sys2Proof.Machine

theorem Dev.keepIndex_records (d : Dev) (index : Nat) : d.Records (d.keepIndex index) := by
  unfold Dev.keepIndex
  rcases d.pairNeed index with ⟨k, _ | q⟩
  · refine .ite _ (.refl d) ?_
    cases d.nv.block k with
    | none => exact .refl d
    | some p => exact (((Dev.Records.refl d).queues d.nv.queue _).trans (Dev.reportPages_records _)).trans (Dev.nvWrite_records _ _)
  · refine .ite _ (d.nvWrite_records _) ?_
    cases d.nv.block k with
    | none => exact .refl d
    | some p => exact (((Dev.Records.refl d).queues d.nv.queue _).trans (Dev.reportPages_records _)).trans (Dev.nvWrite_records _ _)

theorem Dev.keep_records (e : Env) (d : Dev) (w : Origin) (o : Obj) (i : Nat) : d.Records (d.keep e w o i) :=
  .ite _ (.refl d) ((d.ledger_records ..).trans (Dev.keepIndex_records _ _))

theorem Dev.recorded_records (e : Env) (d : Dev) (w : Origin) (o : Obj) (i v : Nat) (b : List Byte) :
    d.Records (d.recorded e w o i v b) :=
  .ite _ (.refl d) ((Dev.Records.ite _ (d.ledger_records ..) (.refl d)).trans (Dev.keep_records ..))

theorem Dev.Records.ink {a b : Dev} (h : a.Records b) : b.ink = a.ink := (congrArg Dev.ink h.same :)
theorem Dev.Records.posts {a b : Dev} (h : a.Records b) : b.posts = a.posts := (congrArg Dev.posts h.same :)
theorem Dev.Records.answer {a b : Dev} (h : a.Records b) : b.answer = a.answer := (congrArg Dev.answer h.same :)

section
variable {d : Dev} {o : Obj} {i v : Nat}

theorem firstFailing_eq_zero {cs : List Nat} : firstFailing cs = 0 ↔ ∀ c ∈ cs, c = 0 := by
  induction cs with
  | nil => simp [firstFailing]
  | cons c cs ih =>
    by_cases h : c = 0
    · simp [firstFailing, h, ih]
    · simp [firstFailing, h]

theorem Dev.directWrite_refused (e : Env) (h : firstFailing [o.rangeFails v, d.ownCode roleMaker o i v, d.keepFails o i v []] ≠ 0) :
    d.directWrite e o i v =
      (d.noteFull (firstFailing [o.rangeFails v, d.ownCode roleMaker o i v, d.keepFails o i v []])).answerCode
        (firstFailing [o.rangeFails v, d.ownCode roleMaker o i v, d.keepFails o i v []]) :=
  if_pos h

theorem Dev.directWrite_accepted (e : Env) (hrange : o.rangeFails v = 0) (hown : d.ownCode roleMaker o i v = 0)
    (hkeep : d.keepFails o i v [] = 0) :
    d.directWrite e o i v = (d.answerCode 0).applyWrite e registerOrigin o i v [] := by
  simp [Dev.directWrite, firstFailing, hrange, hown, hkeep, Dev.noteFull]

/-- A part object acts on the value, and the write is recorded. -/
theorem Dev.directWrite_acts (e : Env) {d' : Dev} (happly : o.info.apply = .now) (hrange : o.rangeFails v = 0)
    (hown : d.ownCode roleMaker o i v = 0) (hkeep : d.keepFails o i v [] = 0)
    (hact : (d.answerCode 0).actPart e registerOrigin o i v = some d') :
    d.directWrite e o i v = d'.recorded e registerOrigin o i v [] := by
  have hses : (if registerOrigin.ses < 32 then (d.answerCode 0).actSession e registerOrigin.ses o i v [] else none) = none := rfl
  rw [Dev.directWrite_accepted e hrange hown hkeep, Dev.applyWrite, happly]
  simp only [Dev.act, hses, hact]

theorem Dev.recorded_refused (e : Env) (w : Origin) (b : List Byte) (h : d.answer.code ≠ 0) :
    d.recorded e w o i v b = d := if_pos h

end

end Sys2Proof.Machine
end

section
/-!
Innkeeper's commands on sources (O13, O14, O15, O16) and the bits of flag words (O17). What is said of sources is that an
effect changes some of them (`Dev.MovesSources`) and what it makes of each.
-/

namespace Sys2Proof.Machine

/-! ## Sources and cores -/

@[simp] theorem Dev.src_putSrc_same (d : Dev) (x : Nat) (y : Src) : (d.putSrc x y).src x = y := Tab.getD_put_same ..

theorem Dev.src_putSrc_other (d : Dev) {x k : Nat} (y : Src) (h : k ≠ x) : (d.putSrc x y).src k = d.src k :=
  Tab.getD_put_other _ _ _ _ _ h

@[simp] theorem Dev.core_putCore_same (d : Dev) (t : Nat) (c : CoreTarget) : (d.putCore t c).core t = c :=
  Tab.getD_put_same ..

theorem Dev.core_putCore_other (d : Dev) {t k : Nat} (c : CoreTarget) (h : k ≠ t) : (d.putCore t c).core k = d.core k :=
  Tab.getD_put_other _ _ _ _ _ h

@[simp] theorem Dev.src_putCore (d : Dev) (t : Nat) (c : CoreTarget) (x : Nat) : (d.putCore t c).src x = d.src x := rfl

/-- The running priority of a stack (R393). -/
def runningOf : List (Nat × Nat) → Nat
  | [] => 0x100
  | p :: _ => p.2

theorem Dev.putCore_running (d : Dev) (t : Nat) (c : CoreTarget) :
    (d.putCore t c).g .tgtRunning t = runningOf c.stack % 2 ^ 16 := by
  unfold Dev.putCore
  rw [Dev.g_put_of_ne _ _ _ _ (by decide), Dev.g_put_of_ne _ _ _ _ (by decide), Dev.g_put_same]
  cases c.stack <;> rfl

/-- From `d` to `d'` only sources change, with the two objects that report them. -/
structure Dev.MovesSources (d d' : Dev) : Prop where
  ink : d'.ink = { d.ink with srcs := d'.ink.srcs }
  objs : ∀ o, o ≠ .srcState → o ≠ .srcCount → ∀ i, d'.g o i = d.g o i
  same : d' = { d with objs := d'.objs, ink := d'.ink }

section
variable {a b c : Dev}

theorem Dev.MovesSources.refl (d : Dev) : d.MovesSources d := ⟨rfl, fun _ _ _ _ => rfl, rfl⟩

theorem Dev.MovesSources.trans (h : a.MovesSources b) (k : b.MovesSources c) : a.MovesSources c :=
  ⟨k.ink.trans (congrArg (fun x : Ink => { x with srcs := c.ink.srcs }) h.ink),
    fun o hs hc i => (k.objs o hs hc i).trans (h.objs o hs hc i),
    k.same.trans (congrArg (fun x : Dev => { x with objs := c.objs, ink := c.ink }) h.same)⟩

theorem Dev.putSrc_movesSources (d : Dev) (x : Nat) (y : Src) : d.MovesSources (d.putSrc x y) :=
  ⟨rfl, fun _ hs hc _ => (Dev.g_put_of_ne _ _ _ _ hc).trans (Dev.g_put_of_ne _ _ _ _ hs), rfl⟩

theorem Dev.MovesSources.foldl (d : Dev) (xs : List Nat) (f : Dev → Nat → Dev)
    (h : ∀ (b : Dev) (x : Nat), b.MovesSources (f b x)) : d.MovesSources (xs.foldl f d) :=
  List.foldlRecOn (motive := fun b => d.MovesSources b) _ _ (.refl d) fun b hb x _ => hb.trans (h b x)

theorem Dev.MovesSources.late (h : a.MovesSources b) : b.late = a.late := (congrArg Dev.late h.same :)
theorem Dev.MovesSources.posts (h : a.MovesSources b) : b.posts = a.posts := (congrArg Dev.posts h.same :)
theorem Dev.MovesSources.holds (h : a.MovesSources b) : b.ink.holds = a.ink.holds := (congrArg Ink.holds h.ink :)
theorem Dev.MovesSources.cores (h : a.MovesSources b) : b.ink.cores = a.ink.cores := (congrArg Ink.cores h.ink :)

end

/-- An effect on one source, applied to each of a list that names none twice, takes each once and leaves the others. -/
theorem Dev.src_foldl (f : Dev → Nat → Dev) (φ : Src → Src) (hsame : ∀ d x, (f d x).src x = φ (d.src x))
    (hother : ∀ d x k, k ≠ x → (f d x).src k = d.src k) (xs : List Nat) (hxs : xs.Nodup) (d : Dev) (k : Nat) :
    (xs.foldl f d).src k = if k ∈ xs then φ (d.src k) else d.src k := by
  induction xs generalizing d with
  | nil => rfl
  | cons x xs ih =>
    obtain ⟨hx, hrest⟩ := List.nodup_cons.1 hxs
    rw [List.foldl_cons, ih hrest (f d x)]
    by_cases hk : k = x
    · subst hk
      rw [if_neg hx, if_pos List.mem_cons_self, hsame]
    · rw [hother d x k hk]
      exact if_congr (by simp [hk]) rfl rfl

theorem mem_setBitsOf {n x k : Nat} : k ∈ setBitsOf n x ↔ k < n ∧ x.testBit k = true := by
  simp [setBitsOf]

theorem setBitsOf_nodup (n x : Nat) : (setBitsOf n x).Nodup := List.nodup_range.filter _

theorem mem_wordSources {w bits x : Nat} : x ∈ wordSources w bits ↔ x / 32 = w ∧ bits.testBit (x % 32) = true := by
  simp only [wordSources, List.mem_map, mem_setBitsOf]
  constructor
  · rintro ⟨k, ⟨hk, hbit⟩, rfl⟩
    rw [Nat.mul_add_div (by decide), Nat.div_eq_of_lt hk, Nat.mul_add_mod, Nat.mod_eq_of_lt hk]
    exact ⟨rfl, hbit⟩
  · rintro ⟨hw, hbit⟩
    exact ⟨x % 32, ⟨Nat.mod_lt _ (by decide), hbit⟩, by omega⟩

theorem wordSources_nodup (w bits : Nat) : (wordSources w bits).Nodup :=
  (setBitsOf_nodup 32 bits).map fun _ _ h => Nat.add_left_cancel h

/-! ## Pending bits (R390) -/

theorem exec_inkPendSet (w bits : Nat) (s : State) : exec (.inkPendSet w bits) s =
    s.at 7 fun e d => (wordSources w bits).foldl (Dev.pendSet e.now) d := rfl
theorem exec_inkPendClr (w bits : Nat) (s : State) : exec (.inkPendClr w bits) s =
    s.at 7 fun _ d => (wordSources w bits).foldl Dev.pendClr d := rfl

/-- What INK_PEND_SET makes of a source it names. -/
def Src.pendSet (now : Nat) (x : Src) : Src :=
  match x.st with
  | .idle => { x with st := .pending, count := 0, soft := true, fromHold := false, first := now, last := now, since := now }
  | .pending => { x with soft := true }
  | .held => { x with st := .pending, soft := true, since := now }
  | .active => x

/-- What INK_PEND_CLR makes of a source it names. -/
def Src.pendClr (x : Src) : Src :=
  match x.st with
  | .pending | .held => {}
  | .idle | .active => x

/-- The effect sets the source to what `y` gives, or leaves it where `y` gives what it is. -/
theorem Dev.pendSet_cases (now : Nat) (d : Dev) (x : Nat) : d.pendSet now x = d.putSrc x ((d.src x).pendSet now) ∨
    (d.pendSet now x = d ∧ (d.src x).pendSet now = d.src x) := by
  cases h : (d.src x).st with
  | idle | pending | held => exact .inl (by simp only [Dev.pendSet, Src.pendSet, h])
  | active => exact .inr ⟨by simp only [Dev.pendSet, h], by simp only [Src.pendSet, h]⟩

theorem Dev.pendClr_cases (d : Dev) (x : Nat) : d.pendClr x = d.putSrc x (d.src x).pendClr ∨
    (d.pendClr x = d ∧ (d.src x).pendClr = d.src x) := by
  cases h : (d.src x).st with
  | pending | held => exact .inl (by simp only [Dev.pendClr, Src.pendClr, h])
  | idle | active => exact .inr ⟨by simp only [Dev.pendClr, h], by simp only [Src.pendClr, h]⟩

section
variable {d d' : Dev} {x : Nat} {y : Src}

theorem Dev.movesSources_of_cases (h : d' = d.putSrc x y ∨ (d' = d ∧ y = d.src x)) : d.MovesSources d' := by
  rcases h with rfl | ⟨rfl, -⟩
  · exact d.putSrc_movesSources x y
  · exact .refl d'

theorem Dev.src_same_of_cases (h : d' = d.putSrc x y ∨ (d' = d ∧ y = d.src x)) : d'.src x = y := by
  rcases h with rfl | ⟨rfl, rfl⟩
  · exact d.src_putSrc_same x y
  · rfl

theorem Dev.src_other_of_cases (h : d' = d.putSrc x y ∨ (d' = d ∧ y = d.src x)) (k : Nat) (hk : k ≠ x) :
    d'.src k = d.src k := by
  rcases h with rfl | ⟨rfl, -⟩
  · exact d.src_putSrc_other y hk
  · rfl

end

/-! ## Masks (R390) -/

theorem exec_inkMaskSet (w bits : Nat) (s : State) : exec (.inkMaskSet w bits) s =
    s.at 7 fun e d => d.maskSources e (wordSources w bits) 1 := rfl
theorem exec_inkMaskClr (w bits : Nat) (s : State) : exec (.inkMaskClr w bits) s =
    s.at 7 fun e d => d.maskSources e (wordSources w bits) 0 := rfl

theorem Dev.noteFull_eq (d : Dev) (code : Nat) : d.noteFull code = { d with late := (d.noteFull code).late } := by
  unfold Dev.noteFull
  split <;> rfl

/-- An accepted write of a mask puts it and records it. -/
theorem Dev.applyWrite_srcMask (e : Env) (d : Dev) (x v : Nat) :
    d.applyWrite e registerOrigin .srcMask x v [] =
      (d.put .srcMask x v).recorded e registerOrigin .srcMask x v [] := rfl

/-- From `d` to `d'` no more than the masks of the sources `xs` and what records them has changed. -/
structure Dev.Masks (xs : List Nat) (d d' : Dev) : Prop where
  ink : d'.ink = d.ink
  posts : d'.posts = d.posts
  masks : ∀ x, x ∉ xs → d'.g .srcMask x = d.g .srcMask x

theorem Dev.directWrite_srcMask_accepted (e : Env) {d : Dev} {x v : Nat} (hv : v ≤ 1) (hkeep : d.keepFails .srcMask x v [] = 0) :
    ((d.answerCode 0).put .srcMask x v).Records (d.directWrite e .srcMask x v) := by
  have hrange : Obj.srcMask.rangeFails v = 0 := by interval_cases v <;> rfl
  rw [Dev.directWrite_accepted e hrange rfl hkeep, Dev.applyWrite_srcMask]
  exact Dev.recorded_records ..

theorem Dev.directWrite_srcMask_masks (e : Env) (d : Dev) (x : Nat) {v : Nat} (hv : v ≤ 1) :
    Dev.Masks [x] d (d.directWrite e .srcMask x v) := by
  by_cases hkeep : d.keepFails .srcMask x v [] = 0
  · have h := Dev.directWrite_srcMask_accepted e hv hkeep
    exact ⟨h.ink, h.posts, fun k hk =>
      (h.objs .srcMask (by decide) k).trans (Dev.g_put_other_index _ _ _ _ _ fun heq => hk (heq ▸ List.mem_singleton_self _))⟩
  · have hcode : firstFailing [Obj.srcMask.rangeFails v, d.ownCode roleMaker .srcMask x v, d.keepFails .srcMask x v []] ≠ 0 :=
      fun h => hkeep (firstFailing_eq_zero.1 h _ (by simp))
    rw [Dev.directWrite_refused e hcode, Dev.noteFull_eq]
    exact ⟨rfl, rfl, fun _ _ => rfl⟩

theorem Dev.maskSources_masks (e : Env) (d : Dev) (xs : List Nat) {v : Nat} (hv : v ≤ 1) :
    Dev.Masks xs d (d.maskSources e xs v) := by
  refine List.foldlRecOn (motive := Dev.Masks xs d) _ _ ⟨rfl, rfl, fun _ _ => rfl⟩ fun b hb x hx => ?_
  have h := b.directWrite_srcMask_masks e x hv
  exact ⟨h.ink.trans hb.ink, h.posts.trans hb.posts, fun k hk => (h.masks k fun hmem =>
    hk (List.mem_singleton.1 hmem ▸ List.mem_of_mem_filter hx)).trans (hb.masks k hk)⟩

/-- One source named whose mask the NV store can keep takes the value. -/
theorem Dev.maskSources_one (e : Env) {d : Dev} {x v : Nat} (hv : v ≤ 1) (hkeep : d.keepFails .srcMask x v [] = 0) :
    (d.maskSources e [x] v).g .srcMask x = v := by
  by_cases hthere : d.g .srcMask x = v
  · simp [Dev.maskSources, hthere]
  · simp only [Dev.maskSources, List.filter_cons, bne_iff_ne, ne_eq, hthere, not_false_eq_true, if_true, List.filter_nil,
      List.foldl_cons, List.foldl_nil]
    rw [(Dev.directWrite_srcMask_accepted e hv hkeep).objs .srcMask (by decide)]
    exact Dev.g_put_of_lt _ _ _ _ (show v < 2 by omega)

theorem wordSources_one (w : Nat) {b : Nat} (hb : b < 32) : wordSources w (2 ^ b) = [32 * w + b] := by
  have hbits : setBitsOf 32 (2 ^ b) = [b] := by
    interval_cases b <;> rfl
  rw [wordSources, hbits]
  rfl

/-- What both mask writes do, by the value they give. -/
theorem maskSources_names (s : State) (w bits v : Nat) (hv : v ≤ 1) (hs : s.Awake 7) :
    ∃ t, s.at 7 (fun e d => d.maskSources e (wordSources w bits) v) = .next t ∧
      (∀ x, t.dev.src x = (s.enter 7).dev.src x) ∧ t.dev.ink = (s.enter 7).dev.ink ∧
      (∀ x, ¬(x / 32 = w ∧ bits.testBit (x % 32) = true) → t.dev.g .srcMask x = (s.enter 7).dev.g .srcMask x) ∧
      ∀ b, b < 32 → bits = 2 ^ b → (s.enter 7).dev.keepFails .srcMask (32 * w + b) v [] = 0 →
        t.dev.g .srcMask (32 * w + b) = v := by
  have h := (s.enter 7).dev.maskSources_masks (s.enter 7).env (wordSources w bits) hv
  refine ⟨_, s.at_become 7 _ _ hs rfl h.posts, fun x => congrArg (fun u : Ink => u.srcs.getD x {}) h.ink, h.ink,
    fun x hx => h.masks x fun hmem => hx (mem_wordSources.1 hmem), fun b hb hbits hkeep => ?_⟩
  subst hbits
  rw [wordSources_one w hb]
  exact Dev.maskSources_one _ hv hkeep

/-- What both pending writes do, by what they make of a source. -/
theorem pending_names (s : State) (f : Env → Dev → Nat → Dev) (φ : Env → Src → Src) (w bits : Nat) (hs : s.Awake 7)
    (hf : ∀ e d x, f e d x = d.putSrc x (φ e (d.src x)) ∨ (f e d x = d ∧ φ e (d.src x) = d.src x)) :
    ∃ t, s.at 7 (fun e d => (wordSources w bits).foldl (f e) d) = .next t ∧ t.clk = (s.enter 7).clk ∧
      t.mem = (s.enter 7).mem ∧ t.dev.late = (s.enter 7).dev.late ∧ t.dev.ink.holds = (s.enter 7).dev.ink.holds ∧
      t.dev.ink.cores = (s.enter 7).dev.ink.cores ∧
      (∀ x, ¬(x / 32 = w ∧ bits.testBit (x % 32) = true) → t.dev.src x = (s.enter 7).dev.src x) ∧
      ∀ x, x / 32 = w ∧ bits.testBit (x % 32) = true → t.dev.src x = φ (s.enter 7).env ((s.enter 7).dev.src x) := by
  have h := Dev.MovesSources.foldl (s.enter 7).dev (wordSources w bits) _
    fun b x => Dev.movesSources_of_cases (hf (s.enter 7).env b x)
  have hsrc := Dev.src_foldl _ (φ (s.enter 7).env) (fun d x => Dev.src_same_of_cases (hf (s.enter 7).env d x))
    (fun d x k => Dev.src_other_of_cases (hf (s.enter 7).env d x) k) _ (wordSources_nodup w bits) (s.enter 7).dev
  exact ⟨_, s.at_become 7 _ _ hs rfl h.posts, rfl, rfl, h.late, h.holds, h.cores,
    fun x hx => (hsrc x).trans (if_neg fun hmem => hx (mem_wordSources.1 hmem)),
    fun x hx => (hsrc x).trans (if_pos (mem_wordSources.2 hx))⟩

/-- Settles O13: each command takes the sources its bits name, each once. -/
theorem pendingBitsAndMasks : Obligations.PendingBitsAndMasks := by
  refine ⟨fun s w bits hs => ⟨?_, ?_⟩, fun s w bits hs => ⟨?_, ?_⟩⟩
  · exact pending_names s (fun e => Dev.pendSet e.now) (fun e => Src.pendSet e.now) w bits hs fun e d x => d.pendSet_cases e.now x
  · exact pending_names s (fun _ => Dev.pendClr) (fun _ => Src.pendClr) w bits hs fun _ d x => d.pendClr_cases x
  · exact maskSources_names s w bits 1 (by decide) hs
  · exact maskSources_names s w bits 0 (by decide) hs

end Sys2Proof.Machine
end

section
/-!
Firings, claims, completions, holds and flag words (O14, O15, O16, O17).
-/

namespace Sys2Proof.Machine

theorem exec_inkFire (x : Nat) (s : State) : exec (.inkFire x) s = s.at 7 fun _ d => d.fire x := rfl
theorem exec_inkComplete (c x : Nat) (s : State) : exec (.inkComplete c x) s = s.at 7 fun _ d => d.completeSrc c x := rfl
theorem exec_holdRelease (g : Nat) (s : State) : exec (.holdRelease g) s =
    s.at 8 fun e d => d.when (d.holdDue e.now g) fun d => d.holdEnd e.now g := rfl
theorem exec_hqArm (bits : Nat) (s : State) : exec (.hqArm bits) s = s.at 7 fun _ d =>
    if d.quarantine then d.barDrop else (setBitsOf 16 bits).foldl (fun d q => d.put .hqArmed q 1) d := rfl

/-! ## Claims (R396) -/

theorem Dev.claim_none {d : Dev} {c : Nat} (h : (d.core c).presented = none) : d.claim c = (0, d) := by
  simp only [Dev.claim, h]

theorem Dev.claim_some {d : Dev} {c x : Nat} (h : (d.core c).presented = some x) : d.claim c =
    (claimWord x (d.src x), ((d.putSrc x { st := .active }).putCore c
      { stack := (x, d.g .srcPrio x) :: (d.core c).stack, presented := none }).count .tgtClaims c) := by
  simp only [Dev.claim, h]

/-- An effect that posts nothing of its own, after one that posts: the writes of the first are applied. -/
theorem State.run_after (s : State) (f : Env → Dev → Dev) (g : Dev → Dev)
    (hposts : (g (f s.env s.dev)).posts = (f s.env s.dev).posts)
    (hg : { g (f s.env s.dev) with posts := [] } = g { f s.env s.dev with posts := [] }) :
    s.run (fun e d => g (f e d)) = (s.run f).become (g (s.run f).dev) := by
  show ({ s with dev := { g (f s.env s.dev) with posts := [] }, mem := s.mem.apply (g (f s.env s.dev)).posts } : State) = _
  rw [hg, hposts]
  rfl

/-- A core's read of its claim register. -/
def Dev.claimed (d : Dev) (c : Nat) : Dev := (d.claim c).2.answerWord (d.claim c).1

theorem exec_inkClaim (c : Nat) (s : State) : exec (.inkClaim c) s =
    s.at 8 fun e d => (d.passOnce e.now).claimed c := rfl

theorem Dev.claimed_posts (d : Dev) (c : Nat) : (d.claimed c).posts = d.posts := by
  show (d.claim c).2.posts = d.posts
  unfold Dev.claim
  split <;> rfl

theorem Dev.claimed_unposted (d : Dev) (c : Nat) :
    { d.claimed c with posts := [] } = Dev.claimed { d with posts := [] } c := by
  unfold Dev.claimed
  have hcore : Dev.core { d with posts := [] } c = d.core c := rfl
  cases h : (d.core c).presented with
  | none => rw [Dev.claim_none h, Dev.claim_none (hcore ▸ h)]; rfl
  | some x => rw [Dev.claim_some h, Dev.claim_some (hcore ▸ h)]; rfl

/-- INK_CLAIM of a block that is awake: the tick's pass, then the claim. -/
theorem exec_inkClaim_awake (c : Nat) {s : State} (hs : s.Awake 8) :
    exec (.inkClaim c) s = .next (((s.enter 8).run fun e d => d.passOnce e.now).become
      (((s.enter 8).run fun e d => d.passOnce e.now).dev.claimed c)) := by
  rw [exec_inkClaim, State.at_awake _ _ _ hs]
  exact congrArg Host.Outcome.next ((s.enter 8).run_after (fun e d => d.passOnce e.now)
    (fun d => d.claimed c) (Dev.claimed_posts _ c) (Dev.claimed_unposted _ c))

theorem Dev.barDrop_eq (d : Dev) : d.barDrop = { d with late := d.late ++ [.add .pcieBar0Drops 0 1, .fire 0x2BA] } := by
  unfold Dev.barDrop Dev.count Dev.fire Dev.later
  simp only [List.append_assoc, List.cons_append, List.nil_append]

/-! ## Arming (R403) -/

/-- From `d` to `d'` some host queues are armed. -/
structure Dev.Arms (qs : List Nat) (d d' : Dev) : Prop where
  armed : ∀ q, d'.g .hqArmed q = if q ∈ qs then 1 else d.g .hqArmed q
  objs : ∀ o, o ≠ .hqArmed → ∀ i, d'.g o i = d.g o i
  same : d' = { d with objs := d'.objs }

theorem Dev.foldl_arms (qs : List Nat) (d : Dev) : d.Arms qs (qs.foldl (fun d q => d.put .hqArmed q 1) d) := by
  induction qs generalizing d with
  | nil => exact ⟨fun _ => rfl, fun _ _ _ => rfl, rfl⟩
  | cons q qs ih =>
    obtain ⟨harmed, hobjs, hsame⟩ := ih (d.put .hqArmed q 1)
    refine ⟨fun k => ?_, fun o ho i => (hobjs o ho i).trans (Dev.g_put_of_ne _ _ _ _ ho), hsame⟩
    rw [List.foldl_cons, harmed k]
    by_cases hmem : k ∈ qs
    · rw [if_pos hmem, if_pos (List.mem_cons_of_mem _ hmem)]
    · rw [if_neg hmem]
      by_cases hk : k = q
      · subst hk
        rw [if_pos List.mem_cons_self]
        exact Dev.g_put_of_lt _ _ _ _ (by decide)
      · rw [if_neg (by simp [hk, hmem])]
        exact Dev.g_put_other_index _ _ _ _ _ hk

/-- Settles O14: a firing and a dropped write are left for rank 9; a claim follows the pass (`State.run_after`). -/
theorem firingsClaimsAndArming : Obligations.FiringsClaimsAndArming := by
  refine fun s => ⟨fun x hs => ?_, fun c hs => ⟨fun h => ?_, fun x h => ?_⟩, fun bits hs hq => ?_, fun bits hs hq => ?_⟩
  · exact (exec_inkFire x s).trans (s.at_become 7 _ _ hs rfl (s.enter_posts 7))
  · rw [exec_inkClaim_awake c hs, Dev.claimed, Dev.claim_none h]
  · rw [exec_inkClaim_awake c hs, Dev.claimed, Dev.claim_some h]
    rfl
  · exact (exec_hqArm bits s).trans (s.at_become 7 _ _ hs ((if_pos hq).trans (Dev.barDrop_eq _)) (s.enter_posts 7))
  · have h := Dev.foldl_arms (setBitsOf 16 bits) (s.enter 7).dev
    refine ⟨_, (exec_hqArm bits s).trans (s.at_become 7 _ _ hs (if_neg (by rw [hq]; decide)) (congrArg Dev.posts h.same :)),
      h.same, fun q hlt => ?_, fun o i ho => h.objs o ho i⟩
    exact (h.armed q).trans (if_congr (by simp [mem_setBitsOf, hlt]) rfl rfl)

/-! ## Completions (R397) -/

theorem Dev.completeSrc_active {d : Dev} {c x : Nat} (h : ∃ p ∈ (d.core c).stack, p.1 = x) : d.completeSrc c x =
    (d.putSrc x {}).putCore c { d.core c with stack := (d.core c).stack.filter fun p => p.1 != x } :=
  if_pos (by simpa using h)

theorem Dev.completeSrc_other {d : Dev} {c x : Nat} (h : ∀ p ∈ (d.core c).stack, p.1 ≠ x) :
    d.completeSrc c x = d.count .inkBadComplete :=
  if_neg fun hany => (List.any_eq_true.1 hany).elim fun p hp => h p hp.1 (beq_iff_eq.1 hp.2)

/-- Settles O15: by whether the source lies on the core's stack. -/
theorem completionsLeaveTheStack : Obligations.CompletionsLeaveTheStack := by
  refine fun s c x hs => ⟨fun h => ?_, fun h => ?_⟩
  · exact (exec_inkComplete c x s).trans (s.at_become 7 _ _ hs (Dev.completeSrc_other h) (s.enter_posts 7))
  · refine ⟨_, (exec_inkComplete c x s).trans (s.at_become 7 _ _ hs (Dev.completeSrc_active h) (s.enter_posts 7)), rfl, rfl,
      ?_, ?_, fun _ _ => ?_, fun y hy => (s.enter 7).dev.src_putSrc_other {} hy,
      fun n hn => ((s.enter 7).dev.putSrc x {}).core_putCore_other _ hn⟩
    · exact (congrArg Src.st (Dev.src_putSrc_same ..) :)
    · exact (congrArg CoreTarget.stack (Dev.core_putCore_same ..) :)
    · refine (Dev.putCore_running ..).trans ?_
      cases ((s.enter 7).dev.core c).stack.filter fun p => p.1 != x <;> rfl

/-! ## Holds (R399) -/

theorem Dev.holdDue_none (now : Nat) {d : Dev} {g : Nat} (h : d.ink.holds.find g = none) : d.holdDue now g = false := by
  simp only [Dev.holdDue, h]

theorem Dev.holdDue_some (now : Nat) {d : Dev} {g : Nat} {h : Hold} (hfind : d.ink.holds.find g = some h) :
    d.holdDue now g = true ↔ h.opened < now ∧ (d.g .cgCount g ≤ h.firings ∨ h.opened + d.g .cgTime g ≤ now) := by
  simp [Dev.holdDue, hfind]

/-- The hold itself is closed, its sources not yet released. -/
def Dev.holdClosed (d : Dev) (g : Nat) : Dev :=
  Dev.put { d with ink := { d.ink with holds := d.ink.holds.del g } } .cgHold g 0

/-- One source of the group, if it is HELD, becomes PENDING from the hold. -/
def Dev.holdReleases (now g : Nat) (d : Dev) (x : Nat) : Dev :=
  if (d.src x).st = .held ∧ d.g .srcCgroup x = g then
    d.putSrc x { d.src x with st := .pending, fromHold := true, since := now }
  else d

theorem Dev.holdEnd_eq (now : Nat) (d : Dev) (g : Nat) :
    d.holdEnd now g = (d.ink.srcs.map (·.1)).foldl (Dev.holdReleases now g) (d.holdClosed g) := rfl

theorem Dev.holdReleases_moves (now g : Nat) (d : Dev) (x : Nat) : d.MovesSources (d.holdReleases now g x) := by
  unfold Dev.holdReleases
  split
  · exact d.putSrc_movesSources x _
  · exact .refl d

theorem Dev.holdReleases_other (now g : Nat) (d : Dev) (x : Nat) {k : Nat}
    (h : k ≠ x ∨ (d.src k).st ≠ .held ∨ d.g .srcCgroup k ≠ g) : (d.holdReleases now g x).src k = d.src k := by
  unfold Dev.holdReleases
  split
  next hheld =>
    by_cases hk : k = x
    · subst hk
      rcases h with h | h | h
      · exact absurd rfl h
      · exact absurd hheld.1 h
      · exact absurd hheld.2 h
    · exact Dev.src_putSrc_other _ _ hk
  · rfl

theorem Dev.holdReleases_same (now : Nat) {g : Nat} {d : Dev} {x : Nat} (hheld : (d.src x).st = .held)
    (hgroup : d.g .srcCgroup x = g) :
    (d.holdReleases now g x).src x = { d.src x with st := .pending, fromHold := true, since := now } := by
  unfold Dev.holdReleases
  rw [if_pos ⟨hheld, hgroup⟩]
  exact Dev.src_putSrc_same ..

/-- A source that is not HELD, or of another group, stands, whatever else is released. -/
theorem Dev.holdReleases_foldl_other (now g : Nat) (xs : List Nat) (d : Dev) (k : Nat)
    (h : (d.src k).st ≠ .held ∨ d.g .srcCgroup k ≠ g) : (xs.foldl (Dev.holdReleases now g) d).src k = d.src k := by
  induction xs generalizing d with
  | nil => rfl
  | cons x xs ih =>
    have hsrc := d.holdReleases_other now g x (.inr h)
    have hobj := (d.holdReleases_moves now g x).objs .srcCgroup (by decide) (by decide) k
    exact (ih _ (by rwa [hsrc, hobj])).trans hsrc

/-- A HELD source of the group that the list names is released. -/
theorem Dev.holdReleases_foldl_same (now : Nat) {g : Nat} (xs : List Nat) (d : Dev) (k : Nat) (hmem : k ∈ xs)
    (hheld : (d.src k).st = .held) (hgroup : d.g .srcCgroup k = g) :
    (xs.foldl (Dev.holdReleases now g) d).src k = { d.src k with st := .pending, fromHold := true, since := now } := by
  induction xs generalizing d with
  | nil => exact absurd hmem List.not_mem_nil
  | cons x xs ih =>
    rw [List.foldl_cons]
    by_cases hk : k = x
    · subst hk
      have hsame := Dev.holdReleases_same now hheld hgroup
      rw [Dev.holdReleases_foldl_other _ _ _ _ _ (.inl (by rw [hsame]; exact SrcState.noConfusion)), hsame]
    · have hsrc := d.holdReleases_other now g x (.inl hk)
      have hobj := (d.holdReleases_moves now g x).objs .srcCgroup (by decide) (by decide) k
      rw [ih _ (List.mem_of_ne_of_mem hk hmem) (by rwa [hsrc]) (by rwa [hobj]), hsrc]

theorem Tab.mem_keys_of_find {α : Type} {t : Tab α} {x : Nat} {v : α} (h : t.find x = some v) : x ∈ t.map (·.1) := by
  by_contra hno
  have hne : ∀ p ∈ t, p.1 ≠ x := fun p hp heq => hno (heq ▸ List.mem_map_of_mem hp)
  have hdel : t.del x = t := by
    rw [Tab.del_eq_filter, List.filter_eq_self]
    exact fun p hp => bne_iff_ne.2 (hne p hp)
  rw [← hdel, Tab.find_del_same] at h
  exact absurd h (Option.some_ne_none _).symm

theorem Dev.mem_keys_of_held {d : Dev} {x : Nat} (h : (d.src x).st = .held) : x ∈ d.ink.srcs.map (·.1) := by
  cases hfind : d.ink.srcs.find x with
  | some v => exact Tab.mem_keys_of_find hfind
  | none =>
    rw [Dev.src, Tab.getD, hfind] at h
    exact absurd h SrcState.noConfusion

/-- What the end of a hold leaves. -/
theorem Dev.holdEnd_moves (now : Nat) (d : Dev) (g : Nat) : (d.holdClosed g).MovesSources (d.holdEnd now g) :=
  d.holdEnd_eq now g ▸ Dev.MovesSources.foldl _ _ _ (Dev.holdReleases_moves now g)

/-- Settles O16: the hold is due by `Dev.holdDue_some`, and its end goes through every source there is. -/
theorem holdsReleaseWhenDue : Obligations.HoldsReleaseWhenDue := by
  intro s g hs
  refine ⟨fun hnone => ?_, fun h hfind => ⟨fun hnot => ?_, fun hdue => ?_⟩⟩
  · exact (exec_holdRelease g s).trans (s.at_id 8 _ hs (Dev.when_of_false _ _ (Dev.holdDue_none _ hnone)))
  · exact (exec_holdRelease g s).trans (s.at_id 8 _ hs (Dev.when_of_false _ _
      (Bool.eq_false_iff.2 fun h => hnot ((Dev.holdDue_some _ hfind).1 h))))
  · have hend := (s.enter 8).dev.holdEnd_moves (s.enter 8).env.now g
    have hcgroup : ∀ x, ((s.enter 8).dev.holdClosed g).g .srcCgroup x = (s.enter 8).dev.g .srcCgroup x :=
      fun x => Dev.g_put_of_ne _ _ _ _ (by decide)
    refine ⟨_, (exec_holdRelease g s).trans (s.at_become 8 _ _ hs
      (Dev.when_of_true _ _ ((Dev.holdDue_some _ hfind).2 hdue)) hend.posts), rfl, rfl, hend.late, ?_, ?_,
      fun g' hg' => ?_, fun x hx => ?_, fun x hheld hx => ?_⟩
    · exact (congrArg (Tab.find · g) hend.holds).trans (Tab.find_del_same _ g)
    · exact (hend.objs .cgHold (by decide) (by decide) g).trans (Dev.g_put_same _ _ _ _)
    · exact (congrArg (Tab.find · g') hend.holds).trans (Tab.find_del_other _ _ _ hg')
    · exact Dev.holdReleases_foldl_other _ _ _ ((s.enter 8).dev.holdClosed g) _ (.inr fun heq => hx ((hcgroup x).symm.trans heq))
    · exact Dev.holdReleases_foldl_same _ _ ((s.enter 8).dev.holdClosed g) _ (Dev.mem_keys_of_held hheld) hheld
        ((hcgroup x).trans hx)

/-! ## Flag words (R388, R389) -/

theorem clearMask_testBit (x m b : Nat) : (clearMask x m).testBit b = (x.testBit b && !m.testBit b) := by
  unfold clearMask
  induction b generalizing x m with
  | zero =>
    have hbit : (x &&& m) % 2 = 1 ↔ x % 2 = 1 ∧ m % 2 = 1 := by simp [Nat.and_mod_two_eq_one]
    have hle : x &&& m ≤ x := Nat.and_le_left
    have hodd : (x - (x &&& m)) % 2 = 1 ↔ x % 2 = 1 ∧ ¬m % 2 = 1 := by omega
    simp only [Nat.testBit_zero, hodd, Bool.decide_and, decide_not]
  | succ b ih =>
    have hhalf : (x &&& m) / 2 = x / 2 &&& m / 2 := Nat.and_div_two
    have hbit : (x &&& m) % 2 = 1 ↔ x % 2 = 1 ∧ m % 2 = 1 := by simp [Nat.and_mod_two_eq_one]
    have hle : x &&& m ≤ x := Nat.and_le_left
    have hsub : (x - (x &&& m)) / 2 = x / 2 - (x / 2 &&& m / 2) := by omega
    rw [Nat.testBit_succ, hsub, ih, ← Nat.testBit_succ, ← Nat.testBit_succ]

theorem Dev.g_put_testBit (d : Dev) (o : Obj) (i v : Nat) {b : Nat} (h : b < o.info.ty.width) :
    ((d.put o i v).g o i).testBit b = v.testBit b := by
  rw [Dev.g_put_same, Nat.testBit_mod_two_pow, decide_eq_true h, Bool.true_and]

theorem flagFirings_one {o : Obj} {i x : Nat} (new : Nat) (hsource : flagSource o i = some x) (hkr : o ≠ .krEventFlags) :
    flagFirings o i new = (setBitsOf 32 new).map fun _ => x := by
  unfold flagFirings
  split
  · exact absurd rfl hkr
  · rw [hsource]

/-- Settles O17: bit by bit (`clearMask_testBit`). -/
theorem flagBitsFireTheirSource : Obligations.FlagBitsFireTheirSource := by
  refine ⟨fun d o i bits x hwidth hbits hsource hkr => ?_, fun d o i bits b hwidth hb => ?_⟩
  · have hfirings : (d.register (.flag o i bits)).2 = (setBitsOf 32 (clearMask bits (d.g o i))).map fun _ => x :=
      flagFirings_one _ hsource hkr
    refine ⟨fun b hb => ?_, fun y hy => ?_, ?_⟩
    · rw [Nat.testBit_mod_two_pow, decide_eq_true hb, Bool.true_and, ← Nat.testBit_or]
      exact d.g_put_testBit o i _ (hwidth ▸ hb)
    · rw [hfirings] at hy
      obtain ⟨-, -, rfl⟩ := List.mem_map.1 hy
      rfl
    · rw [hfirings, List.length_map, setBitsOf]
      simp only [clearMask_testBit]
  · exact (d.g_put_testBit o i _ (hwidth ▸ hb)).trans (clearMask_testBit ..)

end Sys2Proof.Machine
end

section
/-!
Background self-tests, late responses (O29) and forced faults (O30).
-/

namespace Sys2Proof.Machine

theorem exec_engineBistStart (n : Nat) (s : State) : exec (.engineBistStart n) s = s.running 9 fun e d => d.bistStart e.now n := rfl
theorem exec_codecBistStart (n : Nat) (s : State) : exec (.codecBistStart n) s = s.running 9 fun e d => d.codecBist e.now n := rfl
theorem exec_bistAbandon (codec : Bool) (n : Nat) (s : State) :
    exec (.bistAbandon codec n) s = s.running 9 fun e d => d.bistAbandon e.now codec n := rfl
theorem exec_lateResponse (m : Nat) (s : State) : exec (.lateResponse m) s =
    s.at 9 fun _ d => d.when (0 < d.bus.older.getD m 0) fun d => d.lateResponse m := rfl
theorem exec_bistForceFault (v : Nat) (s : State) : exec (.bistForceFault v) s =
    s.at 7 fun e d => d.directWrite e .bistForceFault 0 v := rfl

/-! ## Background self-tests (R520, R521) -/

section
variable (now : Nat) (d : Dev) (n : Nat)

theorem Dev.bistStart_eq : d.bistStart now n =
    if (d.g .engState n = 0 ∨ d.g .engState n = 3 ∨ d.g .engState n = 4) ∧
        d.bistDue now n 25 (d.test.engLast.find n) = true ∧ d.test.engRun.find n = none then
      { d with test := { d.test with engRun := d.test.engRun.put n now, engLast := d.test.engLast.put n now } }
    else d := by
  unfold Dev.bistStart
  simp only [Option.isNone_iff_eq_none]
  rfl

theorem Dev.codecBist_eq : d.codecBist now n =
    if d.g .cdcState n = 0 ∧ d.bistDue now n 24 (d.test.cdcLast.find n) = true ∧ d.test.cdcRun.find n = none then
      { d with test := { d.test with cdcRun := d.test.cdcRun.put n now, cdcLast := d.test.cdcLast.put n now } }
    else d := by
  unfold Dev.codecBist
  simp only [Option.isNone_iff_eq_none]

/-- The background test of a unit, if one runs: its start. -/
def TestUnit.started (u : TestUnit) (codec : Bool) (n : Nat) : Option Nat :=
  if codec then u.cdcRun.find n else u.engRun.find n

theorem Dev.bistAbandon_none {codec : Bool} (h : d.test.started codec n = none) : d.bistAbandon now codec n = d := by
  unfold TestUnit.started at h
  simp only [Dev.bistAbandon, h]

theorem Dev.bistAbandon_some {codec : Bool} {b : Nat} (h : d.test.started codec n = some b) : d.bistAbandon now codec n =
    if now < b + 200000 then d
    else (Dev.count { d with test := if codec then { d.test with cdcRun := d.test.cdcRun.del n }
                                     else { d.test with engRun := d.test.engRun.del n } } .bistSkipped).flag
      .bistEventFlags 0 2 := by
  unfold TestUnit.started at h
  simp only [Dev.bistAbandon, h]

end

/-! ## Late responses (R371) -/

theorem Dev.lateResponse_late (d : Dev) (m : Nat) :
    (d.lateResponse m).late = d.late ++ [.add .bmLateResp 0 1, .flag .bmEventFlags 0 1] := by
  simp [Dev.lateResponse, Dev.flag, Dev.count, Dev.later]

theorem Dev.lateResponse_older (d : Dev) (m : Nat) : (d.lateResponse m).bus.older = d.bus.older.upd m 0 (· - 1) := rfl

theorem Dev.lateResponse_eq (d : Dev) (m : Nat) :
    d.lateResponse m = { d with bus := { d.bus with older := (d.lateResponse m).bus.older }
                                late := d.late ++ [.add .bmLateResp 0 1, .flag .bmEventFlags 0 1] } := by
  rw [← Dev.lateResponse_late d m]
  rfl

/-- Settles O29: each event by whether it is due. -/
theorem backgroundTestsRunInTheirSlots : Obligations.BackgroundTestsRunInTheirSlots := by
  refine ⟨fun s n hs => ⟨fun h => ?_, fun h => ?_, fun h => ?_, fun h => ?_, fun b hb h => ?_, fun b hb h => ?_, fun b hb h => ?_,
    fun b hb h => ?_, fun h => ?_, fun h => ?_⟩, fun s m hs => ⟨fun h => ?_, fun h => ?_⟩⟩
  · exact (exec_engineBistStart n s).trans (s.running_become 9 _ _ hs ((Dev.bistStart_eq ..).trans (if_pos h)) (s.enter_posts 9))
  · exact (exec_engineBistStart n s).trans (s.running_id 9 _ hs ((Dev.bistStart_eq ..).trans (if_neg h)))
  · exact (exec_codecBistStart n s).trans (s.running_become 9 _ _ hs ((Dev.codecBist_eq ..).trans (if_pos h)) (s.enter_posts 9))
  · exact (exec_codecBistStart n s).trans (s.running_id 9 _ hs ((Dev.codecBist_eq ..).trans (if_neg h)))
  · exact (exec_bistAbandon false n s).trans (s.running_become 9 _ _ hs
      ((Dev.bistAbandon_some (codec := false) _ _ _ hb).trans (if_neg (Nat.not_lt.2 h))) (s.enter_posts 9))
  · exact (exec_bistAbandon false n s).trans (s.running_id 9 _ hs
      ((Dev.bistAbandon_some (codec := false) _ _ _ hb).trans (if_pos h)))
  · exact (exec_bistAbandon true n s).trans (s.running_become 9 _ _ hs
      ((Dev.bistAbandon_some (codec := true) _ _ _ hb).trans (if_neg (Nat.not_lt.2 h))) (s.enter_posts 9))
  · exact (exec_bistAbandon true n s).trans (s.running_id 9 _ hs
      ((Dev.bistAbandon_some (codec := true) _ _ _ hb).trans (if_pos h)))
  · exact (exec_bistAbandon true n s).trans (s.running_id 9 _ hs (Dev.bistAbandon_none (codec := true) _ _ _ h))
  · exact (exec_bistAbandon false n s).trans (s.running_id 9 _ hs (Dev.bistAbandon_none (codec := false) _ _ _ h))
  · exact (exec_lateResponse m s).trans (s.at_id 9 _ hs (Dev.when_of_false _ _ (by simp [h])))
  · refine ⟨_, (exec_lateResponse m s).trans (s.at_become 9 _ _ hs (Dev.when_of_true _ _ (by simpa using h)) (s.enter_posts 9)),
      rfl, rfl, Dev.lateResponse_eq _ m, ?_, fun j hj => Tab.getD_put_other _ _ _ _ _ hj⟩
    have hleft : ((s.enter 9).dev.lateResponse m).bus.older.getD m 0 = (s.enter 9).dev.bus.older.getD m 0 - 1 :=
      Tab.getD_put_same ..
    exact (congrArg (· + 1) hleft).trans (Nat.sub_add_cancel h)

/-! ## Forced faults (R523) -/

/-- Whether the unit a forced fault names is in service, and the code where it is not. -/
def Dev.forceCode (d : Dev) (v : Nat) : Nat :=
  if v < 25 then (if d.g .engState v = engInService ∨ d.g .engState v = engSpareIdle ∨ d.g .engState v = engSpareActive then 0
    else 0x0353)
  else if 0x80 ≤ v ∧ v < 0x98 then (if d.g .cdcState (v - 0x80) = 0 then 0 else 0x0354)
  else 0x0201

theorem Dev.forceFault_accepted (now : Nat) {d : Dev} {v : Nat} (h : d.forceCode v = 0) :
    d.forceFault now v = Dev.answerCode { d with test := { d.test with forced := d.test.forced ++ [(v, now + 1)] } } 0 := by
  unfold Dev.forceCode at h
  unfold Dev.forceFault
  simp only [h, if_true]

theorem Dev.forceFault_refused (now : Nat) {d : Dev} {v : Nat} (h : d.forceCode v ≠ 0) :
    d.forceFault now v = d.answerCode (d.forceCode v) := by
  unfold Dev.forceCode at h ⊢
  simp only [Dev.forceFault, h, if_false]

theorem Obj.rangeFails_bistForceFault {v : Nat} (h : v < 256) : Obj.bistForceFault.rangeFails v = 0 := by
  have hadmits : Obj.bistForceFault.range.admits Obj.bistForceFault.info.ty.width v = true := by
    show (decide (0 ≤ v) && decide (v ≤ 255)) = true
    simp only [Bool.and_eq_true, decide_eq_true_eq]
    omega
  unfold Obj.rangeFails
  rw [hadmits]
  rfl

section
variable {s : State} {v : Nat}

theorem Dev.directWrite_bistForceFault (e : Env) {d : Dev} (hv : v < 256) (hkeep : d.keepFails .bistForceFault 0 v [] = 0) :
    d.directWrite e .bistForceFault 0 v =
      ((d.answerCode 0).forceFault e.now v).recorded e registerOrigin .bistForceFault 0 v [] :=
  Dev.directWrite_acts e rfl (Obj.rangeFails_bistForceFault hv) rfl hkeep rfl

theorem bistForceFault_accepted (hs : s.Awake 7) (hv : v < 256) (hkeep : (s.enter 7).dev.keepFails .bistForceFault 0 v [] = 0)
    (hcode : (s.enter 7).dev.forceCode v = 0) : ∃ t, exec (.bistForceFault v) s = .next t ∧ t.dev.answer.code = 0 ∧
      t.dev.test.forced = (s.enter 7).dev.test.forced ++ [(v, (s.enter 7).clk.elapsed + 1)] := by
  have h := Dev.recorded_records (s.enter 7).env (((s.enter 7).dev.answerCode 0).forceFault (s.enter 7).env.now v)
    registerOrigin .bistForceFault 0 v []
  rw [Dev.forceFault_accepted _ (by exact hcode)] at h
  refine ⟨_, (exec_bistForceFault v s).trans (s.at_become 7 _ _ hs ((Dev.directWrite_bistForceFault _ hv hkeep).trans
    (by rw [Dev.forceFault_accepted _ (by exact hcode)])) h.posts), ?_, ?_⟩
  · exact (congrArg Answer.code h.answer :)
  · exact (congrArg (fun x : Dev => x.test.forced) h.same :)

theorem bistForceFault_refused (hs : s.Awake 7) (hv : v < 256) (hkeep : (s.enter 7).dev.keepFails .bistForceFault 0 v [] = 0)
    (hcode : (s.enter 7).dev.forceCode v ≠ 0) :
    exec (.bistForceFault v) s = .next ((s.enter 7).become ((s.enter 7).dev.answerCode ((s.enter 7).dev.forceCode v))) := by
  refine (exec_bistForceFault v s).trans (s.at_become 7 _ _ hs ((Dev.directWrite_bistForceFault _ hv hkeep).trans ?_) (s.enter_posts 7))
  rw [Dev.forceFault_refused _ (by exact hcode)]
  exact Dev.recorded_refused _ _ _ hcode

end

/-- One forced fault stands: it waits, or it registers as the test's fault. -/
theorem Dev.forcedFaults_waits {e : Env} {d : Dev} {v : Nat} (h : d.test.forced = [(v, e.clk.elapsed + 1)]) :
    d.forcedFaults e = d := by
  have hnow : e.now = e.clk.elapsed := rfl
  unfold Dev.forcedFaults
  simp [h, hnow]

theorem Dev.forcedFaults_registers {e : Env} {d : Dev} {v : Nat} (h : d.test.forced = [(v, e.clk.elapsed)]) :
    d.forcedFaults e = if v < 25
      then (Dev.flag { d with test := { d.test with forced := [] } } .bistEventFlags 0 0).engineFault v false
      else (Dev.flag { d with test := { d.test with forced := [] } } .bistEventFlags 0 1).codecFaults e (v - 0x80) := by
  have hnow : e.now = e.clk.elapsed := rfl
  unfold Dev.forcedFaults
  simp [h, hnow, sortAsc, insertAsc]

/-- Settles O30: the code by the unit's state, and the forced fault of a later tick waits. -/
theorem forcedFaultsRegisterInTheNextTick : Obligations.ForcedFaultsRegisterInTheNextTick := by
  refine ⟨rfl, rfl, rfl, fun s v hs hv hkeep => ⟨fun h25 hst => ?_, fun h25 hst => ?_, fun hlo hhi hst => ?_,
    fun hlo hhi hst => ?_⟩, fun e d v => ⟨Dev.forcedFaults_waits, Dev.forcedFaults_registers⟩⟩
  · exact bistForceFault_accepted hs hv hkeep ((if_pos h25).trans (if_pos hst))
  · have hcode : (s.enter 7).dev.forceCode v = 0x0353 := (if_pos h25).trans (if_neg hst)
    exact hcode ▸ bistForceFault_refused hs hv hkeep (by rw [hcode]; decide)
  · exact bistForceFault_accepted hs hv hkeep
      ((if_neg (by omega)).trans ((if_pos ⟨hlo, hhi⟩).trans (if_pos hst)))
  · have hcode : (s.enter 7).dev.forceCode v = 0x0354 :=
      (if_neg (by omega)).trans ((if_pos ⟨hlo, hhi⟩).trans (if_neg hst))
    exact hcode ▸ bistForceFault_refused hs hv hkeep (by rw [hcode]; decide)

end Sys2Proof.Machine
end

section
/-!
Evacuation, retraining, training and readmission of a DRAM channel (O32).
-/

namespace Sys2Proof.Machine

theorem exec_dchEvacuate (c : Nat) (s : State) : exec (.dchEvacuate c) s = s.at 7 fun e d => d.directWrite e .dchCmd c 1 := rfl
theorem exec_dchRetrain (c : Nat) (s : State) : exec (.dchRetrain c) s = s.at 7 fun e d => d.directWrite e .dchCmd c 2 := rfl
theorem exec_dchReadmit (c : Nat) (s : State) : exec (.dchReadmit c) s = s.at 7 fun e d => d.directWrite e .dchCmd c 3 := rfl
theorem exec_dchTrainingDone (c : Nat) (ok : Bool) (s : State) :
    exec (.dchTrainingDone c ok) s = s.at 9 fun _ d => d.dchTrainingDone c ok := rfl

/-- A channel's command leaves no record: the object is neither kept nor a test object. -/
theorem Dev.directWrite_dchCmd (e : Env) (d : Dev) (c : Nat) {v : Nat} (hv : v = 1 ∨ v = 2 ∨ v = 3) :
    d.directWrite e .dchCmd c v = (d.answerCode 0).dchCommand e.now c v := by
  have hrange : Obj.dchCmd.rangeFails v = 0 := by rcases hv with rfl | rfl | rfl <;> rfl
  rw [Dev.directWrite_acts e (d' := (d.answerCode 0).dchCommand e.now c v) rfl hrange rfl rfl rfl]
  exact ite_self _

/-! ## What moves and what is reported -/

/-- From `d` to `d'` no more than the interleave table and the moves under way have changed. -/
def Dev.MovesStripes (d d' : Dev) : Prop :=
  d' = { d with dram := { d.dram with table := d'.dram.table, moving := d'.dram.moving } }

theorem Dev.MovesStripes.trans {a b c : Dev} (h : a.MovesStripes b) (k : b.MovesStripes c) : a.MovesStripes c :=
  Eq.trans k (congrArg (fun x : Dev => { x with dram := { x.dram with table := c.dram.table, moving := c.dram.moving } }) h)

theorem Dev.setStripe_moves (d : Dev) (s : Nat) (v : Option (Nat × Nat)) : d.MovesStripes (d.setStripe s v) := rfl

theorem Dev.setStripes_moves (ss : List Nat) (d : Dev) : d.MovesStripes (ss.foldl (fun d s => d.setStripe s none) d) :=
  List.foldlRecOn (motive := fun b => d.MovesStripes b) _ _ rfl fun b hb s _ => hb.trans (b.setStripe_moves s none)

theorem Dev.mapSlots_moves (c : Nat) (ss ks : List Nat) (d : Dev) : d.MovesStripes (Dev.mapSlots c d ss ks) := by
  induction ss generalizing d ks with
  | nil => rfl
  | cons s ss ih =>
    cases ks with
    | nil => rfl
    | cons k ks => exact (d.setStripe_moves s _).trans (ih ks _)

theorem Dev.startMove_moves (t : Rat) (d : Dev) (c : Nat) : d.MovesStripes (d.startMove t c) := by
  unfold Dev.startMove
  split <;> rfl

theorem Dev.MovesStripes.g {d d' : Dev} (h : d.MovesStripes d') (o : Obj) (i : Nat) : d'.g o i = d.g o i :=
  (congrArg (fun x : Dev => x.g o i) h :)
theorem Dev.MovesStripes.late {d d' : Dev} (h : d.MovesStripes d') : d'.late = d.late := (congrArg Dev.late h :)
theorem Dev.MovesStripes.posts {d d' : Dev} (h : d.MovesStripes d') : d'.posts = d.posts := (congrArg Dev.posts h :)
theorem Dev.MovesStripes.left {d d' : Dev} (h : d.MovesStripes d') : d'.dram.left = d.dram.left :=
  (congrArg (fun x : Dev => x.dram.left) h :)

/-- From `d` to `d'` no more than the objects that report the DRAM have changed. -/
structure Dev.ReportsDram (d d' : Dev) : Prop where
  objs : ∀ o, o ∉ ([.dchStripesUsed, .dchMigLeft, .roomPool] : List Obj) → ∀ i, d'.g o i = d.g o i
  same : d' = { d with objs := d'.objs }

theorem Dev.ReportsDram.trans {a b c : Dev} (h : a.ReportsDram b) (k : b.ReportsDram c) : a.ReportsDram c :=
  ⟨fun o ho i => (k.objs o ho i).trans (h.objs o ho i),
    k.same.trans (congrArg (fun x : Dev => { x with objs := c.objs }) h.same)⟩

theorem Dev.put_reportsDram (d : Dev) (o : Obj) (i v : Nat)
    (ho : o ∈ ([.dchStripesUsed, .dchMigLeft, .roomPool] : List Obj)) : d.ReportsDram (d.put o i v) :=
  ⟨fun _ hp k => d.g_put_of_ne i k v fun heq => hp (heq ▸ ho), rfl⟩

theorem Dev.reportDram_reports (d : Dev) : d.ReportsDram d.reportDram :=
  .trans (List.foldlRecOn (motive := fun b => d.ReportsDram b) _ _ ⟨fun _ _ _ => rfl, rfl⟩ fun b hb _ _ =>
    hb.trans ((b.put_reportsDram .dchStripesUsed _ _ (by decide)).trans (Dev.put_reportsDram _ .dchMigLeft _ _ (by decide))))
    (Dev.put_reportsDram _ .roomPool _ _ (by decide))

theorem Dev.ReportsDram.late {d d' : Dev} (h : d.ReportsDram d') : d'.late = d.late := (congrArg Dev.late h.same :)
theorem Dev.ReportsDram.posts {d d' : Dev} (h : d.ReportsDram d') : d'.posts = d.posts := (congrArg Dev.posts h.same :)
theorem Dev.ReportsDram.dram {d d' : Dev} (h : d.ReportsDram d') : d'.dram = d.dram := (congrArg Dev.dram h.same :)

/-! ## States of a channel (R378) -/

theorem Dev.setDch_changes {d : Dev} {c v w : Nat} (h : d.g .dchState c = w) (hne : w ≠ v) :
    d.setDch c v = (d.put .dchState c v).flag .dchEventFlags c 0 :=
  if_neg (h ▸ hne)

theorem Dev.put_dchState (d : Dev) (c : Nat) {v : Nat} (h : v < 256) : (d.put .dchState c v).g .dchState c = v :=
  d.g_put_of_lt .dchState c v h

/-- The channel's free stripes are unmapped, it is EVACUATING, and its used stripes are to move. -/
def Dev.evacuating (d : Dev) (c : Nat) : Dev :=
  let used := d.usedOn (takenMasks d.dram.allocs) c
  let d := ((d.freeOn (takenMasks d.dram.allocs) c).foldl (fun d s => d.setStripe s none) d).setDch c dchEvacuating
  { d with dram := { d.dram with left := d.dram.left.put c used } }

theorem Dev.dchEvacuate_accepted (now : Nat) {d : Dev} {c : Nat} (h : d.evacuateCode c = 0) :
    d.dchEvacuate now c = ((((d.evacuating c).startMove now c).evacuationEnds c).reportDram).answerCode 0 :=
  if_neg (not_not.2 h)

/-- What stands of an evacuation that begins, while its first move does. -/
theorem Dev.evacuating_startMove (now : Nat) {d : Dev} {c : Nat} (h : d.g .dchState c = 0) :
    let t := (d.evacuating c).startMove now c
    t.g .dchState c = 1 ∧ t.dram.left.getD c [] = d.usedOn (takenMasks d.dram.allocs) c ∧
      t.late = d.late ++ [.flag .dchEventFlags c 1] ∧ t.posts = d.posts := by
  have hfree := Dev.setStripes_moves (d.freeOn (takenMasks d.dram.allocs) c) d
  have hstate := Dev.setDch_changes (v := dchEvacuating) ((hfree.g .dchState c).trans h) (by decide)
  have hmove := Dev.startMove_moves now (d.evacuating c) c
  have hevac : d.evacuating c = { ((d.freeOn (takenMasks d.dram.allocs) c).foldl (fun d s => d.setStripe s none) d).setDch c
      dchEvacuating with dram := (d.evacuating c).dram } := rfl
  rw [hstate] at hevac
  refine ⟨(hmove.g _ _).trans ?_, (congrArg (Tab.getD · c []) hmove.left).trans (Tab.getD_put_same ..), ?_, ?_⟩
  · rw [hevac]
    exact Dev.put_dchState _ c (by decide)
  · rw [hmove.late, hevac]
    exact congrArg (· ++ _) hfree.late
  · rw [hmove.posts, hevac]
    exact hfree.posts

theorem Dev.evacuationEnds_goesOn {d : Dev} {c : Nat} (h : d.dram.left.getD c [] ≠ []) : d.evacuationEnds c = d :=
  if_neg (by simpa using h)

theorem Dev.evacuationEnds_ends {d : Dev} {c : Nat} (hleft : d.dram.left.getD c [] = []) (h : d.g .dchState c = 1) :
    (d.evacuationEnds c).g .dchState c = 2 ∧ .flag .dchEventFlags c 16 ∈ (d.evacuationEnds c).late ∧
      (d.evacuationEnds c).posts = d.posts := by
  have hends : d.evacuationEnds c = (Dev.setDch { d with dram :=
      { d.dram with moving := d.dram.moving.del c, trained := d.dram.trained.del c } } c dchEvacuated).flag .dchEventFlags c 4 :=
    if_pos (by simp [hleft])
  have hstate := Dev.setDch_changes (d := { d with dram :=
    { d.dram with moving := d.dram.moving.del c, trained := d.dram.trained.del c } }) (v := dchEvacuated) (w := 1) h (by decide)
  rw [hends, hstate]
  exact ⟨Dev.put_dchState _ c (by decide), List.mem_append_right _ (List.mem_singleton_self _), rfl⟩

theorem Dev.evacuateCode_otherState {d : Dev} {c : Nat} (h : d.g .dchState c ≠ 0) : d.evacuateCode c = 0x03B0 := if_pos h

theorem Dev.evacuateCode_noPlace {d : Dev} {c : Nat} (h : d.g .dchState c = 0)
    (hplace : ((d.otherChannels c).map fun k => (d.freeOn (takenMasks d.dram.allocs) k).length).sum <
        (d.usedOn (takenMasks d.dram.allocs) c).length ∨
      (d.put .dchState c 1).roomPoolBytes < d.g .roomUsed) : d.evacuateCode c = 0x0412 := by
  refine (if_neg (not_not.2 h)).trans ?_
  split
  · rfl
  · exact if_pos (hplace.resolve_left ‹_›)

theorem Dev.dchEvacuate_refused (now : Nat) {d : Dev} {c code : Nat} (h : d.evacuateCode c = code) (h0 : code ≠ 0) :
    (d.answerCode 0).dchEvacuate now c = d.answerCode code := by
  subst h
  exact if_pos h0

/-- An evacuation of a channel with stripes to move. -/
theorem Dev.dchEvacuate_begins (now : Nat) {d : Dev} {c : Nat} (h : d.g .dchState c = 0) (hcode : d.evacuateCode c = 0)
    (hused : d.usedOn (takenMasks d.dram.allocs) c ≠ []) :
    let t := d.dchEvacuate now c
    t.answer.code = 0 ∧ t.g .dchState c = 1 ∧ t.dram.left.getD c [] = d.usedOn (takenMasks d.dram.allocs) c ∧
      .flag .dchEventFlags c 1 ∈ t.late ∧ t.posts = d.posts := by
  obtain ⟨hstate, hleft, hlate, hposts⟩ := Dev.evacuating_startMove now h
  rw [Dev.dchEvacuate_accepted now hcode, Dev.evacuationEnds_goesOn (hleft ▸ hused)]
  have hreport := Dev.reportDram_reports ((d.evacuating c).startMove now c)
  simp only [Dev.answerCode_g, Dev.answerCode_late, Dev.answerCode_posts, Dev.answerCode_dram, hreport.late, hreport.posts,
    hreport.dram, hreport.objs .dchState (by decide)]
  exact ⟨rfl, hstate, hleft, hlate ▸ List.mem_append_right _ (List.mem_singleton_self _), hposts⟩

/-- An evacuation of a channel without a used stripe ends at once. -/
theorem Dev.dchEvacuate_ends (now : Nat) {d : Dev} {c : Nat} (h : d.g .dchState c = 0) (hcode : d.evacuateCode c = 0)
    (hused : d.usedOn (takenMasks d.dram.allocs) c = []) :
    let t := d.dchEvacuate now c
    t.answer.code = 0 ∧ t.g .dchState c = 2 ∧ .flag .dchEventFlags c 16 ∈ t.late ∧ t.posts = d.posts := by
  obtain ⟨hstate, hleft, -, hposts⟩ := Dev.evacuating_startMove now h
  obtain ⟨hends, hflag, hpost⟩ := Dev.evacuationEnds_ends (hleft.trans hused) hstate
  rw [Dev.dchEvacuate_accepted now hcode]
  have hreport := Dev.reportDram_reports (((d.evacuating c).startMove now c).evacuationEnds c)
  simp only [Dev.answerCode_g, Dev.answerCode_late, Dev.answerCode_posts, hreport.late, hreport.posts,
    hreport.objs .dchState (by decide)]
  exact ⟨rfl, hends, hflag, hpost.trans hposts⟩

/-- The channel's slots are mapped onto the stripes that are UNMAPPED. -/
def Dev.slotsMapped (d : Dev) (c : Nat) : Dev :=
  Dev.mapSlots c d ((List.range d.stripes).filter fun s => (d.stripeAt s).isNone) (List.range d.slots)

theorem Dev.dchReadmit_eq {d : Dev} {c : Nat} (h : d.g .dchState c = 2) (htrained : d.dram.trained.getD c false = true) :
    d.dchReadmit c = (((d.slotsMapped c).setDch c dchInService).reportDram).answerCode 0 := by
  refine if_neg ?_
  rw [h, htrained]
  decide

theorem Dev.dchReadmit_accepted {d : Dev} {c : Nat} (h : d.g .dchState c = 2) (htrained : d.dram.trained.getD c false = true) :
    (d.dchReadmit c).answer.code = 0 ∧ (d.dchReadmit c).g .dchState c = 0 ∧
      .flag .dchEventFlags c 1 ∈ (d.dchReadmit c).late ∧ (d.dchReadmit c).posts = d.posts := by
  have hmap : d.MovesStripes (d.slotsMapped c) := Dev.mapSlots_moves c _ _ d
  rw [Dev.dchReadmit_eq h htrained, Dev.setDch_changes ((hmap.g .dchState c).trans h) (by decide)]
  have hreport := Dev.reportDram_reports (((d.slotsMapped c).put .dchState c dchInService).flag .dchEventFlags c 0)
  simp only [Dev.answerCode_g, Dev.answerCode_late, Dev.answerCode_posts, hreport.late, hreport.posts,
    hreport.objs .dchState (by decide)]
  exact ⟨rfl, Dev.put_dchState _ c (by decide), List.mem_append_right _ (List.mem_singleton_self _), hmap.posts⟩

theorem Dev.dchReadmit_refused {d : Dev} {c : Nat} (h : d.g .dchState c ≠ 2 ∨ d.dram.trained.getD c false = false) :
    (d.answerCode 0).dchReadmit c = d.answerCode 0x03B0 :=
  if_pos (h.imp id fun h => by simp [h])

theorem Dev.dchRetrain_refused {d : Dev} {c : Nat} (h : d.g .dchState c ≠ 2 ∧ d.g .dchState c ≠ 4) :
    (d.answerCode 0).dchRetrain c = d.answerCode 0x03B0 :=
  if_neg (not_or.2 h)

theorem Dev.dchRetrain_accepted {d : Dev} {c : Nat} (h : d.g .dchState c = 2 ∨ d.g .dchState c = 4) :
    (d.answerCode 0).dchRetrain c = ((d.put .dchState c 3).flag .dchEventFlags c 0).answerCode 0 := by
  refine (if_pos h).trans ?_
  rw [Dev.setDch_changes (Dev.answerCode_g ..)]
  · rfl
  · rcases h with h | h <;> rw [h] <;> decide

theorem Dev.dchTrainingDone_failed {d : Dev} {c : Nat} (h : d.g .dchState c = 3) :
    d.dchTrainingDone c false = ((d.put .dchState c 4).flag .dchEventFlags c 0).flag .dchEventFlags c 3 :=
  (if_neg (not_not.2 h)).trans ((if_neg (by simp)).trans ((if_neg (by simp)).trans
    (congrArg (Dev.flag · .dchEventFlags c 3) (Dev.setDch_changes h (by decide)))))

theorem Dev.dchTrainingDone_passed {d : Dev} {c : Nat} (h : d.g .dchState c = 3) : d.dchTrainingDone c true =
    if d.startTraining = true then (d.put .dchState c 0).flag .dchEventFlags c 0
    else (Dev.put { d with dram := { d.dram with trained := d.dram.trained.put c true } } .dchState c 2).flag
      .dchEventFlags c 0 := by
  refine (if_neg (not_not.2 h)).trans ?_
  by_cases hstart : d.startTraining = true
  · exact (if_pos ⟨rfl, hstart⟩).trans ((Dev.setDch_changes h (by decide)).trans (if_pos hstart).symm)
  · exact (if_neg fun hboth => hstart hboth.2).trans ((if_pos rfl).trans
      ((Dev.setDch_changes (d := { d with dram := { d.dram with trained := d.dram.trained.put c true } }) (w := 3) h
        (by decide)).trans (if_neg hstart).symm))

theorem Dev.answerCode_evacuateCode (d : Dev) (code c : Nat) : (d.answerCode code).evacuateCode c = d.evacuateCode c := rfl

theorem Dev.answerCode_usedOn (d : Dev) (code : Nat) (t : Tab Nat) (c : Nat) :
    (d.answerCode code).usedOn t c = d.usedOn t c := rfl

/-- Settles O32: a lemma above for each command and each answer. -/
theorem channelsEvacuateTrainAndReturn : Obligations.ChannelsEvacuateTrainAndReturn := by
  refine ⟨fun s c hs _ => ?_, fun s c hs _ => ⟨fun ok h => ?_, fun h => ?_, fun h hstart => ?_, fun h hstart => ?_⟩⟩
  · have hevacuate {d' : Dev} (h : ((s.enter 7).dev.answerCode 0).dchEvacuate (s.enter 7).env.now c = d') (hp : d'.posts = []) :
        exec (.dchEvacuate c) s = .next ((s.enter 7).become d') :=
      (exec_dchEvacuate c s).trans (s.at_become 7 _ _ hs ((Dev.directWrite_dchCmd _ _ c (.inl rfl)).trans h) hp)
    refine ⟨fun h => ?_, fun h hplace => ?_, fun h hpool => ?_, fun h hcode hused => ?_, fun h hcode hused => ?_, fun h => ?_,
      fun h => ?_, fun h => ?_, fun h htrained => ?_⟩
    · exact hevacuate (Dev.dchEvacuate_refused _ (Dev.evacuateCode_otherState h) (by decide)) (s.enter_posts 7)
    · exact hevacuate (Dev.dchEvacuate_refused _ (Dev.evacuateCode_noPlace h (.inl hplace)) (by decide)) (s.enter_posts 7)
    · exact hevacuate (Dev.dchEvacuate_refused _ (Dev.evacuateCode_noPlace h (.inr hpool)) (by decide)) (s.enter_posts 7)
    · obtain ⟨hanswer, hstate, hleft, hflag, hposts⟩ :=
        Dev.dchEvacuate_begins (d := (s.enter 7).dev.answerCode 0) (s.enter 7).env.now ((Dev.answerCode_g ..).trans h)
          ((Dev.answerCode_evacuateCode ..).trans hcode) (by rwa [Dev.answerCode_usedOn])
      rw [Dev.answerCode_usedOn] at hleft
      exact ⟨_, hevacuate rfl (hposts.trans (s.enter_posts 7)), hanswer, hstate, hleft, hflag⟩
    · obtain ⟨hanswer, hstate, hflag, hposts⟩ :=
        Dev.dchEvacuate_ends (d := (s.enter 7).dev.answerCode 0) (s.enter 7).env.now ((Dev.answerCode_g ..).trans h)
          ((Dev.answerCode_evacuateCode ..).trans hcode) (by rwa [Dev.answerCode_usedOn])
      exact ⟨_, hevacuate rfl (hposts.trans (s.enter_posts 7)), hanswer, hstate, hflag⟩
    · exact (exec_dchRetrain c s).trans (s.at_become 7 _ _ hs
        ((Dev.directWrite_dchCmd _ _ c (.inr (.inl rfl))).trans (Dev.dchRetrain_refused h)) (s.enter_posts 7))
    · exact (exec_dchRetrain c s).trans (s.at_become 7 _ _ hs
        ((Dev.directWrite_dchCmd _ _ c (.inr (.inl rfl))).trans (Dev.dchRetrain_accepted h)) (s.enter_posts 7))
    · exact (exec_dchReadmit c s).trans (s.at_become 7 _ _ hs
        ((Dev.directWrite_dchCmd _ _ c (.inr (.inr rfl))).trans (Dev.dchReadmit_refused h)) (s.enter_posts 7))
    · obtain ⟨hcode, hstate, hflag, hposts⟩ := Dev.dchReadmit_accepted (d := (s.enter 7).dev.answerCode 0) h htrained
      exact ⟨_, (exec_dchReadmit c s).trans (s.at_become 7 _ _ hs
        (Dev.directWrite_dchCmd _ _ c (.inr (.inr rfl))) (hposts.trans (s.enter_posts 7))), hcode, hstate, hflag⟩
  · exact (exec_dchTrainingDone c ok s).trans (s.at_id 9 _ hs (if_pos h))
  · exact (exec_dchTrainingDone c false s).trans (s.at_become 9 _ _ hs (Dev.dchTrainingDone_failed h) (s.enter_posts 9))
  · exact (exec_dchTrainingDone c true s).trans
      (s.at_become 9 _ _ hs ((Dev.dchTrainingDone_passed h).trans (if_neg (by simp [hstart]))) (s.enter_posts 9))
  · exact (exec_dchTrainingDone c true s).trans
      (s.at_become 9 _ _ hs ((Dev.dchTrainingDone_passed h).trans (if_pos hstart)) (s.enter_posts 9))

end Sys2Proof.Machine
end

section
/-!
The receive path of a MAC, its transmit queues and timestamps (O34, O35).
-/

namespace Sys2Proof.Machine

@[simp] theorem Dev.mac_putMac_same (d : Dev) (m : Nat) (c : MacCtx) : (d.putMac m c).mac m = c := Tab.getD_put_same ..

theorem Dev.mac_putMac_other (d : Dev) {m j : Nat} (c : MacCtx) (h : j ≠ m) : (d.putMac m c).mac j = d.mac j :=
  Tab.getD_put_other _ _ _ _ _ h

/-- Effects that agree on the block as it stands run alike. -/
theorem State.run_eq_of (s : State) {f g : Env → Dev → Dev} (h : f s.env s.dev = g s.env s.dev) : s.run f = s.run g :=
  congrArg (fun d : Dev => ({ s with dev := { d with posts := [] }, mem := s.mem.apply d.posts } : State)) h

/-! ## Receive (R325, R332) -/

/-- What a MAC that is not looped back makes of a frame. -/
def Dev.macHears (e : Env) (d : Dev) (m : Nat) (f : EthFrame) : Dev := d.when (!d.on .ethLoop m) fun d => d.receive e m f

theorem exec_receiveFrame (m : Nat) (f : EthFrame) {s : State} (hs : s.Awake 4) : exec (.receiveFrame m f) s =
    ((s.enter 4).run fun e d => d.macHears e m f).takeTrdp m f.body
      ((((s.enter 4).run fun e d => d.macHears e m f).dev.mac m).control == ((s.enter 4).dev.mac m).control + 1) := by
  have hrun : ((s.enter 4).run fun e d => if d.asleep then d else d.macHears e m f) = (s.enter 4).run fun e d => d.macHears e m f :=
    State.run_eq_of _ (if_neg (by rw [show (s.enter 4).dev.asleep = false from hs]; decide))
  rw [← hrun]
  rfl

theorem State.takeTrdp_passedNot (s : State) (m : Nat) (b : EthBody) : s.takeTrdp m b false = .next s := by
  cases b <;> rfl

/-- A frame that reaches the cores with no TRDP request ends where its steps end. -/
theorem receiveFrame_becomes {m : Nat} {f : EthFrame} {s : State} {d : Dev} (hs : s.Awake 4)
    (hd : (s.enter 4).dev.macHears (s.enter 4).env m f = d) (hposts : d.posts = [])
    (hio : d.io = (s.enter 4).dev.io) : exec (.receiveFrame m f) s = .next ((s.enter 4).become d) := by
  have hrun : ((s.enter 4).run fun e d => d.macHears e m f) = (s.enter 4).become d := by
    subst hd
    exact State.run_quiet _ _ hposts
  have hnot : (((s.enter 4).become d).dev.mac m).control = ((s.enter 4).dev.mac m).control :=
    congrArg (fun x : IoUnit => (x.macs.getD m {}).control) hio
  rw [exec_receiveFrame m f hs, hrun, hnot, beq_false_of_ne (Nat.ne_of_lt (Nat.lt_succ_self _)), State.takeTrdp_passedNot]

section
variable {e : Env} {d : Dev} {m : Nat} {f : EthFrame}

/-- The MAC hears the line: no loop-back, and the link UP. -/
def Dev.Heard (d : Dev) (m : Nat) : Prop := d.on .ethLoop m = false ∧ d.on .ethLink m = true

/-- Step 1: the frame is whole, or was corrected. -/
def Dev.FecGood (d : Dev) (m : Nat) (f : EthFrame) : Prop := d.g .ethSpeed m = 1 → f.fecOk = true

/-- The frame passes the checks of the MAC. -/
structure Dev.Passes (d : Dev) (m : Nat) (f : EthFrame) : Prop where
  heard : d.Heard m
  fec : d.FecGood m f
  fcs : f.fcsOk = true
  notLong : f.len ≤ d.g .ethMaxFrame m
  notShort : 64 ≤ f.len
  notPause : f.pause = false

theorem Dev.macHears_not (h : ¬d.Heard m) : d.macHears e m f = d := by
  unfold Dev.macHears
  cases hloop : d.on .ethLoop m with
  | true => rfl
  | false =>
    have hdown : d.on .ethLink m = false := Bool.eq_false_iff.2 fun hup => h ⟨hloop, hup⟩
    simp [Dev.when, Dev.receive, hdown]

theorem Dev.macHears_heard (h : d.Heard m) : d.macHears e m f =
    if d.g .ethSpeed m = 1 ∧ !f.fecOk then ((d.count .ethFecUncorrected m).flag .ethEventFlags m 4).count .ethRxFcs m
    else if !f.fcsOk then d.count .ethRxFcs m
    else if d.g .ethMaxFrame m < f.len then d.count .ethRxOversize m
    else if f.len < 64 ∨ f.pause then d.count .ethRxUnmatched m
    else
      if !d.on .msEnable m then (d.count .ethRxFrames m).receiveClear e m f none true
      else match f.sec with
        | none =>
          match f.body with
          | .eapol => d.count .ethRxFrames m
          | .ptp => if d.on .msPtpClear m then (d.count .ethRxFrames m).receiveClear e m f none false
              else (d.count .ethRxFrames m).count .msRxUntagged m
          | _ => (d.count .ethRxFrames m).count .msRxUntagged m
        | some t =>
          match (d.count .ethRxFrames m).verifyTag e.now m t with
          | (some ch, d) => d.receiveClear e m f (some ch) true
          | (none, d) => d := by
  have hlink : ¬(!d.on .ethLink m) = true := by simp [h.2]
  have hon : ¬(!(d.count .ethRxFrames m).on .msEnable m) = true ↔ ¬(!d.on .msEnable m) = true := Iff.rfl
  unfold Dev.macHears
  rw [Dev.when_of_true _ _ (by simp [h.1])]
  exact if_neg hlink

theorem Dev.macHears_fec (h : d.Heard m) (hfec : ¬d.FecGood m f) : d.macHears e m f =
    ((d.count .ethFecUncorrected m).flag .ethEventFlags m 4).count .ethRxFcs m := by
  unfold Dev.FecGood at hfec
  rw [Classical.not_imp] at hfec
  exact (Dev.macHears_heard h).trans (if_pos (by simpa using hfec))

theorem Dev.not_fec (hfec : d.FecGood m f) : ¬(d.g .ethSpeed m = 1 ∧ (!f.fecOk) = true) :=
  fun ⟨hspeed, hbad⟩ => by simp [hfec hspeed] at hbad

theorem Dev.macHears_fcs (h : d.Heard m) (hfec : d.FecGood m f) (hfcs : f.fcsOk = false) :
    d.macHears e m f = d.count .ethRxFcs m :=
  (Dev.macHears_heard h).trans ((if_neg (Dev.not_fec hfec)).trans (if_pos (by simp [hfcs])))

theorem Dev.macHears_oversize (h : d.Heard m) (hfec : d.FecGood m f) (hfcs : f.fcsOk = true)
    (hlong : d.g .ethMaxFrame m < f.len) : d.macHears e m f = d.count .ethRxOversize m :=
  (Dev.macHears_heard h).trans ((if_neg (Dev.not_fec hfec)).trans ((if_neg (by simp [hfcs])).trans (if_pos hlong)))

theorem Dev.macHears_runt (h : d.Heard m) (hfec : d.FecGood m f) (hfcs : f.fcsOk = true)
    (hlong : f.len ≤ d.g .ethMaxFrame m) (hrunt : f.len < 64 ∨ f.pause = true) :
    d.macHears e m f = d.count .ethRxUnmatched m :=
  (Dev.macHears_heard h).trans ((if_neg (Dev.not_fec hfec)).trans ((if_neg (by simp [hfcs])).trans
    ((if_neg (Nat.not_lt.2 hlong)).trans (if_pos hrunt))))

/-- A frame that passes is counted, and goes on by what the SecY says of it. -/
theorem Dev.macHears_passes (h : d.Passes m f) : d.macHears e m f =
    if !d.on .msEnable m then (d.count .ethRxFrames m).receiveClear e m f none true
    else match f.sec with
      | none =>
        match f.body with
        | .eapol => d.count .ethRxFrames m
        | .ptp => if d.on .msPtpClear m then (d.count .ethRxFrames m).receiveClear e m f none false
            else (d.count .ethRxFrames m).count .msRxUntagged m
        | _ => (d.count .ethRxFrames m).count .msRxUntagged m
      | some t =>
        match (d.count .ethRxFrames m).verifyTag e.now m t with
        | (some ch, d) => d.receiveClear e m f (some ch) true
        | (none, d) => d :=
  (Dev.macHears_heard h.heard).trans ((if_neg (Dev.not_fec h.fec)).trans ((if_neg (by simp [h.fcs])).trans
    ((if_neg (Nat.not_lt.2 h.notLong)).trans (if_neg (by simp [h.notShort, h.notPause])))))

theorem Dev.macHears_clear (h : d.Passes m f) (hsec : d.on .msEnable m = false) :
    d.macHears e m f = (d.count .ethRxFrames m).receiveClear e m f none true :=
  (Dev.macHears_passes h).trans (if_pos (by simp [hsec]))

theorem Dev.macHears_untagged (h : d.Passes m f) (hsec : d.on .msEnable m = true) (htag : f.sec = none)
    (heapol : f.body ≠ .eapol) (hptp : f.body ≠ .ptp) : d.macHears e m f = (d.count .ethRxFrames m).count .msRxUntagged m := by
  refine (Dev.macHears_passes h).trans ((if_neg (by simp [hsec])).trans ?_)
  rw [htag]
  cases hbody : f.body with
  | eapol => exact absurd hbody heapol
  | ptp => exact absurd hbody hptp
  | _ => rfl

theorem Dev.macHears_eapol (h : d.Passes m f) (hsec : d.on .msEnable m = true) (htag : f.sec = none)
    (hbody : f.body = .eapol) : d.macHears e m f = d.count .ethRxFrames m := by
  refine (Dev.macHears_passes h).trans ((if_neg (by simp [hsec])).trans ?_)
  rw [htag, hbody]

theorem Dev.macHears_nosa (h : d.Passes m f) (hsec : d.on .msEnable m = true) {x : SecTag} (htag : f.sec = some x)
    (hnone : d.rxChannel m x.sci = none) : d.macHears e m f = (d.count .ethRxFrames m).count .msRxNosa m := by
  have hchan : (d.count .ethRxFrames m).rxChannel m x.sci = none := hnone
  refine (Dev.macHears_passes h).trans ((if_neg (by simp [hsec])).trans ?_)
  simp only [htag, Dev.verifyTag, hchan]

/-- The VLAN of a frame is one the MAC accepts. -/
def Dev.AcceptsVid (d : Dev) (m : Nat) (f : EthFrame) : Prop :=
  f.vid.getD 0 = 0 ∨ ((List.range 4).map fun k => bitsAt (d.g .ethVidRx m) (16 * k) 16).contains (f.vid.getD 0) = true

theorem Dev.receiveClear_vid (ch : Option Nat) (h : ¬d.AcceptsVid m f) :
    d.receiveClear e m f ch true = d.count .ethRxUnmatched m := by
  unfold Dev.AcceptsVid at h
  obtain ⟨hvid, hnot⟩ := not_or.1 h
  exact if_pos ⟨rfl, hvid, by simpa using hnot⟩

theorem Dev.not_vid (h : d.AcceptsVid m f) : ¬(true = true ∧ f.vid.getD 0 ≠ 0 ∧
    (!((List.range 4).map fun k => bitsAt (d.g .ethVidRx m) (16 * k) 16).contains (f.vid.getD 0)) = true) := by
  rintro ⟨-, hvid, hnot⟩
  rcases h with h | h
  · exact hvid h
  · simp only [h, Bool.not_true, Bool.false_eq_true] at hnot

theorem Dev.receiveClear_ptp (ch : Option Nat) (h : d.AcceptsVid m f) (hbody : f.body = .ptp) :
    d.receiveClear e m f ch true = if d.g .ptpMac = m then d.stampRx e m else d := by
  refine (if_neg (Dev.not_vid h)).trans ?_
  rw [hbody]

theorem Dev.receiveClear_rtp_arrival (h : d.AcceptsVid m f) {r : Rtp} {ok : Bool} {a : Nat} {pathB : Bool}
    (hbody : f.body = .rtp r ok) (harr : d.arrMatch m r = some (a, pathB)) : d.receiveClear e m f none true =
      if !ok then d else if d.stopped then d else d.arrPacket e a pathB r := by
  refine (if_neg (Dev.not_vid h)).trans ?_
  simp only [hbody, harr]

theorem Dev.receiveClear_rtp_none (h : d.AcceptsVid m f) {r : Rtp} {ok : Bool}
    (hbody : f.body = .rtp r ok) (harr : d.arrMatch m r = none) (hflow : d.flowMatch m r = none) :
    d.receiveClear e m f none true = d.count .ethRxUnmatched m := by
  refine (if_neg (Dev.not_vid h)).trans ?_
  simp only [hbody, harr, hflow]

theorem Dev.macHears_vid (h : d.Passes m f) (hsec : d.on .msEnable m = false) (hvid : ¬d.AcceptsVid m f) :
    d.macHears e m f = (d.count .ethRxFrames m).count .ethRxUnmatched m :=
  (Dev.macHears_clear h hsec).trans (Dev.receiveClear_vid (d := d.count .ethRxFrames m) none hvid)

theorem Dev.macHears_ptp (h : d.Passes m f) (hsec : d.on .msEnable m = false) (hvid : d.AcceptsVid m f)
    (hbody : f.body = .ptp) : d.macHears e m f =
      if d.g .ptpMac = m then (d.count .ethRxFrames m).stampRx e m else d.count .ethRxFrames m :=
  (Dev.macHears_clear h hsec).trans (Dev.receiveClear_ptp (d := d.count .ethRxFrames m) none hvid hbody)

theorem Dev.macHears_rtp_arrival (h : d.Passes m f) (hsec : d.on .msEnable m = false) (hvid : d.AcceptsVid m f) {r : Rtp}
    {ok : Bool} {a : Nat} {pathB : Bool} (hbody : f.body = .rtp r ok) (harr : d.arrMatch m r = some (a, pathB)) :
    d.macHears e m f = if !ok then d.count .ethRxFrames m else if d.stopped then d.count .ethRxFrames m
      else (d.count .ethRxFrames m).arrPacket e a pathB r :=
  (Dev.macHears_clear h hsec).trans (Dev.receiveClear_rtp_arrival (d := d.count .ethRxFrames m) hvid hbody harr)

theorem Dev.macHears_rtp_none (h : d.Passes m f) (hsec : d.on .msEnable m = false) (hvid : d.AcceptsVid m f) {r : Rtp}
    {ok : Bool} (hbody : f.body = .rtp r ok) (harr : d.arrMatch m r = none) (hflow : d.flowMatch m r = none) :
    d.macHears e m f = (d.count .ethRxFrames m).count .ethRxUnmatched m :=
  (Dev.macHears_clear h hsec).trans (Dev.receiveClear_rtp_none (d := d.count .ethRxFrames m) hvid hbody harr hflow)

end

theorem Dev.stampRx_count (e : Env) (d : Dev) (o : Obj) (i n m : Nat) : (d.count o i n).stampRx e m =
    { d.count o i n with time := { d.time with rxStamp := ofInt 64 ((e.tb : Int) + d.gi .ethTsAdjRx m) } } := rfl

/-- Settles O34: each step of the path drops the frame or lets it go on (`Dev.macHears_heard`, `Dev.macHears_passes`). -/
theorem receivePathDropsInOrder : Obligations.ReceivePathDropsInOrder := by
  intro s m f hs
  have good (h : (((s.enter 4).dev.on .ethLoop m = false ∧ (s.enter 4).dev.on .ethLink m = true) ∧
      ((s.enter 4).dev.g .ethSpeed m = 1 → f.fecOk = true) ∧ f.fcsOk = true ∧ f.len ≤ (s.enter 4).dev.g .ethMaxFrame m ∧
      64 ≤ f.len ∧ f.pause = false)) : (s.enter 4).dev.Passes m f := by
    obtain ⟨hheard, hfec, hfcs, hlong, hshort, hpause⟩ := h
    exact ⟨hheard, hfec, hfcs, hlong, hshort, hpause⟩
  refine ⟨fun h => ?_, fun h hfec => ?_, fun h hfec hfcs => ?_, fun h hfec hfcs hlong => ?_, fun h hfec hfcs hlong hrunt => ?_,
    fun h hsec htag heapol hptp => ?_, fun h hsec htag hbody => ?_, fun x h hsec htag hnone => ?_, fun h hsec hvid => ?_,
    fun h hsec hvid hbody hptp => ?_, fun h hsec hvid hbody hptp => ?_, fun r a pathB h hsec hvid hbody harr => ?_,
    fun r ok h hsec hvid hbody harr hflow => ?_, fun r a pathB h hsec hvid hbody harr hruns => ?_⟩
  · exact receiveFrame_becomes hs (Dev.macHears_not h) (s.enter_posts 4) rfl
  · exact receiveFrame_becomes hs (Dev.macHears_fec h hfec) (s.enter_posts 4) rfl
  · exact receiveFrame_becomes hs (Dev.macHears_fcs h hfec hfcs) (s.enter_posts 4) rfl
  · exact receiveFrame_becomes hs (Dev.macHears_oversize h hfec hfcs hlong) (s.enter_posts 4) rfl
  · exact receiveFrame_becomes hs (Dev.macHears_runt h hfec hfcs hlong hrunt) (s.enter_posts 4) rfl
  · exact receiveFrame_becomes hs (Dev.macHears_untagged (good h) hsec htag heapol hptp) (s.enter_posts 4) rfl
  · exact receiveFrame_becomes hs (Dev.macHears_eapol (good h) hsec htag hbody) (s.enter_posts 4) rfl
  · exact receiveFrame_becomes hs (Dev.macHears_nosa (good h) hsec htag hnone) (s.enter_posts 4) rfl
  · exact receiveFrame_becomes hs (Dev.macHears_vid (good h) hsec hvid) (s.enter_posts 4) rfl
  · exact receiveFrame_becomes hs ((Dev.macHears_ptp (good h) hsec hvid hbody).trans
      ((if_pos hptp).trans (Dev.stampRx_count ..))) (s.enter_posts 4) rfl
  · exact receiveFrame_becomes hs ((Dev.macHears_ptp (good h) hsec hvid hbody).trans (if_neg hptp)) (s.enter_posts 4) rfl
  · exact receiveFrame_becomes hs ((Dev.macHears_rtp_arrival (good h) hsec hvid hbody harr).trans (if_pos rfl))
      (s.enter_posts 4) rfl
  · exact receiveFrame_becomes hs (Dev.macHears_rtp_none (good h) hsec hvid hbody harr hflow) (s.enter_posts 4) rfl
  · have hrun : ((s.enter 4).run fun e d => d.macHears e m f) =
        (s.enter 4).run fun e d => (d.count .ethRxFrames m).arrPacket e a pathB r :=
      State.run_eq_of _ ((Dev.macHears_rtp_arrival (good h) hsec hvid hbody harr).trans
        ((if_neg (by decide)).trans (if_neg (by simp [hruns]))))
    rw [exec_receiveFrame m f hs, hrun, hbody]
    rfl

end Sys2Proof.Machine
end

section
/-!
The transmit queues of a MAC and its timestamps (O35).
-/

namespace Sys2Proof.Machine

theorem exec_transmitFrame_none (m : Nat) (s : State) : exec (.transmitFrame m none) s = s.at 9 fun e d => d.transmit e m := rfl
theorem exec_transmitFrame_some (m : Nat) (f : FwFrame) (s : State) :
    exec (.transmitFrame m (some f)) s = s.at 9 fun e d => (d.firmwareFrame m f).transmit e m := rfl
theorem exec_tsIdPop (m : Nat) (s : State) : exec (.tsIdPop m) s = s.at 8 fun _ d => (d.popStamp m).2.answerWord (d.popStamp m).1 := rfl

/-! ## Handing a frame over (R323, R326) -/

section
variable {e : Env} {d : Dev} {m : Nat} {f : FwFrame}

theorem getD_set_same {α : Type} {l : List α} {k : Nat} (h : k < l.length) (x y : α) : (l.set k x).getD k y = x := by
  simp [List.getD, h]

/-- The queue a frame of the cores joins, by its place in the MAC's list. -/
def firmwarePlace (f : FwFrame) : Nat := if f.body = .ptp ∧ f.len ≤ 128 then 0 else 3

/-- The frame as it stands in a queue. -/
def firmwareQueued (f : FwFrame) : TxFrame := { bytes := f.len + 20, ptp := f.event, body := .firmware f.body f.group }

theorem Dev.firmwareFrame_down (h : d.on .ethLink m = false) : d.firmwareFrame m f = d.count .ethTxDropDown m :=
  if_pos (by simp [h])

theorem Dev.firmwareFrame_unresolved (h : d.on .ethLink m = true) (hhop : f.resolved = false) :
    d.firmwareFrame m f = (d.count .ethTxUnresolved m).flag .ethEventFlags m 1 :=
  (if_neg (by simp [h])).trans (if_pos (by simp [hhop]))

theorem Dev.firmwareFrame_queued (h : d.on .ethLink m = true) (hhop : f.resolved = true) : d.firmwareFrame m f =
    d.putMac m { d.mac m with queues := (d.mac m).queues.set (firmwarePlace f) ((d.mac m).queues.getD (firmwarePlace f) [] ++ [firmwareQueued f]) } := by
  have hplace : 3 - (if f.body = .ptp ∧ f.len ≤ 128 then 3 else 0) = firmwarePlace f := by
    unfold firmwarePlace
    split <;> rfl
  refine (if_neg (by simp [h])).trans ((if_neg (by simp [hhop])).trans ?_)
  rw [hplace]
  rfl

theorem Dev.transmit_busy (h : e.free + 250 ≤ (d.mac m).busy) : d.transmit e m = d := if_pos h

theorem firmwarePlace_lt (f : FwFrame) : firmwarePlace f < 4 := by
  unfold firmwarePlace
  split <;> decide

/-! ## Sending (R326) -/

/-- From `d` to `d'` a frame has left MAC `m`, whose queues and list of timestamps stand; no byte write is posted and nothing left
for rank 9 is lost. -/
structure Dev.Leaves (m : Nat) (d d' : Dev) : Prop where
  queues : (d'.mac m).queues = (d.mac m).queues
  stamps : (d'.mac m).stamps = (d.mac m).stamps
  others : ∀ j, j ≠ m → d'.mac j = d.mac j
  late : d'.late = d.late
  posts : d'.posts = d.posts

theorem Dev.loopBody_rest (d : Dev) (f : TxFrame) : (d.loopBody f).2.io = d.io ∧ (d.loopBody f).2.late = d.late ∧
    (d.loopBody f).2.posts = d.posts := by
  unfold Dev.loopBody
  split <;> exact ⟨rfl, rfl, rfl⟩

theorem Dev.loopFrame_leaves (d : Dev) (m : Nat) (f : TxFrame) (tag : Option (Nat × Nat)) :
    Dev.Leaves m d (d.loopFrame m f tag) := by
  obtain ⟨hio, hlate, hposts⟩ := d.loopBody_rest f
  have hmac : ∀ j, (((d.loopBody f).2.draw 1).2).mac j = d.mac j := fun j =>
    congrArg (fun x : IoUnit => x.macs.getD j {}) hio
  unfold Dev.loopFrame
  refine ⟨?_, ?_, fun j hj => (Dev.mac_putMac_other _ _ hj).trans (hmac j), hlate, hposts⟩
  · rw [Dev.mac_putMac_same, ← hmac m]
  · rw [Dev.mac_putMac_same, ← hmac m]

/-- What a frame that has left leaves: counted, and back in the loop where the MAC is looped. -/
def Dev.sent (d : Dev) (m : Nat) (f : TxFrame) : Dev :=
  if d.on .ethLoop m then (d.count .ethTxFrames m).loopFrame m f none else d.count .ethTxFrames m

theorem Dev.sent_leaves (d : Dev) (m : Nat) (f : TxFrame) : Dev.Leaves m (d.count .ethTxFrames m) (d.sent m f) := by
  unfold Dev.sent
  split
  · exact Dev.loopFrame_leaves _ m f none
  · exact ⟨rfl, rfl, fun _ _ => rfl, rfl, rfl⟩

/-- The timestamp of a frame that asks for one. -/
def Dev.stamped (e : Env) (d : Dev) (m : Nat) (f : TxFrame) : Dev :=
  match f.ptp with
  | some (seq, kind) => d.stampTx e m seq kind
  | none => d

theorem Dev.stampTx_room {x y : Nat} (h : (d.mac m).stamps.length < 16) : d.stampTx e m x y =
    d.putMac m { d.mac m with stamps := (d.mac m).stamps ++ [(x, y, ofInt 64 ((e.tb : Int) + d.gi .ethTsAdjTx m))] } :=
  if_pos h

theorem Dev.stampTx_full {x y : Nat} (h : ¬(d.mac m).stamps.length < 16) : d.stampTx e m x y =
    ((d.putMac m { d.mac m with stamps := (d.mac m).stamps.drop 1 ++
      [(x, y, ofInt 64 ((e.tb : Int) + d.gi .ethTsAdjTx m))] }).count .ethTsOverflow m).flag .ethEventFlags m 3 :=
  if_neg h

/-- A timestamp changes the MAC's list of them; the list grows while it has room. -/
theorem Dev.stamped_rest (e : Env) (d : Dev) (m : Nat) (f : TxFrame) :
    ((d.stamped e m f).mac m).queues = (d.mac m).queues ∧ (∀ j, j ≠ m → (d.stamped e m f).mac j = d.mac j) ∧
      (∀ l ∈ d.late, l ∈ (d.stamped e m f).late) ∧ (d.stamped e m f).posts = d.posts ∧
      ∀ x y : Nat, f.ptp = some (x, y) → (d.mac m).stamps.length < 16 →
        ((d.stamped e m f).mac m).stamps.length = (d.mac m).stamps.length + 1 := by
  unfold Dev.stamped
  split
  next seq kind hptp =>
    by_cases h : (d.mac m).stamps.length < 16
    · rw [Dev.stampTx_room h]
      exact ⟨(congrArg MacCtx.queues (Dev.mac_putMac_same d m _) :), fun j hj => Dev.mac_putMac_other _ _ hj, fun _ hl => hl, rfl,
        fun _ _ _ _ => by rw [Dev.mac_putMac_same]; exact List.length_append⟩
    · rw [Dev.stampTx_full h]
      exact ⟨(congrArg MacCtx.queues (Dev.mac_putMac_same d m _) :), fun j hj => Dev.mac_putMac_other _ _ hj,
        fun _ hl => List.mem_append_left _ (List.mem_append_left _ hl), rfl, fun _ _ _ hroom => absurd hroom h⟩
  next hptp => exact ⟨rfl, fun _ _ => rfl, fun _ hl => hl, rfl, fun _ _ hsome => by simp [hptp] at hsome⟩

/-- The head of queue 3 goes first, whatever the other queues hold. -/
theorem Dev.nextQueue_first {x : TxFrame} {rest : List TxFrame} (h : (d.mac m).queues.getD 0 [] = x :: rest)
    (credit : List Rat) : d.nextQueue m credit = some 0 := by
  have hfirst : (!((d.mac m).queues.getD 0 []).isEmpty && ((0 : Nat) == 0 || (0 : Nat) == 3 ||
      decide (0 ≤ credit.getD (0 - 1) 0))) = true := by rw [h]; rfl
  exact List.find?_cons_of_pos (a := 0) (l := [1, 2, 3]) (p := fun k => !((d.mac m).queues.getD k []).isEmpty &&
    (k == 0 || k == 3 || decide (0 ≤ credit.getD (k - 1) 0))) hfirst

/-- The MAC with the head of queue 3 taken. -/
def Dev.headTaken (e : Env) (d : Dev) (m : Nat) (x : TxFrame) (rest : List TxFrame) : Dev :=
  let start := max e.free (d.mac m).busy
  d.putMac m { d.mac m with
    queues := (d.mac m).queues.set 0 rest, credit := d.creditsAt m start, creditAt := start,
    busy := start + ((8 * x.bytes : Nat) : Rat) * 1000000000 / ((d.macRate m : Nat) : Rat) }

theorem Dev.transmit_sends {x : TxFrame} {rest : List TxFrame} (hfree : ¬e.free + 250 ≤ (d.mac m).busy)
    (hhead : (d.mac m).queues.getD 0 [] = x :: rest) (hsec : d.on .msEnable m = false) :
    d.transmit e m = ((d.headTaken e m x rest).sent m x).stamped e m x := by
  have hclear (c : MacCtx) : (d.putMac m c).on .msEnable m = false := hsec
  refine (if_neg hfree).trans ?_
  rw [Dev.nextQueue_first hhead]
  simp only [hhead, hclear, Bool.false_and, Bool.false_eq_true, if_false]
  rfl

/-- What a MAC that is not busy, outside MACsec, makes of the head of queue 3. -/
theorem Dev.transmit_takes {x : TxFrame} {rest : List TxFrame} (hfree : ¬e.free + 250 ≤ (d.mac m).busy)
    (hlen : (d.mac m).queues.length = 4) (hhead : (d.mac m).queues.getD 0 [] = x :: rest) (hsec : d.on .msEnable m = false) :
    let t := d.transmit e m
    (t.mac m).queues.getD 0 [] = rest ∧ (∀ k, 0 < k → (t.mac m).queues.getD k [] = (d.mac m).queues.getD k []) ∧
      Late.add .ethTxFrames m 1 ∈ t.late ∧
      (∀ p q : Nat, x.ptp = some (p, q) → (d.mac m).stamps.length < 16 → (t.mac m).stamps.length = (d.mac m).stamps.length + 1) ∧
      (∀ j, j ≠ m → t.mac j = d.mac j) ∧ t.posts = d.posts := by
  have hsent := (d.headTaken e m x rest).sent_leaves m x
  obtain ⟨hqueues, hothers, hlate, hposts, hstamps⟩ := Dev.stamped_rest e ((d.headTaken e m x rest).sent m x) m x
  have htaken : (d.headTaken e m x rest).mac m = { d.mac m with
      queues := (d.mac m).queues.set 0 rest, credit := d.creditsAt m (max e.free (d.mac m).busy),
      creditAt := max e.free (d.mac m).busy, busy := (max e.free (d.mac m).busy) +
        ((8 * x.bytes : Nat) : Rat) * 1000000000 / ((d.macRate m : Nat) : Rat) } := Dev.mac_putMac_same ..
  have hq : ((((d.headTaken e m x rest).sent m x).stamped e m x).mac m).queues = (d.mac m).queues.set 0 rest :=
    hqueues.trans (hsent.queues.trans (congrArg MacCtx.queues htaken :))
  have hs : (((d.headTaken e m x rest).sent m x).mac m).stamps = (d.mac m).stamps :=
    hsent.stamps.trans (congrArg MacCtx.stamps htaken :)
  rw [Dev.transmit_sends hfree hhead hsec]
  refine ⟨?_, fun k hk => ?_, ?_, fun p q hptp hroom => ?_, fun j hj => ?_, ?_⟩
  · rw [hq]
    simp [List.getD, hlen]
  · rw [hq]
    simp [List.getD, List.getElem?_set_ne (Nat.ne_of_lt hk)]
  · exact hlate _ (hsent.late ▸ List.mem_append_right _ (List.mem_singleton_self _))
  · rw [hstamps p q hptp (hs ▸ hroom), hs]
  · exact (hothers j hj).trans ((hsent.others j hj).trans (Dev.mac_putMac_other _ _ hj))
  · exact hposts.trans hsent.posts

/-! ## Timestamps (R339) -/

theorem Dev.popStamp_empty (h : (d.mac m).stamps = []) :
    d.popStamp m = (0, d.putMac m { d.mac m with popped := (0, 0) }) := by
  simp only [Dev.popStamp, h]

theorem Dev.popStamp_oldest {x k b : Nat} {rest : List (Nat × Nat × Nat)} (h : (d.mac m).stamps = (x, k, b) :: rest) :
    d.popStamp m = (x % 2 ^ 16 + k % 16 * 2 ^ 16 + 2 ^ 31,
      d.putMac m { d.mac m with stamps := rest, popped := (x % 2 ^ 16 + k % 16 * 2 ^ 16 + 2 ^ 31, b) }) := by
  simp only [Dev.popStamp, h]

end

theorem Dev.transmit_busy_putMac {e : Env} {d : Dev} {m : Nat} {c : MacCtx} (h : e.free + 250 ≤ c.busy) :
    (d.putMac m c).transmit e m = d.putMac m c :=
  Dev.transmit_busy (by rwa [Dev.mac_putMac_same])

/-- Settles O35: a busy MAC only queues; one that is free sends the head of queue 3 (`Dev.transmit_takes`). -/
theorem transmitQueuesAndTimestamps : Obligations.TransmitQueuesAndTimestamps := by
  refine ⟨fun s m hs => ⟨fun hbusy => ?_, fun f hbusy hdown => ?_, fun f hbusy hup hhop => ?_, fun f hbusy hup hhop hlen => ?_,
    fun f rest hfree hlen hhead hsec => ?_⟩, fun s m hs => ⟨fun h => ?_, fun x k b rest h => ?_⟩⟩
  · exact (exec_transmitFrame_none m s).trans (s.at_id 9 _ hs (Dev.transmit_busy hbusy))
  · refine (exec_transmitFrame_some m f s).trans (s.at_become 9 _ _ hs ?_ (s.enter_posts 9))
    rw [Dev.firmwareFrame_down hdown]
    exact Dev.transmit_busy (d := (s.enter 9).dev.count .ethTxDropDown m) hbusy
  · refine (exec_transmitFrame_some m f s).trans (s.at_become 9 _ _ hs ?_ (s.enter_posts 9))
    rw [Dev.firmwareFrame_unresolved hup hhop]
    exact Dev.transmit_busy (d := ((s.enter 9).dev.count .ethTxUnresolved m).flag .ethEventFlags m 1) hbusy
  · refine ⟨_, (exec_transmitFrame_some m f s).trans (s.at_become 9 _ _ hs ((congrArg (Dev.transmit (s.enter 9).env · m)
      (Dev.firmwareFrame_queued hup hhop)).trans (Dev.transmit_busy_putMac hbusy)) (s.enter_posts 9)), rfl, rfl, ?_⟩
    exact (congrArg (fun c : MacCtx => c.queues.getD (firmwarePlace f) []) (Dev.mac_putMac_same ..)).trans
      (getD_set_same (hlen ▸ firmwarePlace_lt f) _ _)
  · obtain ⟨hrest, hstand, hcount, hstamp, hothers, hposts⟩ := Dev.transmit_takes hfree hlen hhead hsec
    exact ⟨_, (exec_transmitFrame_none m s).trans (s.at_become 9 _ _ hs rfl (hposts.trans (s.enter_posts 9))), hrest, hstand,
      hcount, hstamp, hothers⟩
  · exact (exec_tsIdPop m s).trans (s.at_become 8 _ _ hs (by rw [Dev.popStamp_empty h]) (s.enter_posts 8))
  · exact (exec_tsIdPop m s).trans (s.at_become 8 _ _ hs (by rw [Dev.popStamp_oldest h]) (s.enter_posts 8))

end Sys2Proof.Machine
end

section
/-!
Links, their faults and loops, the ARP table (O36), and secure associations (O37).
-/

namespace Sys2Proof.Machine

theorem exec_linkFaultReceived (m : Nat) (s : State) : exec (.linkFaultReceived m) s =
    s.at 9 fun e d => d.when (!d.on .ethLoop m) fun d => (d.putMac m { d.mac m with fault := some e.now }).linkFollow m := rfl
theorem exec_ethLoop (m v : Nat) (s : State) : exec (.ethLoop m v) s = s.at 7 fun e d => d.directWrite e .ethLoop m v := rfl

/-- A link fault is cleared 1 ms after the last sequence. -/
def Dev.faultCleared (e : Env) (d : Dev) (m : Nat) : Dev :=
  match (d.mac m).fault with
  | none => d
  | some t => d.when (t + 4000 ≤ e.now) fun d => (d.putMac m { d.mac m with fault := none }).linkFollow m

/-- An ARP entry is refreshed every 60 s. -/
def Dev.arpRefreshed (e : Env) (d : Dev) (m ip : Nat) : Dev :=
  match (d.mac m).arp.find ip with
  | some (a, t) => d.when (t + 240000000 ≤ e.now) fun x =>
      x.putMac m { d.mac m with arp := (d.mac m).arp.put ip (a, e.now) }
  | none => d

theorem exec_linkFaultCleared (m : Nat) (s : State) : exec (.linkFaultCleared m) s = s.at 9 fun e d => d.faultCleared e m := rfl
theorem exec_arpRefresh (m ip : Nat) (s : State) : exec (.arpRefresh m ip) s = s.at 9 fun e d => d.arpRefreshed e m ip := rfl

section
variable {e : Env} {d : Dev} {m : Nat}

/-! ## The link (R322, R330) -/

/-- The link a MAC's loop-back, lane and faults give. -/
def Dev.linkUp (d : Dev) (m : Nat) : Bool := d.on .ethLoop m ||
  (d.macReady m && (d.lanesOf m).all (fun i => d.g .laneState i == laneUp) && (d.mac m).fault.isNone)

/-- From `d` to `d'` the link of MAC `m` may have changed, with its flag, and nothing else. -/
structure Dev.Relinks (m : Nat) (d d' : Dev) : Prop where
  link : d'.on .ethLink m = d.linkUp m
  objs : ∀ o i, ¬(o = .ethLink ∧ i = m) → d'.g o i = d.g o i
  flag : d.on .ethLink m ≠ d.linkUp m → .flag .ethEventFlags m 1 ∈ d'.late
  same : d' = { d with objs := d'.objs, late := d'.late }

theorem Dev.on_put_b2n (d : Dev) {o : Obj} (i : Nat) (b : Bool) (h : 0 < o.info.ty.width) : (d.put o i (b2n b)).on o i = b := by
  have hone : 1 < 2 ^ o.info.ty.width := Nat.one_lt_two_pow (Nat.pos_iff_ne_zero.1 h)
  unfold Dev.on
  rw [Dev.g_put_same]
  cases b with
  | false => rw [show b2n false = 0 from rfl, Nat.zero_mod]; rfl
  | true => rw [show b2n true = 1 from rfl, Nat.mod_eq_of_lt hone]; rfl

theorem Dev.linkFollow_relinks (d : Dev) (m : Nat) : Dev.Relinks m d (d.linkFollow m) := by
  by_cases h : d.on .ethLink m = d.linkUp m
  · rw [show d.linkFollow m = d from if_pos h]
    exact ⟨h, fun _ _ _ => rfl, fun hne => absurd h hne, rfl⟩
  · rw [show d.linkFollow m = (d.put .ethLink m (b2n (d.linkUp m))).flag .ethEventFlags m 0 from if_neg h]
    refine ⟨Dev.on_put_b2n d m _ (by decide), fun o i hne => ?_, fun _ => List.mem_append_right _ (List.mem_singleton_self _), rfl⟩
    by_cases ho : o = .ethLink
    · subst ho
      exact Dev.g_put_other_index _ _ _ _ _ fun hi => hne ⟨rfl, hi⟩
    · exact Dev.g_put_of_ne _ _ _ _ ho

theorem Dev.Relinks.mac {d d' : Dev} (h : Dev.Relinks m d d') (j : Nat) : d'.mac j = d.mac j :=
  (congrArg (fun x : Dev => x.mac j) h.same :)
theorem Dev.Relinks.posts {d d' : Dev} (h : Dev.Relinks m d d') : d'.posts = d.posts := (congrArg Dev.posts h.same :)
theorem Dev.Relinks.answer {d d' : Dev} (h : Dev.Relinks m d d') : d'.answer = d.answer := (congrArg Dev.answer h.same :)

/-- With a fault the link is what the loop-back makes it; without one it follows the lane. -/
theorem Dev.linkUp_fault (t : Nat) : (d.putMac m { d.mac m with fault := some t }).linkUp m = d.on .ethLoop m := by
  show (d.on .ethLoop m || (_ && ((d.putMac m { d.mac m with fault := some t }).mac m).fault.isNone)) = _
  rw [Dev.mac_putMac_same]
  simp

theorem Dev.linkUp_noFault : (d.putMac m { d.mac m with fault := none }).linkUp m = (d.on .ethLoop m || (d.macReady m &&
    (d.lanesOf m).all (fun i => d.g .laneState i == 2))) := by
  show (d.on .ethLoop m || (d.macReady m && (d.lanesOf m).all (fun i => d.g .laneState i == laneUp) &&
    ((d.putMac m { d.mac m with fault := none }).mac m).fault.isNone)) = _
  rw [Dev.mac_putMac_same]
  simp [laneUp]

theorem Dev.linkUp_loop (h : d.on .ethLoop m = true) : d.linkUp m = true := by simp [Dev.linkUp, h]

theorem Dev.faultCleared_none (h : (d.mac m).fault = none) : d.faultCleared e m = d := by
  simp only [Dev.faultCleared, h]

theorem Dev.faultCleared_some {t : Nat} (h : (d.mac m).fault = some t) : d.faultCleared e m =
    d.when (t + 4000 ≤ e.now) fun d => (d.putMac m { d.mac m with fault := none }).linkFollow m := by
  simp only [Dev.faultCleared, h]

theorem Dev.arpRefreshed_none {ip : Nat} (h : (d.mac m).arp.find ip = none) : d.arpRefreshed e m ip = d := by
  simp only [Dev.arpRefreshed, h]

theorem Dev.arpRefreshed_some {ip a t : Nat} (h : (d.mac m).arp.find ip = some (a, t)) : d.arpRefreshed e m ip =
    d.when (t + 240000000 ≤ e.now) fun x => x.putMac m { d.mac m with arp := (d.mac m).arp.put ip (a, e.now) } := by
  simp only [Dev.arpRefreshed, h]

/-- A fault sequence on a MAC without a loop-back. -/
theorem Dev.linkFault_down (hloop : d.on .ethLoop m = false) (t : Nat) :
    let d' := (d.putMac m { d.mac m with fault := some t }).linkFollow m
    (d'.mac m).fault = some t ∧ d'.on .ethLink m = false ∧ (d.on .ethLink m = true → .flag .ethEventFlags m 1 ∈ d'.late) ∧
      (∀ j, j ≠ m → d'.mac j = d.mac j ∧ d'.g .ethLink j = d.g .ethLink j) ∧ d'.posts = d.posts := by
  have h := (d.putMac m { d.mac m with fault := some t }).linkFollow_relinks m
  have hdown := (Dev.linkUp_fault (d := d) (m := m) t).trans hloop
  refine ⟨?_, h.link.trans hdown, fun hup => h.flag ?_, fun j hj => ⟨?_, h.objs .ethLink j fun hh => hj hh.2⟩, h.posts⟩
  · rw [h.mac, Dev.mac_putMac_same]
  · rw [hdown]
    exact fun heq => absurd (hup.symm.trans heq) (by decide)
  · rw [h.mac, Dev.mac_putMac_other _ _ hj]

/-- The fault of a MAC is cleared. -/
theorem Dev.linkFault_cleared (d : Dev) (m : Nat) :
    let d' := (d.putMac m { d.mac m with fault := none }).linkFollow m
    (d'.mac m).fault = none ∧ d'.on .ethLink m = (d.on .ethLoop m || (d.macReady m &&
      (d.lanesOf m).all (fun i => d.g .laneState i == 2))) ∧ d'.posts = d.posts := by
  have h := (d.putMac m { d.mac m with fault := none }).linkFollow_relinks m
  refine ⟨?_, h.link.trans Dev.linkUp_noFault, h.posts⟩
  rw [h.mac, Dev.mac_putMac_same]

theorem Dev.loop_up (d : Dev) (m : Nat) : let d' := (d.put .ethLoop m 1).linkFollow m
    d'.g .ethLoop m = 1 ∧ d'.on .ethLink m = true ∧ d'.posts = d.posts ∧ d'.answer = d.answer := by
  have h := (d.put .ethLoop m 1).linkFollow_relinks m
  have hone : (d.put .ethLoop m 1).g .ethLoop m = 1 := Dev.g_put_of_lt _ _ _ _ (by decide)
  refine ⟨(h.objs .ethLoop m fun hh => absurd hh.1 (by decide)).trans hone, h.link.trans (Dev.linkUp_loop ?_), h.posts, h.answer⟩
  unfold Dev.on
  rw [hone]
  rfl

theorem Dev.directWrite_ethLoop (hkeep : d.keepFails .ethLoop m 1 [] = 0) : d.directWrite e .ethLoop m 1 =
    (((d.answerCode 0).put .ethLoop m 1).linkFollow m).recorded e registerOrigin .ethLoop m 1 [] :=
  Dev.directWrite_acts e rfl rfl rfl hkeep rfl

theorem Dev.ethLoop_up (hkeep : d.keepFails .ethLoop m 1 [] = 0) : let d' := d.directWrite e .ethLoop m 1
    d'.answer.code = 0 ∧ d'.g .ethLoop m = 1 ∧ d'.on .ethLink m = true ∧ d'.posts = d.posts := by
  obtain ⟨hloop, hlink, hposts, hanswer⟩ := (d.answerCode 0).loop_up m
  have h := Dev.recorded_records e (((d.answerCode 0).put .ethLoop m 1).linkFollow m) registerOrigin .ethLoop m 1 []
  rw [Dev.directWrite_ethLoop hkeep]
  refine ⟨congrArg Answer.code (h.answer.trans hanswer), (h.objs .ethLoop (by decide) m).trans hloop, ?_, h.posts.trans hposts⟩
  exact (congrArg (· != 0) (h.objs .ethLink (by decide) m)).trans hlink

end

/-- Settles O36: the link by `Dev.linkFollow_relinks`, the rest by whether it is due. -/
theorem linksFollowFaultsAndLoops : Obligations.LinksFollowFaultsAndLoops := by
  refine ⟨fun s m hs => ⟨fun h => ?_, fun h => ?_, fun h => ?_, fun b h hnot => ?_, fun b h hdue => ?_, fun ip h => ?_,
    fun ip a b h hnot => ?_, fun ip a b h hdue => ?_⟩, fun s m hs hkeep => ?_⟩
  · exact (exec_linkFaultReceived m s).trans (s.at_id 9 _ hs (Dev.when_of_false _ _ (by simp [h])))
  · obtain ⟨hfault, hdown, hflag, hothers, hposts⟩ := Dev.linkFault_down h (s.enter 9).env.now
    exact ⟨_, (exec_linkFaultReceived m s).trans (s.at_become 9 _ _ hs (Dev.when_of_true _ _ (by simp [h]))
      (hposts.trans (s.enter_posts 9))), hfault, hdown, hflag, hothers⟩
  · exact (exec_linkFaultCleared m s).trans (s.at_id 9 _ hs (Dev.faultCleared_none h))
  · exact (exec_linkFaultCleared m s).trans (s.at_id 9 _ hs ((Dev.faultCleared_some h).trans
      (Dev.when_of_false _ _ (decide_eq_false (Nat.not_le.2 hnot)))))
  · obtain ⟨hfault, hlink, hposts⟩ := (s.enter 9).dev.linkFault_cleared m
    exact ⟨_, (exec_linkFaultCleared m s).trans (s.at_become 9 _ _ hs ((Dev.faultCleared_some h).trans
      (Dev.when_of_true _ _ (decide_eq_true hdue))) (hposts.trans (s.enter_posts 9))), hfault, hlink⟩
  · exact (exec_arpRefresh m ip s).trans (s.at_id 9 _ hs (Dev.arpRefreshed_none h))
  · exact (exec_arpRefresh m ip s).trans (s.at_id 9 _ hs ((Dev.arpRefreshed_some h).trans
      (Dev.when_of_false _ _ (decide_eq_false (Nat.not_le.2 hnot)))))
  · exact (exec_arpRefresh m ip s).trans (s.at_become 9 _ _ hs ((Dev.arpRefreshed_some h).trans
      (Dev.when_of_true _ _ (decide_eq_true hdue))) (s.enter_posts 9))
  · obtain ⟨hcode, hloop, hlink, hposts⟩ := Dev.ethLoop_up (e := (s.enter 7).env) hkeep
    exact ⟨_, (exec_ethLoop m 1 s).trans (s.at_become 7 _ _ hs rfl (hposts.trans (s.enter_posts 7))), hcode, hloop, hlink⟩

end Sys2Proof.Machine
end

section
/-!
Secure associations (O37): key loads, the move of transmission, and retirement.
-/

namespace Sys2Proof.Machine

theorem exec_keyLoadComplete (m : Nat) (s : State) : exec (.keyLoadComplete m) s =
    s.at 9 fun e d => match if d.g .krIslandState = 1 then none else d.dueLoad e.now m with
      | none => d
      | some l => ({ d with io := { d.io with loads := d.io.loads.erase l } }).loadDone e.now l := rfl
theorem exec_saRetire (ch an : Nat) (s : State) : exec (.saRetire ch an) s =
    s.at 9 fun e d => d.when (d.retireDue e.now (24 + ch) an) fun d => d.emptySa e.now (24 + ch) an := rfl
theorem exec_msTxAn_firmware (m an : Nat) (s : State) : exec (.msTxAn m an true) s =
    s.at 7 fun e d => (d.switchAn e.now m an true).2.answerCode (d.switchAn e.now m an true).1 := rfl
theorem exec_msTxAn_session (m an : Nat) (s : State) :
    exec (.msTxAn m an false) s = s.at 7 fun e d => d.directWrite e .msTxAn m an := rfl

section
variable {e : Env} {d : Dev} {m : Nat}

/-! ## One association -/

/-- From `d` to `d'` association `an` of a channel has taken a value, and no other has changed; no byte write is posted. -/
structure Dev.TakesSa (ch an : Nat) (x : Sa) (d d' : Dev) : Prop where
  same : d'.sa ch an = x
  others : ∀ c a, 4 * c + a ≠ 4 * ch + an → d'.sa c a = d.sa c a
  objs : ∀ o, o ≠ .msTxSaState → o ≠ .msrxSaState → ∀ i, d'.g o i = d.g o i
  loads : d'.io.loads = d.io.loads
  posts : d'.posts = d.posts
  flag : (d.sa ch an).st ≠ x.st → .flag .msEventFlags (chanMac ch) 1 ∈ d'.late

theorem Dev.putSa_takes (d : Dev) (ch an : Nat) (x : Sa) : Dev.TakesSa ch an x d (d.putSa ch an x) := by
  have hsame : ∀ b : Dev, b.io.sas = d.io.sas.put (4 * ch + an) x → b.sa ch an = x := fun b hb =>
    (congrArg (Tab.getD · (4 * ch + an) ({} : Sa)) hb).trans (Tab.getD_put_same ..)
  have hothers : ∀ b : Dev, b.io.sas = d.io.sas.put (4 * ch + an) x → ∀ c a, 4 * c + a ≠ 4 * ch + an → b.sa c a = d.sa c a :=
    fun b hb c a hne => (congrArg (Tab.getD · (4 * c + a) ({} : Sa)) hb).trans (Tab.getD_put_other _ _ _ _ _ hne)
  unfold Dev.putSa
  refine iteInduction (motive := fun b => Dev.TakesSa ch an x d b) (fun hst => ?_) fun hst => ?_
  · split
    · exact ⟨hsame _ rfl, hothers _ rfl, fun o ho _ i => Dev.g_put_of_ne _ _ _ _ ho, rfl, rfl, fun hne => absurd hst hne⟩
    · exact ⟨hsame _ rfl, hothers _ rfl, fun o _ ho i => Dev.g_put_of_ne _ _ _ _ ho, rfl, rfl, fun hne => absurd hst hne⟩
  · split
    · exact ⟨hsame _ rfl, hothers _ rfl, fun o ho _ i => Dev.g_put_of_ne _ _ _ _ ho, rfl, rfl,
        fun _ => List.mem_append_right _ (List.mem_singleton_self _)⟩
    · exact ⟨hsame _ rfl, hothers _ rfl, fun o _ ho i => Dev.g_put_of_ne _ _ _ _ ho, rfl, rfl,
        fun _ => List.mem_append_right _ (List.mem_singleton_self _)⟩

/-! ## Key loads (R333) -/

/-- The association a key load leaves. -/
def Dev.loaded (now : Nat) (d : Dev) (l : KeyLoad) : Sa :=
  { st := if l.chan < 24 ∧ d.g .msTxAn l.chan = l.an then 2 else 1, key := l.key,
    pn := if l.chan < 24 then 1 else 0, since := now }

theorem Dev.loadDone_eq (now : Nat) (d : Dev) (l : KeyLoad) : d.loadDone now l =
    if l.chan < 24 ∧ d.g .msTxAn l.chan = l.an then (d.putSa l.chan l.an (d.loaded now l)).put .msTxPn l.chan 1
    else d.putSa l.chan l.an (d.loaded now l) := by
  unfold Dev.loadDone Dev.loaded
  simp only [Bool.and_eq_true, decide_eq_true_eq, beq_iff_eq, saInUse, saLoaded]

theorem Dev.loadDone_leaves (now : Nat) (d : Dev) (l : KeyLoad) :
    (d.loadDone now l).sa l.chan l.an = d.loaded now l ∧ (d.loadDone now l).io.loads = d.io.loads ∧
      (∀ ch an, 4 * ch + an ≠ 4 * l.chan + l.an → (d.loadDone now l).sa ch an = d.sa ch an) ∧
      (d.loadDone now l).posts = d.posts := by
  have h := d.putSa_takes l.chan l.an (d.loaded now l)
  rw [Dev.loadDone_eq]
  split <;> exact ⟨h.same, h.loads, h.others, h.posts⟩

/-! ## Moving transmission (R334) -/

/-- Transmission may move to the association. -/
def Dev.SaHeld (d : Dev) (m an : Nat) : Prop := (d.sa m an).st = 1 ∨ (d.sa m an).st = 2

theorem Dev.switchAn_mka (now : Nat) {an : Nat} (h : d.g .msMode m = 1) : d.switchAn now m an false = (0x0399, d) :=
  if_pos ⟨h, rfl⟩

/-- The association transmitted on before is LOADED again. -/
def Dev.oldReleased (now : Nat) (d : Dev) (m an : Nat) : Dev :=
  if d.g .msTxAn m ≠ an ∧ (d.sa m (d.g .msTxAn m)).st = saInUse then
    d.putSa m (d.g .msTxAn m) { d.sa m (d.g .msTxAn m) with st := saLoaded, since := now }
  else d

/-- Transmission on the association, whatever was before. -/
def Dev.switched (now : Nat) (d : Dev) (m an : Nat) : Dev :=
  (((d.oldReleased now m an).putSa m an { d.sa m an with st := saInUse, since := now }).put .msTxAn m an).put .msTxPn m (d.sa m an).pn

theorem Dev.switchAn_eq (now : Nat) {an : Nat} {fw : Bool} (h : ¬(d.g .msMode m = 1 ∧ (!fw) = true)) :
    d.switchAn now m an fw = if (d.sa m an).st ≠ 1 ∧ (d.sa m an).st ≠ 2 then (0x0398, d) else (0, d.switched now m an) :=
  if_neg h

theorem Dev.switchAn_refused (now : Nat) {an : Nat} {fw : Bool} (h : ¬(d.g .msMode m = 1 ∧ (!fw) = true))
    (hheld : ¬d.SaHeld m an) : d.switchAn now m an fw = (0x0398, d) :=
  (Dev.switchAn_eq now h).trans (if_pos (not_or.1 hheld))

theorem Dev.switchAn_accepted (now : Nat) {an : Nat} {fw : Bool} (h : ¬(d.g .msMode m = 1 ∧ (!fw) = true))
    (hheld : d.SaHeld m an) : d.switchAn now m an fw = (0, d.switched now m an) :=
  (Dev.switchAn_eq now h).trans (if_neg fun hnot => not_or.2 hnot hheld)

/-- Releasing the association before touches no other. -/
theorem Dev.oldReleased_leaves (now : Nat) (d : Dev) (m an : Nat) :
    (∀ k, k ≠ d.g .msTxAn m → (d.oldReleased now m an).sa m k = d.sa m k) ∧
      (d.g .msTxAn m ≠ an → (d.sa m (d.g .msTxAn m)).st = 2 → ((d.oldReleased now m an).sa m (d.g .msTxAn m)).st = 1) ∧
      (d.oldReleased now m an).posts = d.posts := by
  unfold Dev.oldReleased
  split
  next =>
    have h := d.putSa_takes m (d.g .msTxAn m) { d.sa m (d.g .msTxAn m) with st := saLoaded, since := now }
    exact ⟨fun k hk => h.others m k (by omega), fun _ _ => congrArg Sa.st h.same, h.posts⟩
  next hnot => exact ⟨fun _ _ => rfl, fun hne hst => absurd ⟨hne, hst⟩ hnot, rfl⟩

theorem Dev.switched_leaves (now : Nat) (d : Dev) (m : Nat) {an : Nat} (han : an < 4) :
    (d.switched now m an).g .msTxAn m = an ∧
      (d.switched now m an).sa m an = { d.sa m an with st := 2, since := now } ∧
      (d.g .msTxAn m ≠ an → (d.sa m (d.g .msTxAn m)).st = 2 → ((d.switched now m an).sa m (d.g .msTxAn m)).st = 1) ∧
      (d.switched now m an).posts = d.posts := by
  obtain ⟨-, hold, hposts⟩ := d.oldReleased_leaves now m an
  have h := (d.oldReleased now m an).putSa_takes m an { d.sa m an with st := saInUse, since := now }
  refine ⟨?_, h.same, fun hne hst => ?_, h.posts.trans hposts⟩
  · exact (Dev.g_put_of_ne _ _ _ _ (by decide)).trans (Dev.g_put_of_lt _ _ _ _ (Nat.lt_trans han (by decide)))
  · have hother : (d.switched now m an).sa m (d.g .msTxAn m) = (d.oldReleased now m an).sa m (d.g .msTxAn m) :=
      h.others m (d.g .msTxAn m) (by omega)
    rw [hother]
    exact hold hne hst

theorem Dev.Records.sa {a b : Dev} (h : a.Records b) (ch an : Nat) : b.sa ch an = a.sa ch an :=
  (congrArg (fun x : Dev => x.sa ch an) h.same :)

theorem Dev.answerCode_sa (d : Dev) (code ch an : Nat) : (d.answerCode code).sa ch an = d.sa ch an := rfl

/-- The same once the code is answered. -/
theorem Dev.switched_answers (now : Nat) (d : Dev) (m : Nat) {an : Nat} (han : an < 4) :
    let d' := (d.switched now m an).answerCode 0
    d'.g .msTxAn m = an ∧ d'.sa m an = { d.sa m an with st := 2, since := now } ∧
      (d.g .msTxAn m ≠ an → (d.sa m (d.g .msTxAn m)).st = 2 → (d'.sa m (d.g .msTxAn m)).st = 1) ∧ d'.posts = d.posts := by
  simp only [Dev.answerCode_g, Dev.answerCode_sa, Dev.answerCode_posts]
  exact d.switched_leaves now m han

theorem Dev.directWrite_msTxAn {an : Nat} (han : an < 4) (hkeep : d.keepFails .msTxAn m an [] = 0) : d.directWrite e .msTxAn m an =
    (((d.answerCode 0).switchAn e.now m an false).2.answerCode ((d.answerCode 0).switchAn e.now m an false).1).recorded e
      registerOrigin .msTxAn m an [] := by
  have hrange : Obj.msTxAn.rangeFails an = 0 := by
    interval_cases an <;> rfl
  exact Dev.directWrite_acts e rfl hrange rfl hkeep rfl

theorem Dev.msTxAn_mka {an : Nat} (han : an < 4) (hkeep : d.keepFails .msTxAn m an [] = 0) (hmode : d.g .msMode m = 1) :
    d.directWrite e .msTxAn m an = d.answerCode 0x0399 := by
  rw [Dev.directWrite_msTxAn han hkeep, Dev.switchAn_mka (d := d.answerCode 0) e.now hmode]
  exact Dev.recorded_refused e _ _ (show (0x0399 : Nat) ≠ 0 by decide)

theorem Dev.msTxAn_moves {an : Nat} (han : an < 4) (hkeep : d.keepFails .msTxAn m an [] = 0) (hmode : d.g .msMode m ≠ 1)
    (hheld : d.SaHeld m an) : let d' := d.directWrite e .msTxAn m an
    d'.answer.code = 0 ∧ d'.g .msTxAn m = an ∧ (d'.sa m an).st = 2 ∧ d'.posts = d.posts := by
  obtain ⟨han', hsa, -, hposts⟩ := (d.answerCode 0).switched_answers e.now m han
  rw [Dev.directWrite_msTxAn han hkeep, Dev.switchAn_accepted (d := d.answerCode 0) e.now (fun hh => hmode hh.1) hheld]
  have h := Dev.recorded_records e (((d.answerCode 0).switched e.now m an).answerCode 0) registerOrigin .msTxAn m an []
  refine ⟨congrArg Answer.code h.answer, (h.objs .msTxAn (by decide) m).trans han', ?_, h.posts.trans hposts⟩
  rw [h.sa, hsa]

/-! ## Retirement (R334) -/

theorem chanMac_receive (ch : Nat) : chanMac (24 + ch) = ch / 8 := by
  unfold chanMac
  rw [if_neg (by omega), Nat.add_sub_cancel_left]

theorem Dev.retireDue_iff (now : Nat) (d : Dev) (ch an : Nat) : d.retireDue now (24 + ch) an = true ↔
    (d.sa (24 + ch) an).st = 3 ∧ (d.sa (24 + ch) an).since + d.g .msRxOverlap (ch / 8) * 4000 ≤ now := by
  simp [Dev.retireDue, chanMac_receive, saRetiring]

end

/-- Settles O37: key loads by `Dev.loadDone_leaves`, the move by `Dev.switched_leaves`, retirement by `Dev.putSa_takes`. -/
theorem secureAssociationsChangeState : Obligations.SecureAssociationsChangeState := by
  refine ⟨fun s m hs => ⟨fun h => ?_, fun h => ?_, fun l hisland hdue hlan => ?_, fun ch an han => ⟨fun hnot => ?_, fun hdue => ?_⟩⟩,
    fun s m an hs han => ⟨fun hheld => ?_, fun hheld => ?_, fun hkeep hmode => ?_, fun hkeep hmode hheld => ?_⟩⟩
  · exact (exec_keyLoadComplete m s).trans (s.at_id 9 _ hs (by rw [if_pos h]))
  · have hnone : (if (s.enter 9).dev.g .krIslandState = 1 then none
        else (s.enter 9).dev.dueLoad (s.enter 9).env.now m) = none := by
      split
      · rfl
      · exact h
    exact (exec_keyLoadComplete m s).trans (s.at_id 9 _ hs (by rw [hnone]))
  · have hsome : (if (s.enter 9).dev.g .krIslandState = 1 then none
        else (s.enter 9).dev.dueLoad (s.enter 9).env.now m) = some l := (if_neg hisland).trans hdue
    obtain ⟨hsa, hloads, hothers, hposts⟩ := Dev.loadDone_leaves (s.enter 9).env.now
      { (s.enter 9).dev with io := { (s.enter 9).dev.io with loads := (s.enter 9).dev.io.loads.erase l } } l
    exact ⟨_, (exec_keyLoadComplete m s).trans (s.at_become 9 _ _ hs (by rw [hsome]) (hposts.trans (s.enter_posts 9))), hloads,
      hsa, hothers⟩
  · exact (exec_saRetire ch an s).trans (s.at_id 9 _ hs (Dev.when_of_false _ _
      (Bool.eq_false_iff.2 fun h => hnot ((Dev.retireDue_iff ..).1 h))))
  · have h := (s.enter 9).dev.putSa_takes (24 + ch) an { since := (s.enter 9).env.now }
    refine ⟨_, (exec_saRetire ch an s).trans (s.at_become 9 _ _ hs (Dev.when_of_true _ _ ((Dev.retireDue_iff ..).2 hdue))
      (h.posts.trans (s.enter_posts 9))), h.same, ?_, h.others⟩
    exact chanMac_receive ch ▸ h.flag (by rw [hdue.1]; exact (show (3 : Nat) ≠ 0 by decide))
  · exact (exec_msTxAn_firmware m an s).trans (s.at_become 7 _ _ hs
      (by rw [Dev.switchAn_refused _ (fun hh => absurd hh.2 (by decide)) hheld]) (s.enter_posts 7))
  · obtain ⟨han', hsa, hold, hposts⟩ := (s.enter 7).dev.switched_answers (s.enter 7).env.now m han
    refine ⟨_, (exec_msTxAn_firmware m an s).trans (s.at_become 7 _
      (((s.enter 7).dev.switched (s.enter 7).env.now m an).answerCode 0) hs (by rw [Dev.switchAn_accepted _ (fun hh => absurd hh.2 (by decide)) hheld]) (hposts.trans (s.enter_posts 7))), rfl, han',
      (congrArg Sa.st hsa :), (congrArg Sa.key hsa :), (congrArg Sa.pn hsa :), fun hne _ hst => hold hne hst⟩
  · exact (exec_msTxAn_session m an s).trans (s.at_become 7 _ _ hs (Dev.msTxAn_mka han hkeep hmode) (s.enter_posts 7))
  · obtain ⟨hcode, han', hsa, hposts⟩ := Dev.msTxAn_moves (e := (s.enter 7).env) han hkeep hmode hheld
    exact ⟨_, (exec_msTxAn_session m an s).trans (s.at_become 7 _ _ hs rfl (hposts.trans (s.enter_posts 7))), hcode, han', hsa⟩

end Sys2Proof.Machine
end

section
/-!
Requests of sessions (R411, R420): when the dictionary turns one away, what an accepted one finds, and what the end of a
session leaves of the others.
-/

namespace Sys2Proof.Machine

/-! ## The idle time of a session -/

theorem Dev.updSession_session (d : Dev) (k n : Nat) (f : Session → Session) :
    (d.updSession k f).session n = if n = k then (d.session k).map f else d.session n := by
  unfold Dev.updSession
  split
  next h =>
    by_cases hn : n = k
    · rw [if_pos hn, hn, h]
      rfl
    · rw [if_neg hn]
  next x h =>
    show (d.ses.opened.put k (f x)).find n = _
    by_cases hn : n = k
    · rw [if_pos hn, hn, Tab.find_put_same, h]
      rfl
    · rw [if_neg hn, Tab.find_put_other _ _ _ _ hn]
      rfl

theorem Dev.updSession_same (d : Dev) (k : Nat) (f : Session → Session) :
    d.updSession k f = { d with ses := { d.ses with opened := (d.updSession k f).ses.opened } } := by
  unfold Dev.updSession
  split <;> rfl

/-- A served request writes one object of its session and the time of its record. -/
theorem Dev.touch_same (e : Env) (d : Dev) (k : Nat) :
    d.touch e k = { d with objs := (d.touch e k).objs, ses := { d.ses with opened := (d.touch e k).ses.opened } } := by
  unfold Dev.touch
  rw [Dev.updSession_same]
  rfl

theorem Dev.touch_g (e : Env) (d : Dev) (k : Nat) {o : Obj} (i : Nat) (h : o ≠ .sesLastTick) : (d.touch e k).g o i = d.g o i := by
  unfold Dev.touch
  rw [Dev.g_put_of_ne _ _ _ _ h, Dev.updSession_same]
  rfl

theorem Dev.touch_session (e : Env) (d : Dev) (k n : Nat) :
    (d.touch e k).session n = if n = k then (d.session k).map fun x => { x with last := e.now } else d.session n :=
  Dev.updSession_session d k n _

theorem Dev.touch_isOpen (e : Env) (d : Dev) (k n : Nat) : (d.touch e k).isOpen n = d.isOpen n := by
  unfold Dev.isOpen
  rw [Dev.touch_session]
  split
  next h => rw [h, Option.isSome_map]
  · rfl

/-- What the checks of rights read is the same once the idle time has restarted. -/
theorem Dev.touch_writeCode (e : Env) (d : Dev) (k role : Nat) (o : Obj) :
    (d.touch e k).writeCode role o = d.writeCode role o := by
  unfold Dev.writeCode
  have hgate : (d.touch e k).gate o = d.gate o := by
    unfold Dev.gate Dev.keyringGate Dev.lc Dev.quarantine
    rw [Dev.touch_g e d k 0 (by decide : Obj.lcState ≠ .sesLastTick)]
  rw [hgate]

theorem Dev.closeRequest_same (d : Dev) (k : Nat) : d.closeRequest k = { d with objs := (d.closeRequest k).objs } := by
  unfold Dev.closeRequest
  split <;> rfl

theorem Dev.closeRequest_g (d : Dev) (k : Nat) {o : Obj} (i : Nat) (h : o ≠ .sesLastStatus) :
    (d.closeRequest k).g o i = d.g o i := by
  unfold Dev.closeRequest
  split
  · exact Dev.g_put_of_ne _ _ _ _ h
  · rfl

section
variable (d : Dev) (k : Nat)

theorem Dev.closeRequest_answer : (d.closeRequest k).answer = d.answer := (congrArg Dev.answer (d.closeRequest_same k) :)
theorem Dev.closeRequest_ses : (d.closeRequest k).ses = d.ses := (congrArg Dev.ses (d.closeRequest_same k) :)
theorem Dev.closeRequest_late : (d.closeRequest k).late = d.late := (congrArg Dev.late (d.closeRequest_same k) :)
theorem Dev.closeRequest_posts : (d.closeRequest k).posts = d.posts := (congrArg Dev.posts (d.closeRequest_same k) :)
theorem Dev.closeRequest_stagings : (d.closeRequest k).stagings = d.stagings :=
  (congrArg Dev.stagings (d.closeRequest_same k) :)

theorem Dev.closeRequest_isOpen (n : Nat) : (d.closeRequest k).isOpen n = d.isOpen n := by
  unfold Dev.isOpen Dev.session
  rw [Dev.closeRequest_ses]

end

/-! ## A request by a session -/

section
variable (e : Env) (d : Dev) (k : Nat) (o : Obj) (f : Dev → Dev)

theorem Dev.request_notReady (h : d.dictReady = false) : d.request e k o f = d.answerCode 0x0301 := by
  rw [Dev.request, h, Bool.not_false, if_pos rfl]

theorem Dev.request_closed (hready : d.dictReady = true) (h : d.isOpen k = false) :
    d.request e k o f = d.answerCode 0x0102 := by
  rw [Dev.request, hready, h, Bool.not_true, Bool.not_false, if_neg Bool.false_ne_true, if_pos rfl]

theorem Dev.request_served (hready : d.dictReady = true) (h : d.isOpen k = true) :
    d.request e k o f = (if d.writeCode (d.g .sesRole k) o = 0 then f ((d.touch e k).answerCode 0)
      else (d.touch e k).answerCode (d.writeCode (d.g .sesRole k) o)).closeRequest k := by
  rw [Dev.request, hready, h, Bool.not_true, if_neg Bool.false_ne_true, if_neg Bool.false_ne_true]
  simp only [Dev.touch_writeCode, Dev.touch_g e d k k (by decide : Obj.sesRole ≠ .sesLastTick)]

end

/-- A refused request leaves its code, and the time and the status of its session. -/
theorem Dev.request_refused (e : Env) (d : Dev) (k : Nat) (o : Obj) (f : Dev → Dev) (hready : d.dictReady = true)
    (h : d.isOpen k = true) (hcode : d.writeCode (d.g .sesRole k) o ≠ 0) :
    (d.request e k o f).answer.code = d.writeCode (d.g .sesRole k) o ∧ (d.request e k o f).late = d.late ∧
      (d.request e k o f).stagings = d.stagings ∧ (d.request e k o f).takes = d.takes ∧ (d.request e k o f).kr = d.kr ∧
      (d.request e k o f).posts = d.posts ∧
      ∀ (x : Obj) (i : Nat), x ≠ .sesLastTick → x ≠ .sesLastStatus → (d.request e k o f).g x i = d.g x i := by
  rw [d.request_served e k o f hready h, if_neg hcode]
  generalize d.writeCode (d.g .sesRole k) o = c
  have hsame : ((d.touch e k).answerCode c).closeRequest k = { d with
      objs := (((d.touch e k).answerCode c).closeRequest k).objs
      ses := { d.ses with opened := (d.touch e k).ses.opened }
      answer := ((d.touch e k).answerCode c).answer } := by
    rw [Dev.closeRequest_same, Dev.touch_same]
    rfl
  refine ⟨by rw [Dev.closeRequest_answer]; rfl, (congrArg Dev.late hsame :), (congrArg Dev.stagings hsame :),
    (congrArg Dev.takes hsame :), (congrArg Dev.kr hsame :), (congrArg Dev.posts hsame :), fun x i hx hy => ?_⟩
  rw [Dev.closeRequest_g _ _ _ hy, Dev.answerCode_g, Dev.touch_g e d k i hx]

/-- A command that is session `k`'s write of an object is turned away as every such write is. -/
theorem State.turnsAway_of_request {s : State} {c : Instr} {k : Nat} {o : Obj} {f : Env → Dev → Dev} (hs : s.Awake 7)
    (hc : exec c s = s.at 7 fun e d => d.request e k o (f e)) : s.TurnsAway c k o := by
  have hposts : (s.enter 7).dev.posts = [] := s.enter_posts 7
  refine ⟨fun h => ?_, fun hready h => ?_, fun hready h hcode => ?_⟩
  · exact hc.trans (s.at_become 7 _ _ hs (Dev.request_notReady _ _ k o _ h) hposts)
  · exact hc.trans (s.at_become 7 _ _ hs (Dev.request_closed _ _ k o _ hready h) hposts)
  · obtain ⟨hanswer, hlate, hstg, htakes, hkr, hpost, hobjs⟩ :=
      Dev.request_refused (s.enter 7).env (s.enter 7).dev k o (f (s.enter 7).env) hready h hcode
    exact ⟨_, hc.trans (s.at_become 7 _ _ hs rfl (hpost.trans hposts)), hanswer, rfl, rfl, hlate, hstg, htakes, hkr, hobjs⟩

/-- An accepted request acts on the block as its session asks it. -/
theorem State.accepted {s : State} {c : Instr} {k : Nat} {o : Obj} {f : Env → Dev → Dev} (hs : s.Awake 7)
    (hc : exec c s = s.at 7 fun e d => d.request e k o (f e)) (h : s.Accepts k o) :
    exec c s = .next ((s.enter 7).run fun e _ => (f e (s.asking k)).closeRequest k) := by
  obtain ⟨hready, hopen, hcode⟩ := h
  refine hc.trans ((s.at_awake 7 _ hs).trans (congrArg Host.Outcome.next (State.run_eq_of _ ?_)))
  exact (Dev.request_served _ _ k o _ hready hopen).trans (by rw [if_pos hcode]; rfl)

/-- The same where the effect posts no byte. -/
theorem State.accepted_become {s : State} {c : Instr} {k : Nat} {o : Obj} {f : Env → Dev → Dev} (hs : s.Awake 7)
    (hc : exec c s = s.at 7 fun e d => d.request e k o (f e)) (h : s.Accepts k o)
    (hposts : (f (s.enter 7).env (s.asking k)).posts = []) :
    exec c s = .next ((s.enter 7).become ((f (s.enter 7).env (s.asking k)).closeRequest k)) := by
  obtain ⟨hready, hopen, hcode⟩ := h
  refine hc.trans (s.at_become 7 _ _ hs ?_ ((Dev.closeRequest_posts _ _).trans hposts))
  exact (Dev.request_served _ _ k o _ hready hopen).trans (by rw [if_pos hcode]; rfl)

/-- What the block is when its session asks it: the idle time has restarted, and the answer is empty. -/
theorem State.asking_same (s : State) (k : Nat) : s.asking k = { (s.enter 7).dev with
    objs := (s.asking k).objs, ses := { (s.enter 7).dev.ses with opened := (s.asking k).ses.opened }
    answer := (s.asking k).answer } := by
  unfold State.asking
  generalize (s.enter 7).dev = d
  rw [Dev.touch_same]
  rfl

theorem State.asking_g (s : State) (k : Nat) {o : Obj} (i : Nat) (h : o ≠ .sesLastTick) :
    (s.asking k).g o i = (s.enter 7).dev.g o i := by
  unfold State.asking
  rw [Dev.answerCode_g, Dev.touch_g _ _ k i h]

theorem State.asking_isOpen (s : State) (k n : Nat) : (s.asking k).isOpen n = (s.enter 7).dev.isOpen n :=
  Dev.touch_isOpen _ _ k n

theorem State.asking_posts (s : State) (k : Nat) : (s.asking k).posts = [] :=
  (congrArg Dev.posts (s.asking_same k) :).trans (s.enter_posts 7)

/-! ## What closing a session leaves of the others -/

section
variable (d : Dev)

theorem Dev.ledger_ses (e : Env) (kind : Nat) (w : Origin) (index sub status detail : Nat) :
    (d.ledger e kind w index sub status detail).ses = d.ses := (congrArg Dev.ses (d.ledger_records ..).same :)

theorem Dev.reportEngines_ses : d.reportEngines.ses = d.ses :=
  List.foldlRecOn (motive := fun b : Dev => b.ses = d.ses) _ _ rfl fun _ hb _ _ => hb

theorem Dev.salvoDrop_ses (s n : Nat) : (d.salvoDrop s n).ses = d.ses :=
  iteInduction (motive := fun b : Dev => b.ses = d.ses) (fun _ => rfl) fun _ => rfl

theorem Dev.undoOne_ses (n cause : Nat) : (d.undoOne n cause).ses = d.ses := by
  unfold Dev.undoOne
  split
  · rfl
  next t _ =>
    cases t.salvo with
    | none => rfl
    | some v => exact Dev.salvoDrop_ses _ _ _

theorem Dev.undo_ses (n cause : Nat) : (d.undo n cause).ses = d.ses :=
  (Dev.reportEngines_ses _).trans (List.foldlRecOn (motive := fun b : Dev => b.ses = d.ses) _ _ (d.undoOne_ses n cause)
    fun b hb p _ => (b.undoOne_ses p 9).trans hb)

theorem Dev.abandonStg_ses (k : Nat) : (d.abandonStg k).ses = d.ses :=
  List.foldlRecOn (motive := fun b : Dev => b.ses = d.ses) _ _ rfl fun b hb n _ => (b.undo_ses n 10).trans hb

theorem Dev.sessionLeft_ses (e : Env) (s cause : Nat) : (d.sessionLeft e s cause).ses = d.ses := by
  unfold Dev.sessionLeft
  rw [Dev.ledger_ses]
  cases d.heldStg s with
  | none => rfl
  | some k => exact d.abandonStg_ses k

end

theorem Dev.sessionCleared_ses (d : Dev) (s : Nat) : (d.sessionCleared s).ses = d.ses := rfl

/-- Closing a session closes it and no other. -/
theorem Dev.closeSession_session (e : Env) (d : Dev) (k cause n : Nat) :
    (d.closeSession e k cause).session n = if n = k then none else d.session n := by
  cases h : d.session k with
  | none =>
    rw [Dev.closeSession_none e cause h]
    split
    next hn => rw [hn, h]
    · rfl
  | some x =>
    rw [Dev.closeSession_some e cause h]
    show (Tab.del (d.sessionLeft e k cause).ses.opened k).find n = _
    rw [Dev.sessionLeft_ses]
    split
    next hn => rw [hn, Tab.find_del_same]
    next hn => rw [Tab.find_del_other _ _ _ hn]; rfl

/-- Session `k` is closed in `d'`, which differs from `d` in no other session: it is not open, shows no state and no role,
and source 0x2B0 fires. -/
structure Dev.Closed (d d' : Dev) (k : Nat) : Prop where
  shut : d'.isOpen k = false
  state : d'.g .sesState k = 0
  role : d'.g .sesRole k = 0
  fires : Late.fire 0x2B0 ∈ d'.late
  others : ∀ n, n ≠ k → d'.isOpen n = d.isOpen n

/-- An effect that keeps the sessions, their state and role and what is left for rank 9 keeps a session closed. -/
theorem Dev.Closed.after {a b c : Dev} {k : Nat} (h : a.Closed b k) (hses : c.ses = b.ses)
    (hstate : c.g .sesState k = b.g .sesState k) (hrole : c.g .sesRole k = b.g .sesRole k) (hlate : ∀ l ∈ b.late, l ∈ c.late) :
    a.Closed c k := by
  have hopen (n : Nat) : c.isOpen n = b.isOpen n := by
    unfold Dev.isOpen Dev.session
    rw [hses]
  exact ⟨(hopen k).trans h.shut, hstate.trans h.state, hrole.trans h.role, hlate _ h.fires,
    fun n hn => (hopen n).trans (h.others n hn)⟩

/-- The sessions that were open before are what counts. -/
theorem Dev.Closed.of_opens {a b c : Dev} {k : Nat} (h : a.Closed b k) (hopens : ∀ n, a.isOpen n = c.isOpen n) :
    c.Closed b k :=
  ⟨h.shut, h.state, h.role, h.fires, fun n hn => (h.others n hn).trans (hopens n)⟩

theorem Dev.sessionCleared_clear (d : Dev) (k : Nat) :
    (d.sessionCleared k).g .sesState k = 0 ∧ (d.sessionCleared k).g .sesRole k = 0 ∧
      Late.fire 0x2B0 ∈ (d.sessionCleared k).late := by
  refine ⟨?_, ?_, List.mem_append_right _ List.mem_cons_self⟩
  · unfold Dev.sessionCleared
    simp only [Dev.fire, Dev.later_g]
    rw [Dev.g_put_of_ne _ _ _ _ (by decide), Dev.g_put_of_ne _ _ _ _ (by decide), Dev.g_put_of_ne _ _ _ _ (by decide),
      Dev.g_put_of_ne _ _ _ _ (by decide), Dev.g_put_same]
    rfl
  · unfold Dev.sessionCleared
    simp only [Dev.fire, Dev.later_g]
    rw [Dev.g_put_of_ne _ _ _ _ (by decide), Dev.g_put_of_ne _ _ _ _ (by decide), Dev.g_put_of_ne _ _ _ _ (by decide),
      Dev.g_put_same]
    rfl

theorem Dev.closeSession_closed (e : Env) {d : Dev} {k : Nat} (cause : Nat) (h : (d.session k).isSome) :
    d.Closed (d.closeSession e k cause) k := by
  obtain ⟨x, hx⟩ := Option.isSome_iff_exists.1 h
  have hclear := Dev.sessionCleared_clear
    { d.sessionLeft e k cause with ses := (d.sessionLeft e k cause).ses.without k x.peer } k
  rw [← Dev.closeSession_some e cause hx] at hclear
  obtain ⟨hstate, hrole, hfire⟩ := hclear
  refine ⟨?_, hstate, hrole, hfire, fun n hn => ?_⟩
  · unfold Dev.isOpen
    rw [Dev.closeSession_session, if_pos rfl]
    rfl
  · unfold Dev.isOpen
    rw [Dev.closeSession_session, if_neg hn]

end Sys2Proof.Machine
end

section
/-!
How sessions end and CAN FD controllers follow NMT (R420 to R422, R425).
-/

namespace Sys2Proof.Machine

theorem Dev.answerCode_isOpen (d : Dev) (c n : Nat) : (d.answerCode c).isOpen n = d.isOpen n := rfl

/-! ## `ses_close` and `ses_kill` -/

/-- A session that a command closed stays closed when the request that closed it ends. -/
theorem Dev.Closed.requested {a b : Dev} {k : Nat} (h : a.Closed b k) (j : Nat) : a.Closed (b.closeRequest j) k :=
  h.after (b.closeRequest_ses j) (b.closeRequest_g j k (by decide)) (b.closeRequest_g j k (by decide))
    fun _ hl => (b.closeRequest_late j).symm ▸ hl

theorem Dev.sesCloseBy_closed (e : Env) {d : Dev} {k : Nat} (h : d.isOpen k = true) : d.Closed (d.sesCloseBy e k) k :=
  (Dev.closeSession_closed e 1 h).after rfl (Dev.answerCode_g ..) (Dev.answerCode_g ..) fun _ hl => hl

theorem Dev.sesCloseBy_posts (e : Env) (d : Dev) (k : Nat) : (d.sesCloseBy e k).posts = d.posts :=
  (congrArg Dev.posts (d.closeSession_closings e k 1).same :)

theorem Dev.sesKillBy_shut (e : Env) {d : Dev} {j k : Nat} (h : d.isOpen k = false) :
    d.sesKillBy e j k = d.answerCode 0x0305 := by
  rw [Dev.sesKillBy, h, Bool.not_false, if_pos rfl]

theorem Dev.sesKillBy_maker (e : Env) {d : Dev} {j k : Nat} (h : d.isOpen k = true) (hj : d.g .sesRole j ≠ 3)
    (hk : d.g .sesRole k = 3) : d.sesKillBy e j k = d.answerCode 0x0101 := by
  rw [Dev.sesKillBy, h, Bool.not_true, if_neg Bool.false_ne_true, if_pos ⟨hj, hk⟩]

theorem Dev.sesKillBy_kills (e : Env) {d : Dev} {j k : Nat} (h : d.isOpen k = true)
    (hrole : d.g .sesRole j = 3 ∨ d.g .sesRole k ≠ 3) : d.sesKillBy e j k = d.sesCloseBy e k := by
  rw [Dev.sesKillBy, h, Bool.not_true, if_neg Bool.false_ne_true, if_neg fun hc => hrole.elim hc.1 fun hk => hk hc.2]
  rfl

/-! ## Sessions that end by themselves -/

/-- Closing one session again and again closes it once. -/
theorem Dev.closeRepeated (e : Env) (cause : Nat) {d : Dev} {k : Nat} {xs : List (Nat × Session)} (hne : xs ≠ [])
    (hxs : ∀ x ∈ xs, x.1 = k) :
    xs.foldl (fun d (x : Nat × Session) => d.closeSession e x.1 cause) d = d.closeSession e k cause := by
  have hshut : (d.closeSession e k cause).session k = none := (d.closeSession_session e k cause k).trans (if_pos rfl)
  cases xs with
  | nil => exact absurd rfl hne
  | cons x xs =>
    rw [List.foldl_cons, hxs x List.mem_cons_self]
    refine List.foldlRecOn (motive := fun b => b = d.closeSession e k cause) xs _ rfl fun b hb y hy => ?_
    rw [hb, hxs y (List.mem_cons_of_mem _ hy), Dev.closeSession_none e cause hshut]

theorem Tab.mem_of_find {α : Type} {t : Tab α} {k : Nat} {x : α} (h : t.find k = some x) : (k, x) ∈ t := by
  induction t with
  | nil => exact absurd h.symm (Option.some_ne_none x)
  | cons p t ih =>
    rw [Tab.find] at h
    split at h
    next hk => exact List.mem_cons.2 (.inl (Prod.ext hk (Option.some.inj h).symm))
    · exact List.mem_cons_of_mem _ (ih h)

/-- What SESSION_IDLE does to the block. -/
def Dev.closeIdle (e : Env) (d : Dev) (k : Nat) : Dev :=
  d.closeWhere e 2 fun d n x => n == k && decide (x.last + d.g .sesIdle * 4000000 ≤ e.now)

theorem Dev.closeIdle_of_fresh (e : Env) {d : Dev} {k : Nat}
    (h : ∀ x ∈ d.ses.opened, x.1 = k → e.now < x.2.last + d.g .sesIdle * 4000000) : d.closeIdle e k = d :=
  Dev.closeWhere_of_none e 2 fun q hq => by
    rw [Bool.and_eq_false_iff, beq_eq_false_iff_ne, decide_eq_false_iff_not, Nat.not_le]
    exact (em (q.1 = k)).elim (fun hk => .inr (h q hq hk)) .inl

theorem Dev.closeIdle_closed (e : Env) {d : Dev} {k : Nat} {x : Session} (hx : d.session k = some x)
    (hidle : x.last + d.g .sesIdle * 4000000 ≤ e.now) : d.Closed (d.closeIdle e k) k := by
  have hmem : (k, x) ∈ d.ses.opened.filter fun y => y.1 == k && decide (y.2.last + d.g .sesIdle * 4000000 ≤ e.now) :=
    List.mem_filter.2 ⟨Tab.mem_of_find hx, by simp [hidle]⟩
  have hone : d.closeIdle e k = d.closeSession e k 2 :=
    Dev.closeRepeated e 2 (List.ne_nil_of_mem hmem) fun y hy => by
      obtain ⟨hk, -⟩ := Bool.and_eq_true_iff.1 (List.mem_filter.1 hy).2
      exact beq_iff_eq.1 hk
  rw [hone]
  exact Dev.closeSession_closed e 2 (hx ▸ rfl)

theorem Dev.closeIdle_fresh (e : Env) {d : Dev} {k : Nat} {x : Session} (hx : (d.closeIdle e k).session k = some x) :
    e.now < x.last + d.g .sesIdle * 4000000 := by
  obtain ⟨-, hstands⟩ := d.closeWhere_ended e 2 _ (k, x) (Tab.mem_of_find hx)
  rw [beq_self_eq_true, Bool.true_and, decide_eq_false_iff_not, Nat.not_le] at hstands
  exact hstands

theorem Dev.closeIdle_posts (e : Env) (d : Dev) (k : Nat) : (d.closeIdle e k).posts = d.posts :=
  (congrArg Dev.posts (d.closeWhere_closings e 2 _).same :)

/-! ## The sessions of a controller -/

/-- No session of controller `k` is open. -/
def Dev.OffController (d : Dev) (k : Nat) : Prop := ∀ n x, d.session n = some x → ∀ m, x.peer ≠ .can k m

theorem Dev.closeController_off (e : Env) (d : Dev) (k : Nat) : (d.closeController e k).OffController k := by
  intro n x hx m hpeer
  obtain ⟨-, hstands⟩ := d.closeWhere_ended e 3 _ (n, x) (Tab.mem_of_find hx)
  simp [hpeer] at hstands

theorem Dev.closeController_closings (e : Env) (d : Dev) (k : Nat) : d.Closings (d.closeController e k) :=
  d.closeWhere_closings e 3 _

theorem Dev.busOff_effects (e : Env) (d : Dev) (k : Nat) :
    let b := ((d.closeController e k).count .canBusOffs k).flag .canEventFlags k 1
    b.posts = d.posts ∧ b.OffController k ∧ Late.add .canBusOffs k 1 ∈ b.late ∧ Late.flag .canEventFlags k 2 ∈ b.late := by
  refine ⟨(congrArg Dev.posts (d.closeController_closings e k).same :), d.closeController_off e k, ?_, ?_⟩
  · exact List.mem_append_left _ (List.mem_append_right _ List.mem_cons_self)
  · exact List.mem_append_right _ List.mem_cons_self

theorem Dev.setNmt_state (d : Dev) (k : Nat) {v : Nat} (h : v < 2 ^ 8) : (d.setNmt k v).g .canNmtState k = v := by
  unfold Dev.setNmt
  split
  next heq => exact heq
  · exact Dev.g_put_of_lt d .canNmtState k v h

theorem Dev.setNmt_same (d : Dev) (k v : Nat) :
    d.setNmt k v = { d with objs := (d.setNmt k v).objs, late := (d.setNmt k v).late } := by
  unfold Dev.setNmt
  split <;> rfl

theorem Dev.bootUp_effects (d : Dev) (k : Nat) :
    (d.bootUp k).posts = d.posts ∧ (d.bootUp k).ses = { d.ses with sent := (k, 0) :: d.ses.sent } ∧
      (d.bootUp k).g .canNmtState k = 1 := by
  have hsame : d.bootUp k = { d with objs := (d.setNmt k 1).objs, late := (d.setNmt k 1).late
                                     ses := { d.ses with sent := (k, 0) :: d.ses.sent } } := by
    unfold Dev.bootUp Dev.canSends
    rw [Dev.setNmt_same]
  exact ⟨(congrArg Dev.posts hsame :), (congrArg Dev.ses hsame :), d.setNmt_state k (by decide)⟩

theorem Dev.nmtReset_off (e : Env) {d : Dev} {k : Nat} (h : d.g .canNmtState k = 0) : d.nmtReset e k = d :=
  Dev.when_of_false d _ (bne_eq_false_iff_eq.2 h)

theorem Dev.nmtReset_on (e : Env) {d : Dev} {k : Nat} (h : d.g .canNmtState k ≠ 0) :
    (d.nmtReset e k).posts = d.posts ∧ (d.nmtReset e k).OffController k ∧ (d.nmtReset e k).g .canNmtState k = 1 ∧
      (d.nmtReset e k).ses.sent = (k, 0) :: d.ses.sent := by
  have hreset : d.nmtReset e k = (d.closeController e k).bootUp k := Dev.when_of_true d _ (bne_iff_ne.2 h)
  obtain ⟨hposts, hses, hstate⟩ := (d.closeController e k).bootUp_effects k
  have hframe := d.closeController_closings e k
  rw [hreset]
  refine ⟨hposts.trans (congrArg Dev.posts hframe.same :), fun n x hx => ?_, hstate, ?_⟩
  · refine d.closeController_off e k n x ?_
    unfold Dev.session at hx ⊢
    rwa [hses] at hx
  · rw [hses]
    exact congrArg ((k, 0) :: ·) (congrArg SesUnit.sent hframe.ses :)

/-- What NMT_COMMAND does to the block. -/
def Dev.nmtCommanded (d : Dev) (k cmd : Nat) : Dev :=
  match nmtTarget cmd with
  | some v => d.when (d.g .canNmtState k != 0) fun d => d.setNmt k v
  | none => d

theorem Dev.nmtCommanded_off {d : Dev} {k : Nat} (cmd : Nat) (h : d.g .canNmtState k = 0) : d.nmtCommanded k cmd = d := by
  unfold Dev.nmtCommanded
  split
  · exact Dev.when_of_false d _ (bne_eq_false_iff_eq.2 h)
  · rfl

theorem Dev.nmtCommanded_on {d : Dev} {k : Nat} (cmd : Nat) (h : d.g .canNmtState k ≠ 0) :
    (d.nmtCommanded k cmd).posts = d.posts ∧ (d.nmtCommanded k cmd).ses = d.ses ∧
      (d.nmtCommanded k cmd).g .canNmtState k =
        (if cmd = 1 then 2 else if cmd = 2 then 3 else if cmd = 128 then 1 else d.g .canNmtState k) := by
  have hto : ∀ v, v < 2 ^ 8 → nmtTarget cmd = some v → (d.nmtCommanded k cmd).posts = d.posts ∧
      (d.nmtCommanded k cmd).ses = d.ses ∧ (d.nmtCommanded k cmd).g .canNmtState k = v := by
    intro v hv htarget
    have heq : d.nmtCommanded k cmd = d.setNmt k v := by
      unfold Dev.nmtCommanded
      rw [htarget]
      exact Dev.when_of_true d _ (bne_iff_ne.2 h)
    rw [heq]
    exact ⟨(congrArg Dev.posts (d.setNmt_same k v) :), (congrArg Dev.ses (d.setNmt_same k v) :), d.setNmt_state k hv⟩
  by_cases hstart : cmd = 1
  · rw [if_pos hstart]; exact hto 2 (by decide) (if_pos hstart)
  · rw [if_neg hstart]
    by_cases hstop : cmd = 2
    · rw [if_pos hstop]; exact hto 3 (by decide) ((if_neg hstart).trans (if_pos hstop))
    · rw [if_neg hstop]
      by_cases hpre : cmd = 128
      · rw [if_pos hpre]; exact hto 1 (by decide) ((if_neg hstart).trans ((if_neg hstop).trans (if_pos hpre)))
      · rw [if_neg hpre]
        have hnone : nmtTarget cmd = none := (if_neg hstart).trans ((if_neg hstop).trans (if_neg hpre))
        have heq : d.nmtCommanded k cmd = d := by unfold Dev.nmtCommanded; rw [hnone]
        exact ⟨congrArg Dev.posts heq, congrArg Dev.ses heq, congrArg (fun b : Dev => b.g .canNmtState k) heq⟩

/-! ## `DMB_CMD` 3 -/

theorem Dev.sessionOf_isOpen {d : Dev} {p : Peer} {k : Nat} (h : d.sessionOf p = some k) : d.isOpen k = true := by
  obtain ⟨x, hx, rfl⟩ := Option.map_eq_some_iff.1 h
  unfold Dev.isOpen Dev.session
  by_contra hnone
  exact Tab.fst_ne_of_find_none (Option.not_isSome_iff_eq_none.1 hnone) x (List.mem_of_find?_eq_some hx) rfl

theorem Dev.dmbCloseNow_none (e : Env) {d : Dev} (h : d.sessionOf (.ring (d.reg 0x200000 % 65536)) = none) :
    d.dmbCloseNow e = (d.putReg 0x200010 0x0102).answerCode 0x0102 := by
  unfold Dev.dmbCloseNow
  rw [show d.sessionOf (.ring d.dmbRing) = none from h]
  rfl

theorem Dev.dmbCloseNow_some (e : Env) {d : Dev} {k : Nat} (h : d.sessionOf (.ring (d.reg 0x200000 % 65536)) = some k) :
    (d.dmbCloseNow e).posts = d.posts ∧ d.Closed (d.dmbCloseNow e) k ∧ (d.dmbCloseNow e).reg 0x200010 = 0 := by
  have heq : d.dmbCloseNow e = ((d.closeSession e k 1).putReg 0x200010 0).answerCode 0 := by
    unfold Dev.dmbCloseNow
    rw [show d.sessionOf (.ring d.dmbRing) = some k from h]
    rfl
  rw [heq]
  exact ⟨(congrArg Dev.posts (d.closeSession_closings e k 1).same :),
    (Dev.closeSession_closed e 1 (Dev.sessionOf_isOpen h)).after rfl (Dev.answerCode_g ..) (Dev.answerCode_g ..) fun _ hl => hl,
    Dev.reg_putReg_same (d.closeSession e k 1) 0x200010 0⟩

/-! ## HEARTBEAT -/

/-- A controller that is due sends its heartbeat. -/
def Dev.beat (now : Nat) (d : Dev) (k : Nat) : Dev :=
  d.when (d.g .canNmtState k != 0 && d.on .heartbeatTime
      && decide ((d.ses.beats.getD k 0) + d.g .heartbeatTime * 4000 ≤ now)) fun d =>
    (({ d with ses := { d.ses with beats := d.ses.beats.put k now } }).canSends k (d.g .canNmtState k)).answerWord
      (d.g .canNmtState k)

theorem Dev.beat_due (now : Nat) (d : Dev) (k : Nat) :
    (d.g .canNmtState k != 0 && d.on .heartbeatTime
      && decide ((d.ses.beats.getD k 0) + d.g .heartbeatTime * 4000 ≤ now)) = true ↔
    d.g .canNmtState k ≠ 0 ∧ d.on .heartbeatTime = true ∧ d.ses.beats.getD k 0 + d.g .heartbeatTime * 4000 ≤ now := by
  rw [Bool.and_eq_true_iff, Bool.and_eq_true_iff, bne_iff_ne, decide_eq_true_iff, and_assoc]

/-! ## The obligation -/

/-- A command of rank 7 whose effect posts no byte changes the block and nothing else. -/
theorem State.at_unposted {s : State} {c : Instr} {f : Env → Dev → Dev} (hs : s.Awake 7)
    (hc : exec c s = s.at 7 f) (hposts : (f (s.enter 7).env (s.enter 7).dev).posts = (s.enter 7).dev.posts) :
    exec c s = .next ((s.enter 7).become (f (s.enter 7).env (s.enter 7).dev)) :=
  hc.trans (s.at_become 7 _ _ hs rfl (hposts.trans (s.enter_posts 7)))

/-- An accepted request that closes session `k` leaves it closed, and answers 0. -/
theorem State.accepted_close {s : State} {c : Instr} {j k : Nat} {o : Obj} {f : Env → Dev → Dev} (hs : s.Awake 7)
    (hc : exec c s = s.at 7 fun e d => d.request e j o (f e)) (h : s.Accepts j o) (hopen : (s.enter 7).dev.isOpen k = true)
    (hf : f (s.enter 7).env (s.asking j) = (s.asking j).sesCloseBy (s.enter 7).env k) :
    ∃ t, exec c s = .next t ∧ (s.enter 7).dev.Closed t.dev k ∧ t.clk = (s.enter 7).clk ∧ t.dev.answer.code = 0 := by
  have hask : (s.asking j).isOpen k = true := (s.asking_isOpen j k).trans hopen
  refine ⟨_, State.accepted_become hs hc h ?_, ?_, rfl, ?_⟩
  · rw [hf]
    exact (Dev.sesCloseBy_posts ..).trans (s.asking_posts j)
  · rw [hf]
    exact ((Dev.sesCloseBy_closed _ hask).requested j).of_opens (s.asking_isOpen j)
  · show Answer.code (Dev.answer (Dev.closeRequest _ j)) = 0
    rw [hf, Dev.closeRequest_answer]
    rfl

/-- A kill that is refused leaves every session as it was. -/
theorem State.accepted_unkilled {s : State} {j k code : Nat} (hs : s.Awake 7) (h : s.Accepts j .sesKill)
    (hf : (s.asking j).sesKillBy (s.enter 7).env j k = (s.asking j).answerCode code) :
    ∃ t, exec (.sesKill j k) s = .next t ∧ t.dev.answer.code = code ∧ t.dev.stagings = (s.enter 7).dev.stagings ∧
      ∀ n, t.dev.isOpen n = (s.enter 7).dev.isOpen n := by
  refine ⟨_, State.accepted_become (f := fun e d => d.sesKillBy e j k) hs rfl h ?_, ?_⟩
  · rw [hf]
    exact s.asking_posts j
  · rw [hf]
    refine ⟨congrArg Answer.code (Dev.closeRequest_answer _ j), ?_, fun n => ?_⟩
    · exact (Dev.closeRequest_stagings _ j).trans (congrArg Dev.stagings (s.asking_same j) :)
    · exact (Dev.closeRequest_isOpen _ j n).trans ((Dev.answerCode_isOpen _ _ n).trans (s.asking_isOpen j n))

theorem sesClose_and_kill {s : State} (hs : s.Awake 7) :
    (∀ k : Nat, s.Accepts k .sesClose → ∃ t, exec (.sesClose k) s = .next t ∧ (s.enter 7).dev.Closed t.dev k ∧
      t.clk = (s.enter 7).clk ∧ t.dev.answer.code = 0) ∧
    ∀ j k : Nat, s.Accepts j .sesKill →
      ((s.enter 7).dev.isOpen k = false → ∃ t, exec (.sesKill j k) s = .next t ∧ t.dev.answer.code = 0x0305 ∧
        t.dev.stagings = (s.enter 7).dev.stagings ∧ ∀ n, t.dev.isOpen n = (s.enter 7).dev.isOpen n) ∧
      ((s.enter 7).dev.isOpen k = true → (s.enter 7).dev.g .sesRole j ≠ 3 → (s.enter 7).dev.g .sesRole k = 3 →
        ∃ t, exec (.sesKill j k) s = .next t ∧ t.dev.answer.code = 0x0101 ∧
          t.dev.stagings = (s.enter 7).dev.stagings ∧ ∀ n, t.dev.isOpen n = (s.enter 7).dev.isOpen n) ∧
      ((s.enter 7).dev.isOpen k = true → ((s.enter 7).dev.g .sesRole j = 3 ∨ (s.enter 7).dev.g .sesRole k ≠ 3) →
        ∃ t, exec (.sesKill j k) s = .next t ∧ (s.enter 7).dev.Closed t.dev k ∧ t.clk = (s.enter 7).clk ∧
          t.dev.answer.code = 0) := by
  have hrole (j n : Nat) : (s.asking j).g .sesRole n = (s.enter 7).dev.g .sesRole n := s.asking_g j n (by decide)
  refine ⟨fun k h => ?_, fun j k h => ⟨fun hshut => ?_, fun hopen hj hk => ?_, fun hopen hroles => ?_⟩⟩
  · exact State.accepted_close (f := fun e d => d.sesCloseBy e k) hs rfl h h.2.1 rfl
  · exact State.accepted_unkilled hs h (Dev.sesKillBy_shut _ ((s.asking_isOpen j k).trans hshut))
  · refine State.accepted_unkilled hs h (Dev.sesKillBy_maker _ ((s.asking_isOpen j k).trans hopen) ?_ ?_)
    · rwa [hrole]
    · rwa [hrole]
  · refine State.accepted_close (f := fun e d => d.sesKillBy e j k) hs rfl h hopen ?_
    exact Dev.sesKillBy_kills _ ((s.asking_isOpen j k).trans hopen) (by rwa [hrole, hrole])

/-- Settles O51, command by command: what ends a session closes it and no other, and a controller that is on follows NMT. -/
theorem sessionsCloseAndControllersFollowNmt : Obligations.SessionsCloseAndControllersFollowNmt := by
  unfold Obligations.SessionsCloseAndControllersFollowNmt
  have hclosed {s t : State} {k : Nat} (h : (s.enter 7).dev.Closed t.dev k) (hclk : t.clk = (s.enter 7).clk) :
      t.dev.isOpen k = false ∧ t.dev.g .sesState k = 0 ∧ t.dev.g .sesRole k = 0 ∧ Late.fire 0x2B0 ∈ t.dev.late ∧
        t.clk = (s.enter 7).clk ∧ ∀ n, n ≠ k → t.dev.isOpen n = (s.enter 7).dev.isOpen n :=
    ⟨h.shut, h.state, h.role, h.fires, hclk, h.others⟩
  refine ⟨fun s hs => ?_, fun s k hs => ⟨fun hnot => ?_, fun hdue => ?_⟩⟩
  · obtain ⟨hclose, hkill⟩ := sesClose_and_kill hs
    refine ⟨fun k => State.turnsAway_of_request hs rfl, fun k h => ?_, fun j k =>
      ⟨State.turnsAway_of_request hs rfl, fun h => ?_⟩, fun k => ⟨fun hfresh => ?_, fun x hx hidle => ?_, ?_⟩,
      fun k => ⟨fun hoff => ?_, fun hon => ?_, fun c hc => ⟨fun hoff => ?_, fun hon => ?_⟩,
        fun cmd => ⟨fun hoff => ?_, fun hon => ?_⟩⟩, fun hnone => ?_, fun k hsome => ?_⟩
    · obtain ⟨t, ht, hk, hclk, hanswer⟩ := hclose k h
      exact ⟨t, ht, hclosed hk hclk, hanswer⟩
    · obtain ⟨hshut, hmaker, hkills⟩ := hkill j k h
      refine ⟨hshut, hmaker, fun hopen hroles => ?_⟩
      obtain ⟨t, ht, hk, hclk, hanswer⟩ := hkills hopen hroles
      exact ⟨t, ht, hclosed hk hclk, hanswer⟩
    · exact s.at_id 7 (fun e d => d.closeIdle e k) hs (Dev.closeIdle_of_fresh _ hfresh)
    · exact ⟨_, State.at_unposted (f := fun e d => d.closeIdle e k) hs rfl (Dev.closeIdle_posts ..),
        hclosed (Dev.closeIdle_closed _ hx hidle) rfl⟩
    · exact ⟨_, State.at_unposted (f := fun e d => d.closeIdle e k) hs rfl (Dev.closeIdle_posts ..), rfl,
        fun x hx => Dev.closeIdle_fresh (s.enter 7).env hx⟩
    · exact s.at_id 7 _ hs (Dev.when_of_false _ _ hoff)
    · obtain ⟨hposts, heffects⟩ := Dev.busOff_effects (s.enter 7).env (s.enter 7).dev k
      exact ⟨_, s.at_become 7 _ _ hs (Dev.when_of_true _ _ hon) (hposts.trans (s.enter_posts 7)), heffects⟩
    · obtain rfl | rfl := hc
      · exact s.at_id 7 _ hs (Dev.nmtReset_off _ hoff)
      · exact s.at_id 7 _ hs (Dev.nmtReset_off _ hoff)
    · obtain ⟨hposts, heffects⟩ := Dev.nmtReset_on (s.enter 7).env hon
      obtain rfl | rfl := hc
      · exact ⟨_, s.at_become 7 _ _ hs rfl (hposts.trans (s.enter_posts 7)), heffects⟩
      · exact ⟨_, s.at_become 7 _ _ hs rfl (hposts.trans (s.enter_posts 7)), heffects⟩
    · exact s.at_id 7 (fun _ d => d.nmtCommanded k cmd) hs (Dev.nmtCommanded_off cmd hoff)
    · obtain ⟨hposts, heffects⟩ := Dev.nmtCommanded_on cmd hon
      exact ⟨_, s.at_become 7 (fun _ d => d.nmtCommanded k cmd) _ hs rfl (hposts.trans (s.enter_posts 7)), heffects⟩
    · exact s.at_become 7 _ _ hs (Dev.dmbCloseNow_none _ hnone) (s.enter_posts 7)
    · obtain ⟨hposts, hk, hreg⟩ := Dev.dmbCloseNow_some (s.enter 7).env hsome
      exact ⟨_, s.at_become 7 _ _ hs rfl (hposts.trans (s.enter_posts 7)), hclosed hk rfl, hreg⟩
  · refine s.at_id 9 (fun e d => d.beat e.now k) hs (Dev.when_of_false _ _ ?_)
    exact Bool.eq_false_iff.2 fun h => hnot ((Dev.beat_due _ _ k).1 h)
  · exact s.at_become 9 (fun e d => d.beat e.now k) _ hs (Dev.when_of_true _ _ ((Dev.beat_due _ _ k).2 hdue))
      (s.enter_posts 9)

end Sys2Proof.Machine
end

section
/-!
The answer to a mailbox ring is its entry's completion record (R355, R360): bytes of memory, which the statements of O49 and
O60 leave out.
-/

namespace Sys2Proof.Machine

theorem posts_of_at_eq {s : State} {r : Nat} {f : Env → Dev → Dev} {t : State} (hs : s.Awake r) (h : s.at r f = .next t) :
    t.dev.posts = [] :=
  run_of_at_eq hs h ▸ rfl

theorem posts_become (s : State) (d : Dev) : (s.become d).dev.posts = d.posts := rfl

theorem exec_objectWrite (p : Peer) (index sub : Nat) (data : List Byte) (s : State) :
    exec (.objectWrite p index sub data) s = s.at 7 fun e d => d.serve e ⟨p, index, sub, some data⟩ := rfl

/-- A maker's session bound to mailbox ring 0, whose entry 0 the dictionary has taken. -/
def mailAsks : State :=
  { State.reset with
    dev := { (({} : Dev).put .sesState 0 1).put .sesRole 0 3 with
      ses := { opened := [(0, { peer := .ring 0 })] }
      pwr := { ended := [(4, 0)] }
      rings := [(0, { st := .enabled, taken := [⟨0, []⟩] })] } }

theorem mailAsks_serves : mailAsks.Awake 7 ∧ mailAsks.Serves 7 (.ring 0) ∧
    (mailAsks.enter 7).dev.sessionOf (.ring 0) = some 0 := by
  delta State.Awake State.Serves; dsimp only; decide +kernel

/-! ## A refused write (R552) -/

theorem mailAsks_reaches_the_range :
    decodeObj (Obj.stgOpen.index 0) (Obj.stgOpen.subindex 0) = some (.stgOpen, 0) ∧
    targetCode (.ring 0) ((mailAsks.enter 7).dev.sessionOf (.ring 0)) (Obj.stgOpen.index 0) (Obj.stgOpen.subindex 0) false = 0 ∧
    (mailAsks.touched 7 (.ring 0)).writeCode
      ((mailAsks.touched 7 (.ring 0)).roleOf ((mailAsks.enter 7).dev.sessionOf (.ring 0))) .stgOpen = 0 ∧
    Obj.stgOpen.formCode [2#8] = 0 ∧ Obj.stgOpen.number [2#8] ∉ [1] := by
  decide +kernel

theorem refuse_mailAsks_posts :
    ((mailAsks.touched 7 (.ring 0)).refuse (.ring 0) ((mailAsks.enter 7).dev.sessionOf (.ring 0)) false 0x0201).posts ≠ [] := by
  decide +kernel

/-- Refutes O60: for a session on a mailbox ring the refusal also completes the entry, so memory changes; a value of
`stg_open` that its table does not define is such a request. -/
theorem not_actionObjectsActOnTheirValues : ¬ Obligations.ActionObjectsActOnTheirValues := by
  intro h
  obtain ⟨hawake, hserves, -⟩ := mailAsks_serves
  obtain ⟨hobj, htarget, hwrite, hform, hnumber⟩ := mailAsks_reaches_the_range
  obtain ⟨-, hrefused⟩ := h .stgOpen [1] List.mem_cons_self
  obtain ⟨hexec, -⟩ := hrefused mailAsks (.ring 0) 0 [2#8] hawake hserves hobj htarget hwrite hform hnumber
  have hposts := posts_of_at_eq hawake ((exec_objectWrite ..).symm.trans hexec)
  rw [posts_become] at hposts
  exact refuse_mailAsks_posts hposts

/-! ## A write that applies at once (R411) -/

theorem mailAsks_writes_tkMask :
    targetCode (.ring 0) ((mailAsks.enter 7).dev.sessionOf (.ring 0)) (Obj.tkMask.index 0) (Obj.tkMask.subindex 0) false = 0 ∧
    decodeObj (Obj.tkMask.index 0) (Obj.tkMask.subindex 0) = some (.tkMask, 0) ∧
    (mailAsks.touched 7 (.ring 0)).writeFails ((mailAsks.enter 7).dev.sessionOf (.ring 0)) .tkMask 0 [1#8] = 0 ∧
    (mailAsks.touched 7 (.ring 0)).mustWait .tkMask false = false := by
  decide +kernel

theorem write_mailAsks_posts : (((((mailAsks.touched 7 (.ring 0)).answerCode 0).applyWrite (mailAsks.enter 7).env
    ((mailAsks.touched 7 (.ring 0)).origin 0) .tkMask 0 (Obj.tkMask.number [1#8]) [1#8]).settle (.ring 0)
    ((mailAsks.enter 7).dev.sessionOf (.ring 0)) (mailAsks.touched 7 (.ring 0)).kr.waiting.length)).posts ≠ [] := by
  decide +kernel

/-- Refutes O49: an accepted write of class now by a session on a mailbox ring applies, and its answer completes the
entry in memory; the statement has the block change and nothing else. -/
theorem not_dictionaryServesRequestsInOrder : ¬ Obligations.DictionaryServesRequestsInOrder := by
  intro h
  obtain ⟨hawake, hserves, hsession⟩ := mailAsks_serves
  obtain ⟨htarget, hobj, hpasses, hnowait⟩ := mailAsks_writes_tkMask
  obtain ⟨-, -, -, hserved⟩ := h.1 mailAsks (.ring 0) (Obj.tkMask.index 0) (Obj.tkMask.subindex 0) [1#8] hawake
  obtain ⟨-, -, haccepted⟩ := (hserved hserves).2 .tkMask 0 htarget hobj
  obtain ⟨-, -, hnow, -⟩ := haccepted 0 hpasses hnowait hsession (by decide)
  have hexec := hnow (.inl (by decide)) (.inl (by decide))
  have hposts := posts_of_at_eq hawake ((exec_objectWrite ..).symm.trans hexec)
  rw [posts_become] at hposts
  exact write_mailAsks_posts hposts

end Sys2Proof.Machine
end

section
/-!
A response that comes while the burst FIFO is full waits (R480), which the statement of O50 leaves out.
-/

namespace Sys2Proof.Machine

theorem answer_of_at_eq {s : State} {r : Nat} {f : Env → Dev → Dev} {t : State} (hs : s.Awake r) (h : s.at r f = .next t) :
    t.dev.answer = (f (s.enter r).env (s.enter r).dev).answer :=
  run_of_at_eq hs h ▸ rfl

theorem exec_openResp (p : Peer) (resp : List Byte) (s : State) :
    exec (.openResp p resp) s = s.at 7 fun e d => d.serve e ⟨p, 0x2110, 5, some resp⟩ := rfl

/-- CAN FD controller 0 is Operational, and 256 bursts of a write are still to start. -/
def burstsFull : State :=
  { State.reset with
    dev := { ({} : Dev).put .canNmtState 0 2 with
      pwr := { ended := [(4, 0)] }
      nv := { rest := List.replicate 256 (0, []) } } }

/-- A response of 16 bytes, as CAN FD carries it. -/
def canResponse : List Byte := List.replicate 16 0

theorem burstsFull_serves : burstsFull.Awake 7 ∧ burstsFull.Serves 7 (.can 0 5) ∧
    (burstsFull.touched 7 (.can 0 5)).writeFails ((burstsFull.enter 7).dev.sessionOf (.can 0 5)) .openResp 0 canResponse = 0 ∧
    (burstsFull.enter 7).dev.g .krIslandState ≠ 1 ∧ canResponse.length = responseLength (.can 0 5) ∧
    ((burstsFull.enter 7).dev.openingOf (.can 0 5)).since = none := by
  delta State.Awake State.Serves; dsimp only; decide +kernel

theorem burstsFull_waits : ((burstsFull.enter 7).dev.serve (burstsFull.enter 7).env
    ⟨.can 0 5, 0x2110, 5, some canResponse⟩).answer.code = 0 := by
  decide +kernel

/-- Refutes O50: `open_resp` needs a record of the NV store, so with 256 bursts queued a response waits, and is not refused
with 0x0622 for want of a challenge as the statement has it. -/
theorem not_sessionsOpenByChallengeAndResponse : ¬ Obligations.SessionsOpenByChallengeAndResponse := by
  intro h
  obtain ⟨hawake, hserves, hpasses, hisland, hlength, hsince⟩ := burstsFull_serves
  obtain ⟨hpeer, -⟩ := h burstsFull hawake
  obtain ⟨-, hasked⟩ := hpeer (.can 0 5) canResponse hserves
  obtain ⟨-, hresp⟩ := hasked (.inr (by decide))
  obtain ⟨-, -, hheard⟩ := hresp hpasses
  obtain ⟨hdead, -⟩ := hheard hisland hlength
  obtain ⟨t, ht, hcode, -⟩ := hdead fun ⟨b, hb, _⟩ => absurd (hsince.symm.trans hb) (Option.some_ne_none b).symm
  have hanswer := congrArg Answer.code (answer_of_at_eq hawake ((exec_openResp ..).symm.trans ht))
  exact absurd ((hcode.symm.trans hanswer).trans burstsFull_waits) (by decide)

end Sys2Proof.Machine
end

section
/-!
What a reset leaves (R496): the fuses, read from a row cut short in its burning (R438), and blocks as at power-on.
-/

namespace Sys2Proof.Machine

/-! ## Effects of the first step of start-up -/

/-- From `d` to `d'` objects outside `ks`, registers, sources, what is left for rank 9, the NV store's records and free
values drawn may have changed, and nothing else of the block. -/
structure Dev.Boots (ks : List Obj) (d d' : Dev) : Prop where
  objs : ∀ o ∈ ks, ∀ i, d'.g o i = d.g o i
  same : d' = { d with objs := d'.objs, regs := d'.regs, late := d'.late, ink := d'.ink, nv := d'.nv, drawn := d'.drawn }

section
variable {ks : List Obj} {a b c : Dev}

theorem Dev.Boots.refl (d : Dev) : d.Boots ks d := ⟨fun _ _ _ => rfl, rfl⟩

theorem Dev.Boots.trans (h : a.Boots ks b) (k : b.Boots ks c) : a.Boots ks c :=
  ⟨fun o ho i => (k.objs o ho i).trans (h.objs o ho i), k.same.trans (congrArg (fun x : Dev => { x with
    objs := c.objs, regs := c.regs, late := c.late, ink := c.ink, nv := c.nv, drawn := c.drawn }) h.same)⟩

theorem Dev.Boots.ite (p : Prop) [Decidable p] (h : a.Boots ks b) (k : a.Boots ks c) : a.Boots ks (if p then b else c) := by
  split
  · exact h
  · exact k

theorem Dev.Boots.foldl {α : Type} (d : Dev) (xs : List α) (f : Dev → α → Dev) (h : ∀ (b : Dev) (x : α), b.Boots ks (f b x)) :
    d.Boots ks (xs.foldl f d) :=
  List.foldlRecOn (motive := fun b => d.Boots ks b) _ _ (.refl d) fun b hb x _ => hb.trans (h b x)

theorem Dev.Boots.put (h : a.Boots ks b) (o : Obj) (i v : Nat) (ho : o ∉ ks) : a.Boots ks (b.put o i v) :=
  h.trans ⟨fun _ hp k => b.g_put_of_ne i k v fun heq => ho (heq ▸ hp), rfl⟩

theorem Dev.Boots.later (h : a.Boots ks b) (l : Late) : a.Boots ks (b.later l) := h.trans ⟨fun _ _ _ => rfl, rfl⟩

theorem Dev.Boots.putReg (h : a.Boots ks b) (r v : Nat) : a.Boots ks (b.putReg r v) := h.trans ⟨fun _ _ _ => rfl, rfl⟩

theorem Dev.Boots.draw (h : a.Boots ks b) (w : Nat) : a.Boots ks (b.draw w).2 := h.trans ⟨fun _ _ _ => rfl, rfl⟩

theorem Dev.Records.boots (h : a.Records b) (hks : ∀ o ∈ ks, o ∉ recordObjs) : a.Boots ks b :=
  ⟨fun o ho => h.objs o (hks o ho), h.same.trans (by rw [h.same])⟩

end

theorem Dev.meetsPoison_boots (ks : List Obj) (d : Dev) (off n : Nat) : d.Boots ks (d.meetsPoison off n) :=
  .foldl d _ _ fun b g => (((Dev.Boots.refl b).later (.add .nvUncorr 0 1)).later (.put .nvPoisonAddr 0 (16 * g))).later
    (.flag .nvEventFlags 0 (2 ^ 4))

theorem Dev.meetsPair_boots (ks : List Obj) (d : Dev) (page k : Nat) : d.Boots ks (d.meetsPair page k) :=
  d.meetsPoison_boots ks _ _

theorem Dev.nwSet_boots {ks : List Obj} (d : Dev) (det : Nat) (good : Bool) (h : Obj.nwState ∉ ks) :
    d.Boots ks (d.nwSet det good) := (Dev.Boots.refl d).put .nwState 0 _ h

/-! ## The fuses (R438) -/

theorem Tab.put_ne_nil {α : Type} (t : Tab α) (k : Nat) (v : α) : t.put k v ≠ [] := by
  cases t with
  | nil => exact List.cons_ne_nil _ _
  | cons p t =>
    unfold Tab.put
    split
    · exact List.cons_ne_nil _ _
    · split
      · exact List.cons_ne_nil _ _
      · exact List.cons_ne_nil _ _

theorem Dev.burnCut_of_none {d : Dev} (h : d.pwr.burning = none) : d.burnCut = d := by
  unfold Dev.burnCut
  rw [h]

/-- A row cut short leaves copies of it burnt. -/
theorem Dev.burnCut_copies {d : Dev} {target b : Nat} (h : d.pwr.burning = some (target, b)) :
    d.burnCut.fuses.copies ≠ [] := by
  unfold Dev.burnCut
  rw [h]
  exact iteInduction (motive := fun x : Dev => x.fuses.copies ≠ []) (fun _ => Tab.put_ne_nil _ _ _)
    fun _ => Tab.put_ne_nil _ _ _

/-! ## The block after a reset -/

/-- What outlasts a reset, before any object of it is set. -/
def Dev.outlasts (d : Dev) : Dev :=
  { ({} : Dev) with
    drawn := d.drawn
    fuses := d.fuses
    nv := { pairs := d.nv.pairs, keyPages := d.nv.keyPages, poison := d.nv.poison }
    kr := { made := d.kr.made, conds := d.kr.conds, hold := !d.kr.conds.isEmpty }
    pwr := { images := d.pwr.images } }

/-- The objects Innkeeper saves are its own. -/
theorem inkRetained_keys {o : Obj} (h : o ∉ inkRetained) {k : Nat} (hk : (inkRetained.map Obj.ctorIdx).contains (k % 1024) = true)
    (i : Nat) : o.key i ≠ k := by
  intro heq
  obtain ⟨p, hp, hidx⟩ := List.mem_map.1 (List.contains_iff_mem.1 hk)
  have ho := o.ctorIdx_lt
  have hpo : p.ctorIdx = o.ctorIdx := by
    unfold Obj.key at heq
    omega
  refine h ?_
  rw [← Obj.ofNat_ctorIdx o, ← hpo, Obj.ofNat_ctorIdx p]
  exact hp

theorem Dev.putSrc_boots {ks : List Obj} (d : Dev) (n : Nat) (x : Src) (hks : ∀ o ∈ ks, o ≠ .srcState ∧ o ≠ .srcCount) :
    d.Boots ks (d.putSrc n x) := by
  have hsrcs : d.Boots ks { d with ink := { d.ink with srcs := d.ink.srcs.put n x } } := ⟨fun _ _ _ => rfl, rfl⟩
  exact (hsrcs.put .srcState n _ fun h => (hks _ h).1 rfl).put .srcCount n _ fun h => (hks _ h).2 rfl

theorem Dev.inkRestore_boots {ks : List Obj} (old d : Dev) (hks : ∀ o ∈ ks, o ∉ inkRetained ∧ o ≠ .srcState ∧ o ≠ .srcCount) :
    d.Boots ks (Dev.inkRestore old d) := by
  unfold Dev.inkRestore
  refine .trans (b := { d with objs := (old.objs.filter fun (p : Nat × Nat) =>
    (inkRetained.map Obj.ctorIdx).contains (p.1 % 1024)).foldl (fun (t : Tab Nat) (p : Nat × Nat) => t.put p.1 p.2) d.objs })
    ⟨fun o ho i => ?_, rfl⟩ (.foldl _ _ _ fun b p => .ite _ ?_ (.refl b))
  · refine List.foldlRecOn (motive := fun t : Tab Nat => t.getD (o.key i) (o.default i) = d.g o i) _ _ rfl fun t ht p hp => ?_
    rw [Tab.getD_put_other _ _ _ _ _ (inkRetained_keys (hks o ho).1 (List.mem_filter.1 hp).2 i)]
    exact ht
  · have hdrawn := ((Dev.Boots.refl (ks := ks) b).draw 48).draw 16
    exact hdrawn.trans (Dev.putSrc_boots _ p.1 _ fun o ho => (hks o ho).2)

/-- What is not Innkeeper's, Night Watch's or the NV store's stands as at power-on. -/
theorem Dev.afterReset_boots {ks : List Obj} (d : Dev) (cause : Nat)
    (hks : ∀ o ∈ ks, o ∉ inkRetained ∧ o ≠ .srcState ∧ o ≠ .srcCount ∧ o ≠ .nvProtect ∧ o ≠ .nwState ∧ o ≠ .nwSleepEvent) :
    d.burnCut.outlasts.Boots ks (d.afterReset cause) := by
  unfold Dev.afterReset
  have hstart := (Dev.Boots.refl (ks := ks) d.burnCut.outlasts).put .nvProtect 0 (d.burnCut.g .nvProtect)
    fun h => (hks _ h).2.2.2.1 rfl
  have hconds := hstart.trans (.foldl _ d.burnCut.kr.conds _ fun n (p : Nat × Nat) =>
    Dev.nwSet_boots (ks := ks) n p.1 false fun h => (hks _ h).2.2.2.2.1 rfl)
  have hscratch := Dev.Boots.ite (cause = causePowerOn ∨ cause = causeWake) hconds
    (hconds.putReg scratchReg (d.burnCut.reg scratchReg))
  exact .ite _ (.put (hscratch.trans (Dev.inkRestore_boots d.burnCut _ fun o ho =>
    ⟨(hks o ho).1, (hks o ho).2.1, (hks o ho).2.2.1⟩)) .nwSleepEvent 0 _ fun h => (hks _ h).2.2.2.2.2 rfl) hscratch

/-- The objects boot ROM writes from the fuses and the counters. -/
def bootObjs : List Obj := [.lcState, .suCause, .bootCount, .fwBoot, .fwRunning, .rbCore, .rbIsland]

/-- The objects boot ROM and the scan of the Ledger write. -/
def scanObjs : List Obj := .ledgerMarked :: recordObjs

theorem Dev.bootReads_boots {ks : List Obj} (e : Env) (d : Dev) (cause start : Nat)
    (hks : ∀ o ∈ ks, o ∉ bootObjs ∧ o ∉ recordObjs) :
    Dev.Boots ks { d with pwr := { d.pwr with began := [(1, start)] } } (d.bootReads e cause start) := by
  unfold Dev.bootReads
  refine .trans ?_ ((Dev.reportPages_records _).boots fun o ho => (hks o ho).2)
  have hout {o : Obj} (ho : o ∈ bootObjs) : o ∉ ks := fun h => (hks o h).1 ho
  exact (((((((Dev.Boots.refl _).put .lcState 0 _ (hout (by decide))).put .suCause 0 _ (hout (by decide))).put .bootCount 0 _
    (hout (by decide))).put .fwBoot 0 _ (hout (by decide))).put .fwRunning 0 _ (hout (by decide))).put .rbCore 0 _
    (hout (by decide))).put .rbIsland 0 _ (hout (by decide))

theorem Dev.bootReads_cause (e : Env) (d : Dev) (cause start : Nat) (h : cause < 2 ^ 8) :
    (d.bootReads e cause start).g .suCause = cause := by
  unfold Dev.bootReads
  rw [(Dev.reportPages_records _).objs .suCause (by decide), Dev.g_put_of_ne _ _ _ _ (by decide),
    Dev.g_put_of_ne _ _ _ _ (by decide), Dev.g_put_of_ne _ _ _ _ (by decide), Dev.g_put_of_ne _ _ _ _ (by decide),
    Dev.g_put_of_ne _ _ _ _ (by decide)]
  exact Dev.g_put_of_lt _ .suCause 0 cause h

theorem Dev.equalSeq_boots {ks : List Obj} (e : Env) (d : Dev) (index : Nat) (hks : ∀ o ∈ ks, o ∉ recordObjs) :
    d.Boots ks (d.equalSeq e index) :=
  (((d.ledger_records ..).boots hks).later (.add .nvEqualSeq 0 1)).later (.flag .nvEventFlags 0 (2 ^ 5))

theorem Dev.readCounters_boots {ks : List Obj} (e : Env) (d : Dev) (hks : ∀ o ∈ ks, o ∉ recordObjs) :
    d.Boots ks (d.readCounters e) :=
  .foldl d _ _ fun b n => .trans (b.meetsPair_boots ks (counterPage + n) 0) (.ite _ (Dev.equalSeq_boots e _ n hks) (.refl _))

theorem Dev.ledgerScan_boots {ks : List Obj} (e : Env) (d : Dev) (hks : ∀ o ∈ ks, o ∉ scanObjs) :
    d.Boots ks (d.ledgerScan e) := by
  unfold Dev.ledgerScan
  have hout {o : Obj} (ho : o ∈ scanObjs) : o ∉ ks := fun h => hks o h ho
  refine .trans ?_ (.foldl _ _ _ fun b p => b.meetsPoison_boots ks (16 * p.1) 16)
  have hfound (next oldest marked : Nat) := (((Dev.Boots.refl d).put .ledgerNextSeq 0 next (hout (by decide))).put
    .ledgerOldestSeq 0 oldest (hout (by decide))).put .ledgerMarked 0 marked (hout (by decide))
  exact .ite _ (hfound _ _ _) (((hfound _ _ _).later _).later _)

theorem Dev.finishDestroying_boots {ks : List Obj} (e : Env) (d : Dev) (hks : ∀ o ∈ ks, o ∉ recordObjs) :
    d.Boots ks (d.finishDestroying e) :=
  .ite _ ((d.nvWrite_records _).boots hks) (.refl d)

theorem Dev.resetRecord_boots {ks : List Obj} (e : Env) (d : Dev) (cause : Nat) (hks : ∀ o ∈ ks, o ∉ recordObjs) :
    d.Boots ks (d.resetRecord e cause) :=
  .ite _ (.refl d) ((d.ledger_records ..).boots hks)

/-- After boot ROM's reads the first step of start-up only scans and records. -/
theorem Dev.rebooted_of_bootReads {ks : List Obj} (e : Env) (d : Dev) (cause start : Nat) (hks : ∀ o ∈ ks, o ∉ scanObjs) :
    ((d.afterReset cause).bootReads e cause start).Boots ks (d.rebooted e cause start) :=
  have hrec : ∀ o ∈ ks, o ∉ recordObjs := fun o ho h => hks o ho (List.mem_cons_of_mem _ h)
  (((Dev.finishDestroying_boots e _ hrec).trans (Dev.ledgerScan_boots e _ hks)).trans (Dev.readCounters_boots e _ hrec)).trans
    (Dev.resetRecord_boots e _ cause hrec)

/-- The objects that a reset returns to their default whatever they were. -/
def offObjs : List Obj := [.arrState, .pwrState]

theorem Dev.rebooted_boots (e : Env) (d : Dev) (cause start : Nat) :
    Dev.Boots offObjs { d.burnCut.outlasts with pwr := { d.burnCut.outlasts.pwr with began := [(1, start)] } }
      (d.rebooted e cause start) := by
  refine .trans ?_ (Dev.rebooted_of_bootReads e d cause start (by decide))
  refine .trans ?_ (Dev.bootReads_boots e (d.afterReset cause) cause start (by decide))
  have h := Dev.afterReset_boots (ks := offObjs) d cause (by decide)
  exact ⟨h.objs, (congrArg (fun x : Dev => { x with pwr := { x.pwr with began := [(1, start)] } }) h.same :)⟩

theorem Dev.rebooted_fuses (e : Env) (d : Dev) (cause start : Nat) : (d.rebooted e cause start).fuses = d.burnCut.fuses :=
  (congrArg Dev.fuses (Dev.rebooted_boots e d cause start).same :)

theorem Dev.rebooted_cause (e : Env) (d : Dev) (cause start : Nat) (h : cause < 2 ^ 8) :
    (d.rebooted e cause start).g .suCause = cause :=
  ((Dev.rebooted_of_bootReads (ks := [.suCause]) e d cause start (by decide)).objs .suCause (by decide) 0).trans
    (Dev.bootReads_cause e _ cause start h)

/-- A block that has booted from what outlasts a reset starts up. -/
theorem State.startsUp_of_boots {t : State} {b x : Dev} {cause start : Nat} (hcause : x.g .suCause = cause)
    (hboots : Dev.Boots offObjs { b.outlasts with pwr := { b.outlasts.pwr with began := [(1, start)] } } x)
    (hdev : t.dev = { x with posts := [] }) (hstart : t.clk.elapsed = start) (haddend : t.clk.addend = 0x28000000) :
    t.StartsUp cause := by
  obtain ⟨hobjs, hsame⟩ := hboots
  have hpwr : t.dev.pwr = { images := b.pwr.images, began := [(1, start)] } := by
    rw [hdev]
    exact (congrArg Dev.pwr hsame :)
  refine ⟨?_, ?_, fun k => ?_, fun r => ?_, ?_, ?_, fun a => ?_, ?_, ?_, haddend⟩
  · rw [hdev]
    exact hcause
  · unfold Dev.dictReady
    rw [hpwr]
    rfl
  · have hses : t.dev.ses = {} := by
      rw [hdev]
      exact (congrArg Dev.ses hsame :)
    unfold Dev.isOpen Dev.session
    rw [hses]
    rfl
  · have hrings : t.dev.rings = [] := by
      rw [hdev]
      exact (congrArg Dev.rings hsame :)
    unfold Dev.ring
    rw [hrings]
    rfl
  · rw [hdev]
    exact (congrArg Dev.takes hsame :)
  · rw [hdev]
    exact (congrArg (fun x : Dev => x.kr.slots) hsame :)
  · rw [hdev]
    exact hobjs .arrState (by decide) a
  · rw [hdev]
    exact hobjs .pwrState (by decide) 0
  · rw [hpwr, hstart]

/-- POWER_ON and every wake start the part up. -/
theorem State.coldReset_startsUp (s : State) {cause : Nat} (h : cause < 2 ^ 8) : (s.coldReset cause).StartsUp cause := by
  unfold State.coldReset
  generalize (s.run fun e d => (d.burstCut e.now).nvLose) = t
  exact State.startsUp_of_boots (Dev.rebooted_cause _ t.dev cause _ h) (Dev.rebooted_boots _ t.dev cause _) rfl rfl rfl

end Sys2Proof.Machine
end

section
/-!
A reset that comes while the fuse row of a life-cycle step is being burnt leaves copies of the row burnt (R438), where the
statements of O52 and O56 have the fuses stand.
-/

namespace Sys2Proof.Machine

theorem State.run_fuses (s : State) (f : Env → Dev → Dev) : (s.run f).dev.fuses = (f s.env s.dev).fuses := rfl

theorem State.run_pwr (s : State) (f : Env → Dev → Dev) : (s.run f).dev.pwr = (f s.env s.dev).pwr := rfl

theorem State.coldReset_fuses (s : State) (cause : Nat) :
    (s.coldReset cause).dev.fuses = (s.run fun e d => (d.burstCut e.now).nvLose).dev.burnCut.fuses := by
  unfold State.coldReset
  generalize (s.run fun e d => (d.burstCut e.now).nvLose) = t
  rw [State.run_fuses, Dev.rebooted_fuses]

theorem State.warmReset_fuses (s : State) (cause : Nat) :
    (s.warmReset cause).dev.fuses = (s.run fun _ d => d.burstEnds.nvLose).dev.burnCut.fuses := by
  unfold State.warmReset
  generalize (s.run fun _ d => d.burstEnds.nvLose) = t
  exact (State.run_fuses t fun e d => d.rebooted e cause e.now).trans (Dev.rebooted_fuses ..)

/-! ## Bursts leave the power unit -/

theorem Dev.foldl_pwr {α : Type} (d : Dev) (xs : List α) (f : Dev → α → Dev) (h : ∀ (b : Dev) (x : α), (f b x).pwr = b.pwr) :
    (xs.foldl f d).pwr = d.pwr :=
  List.foldlRecOn (motive := fun b : Dev => b.pwr = d.pwr) _ _ rfl fun b hb x _ => (h b x).trans hb

theorem Dev.Records.pwr {a b : Dev} (h : a.Records b) : b.pwr = a.pwr := (congrArg Dev.pwr h.same :)

theorem Dev.Boots.pwr {ks : List Obj} {a b : Dev} (h : a.Boots ks b) : b.pwr = a.pwr := (congrArg Dev.pwr h.same :)

theorem Dev.freePair_pwr (d : Dev) (index page : Nat) : (d.freePair index page).pwr = d.pwr :=
  (Dev.reportPages_records _).pwr

theorem Dev.jobDone_pwr (d : Dev) : d.jobDone.pwr = d.pwr := by
  unfold Dev.jobDone
  split
  · split
    · rfl
    next j _ =>
      cases j.frees with
      | none => rfl
      | some page => exact Dev.freePair_pwr _ _ _
  · rfl

theorem Dev.burstWritten_pwr (d : Dev) (off : Nat) (bs : List Byte) : (d.burstWritten off bs).pwr = d.pwr :=
  Dev.foldl_pwr d ((List.range (burstGroups bs)).map (off / 16 + ·)) _ fun _ _ => rfl

theorem Dev.burstEnds_pwr (d : Dev) : d.burstEnds.pwr = d.pwr := by
  unfold Dev.burstEnds
  split
  · rfl
  · exact (Dev.jobDone_pwr _).trans (Dev.burstWritten_pwr _ _ _)

theorem Dev.nvLose_pwr (d : Dev) : d.nvLose.pwr = d.pwr :=
  Dev.foldl_pwr d (d.nv.queue ++ d.nv.job.toList) _ fun b j => (b.jobLost_records j).pwr

theorem Dev.dropGuarded_pwr (d : Dev) : d.dropGuarded.pwr = d.pwr := by
  have hgone (xs : List NvJob) : (xs.foldl Dev.jobLost d).pwr = d.pwr := Dev.foldl_pwr d xs _ fun b j => (b.jobLost_records j).pwr
  refine iteInduction (motive := fun b : Dev => b.pwr = d.pwr) (fun _ => rfl) fun _ =>
    iteInduction (motive := fun b : Dev => b.pwr = d.pwr) (fun _ => rfl) fun _ => ?_
  exact iteInduction (motive := fun b : Dev => ({ b with
      nv := { b.nv with queue := b.nv.queue.filter fun j => !j.guarded } } : Dev).pwr = d.pwr)
    (fun _ => hgone _) fun _ => hgone _

theorem Dev.selectsPair_boots {ks : List Obj} (e : Env) (d : Dev) (j : NvJob) (hks : ∀ o ∈ ks, o ∉ recordObjs) :
    d.Boots ks (d.selectsPair e j) := by
  have hmet := d.meetsPair_boots ks j.page j.k
  exact .ite _ (.ite _ (hmet.trans (Dev.equalSeq_boots e _ j.id hks)) hmet) (.refl d)

theorem Dev.nextBurst_pwr (e : Env) (d : Dev) : (d.nextBurst e).2.pwr = d.pwr := by
  unfold Dev.nextBurst
  split
  · rfl
  · split
    · rfl
    next j _ =>
      dsimp only
      split
      · rfl
      · exact (Dev.selectsPair_boots (ks := []) e _ j (by decide)).pwr

/-- The next burst of a FIFO that runs out is programmed at once. -/
def Dev.drainStep (e : Env) (d : Dev) : Dev :=
  let (b, d) := d.dropGuarded.nextBurst e
  match b with
  | none => d
  | some (off, bs) => ((d.burstWritten off bs).jobDone).reportNv

theorem Dev.drainStep_pwr (e : Env) (d : Dev) : (d.drainStep e).pwr = d.pwr := by
  have hnext := (Dev.nextBurst_pwr e d.dropGuarded).trans d.dropGuarded_pwr
  unfold Dev.drainStep
  revert hnext
  generalize d.dropGuarded.nextBurst e = r
  intro hnext
  obtain ⟨b, d'⟩ := r
  cases b with
  | none => exact hnext
  | some p => exact ((Dev.jobDone_pwr _).trans (Dev.burstWritten_pwr _ _ _)).trans hnext

theorem State.drainNv_pwr (n : Nat) (s : State) : (s.drainNv n).dev.pwr = s.dev.pwr := by
  induction n generalizing s with
  | zero => exact Dev.burstEnds_pwr s.dev
  | succ n ih =>
    unfold State.drainNv
    split
    · rfl
    · exact (ih _).trans ((Dev.drainStep_pwr _ _).trans (Dev.burstEnds_pwr s.dev))

/-! ## The counterexamples -/

/-- A maker's part whose step into RETURN is being burnt, and which a recovery from QUARANTINE tests. -/
def rowBurning : State :=
  { State.reset with dev := { ({} : Dev) with pwr := { burning := some (2, 0), recovering := true } } }

theorem rowBurning_fuses : rowBurning.dev.fuses.copies = [] ∧ (rowBurning.enter 3).dev.fuses.copies = [] ∧
    (rowBurning.enter 3).dev.asleep = false ∧ (rowBurning.enter 3).dev.pwr.recovering = true ∧
    (rowBurning.enter 3).dev.pwr.burning = some (2, 0) ∧
    (rowBurning.run fun e d => (d.burstCut e.now).nvLose).dev.pwr.burning = some (2, 0) := by
  decide +kernel

/-- Refutes O56: POWER_ON while a row is being burnt leaves some of its copies burnt, or the row itself. -/
theorem not_resetsRestartThePart : ¬ Obligations.ResetsRestartThePart := by
  intro h
  obtain ⟨⟨t, ht, -, -, -, -, hfuses, -⟩, -⟩ := h rowBurning
  obtain ⟨hcopies, -, -, -, -, hburning⟩ := rowBurning_fuses
  have hreset : rowBurning.coldReset causePowerOn = t := Host.Outcome.next.inj ht
  have hleft := (State.coldReset_fuses rowBurning causePowerOn).symm.trans ((congrArg (fun t : State => t.dev.fuses) hreset).trans hfuses)
  exact Dev.burnCut_copies hburning ((congrArg Fuses.copies hleft).trans hcopies)

theorem Dev.recovered_pwr (e : Env) (d : Dev) : (d.recovered e).pwr = { d.pwr with recovering := false } :=
  (Dev.ledger_records ..).pwr.trans (Dev.keepCounter_records ..).pwr

theorem exec_lcRecoverResult_pass {s : State} (hasleep : (s.enter 3).dev.asleep = false)
    (hrecovering : (s.enter 3).dev.pwr.recovering = true) :
    exec (.lcRecoverResult true) s = .next (((s.enter 3).run fun e d => d.recovered e).drainedReset 5) := by
  show execLcRecoverResult true s = _
  unfold execLcRecoverResult
  simp only [hasleep, hrecovering]
  rfl

/-- Refutes O52: the recovery passes while the row of an earlier step is still being burnt; the reset cuts the burning short,
so the fuses are not those before it. -/
theorem not_lifeCycleStepsAndRecovery : ¬ Obligations.LifeCycleStepsAndRecovery := by
  intro h
  obtain ⟨-, hcopies, hasleep, hrecovering, hburning, -⟩ := rowBurning_fuses
  obtain ⟨-, -, -, hrecover⟩ := h.2.1 rowBurning
  obtain ⟨⟨t, ht, -, hfuses⟩, -⟩ := hrecover hasleep hrecovering
  have hreset := Host.Outcome.next.inj ((exec_lcRecoverResult_pass hasleep hrecovering).symm.trans ht)
  have hleft := (State.warmReset_fuses _ 5).symm.trans ((congrArg (fun t : State => t.dev.fuses) hreset).trans hfuses)
  have hpwr : ((((rowBurning.enter 3).run fun e d => d.recovered e).drainNv
      (((rowBurning.enter 3).run fun e d => d.recovered e).dev.nv.queued + 1)).run fun _ d => d.burstEnds.nvLose).dev.pwr =
      { (rowBurning.enter 3).dev.pwr with recovering := false } := by
    rw [State.run_pwr, Dev.nvLose_pwr, Dev.burstEnds_pwr, State.drainNv_pwr, State.run_pwr, Dev.recovered_pwr]
  exact Dev.burnCut_copies ((congrArg PowerUnit.burning hpwr).trans hburning) ((congrArg Fuses.copies hleft).trans hcopies)

end Sys2Proof.Machine
end

section
/-!
`ptp_enable` written 1 while it is on: nothing is written, so the object keeps the number it holds (R34), which the statement
of O58 has as 1 in every block.
-/

namespace Sys2Proof.Machine

theorem g_of_at_eq {s : State} {r : Nat} {f : Env → Dev → Dev} {t : State} (hs : s.Awake r) (h : s.at r f = .next t)
    (o : Obj) (i : Nat) : t.dev.g o i = (f (s.enter r).env (s.enter r).dev).g o i :=
  run_of_at_eq hs h ▸ rfl

theorem exec_ptpEnable (on : Bool) (s : State) :
    exec (.ptpEnable on) s = s.at 7 fun e d => d.directWrite e .ptpEnable 0 (b2n on) := rfl

theorem Dev.ptpSwitch_again {d : Dev} (h : d.on .ptpEnable = true) : d.ptpSwitch true = d :=
  if_pos (by rw [h]; rfl)

/-- PTP that is on stays on as it was. -/
theorem Dev.ptpEnable_again (e : Env) {d : Dev} (hon : d.on .ptpEnable = true) (hmacs : d.ptpMacsOk = true)
    (hkeep : d.keepFails .ptpEnable 0 1 [] = 0) :
    (d.directWrite e .ptpEnable 0 1).g .ptpEnable = d.g .ptpEnable := by
  have hown : d.ownCode roleMaker .ptpEnable 0 1 = 0 := by
    show (if 1 = 1 ∧ (!d.ptpMacsOk) = true then 0x0310 else 0) = 0
    rw [hmacs]
    rfl
  have hact : (d.answerCode 0).actPart e registerOrigin .ptpEnable 0 1 = some (d.answerCode 0) :=
    congrArg some (Dev.ptpSwitch_again hon)
  rw [Dev.directWrite_acts e rfl (by decide) hown hkeep hact, (Dev.recorded_records ..).objs .ptpEnable (by decide),
    Dev.answerCode_g]

/-- A block in which `ptp_enable` holds the number 2. -/
def ptpTwo : State := { State.reset with dev := { ({} : Dev) with objs := [(Obj.ptpEnable.key 0, 2)] } }

theorem ptpTwo_on : ptpTwo.Awake 7 ∧ (ptpTwo.enter 7).dev.on .ptpEnable = true ∧ (ptpTwo.enter 7).dev.ptpMacsOk = true ∧
    (ptpTwo.enter 7).dev.keepFails .ptpEnable 0 1 [] = 0 ∧ (ptpTwo.enter 7).dev.g .ptpEnable = 2 := by
  delta State.Awake; decide +kernel

/-- Refutes O58: the statement ranges over every block, also over one whose `ptp_enable` holds 2; PTP is on there, and a
write of 1 leaves the 2. -/
theorem not_firmwareSlotsAndRegisters : ¬ Obligations.FirmwareSlotsAndRegisters := by
  intro h
  obtain ⟨hawake, hon, hmacs, hkeep, htwo⟩ := ptpTwo_on
  obtain ⟨-, -, -, -, -, hswitch⟩ := (h ptpTwo).1 hawake
  obtain ⟨t, ht, hone, -⟩ := hswitch hmacs hkeep
  have hstands := g_of_at_eq hawake ((exec_ptpEnable true _).symm.trans ht) .ptpEnable 0
  have hkept := Dev.ptpEnable_again (ptpTwo.enter 7).env hon hmacs hkeep
  exact absurd (hone.symm.trans (hstands.trans (hkept.trans htwo))) (by decide)

end Sys2Proof.Machine
end

section
/-!
What the burst FIFO and the poison of the NV store do to the block (R480, R481, R485, R488).
-/

namespace Sys2Proof.Machine

/-! ## Effects of the FIFO -/

/-- From `d` to `d'` the Ledger's and the FIFO's objects, what is left for rank 9 and the NV store's record may have changed;
the burst in progress stands. -/
structure Dev.Drops (d d' : Dev) : Prop where
  objs : ∀ o, o ∉ recordObjs → ∀ i, d'.g o i = d.g o i
  late : ∀ l ∈ d.late, l ∈ d'.late
  running : d'.nv.running = d.nv.running
  same : d' = { d with objs := d'.objs, late := d'.late, nv := d'.nv }

section
variable {a b c : Dev}

theorem Dev.Drops.refl (d : Dev) : d.Drops d := ⟨fun _ _ _ => rfl, fun _ h => h, rfl, rfl⟩

theorem Dev.Drops.trans (h : a.Drops b) (k : b.Drops c) : a.Drops c :=
  ⟨fun o ho i => (k.objs o ho i).trans (h.objs o ho i), fun l hl => k.late l (h.late l hl), k.running.trans h.running,
    k.same.trans (congrArg (fun x : Dev => { x with objs := c.objs, late := c.late, nv := c.nv }) h.same)⟩

theorem Dev.Drops.ite (p : Prop) [Decidable p] (h : a.Drops b) (k : a.Drops c) : a.Drops (if p then b else c) := by
  split
  · exact h
  · exact k

theorem Dev.Drops.foldl {α : Type} (d : Dev) (xs : List α) (f : Dev → α → Dev) (h : ∀ (b : Dev) (x : α), b.Drops (f b x)) :
    d.Drops (xs.foldl f d) :=
  List.foldlRecOn (motive := fun b => d.Drops b) _ _ (.refl d) fun b hb x _ => hb.trans (h b x)

theorem Dev.Records.drops (h : a.Records b) : a.Drops b :=
  ⟨h.objs, h.late, (congrArg NvUnit.running h.nv :), h.same⟩

theorem Dev.Drops.later (h : a.Drops b) (l : Late) : a.Drops (b.later l) :=
  h.trans ((Dev.Records.refl b).later l).drops

theorem Dev.Drops.put (h : a.Drops b) (o : Obj) (i v : Nat) (ho : o ∈ recordObjs) : a.Drops (b.put o i v) :=
  h.trans ((Dev.Records.refl b).put o i v ho).drops

theorem Dev.Drops.nv (h : a.Drops b) (n : NvUnit) (hn : n.running = b.nv.running) : a.Drops { b with nv := n } :=
  h.trans ⟨fun _ _ _ => rfl, fun _ hl => hl, hn, rfl⟩

theorem Dev.Drops.posts (h : a.Drops b) : b.posts = a.posts := (congrArg Dev.posts h.same :)

end

theorem Dev.jobsLost_drops (d : Dev) (js : List NvJob) : d.Drops (js.foldl Dev.jobLost d) :=
  .foldl d js _ fun b j => (b.jobLost_records j).drops

theorem Dev.reportNv_drops (d : Dev) : d.Drops d.reportNv := (Dev.Drops.refl d).put .nvQueue 0 _ (by decide)

/-- The FIFO without its writes to a protected region. -/
def Dev.withoutGuarded (d : Dev) : Dev :=
  { d with nv := { d.nv with queue := d.nv.queue.filter fun j => !j.guarded } }

/-- The FIFO without the rest of the write under way. -/
def Dev.withoutRest (d : Dev) : Dev :=
  { d with nv := { d.nv with rest := [], job := if d.nv.running.isSome then d.nv.job else none } }

theorem Dev.dropGuarded_drops (d : Dev) : d.Drops d.dropGuarded := by
  refine .ite _ (.refl d) (.ite _ (.refl d) ?_)
  have hlost := d.jobsLost_drops (d.nv.queue.filter NvJob.guarded)
  have hrest := Dev.Drops.ite ((match d.nv.job with
    | some j => if j.guarded then d.nv.rest.length else 0
    | none => 0) = 0) hlost (hlost.trans (c := Dev.withoutRest _) ((Dev.Drops.refl _).nv _ rfl))
  have hqueue := hrest.trans (c := Dev.withoutGuarded _) ((Dev.Drops.refl _).nv _ rfl)
  exact ((hqueue.later _).later _).trans (Dev.reportNv_drops _)

/-! ## Queued writes to a protected region -/

theorem Dev.dropGuarded_free {d : Dev} (h : d.on .nvProtect = false) : d.dropGuarded = d :=
  if_pos (by rw [h]; rfl)

/-- No queued write of the block goes to a region NVWP_N protects. -/
def Dev.Unguarded (d : Dev) : Prop := ∀ j ∈ d.nv.queue, j.guarded = false

theorem Dev.dropGuarded_unguarded {d : Dev} (h : d.on .nvProtect = true) : d.dropGuarded.Unguarded := by
  refine iteInduction (motive := Dev.Unguarded) (fun hoff => absurd (h.symm.trans (Bool.not_eq_true' _ ▸ hoff)) (by decide)) fun _ =>
    iteInduction (motive := Dev.Unguarded) (fun hnone j hj => ?_) fun _ j hj => ?_
  · obtain ⟨hgone, -⟩ := hnone
    by_contra hguard
    have hmem := List.mem_filter.2 ⟨hj, Bool.not_eq_false _ ▸ hguard⟩
    rw [List.isEmpty_iff.1 hgone] at hmem
    exact absurd hmem List.not_mem_nil
  · have hkept := (List.mem_filter.1 hj).2
    simpa using hkept

theorem Dev.nvWrite_queue (d : Dev) (j : NvJob) : ∀ x ∈ (d.nvWrite j).nv.queue, x ∈ d.nv.queue ∨ x = j := by
  intro x hx
  unfold Dev.nvWrite at hx
  split at hx
  · have hlost : (d.jobLost j).nv.queue = d.nv.queue :=
      iteInduction (motive := fun b : Dev => b.nv.queue = d.nv.queue)
        (fun _ => iteInduction (motive := fun b : Dev => b.nv.queue = d.nv.queue) (fun _ => rfl) fun _ => rfl) fun _ => rfl
    exact .inl (hlost ▸ hx)
  · rcases List.mem_append.1 hx with hx | hx
    · exact .inl hx
    · exact .inr (List.mem_singleton.1 hx)

/-- A Ledger record is one write of the Ledger's region. -/
theorem Dev.ledgerPut_write (e : Env) (d : Dev) (kind : Nat) (w : Origin) (mid : List Byte) (detail : Nat) :
    ∃ (b : Dev) (j : NvJob), d.ledgerPut e kind w mid detail = b.nvWrite j ∧ b.nv = d.nv ∧ j.region = 2 := by
  unfold Dev.ledgerPut
  refine ⟨_, _, rfl, ?_, rfl⟩
  split_ifs <;> rfl

/-- A Ledger record is no write to a protected region. -/
theorem Dev.ledger_unguarded (e : Env) {d : Dev} (kind : Nat) (w : Origin) (index sub status detail : Nat) (h : d.Unguarded) :
    (d.ledger e kind w index sub status detail).Unguarded := by
  intro j hj
  obtain ⟨b, r, hwrite, hnv, hregion⟩ := Dev.ledgerPut_write e d kind w
    (leBytes 2 index ++ leBytes 1 sub ++ leBytes 1 w.ses ++ leBytes 2 status ++ leBytes 1 (d.g .lcState)) detail
  unfold Dev.ledger at hj
  rw [hwrite] at hj
  rcases Dev.nvWrite_queue b r j hj with hj | rfl
  · exact h j (hnv ▸ hj)
  · simp [NvJob.guarded, NvJob.inKept, hregion]

theorem Dev.equalSeq_unguarded (e : Env) {d : Dev} (index : Nat) (h : d.Unguarded) : (d.equalSeq e index).Unguarded :=
  Dev.ledger_unguarded e 0x10 {} index 0 0x0552 0 h

theorem Dev.meetsPoison_nv (d : Dev) (off n : Nat) : (d.meetsPoison off n).nv = d.nv :=
  List.foldlRecOn (motive := fun b : Dev => b.nv = d.nv) _ _ rfl fun _ hb _ _ => hb

theorem Dev.selectsPair_unguarded (e : Env) {d : Dev} (j : NvJob) (h : d.Unguarded) : (d.selectsPair e j).Unguarded := by
  have hmet : (d.meetsPair j.page j.k).Unguarded := fun x hx => h x (Dev.meetsPoison_nv d _ _ ▸ hx)
  exact iteInduction (motive := Dev.Unguarded)
    (fun _ => iteInduction (motive := Dev.Unguarded) (fun _ => Dev.equalSeq_unguarded e j.id hmet) fun _ => hmet) fun _ => h

theorem ledgerRun_subset (off : Nat) (js : List NvJob) (room : Nat) : ∀ x ∈ (ledgerRun off js room).2, x ∈ js := by
  induction js generalizing off room with
  | nil => exact fun _ hx => hx
  | cons j t ih =>
    intro x hx
    unfold ledgerRun at hx
    split at hx
    · exact hx
    · exact List.mem_cons_of_mem _ (ih _ _ x hx)

theorem Dev.nextBurst_unguarded (e : Env) {d : Dev} (h : d.Unguarded) : (d.nextBurst e).2.Unguarded := by
  unfold Dev.nextBurst
  split
  · exact h
  · split
    · exact h
    next j _ =>
      have hq : ∀ x ∈ d.nv.queue.erase j, x.guarded = false := fun x hx => h x (List.mem_of_mem_erase hx)
      dsimp only
      split
      · exact hq
      next off bs t _ =>
        refine Dev.selectsPair_unguarded e j fun x hx => ?_
        dsimp only at hx
        split at hx
        · exact hq x (ledgerRun_subset _ _ _ x hx)
        · exact hq x hx

/-! ## Poisoned groups (R485) -/

theorem Dev.meetsPoison_late (d : Dev) (off n : Nat) : ∀ l ∈ d.late, l ∈ (d.meetsPoison off n).late :=
  List.foldlRecOn (motive := fun b : Dev => ∀ l ∈ d.late, l ∈ b.late) _ _ (fun _ hl => hl) fun _ hb _ _ l hl =>
    List.mem_append_left _ (List.mem_append_left _ (List.mem_append_left _ (hb l hl)))

/-- A read of one poisoned group counts it and sets its bit. -/
theorem Dev.meetsPoison_group {d : Dev} {g : Nat} (h : d.nv.poison.getD g false = true) :
    Late.add .nvUncorr 0 1 ∈ (d.meetsPoison (16 * g) 16).late ∧ Late.flag .nvEventFlags 0 16 ∈ (d.meetsPoison (16 * g) 16).late := by
  have hgroups : ((List.range (ceilDiv 16 16)).map (16 * g / 16 + ·)).filter (fun x => d.nv.poison.getD x false) = [g] := by
    have hone : ceilDiv 16 16 = 1 := by decide
    rw [hone, List.range_one, List.map_singleton, Nat.mul_div_cancel_left _ (by decide), Nat.add_zero,
      List.filter_cons_of_pos (p := fun x => d.nv.poison.getD x false) h, List.filter_nil]
  have heq : d.meetsPoison (16 * g) 16 =
      ((d.count .nvUncorr).later (.put .nvPoisonAddr 0 (16 * g))).flag .nvEventFlags 0 4 := by
    unfold Dev.meetsPoison
    rw [hgroups]
    rfl
  rw [heq]
  exact ⟨List.mem_append_left _ (List.mem_append_left _ (List.mem_append_right _ List.mem_cons_self)),
    List.mem_append_right _ List.mem_cons_self⟩

/-- What a copy shows depends on the bytes and the poison of the store alone. -/
theorem Dev.pairAt_of_poison (e : Env) {a b : Dev} (h : a.nv.poison = b.nv.poison) (page k : Nat) :
    a.pairAt e page k = b.pairAt e page k := by
  have hcopy (off size : Nat) : a.copyAt e off size = b.copyAt e off size := by
    unfold Dev.copyAt Dev.poisoned
    rw [h]
  unfold Dev.pairAt
  simp only [hcopy]

theorem Dev.selectsPair_nv (e : Env) {d : Dev} {j : NvJob}
    (h : j.region = 0 ∨ j.region = 3 → (d.pairAt e j.page j.k).2 = false) : (d.selectsPair e j).nv = d.nv := by
  refine iteInduction (motive := fun b : Dev => b.nv = d.nv) (fun hregion => ?_) fun _ => rfl
  have hnv : (d.meetsPair j.page j.k).nv = d.nv := Dev.meetsPoison_nv d _ _
  refine iteInduction (motive := fun b : Dev => b.nv = d.nv) (fun hdiffer => ?_) fun _ => hnv
  obtain ⟨hne, htwo⟩ := hdiffer
  rw [Dev.pairAt_of_poison e (congrArg NvUnit.poison hnv),
    h (hregion.elim .inl fun hr => hr.elim (fun hone => absurd hone hne) .inr)] at htwo
  exact absurd htwo Bool.false_ne_true

/-! ## The next burst (R481) -/

theorem Dev.nextBurst_goes_on (e : Env) {d : Dev} {b : Nat × List Byte} {rest : List (Nat × List Byte)} (h : d.nv.rest = b :: rest) :
    d.nextBurst e = (some b, { d with nv := { d.nv with rest := rest } }) := by
  unfold Dev.nextBurst
  rw [h]

/-- The first queued write starts, when it may run. -/
theorem Dev.nextBurst_starts (e : Env) {d : Dev} {j : NvJob} {q : List NvJob} {b : Nat × List Byte}
    {rest : List (Nat × List Byte)} (hrest : d.nv.rest = []) (hqueue : d.nv.queue = j :: q) (hlets : d.holdupLets j = true)
    (hregion : j.region ≠ 2) (hbursts : d.jobBursts e j = b :: rest) :
    d.nextBurst e = (some b, Dev.selectsPair e { d with nv := { d.nv with queue := q, job := some j, rest := rest } } j) := by
  have hfind : d.nv.queue.find? (fun j => d.holdupLets j) = some j := by
    rw [hqueue]
    exact List.find?_cons_of_pos hlets
  have herase : d.nv.queue.erase j = q := by
    rw [hqueue]
    exact List.erase_cons_head j q
  unfold Dev.nextBurst
  rw [hrest]
  simp only [hfind, hbursts, if_neg hregion, List.append_nil, herase]

end Sys2Proof.Machine
end

section
/-!
The NV store's bursts, tests, scrubs and pins, command by command (R480, R481, R483, R488, R489).
-/

namespace Sys2Proof.Machine

/-- Whether a command lets the held requests go on or not, there is a next state; with none held it is this one. -/
theorem State.thenHeld_next (s : State) : ∃ t, s.thenHeld = .next t ∧ (s.dev.ses.held = [] → t = s) := by
  unfold State.thenHeld
  split
  · exact ⟨s, rfl, fun _ => rfl⟩
  next hheld => exact ⟨_, rfl, fun hnone => absurd (Or.inl (List.isEmpty_iff.2 hnone)) hheld⟩

theorem State.run_awake {s : State} {r : Nat} (hs : s.Awake r) (f : Env → Dev → Dev) :
    ((s.enter r).run fun e d => if d.asleep then d else f e d) = (s.enter r).run f :=
  State.run_eq_of _ (if_neg (Bool.eq_false_iff.1 hs))

theorem State.run_nv (s : State) (f : Env → Dev → Dev) : (s.run f).dev.nv = (f s.env s.dev).nv := rfl

/-! ## NV_BURST (R481) -/

theorem exec_nvBurst {s : State} (hs : s.Awake 9) :
    exec .nvBurst s = ((s.enter 9).run fun e d => d.burstStarts e).thenHeld :=
  congrArg State.thenHeld (State.run_awake hs fun e d => d.burstStarts e)

/-- No burst may start. -/
def Dev.Barred (d : Dev) : Prop :=
  d.nv.failing = true ∨ d.nv.testing ≠ none ∨ d.g .nvHoldupState = 0 ∨ d.nv.running ≠ none

theorem Dev.barred_iff (d : Dev) : d.Barred ↔
    (d.nv.failing = true ∨ d.nv.testing.isSome = true ∨ d.g .nvHoldupState = 0 ∨ d.nv.running.isSome = true) := by
  unfold Dev.Barred
  rw [Option.isSome_iff_ne_none, Option.isSome_iff_ne_none]

theorem Dev.burstStarts_barred (e : Env) {d : Dev} (h : d.Barred) : d.burstStarts e = d := if_pos (d.barred_iff.1 h)

/-- What becomes of the burst found. -/
def Dev.burstFound (e : Env) (r : Option (Nat × List Byte) × Dev) : Dev :=
  match r.1 with
  | none => r.2.reportNv
  | some b => ({ r.2 with nv := { r.2.nv with running := some (b.1, b.2, e.now) } }).reportNv

theorem Dev.burstStarts_free (e : Env) {d : Dev} (h : ¬d.Barred) :
    d.burstStarts e = Dev.burstFound e (d.dropGuarded.nextBurst e) := by
  refine (if_neg (mt d.barred_iff.2 h)).trans ?_
  dsimp only
  unfold Dev.burstFound
  generalize d.dropGuarded.nextBurst e = r
  obtain ⟨_ | _, _⟩ := r
  · rfl
  · rfl

theorem Dev.burstFound_unguarded (e : Env) {r : Option (Nat × List Byte) × Dev} (h : r.2.Unguarded) :
    (Dev.burstFound e r).Unguarded := by
  unfold Dev.burstFound
  split
  · exact h
  · exact h

/-- The write under way goes on with its next burst. -/
theorem Dev.burstStarts_goes_on (e : Env) {d : Dev} {b : Nat × List Byte} {rest : List (Nat × List Byte)} (h : ¬d.Barred)
    (hrest : d.nv.rest = b :: rest) (hfree : d.on .nvProtect = false) :
    (d.burstStarts e).nv = { d.nv with rest := rest, running := some (b.1, b.2, e.now) } := by
  rw [Dev.burstStarts_free e h, Dev.dropGuarded_free hfree, Dev.nextBurst_goes_on e hrest]
  rfl

/-- With none under way the first queued write starts. -/
theorem Dev.burstStarts_starts (e : Env) {d : Dev} {j : NvJob} {q : List NvJob} {b : Nat × List Byte}
    {rest : List (Nat × List Byte)} (h : ¬d.Barred) (hfree : d.on .nvProtect = false) (hrest : d.nv.rest = [])
    (hqueue : d.nv.queue = j :: q) (hlets : d.holdupLets j = true) (hregion : j.region ≠ 2)
    (hpair : j.region = 0 ∨ j.region = 3 → (d.pairAt e j.page j.k).2 = false) (hbursts : d.jobBursts e j = b :: rest) :
    (d.burstStarts e).nv = { d.nv with queue := q, job := some j, rest := rest, running := some (b.1, b.2, e.now) } := by
  have hnv := Dev.selectsPair_nv e (d := { d with nv := { d.nv with queue := q, job := some j, rest := rest } }) (j := j)
    fun hr => (congrArg Prod.snd (Dev.pairAt_of_poison e rfl j.page j.k)).trans (hpair hr)
  rw [Dev.burstStarts_free e h, Dev.dropGuarded_free hfree, Dev.nextBurst_starts e hrest hqueue hlets hregion hbursts]
  exact congrArg (fun n : NvUnit => { n with running := some (b.1, b.2, e.now) }) hnv

theorem Dev.burstStarts_unguarded (e : Env) {d : Dev} (h : ¬d.Barred) (hon : d.on .nvProtect = true) :
    (d.burstStarts e).Unguarded := by
  rw [Dev.burstStarts_free e h]
  exact Dev.burstFound_unguarded e (Dev.nextBurst_unguarded e (Dev.dropGuarded_unguarded hon))

/-! ## NV_BURST_DONE (R480) -/

theorem Mem.apply_append (m : Mem) (ps qs : List Post) : m.apply (ps ++ qs) = (m.apply ps).apply qs := List.foldl_append

/-- The first `n` bytes posted at an address are read back there. -/
theorem Mem.read_apply_range (m : Mem) (sp : Space) (off : Nat) (f : Nat → Byte) (n k : Nat) (h : k < n) :
    (m.apply ((List.range n).map fun k => ⟨sp, off + k, f k⟩)).read sp (off + k) = f k := by
  induction n with
  | zero => exact absurd h (Nat.not_lt_zero k)
  | succ n ih =>
    rw [List.range_succ, List.map_append, Mem.apply_append]
    show ((m.apply _).write ⟨sp, off + n, f n⟩).read sp (off + k) = f k
    rw [Mem.read_write]
    by_cases hk : k = n
    · rw [if_pos ⟨rfl, by rw [hk]⟩, hk]
    · rw [if_neg fun hc => hk (Nat.add_left_cancel hc.2)]
      exact ih (by omega)

theorem Dev.jobDone_drops (d : Dev) : d.Drops d.jobDone := by
  unfold Dev.jobDone
  split
  · split
    · exact .refl d
    next j _ =>
      have hdone := (Dev.Drops.refl d).nv { d.nv with job := none } rfl
      cases j.frees with
      | none => exact hdone
      | some page =>
        exact hdone.trans (((Dev.Records.refl _).queues d.nv.queue _).trans (Dev.reportPages_records _)).drops
  · exact .refl d

/-- The poison of a group that is written is gone. -/
def Dev.cleans (d : Dev) (g : Nat) : Dev := { d with nv := { d.nv with poison := d.nv.poison.del g } }

theorem Dev.burstWritten_drops (d : Dev) (off : Nat) (bs : List Byte) :
    ∃ b : Dev, d.Drops b ∧ d.burstWritten off bs = (b.post .nv off bs).count .nvBursts :=
  ⟨_, .foldl d ((List.range (burstGroups bs)).map (off / 16 + ·)) Dev.cleans fun b g =>
    (Dev.Drops.refl b).nv { b.nv with poison := b.nv.poison.del g } rfl, rfl⟩

/-- The burst in progress ends with its bytes in the store. -/
theorem Dev.burstEnds_running {d : Dev} {off : Nat} {bs : List Byte} {start : Nat} (h : d.nv.running = some (off, bs, start)) :
    d.burstEnds.nv.running = none ∧ Late.add .nvBursts 0 1 ∈ d.burstEnds.late ∧
      d.burstEnds.posts = d.posts ++ (List.range bs.length).map fun k => ⟨.nv, off + k, bs.getD k 0⟩ := by
  have hends : d.burstEnds =
      ((({ d with nv := { d.nv with running := none } }).burstWritten off bs).jobDone).reportNv := by
    unfold Dev.burstEnds
    rw [h]
  obtain ⟨b, hb, hwritten⟩ := Dev.burstWritten_drops { d with nv := { d.nv with running := none } } off bs
  have hdone := (Dev.jobDone_drops ((b.post .nv off bs).count .nvBursts)).trans (Dev.reportNv_drops _)
  rw [hends, hwritten]
  refine ⟨hdone.running.trans hb.running, hdone.late _ (List.mem_append_right _ List.mem_cons_self), hdone.posts.trans ?_⟩
  exact congrArg (· ++ (List.range bs.length).map fun k => ⟨.nv, off + k, bs.getD k 0⟩) hb.posts

theorem Dev.burstOver_iff (e : Env) {d : Dev} {off : Nat} {bs : List Byte} {start : Nat}
    (h : d.nv.running = some (off, bs, start)) :
    d.burstOver e = true ↔ start + 64 * ceilDiv bs.length 16 ≤ e.now := by
  unfold Dev.burstOver
  rw [h]
  exact decide_eq_true_iff

theorem Dev.burstOver_idle (e : Env) {d : Dev} (h : d.nv.running = none) : d.burstOver e = false := by
  unfold Dev.burstOver
  rw [h]

/-! ## HOLDUP_TEST and its end (R483) -/

theorem Dev.holdupDue_iff (e : Env) (d : Dev) : d.holdupDue e = true ↔
    d.nv.testing = none ∧ d.nv.running = none ∧ d.nv.failing = false ∧
      (d.nv.tested = none ∨ ∃ b, d.nv.tested = some b ∧ b + 345600000000 ≤ e.now) := by
  unfold Dev.holdupDue
  rw [Bool.and_eq_true, Bool.and_eq_true, Bool.and_eq_true, Option.isNone_iff_eq_none, Option.isNone_iff_eq_none,
    Bool.not_eq_true', and_assoc, and_assoc]
  refine and_congr_right fun _ => and_congr_right fun _ => and_congr_right fun _ => ?_
  cases d.nv.tested with
  | none => simp
  | some b =>
    refine decide_eq_true_iff.trans ⟨fun h => .inr ⟨b, rfl, h⟩, ?_⟩
    rintro (h | ⟨c, hc, h⟩)
    · exact absurd h (Option.some_ne_none b)
    · exact Option.some.inj hc ▸ h

theorem Dev.holdupOver_idle (e : Env) {d : Dev} (h : d.nv.testing = none) : d.holdupOver e = false := by
  unfold Dev.holdupOver
  rw [h]

theorem Dev.holdupOver_iff (e : Env) {d : Dev} {b : Nat} (h : d.nv.testing = some b) :
    d.holdupOver e = true ↔ b + 8400 ≤ e.now := by
  unfold Dev.holdupOver
  rw [h]
  exact decide_eq_true_iff

theorem Dev.holdupEnds_early (e : Env) {d : Dev} (nf : Nat) (h : d.holdupOver e = false) : d.holdupEnds e nf = d :=
  if_pos (by rw [h]; rfl)

/-- The block once the test is over and its measurement known. -/
def Dev.holdupMeasured (e : Env) (d : Dev) (nf : Nat) : Dev :=
  ({ d with nv := { d.nv with testing := none, tested := some e.now } }).put .nvHoldupNf 0 nf

theorem Dev.holdupEnds_over (e : Env) {d : Dev} (nf : Nat) (h : d.holdupOver e = true) :
    (d.holdupEnds e nf).posts = d.posts ∧ (d.holdupEnds e nf).nv = { d.nv with testing := none, tested := some e.now } ∧
      (d.holdupEnds e nf).g .nvHoldupState = if 1800 ≤ nf then 1 else 2 := by
  have hvalue : (if 1800 ≤ nf then 1 else 2 : Nat) < 2 ^ Obj.nvHoldupState.info.ty.width := by
    split <;> decide
  have hends : d.holdupEnds e nf =
      if (d.holdupMeasured e nf).g .nvHoldupState = (if 1800 ≤ nf then 1 else 2) then d.holdupMeasured e nf
      else ((d.holdupMeasured e nf).put .nvHoldupState 0 (if 1800 ≤ nf then 1 else 2)).flag .nvEventFlags 0 0 :=
    if_neg (by rw [h]; exact Bool.false_ne_true)
  rw [hends]
  revert hvalue
  generalize (if 1800 ≤ nf then 1 else 2 : Nat) = v
  intro hvalue
  split
  next hsame => exact ⟨rfl, rfl, hsame⟩
  · exact ⟨rfl, rfl, Dev.g_put_of_lt _ .nvHoldupState 0 _ hvalue⟩

/-! ## NV_SCRUB (R489) -/

theorem Dev.scrubDue_iff (e : Env) (d : Dev) :
    d.scrubDue e = true ↔ d.nv.queued = 0 ∧ d.nv.scrubbed + 345600000000 ≤ e.now := by
  unfold Dev.scrubDue
  rw [Bool.and_eq_true, beq_iff_eq, decide_eq_true_iff]
  rfl

/-- A corrected group is written back. -/
def Dev.mends (e : Env) (d : Dev) (g : Nat) : Dev :=
  ((d.nvWrite { region := 5, id := 16 * g, page := 0, body := e.mem.readN .nv (16 * g) 16 }).count .nvCorr).flag .nvEventFlags 0 3

/-- A group found uncorrectable is poisoned and reported. -/
def Dev.spoils (d : Dev) (g : Nat) : Dev :=
  ({ d with nv := { d.nv with poison := d.nv.poison.put g true } }).meetsPoison (16 * g) 16

theorem Dev.mends_drops (e : Env) (d : Dev) (g : Nat) : d.Drops (d.mends e g) :=
  ((d.nvWrite_records _).drops.later _).later _

theorem Dev.meetsPoison_drops (d : Dev) (off n : Nat) : d.Drops (d.meetsPoison off n) :=
  .foldl d _ _ fun b _ => (((Dev.Drops.refl b).later _).later _).later _

theorem Dev.spoils_drops (d : Dev) (g : Nat) : d.Drops (d.spoils g) :=
  ((Dev.Drops.refl d).nv { d.nv with poison := d.nv.poison.put g true } rfl).trans (Dev.meetsPoison_drops _ _ _)

/-- Group `g` is poisoned, counted and flagged. -/
def Dev.Spoiled (d : Dev) (g : Nat) : Prop :=
  d.nv.poison.find g = some true ∧ Late.add .nvUncorr 0 1 ∈ d.late ∧ Late.flag .nvEventFlags 0 16 ∈ d.late

theorem Dev.spoils_spoiled (d : Dev) (g : Nat) : (d.spoils g).Spoiled g := by
  have hpoison : ({ d with nv := { d.nv with poison := d.nv.poison.put g true } } : Dev).nv.poison.getD g false = true :=
    Tab.getD_put_same _ _ _ _
  obtain ⟨hcount, hflag⟩ := Dev.meetsPoison_group hpoison
  exact ⟨(congrArg (fun n : NvUnit => n.poison.find g) (Dev.meetsPoison_nv _ _ _)).trans (Tab.find_put_same _ _ _), hcount, hflag⟩

theorem Dev.Spoiled.spoils {d : Dev} {g : Nat} (h : d.Spoiled g) (x : Nat) : (d.spoils x).Spoiled g := by
  by_cases hx : g = x
  · exact hx ▸ d.spoils_spoiled g
  · obtain ⟨hpoison, hcount, hflag⟩ := h
    have hlate := (d.spoils_drops x).late
    refine ⟨(congrArg (fun n : NvUnit => n.poison.find g) (Dev.meetsPoison_nv _ _ _)).trans ?_, hlate _ hcount, hlate _ hflag⟩
    exact (Tab.find_put_other _ _ _ _ hx).trans hpoison

theorem Dev.spoilAll_spoiled (d : Dev) (gs : List Nat) : ∀ g ∈ gs, (gs.foldl Dev.spoils d).Spoiled g := by
  induction gs generalizing d with
  | nil => exact fun _ hg => absurd hg List.not_mem_nil
  | cons x gs ih =>
    intro g hg
    rcases List.mem_cons.1 hg with rfl | hg
    · exact List.foldlRecOn (motive := fun b : Dev => b.Spoiled g) gs _ (d.spoils_spoiled g) fun _ hb x _ => hb.spoils x
    · exact ih (d.spoils x) g hg

/-- The groups a scrub pass finds uncorrectable, those poisoned before among them. -/
def Dev.scrubLost (d : Dev) (uncorrected : List Nat) : List Nat :=
  ((d.nv.poison.map fun (p : Nat × Bool) => p.1) ++ uncorrected.filter (· < nvGroups)).eraseDups

/-- The groups a scrub pass corrects. -/
def Dev.scrubMended (d : Dev) (corrected uncorrected : List Nat) : List Nat :=
  (corrected.filter fun g => g < nvGroups && !(d.scrubLost uncorrected).contains g).eraseDups

theorem Dev.nvScrub_eq (e : Env) (d : Dev) (corrected uncorrected : List Nat) : d.nvScrub e corrected uncorrected =
    (let b := (d.scrubLost uncorrected).foldl Dev.spoils ((d.scrubMended corrected uncorrected).foldl (Dev.mends e) d)
    ({ b with nv := { b.nv with scrubbed := e.now } }).count .nvScrubs) := rfl

theorem Dev.nvScrub_effects (e : Env) (d : Dev) (corrected uncorrected : List Nat) :
    (d.nvScrub e corrected uncorrected).posts = d.posts ∧ Late.add .nvScrubs 0 1 ∈ (d.nvScrub e corrected uncorrected).late ∧
      ∀ g ∈ uncorrected, g < 32768 → (d.nvScrub e corrected uncorrected).Spoiled g := by
  rw [Dev.nvScrub_eq]
  dsimp only
  have hmended : d.Drops ((d.scrubMended corrected uncorrected).foldl (Dev.mends e) d) :=
    .foldl d _ _ fun b g => b.mends_drops e g
  revert hmended
  generalize (d.scrubMended corrected uncorrected).foldl (Dev.mends e) d = b
  intro hmended
  have hlost : b.Drops ((d.scrubLost uncorrected).foldl Dev.spoils b) := .foldl b _ _ Dev.spoils_drops
  refine ⟨(hlost.posts).trans hmended.posts, List.mem_append_right _ List.mem_cons_self, fun g hg hlt => ?_⟩
  have hmem : g ∈ d.scrubLost uncorrected :=
    List.mem_eraseDups.2 (List.mem_append_right _ (List.mem_filter.2 ⟨hg, decide_eq_true hlt⟩))
  obtain ⟨hpoison, hcount, hflag⟩ := Dev.spoilAll_spoiled b _ g hmem
  exact ⟨hpoison, List.mem_append_left _ hcount, List.mem_append_left _ hflag⟩

/-! ## NVWP_CHANGE (R488) -/

theorem Dev.nvwp_same {d : Dev} {low : Bool} (h : d.on .nvProtect = low) : d.nvwp low = d := if_pos h

theorem Dev.nvwp_changes {d : Dev} {low : Bool} (h : d.on .nvProtect ≠ low) :
    (d.nvwp low).posts = d.posts ∧ (d.nvwp low).on .nvProtect = low ∧ Late.flag .nvEventFlags 0 128 ∈ (d.nvwp low).late ∧
      (d.nvwp low).nv.running = d.nv.running ∧ (low = true → (d.nvwp low).Unguarded) ∧
      (low = false → (d.nvwp low).nv.queue = d.nv.queue) := by
  have heq : d.nvwp low = ((d.put .nvProtect 0 (b2n low)).flag .nvEventFlags 0 7).dropGuarded := if_neg h
  have hlevel : ((d.put .nvProtect 0 (b2n low)).flag .nvEventFlags 0 7).on .nvProtect = low :=
    d.on_put_b2n (o := .nvProtect) 0 low (by decide)
  have hdrops := ((d.put .nvProtect 0 (b2n low)).flag .nvEventFlags 0 7).dropGuarded_drops
  rw [heq]
  refine ⟨hdrops.posts, ?_, hdrops.late _ (List.mem_append_right _ List.mem_cons_self), hdrops.running, fun hlow => ?_,
    fun hhigh => ?_⟩
  · exact (congrArg (· != 0) (hdrops.objs .nvProtect (by decide) 0)).trans hlevel
  · exact Dev.dropGuarded_unguarded (hlevel.trans hlow)
  · rw [Dev.dropGuarded_free (hlevel.trans hhigh)]
    rfl

/-! ## POWER_FAIL (R481, R495) -/

/-- A flag that is set at the rank of its cause changes its word, and its source fires. -/
theorem Dev.flagNow_same (d : Dev) (o : Obj) (i bit : Nat) : ∃ b : Dev, d.flagNow o i bit = b ∧
    b = { d.put o i (d.g o i ||| 2 ^ bit) with late := b.late } ∧ ∀ l ∈ d.late, l ∈ b.late := by
  refine ⟨_, rfl, ?_, ?_⟩
  · exact List.foldlRecOn (motive := fun b : Dev => b = { d.put o i (d.g o i ||| 2 ^ bit) with late := b.late }) _ _ rfl
      fun b hb x _ => (congrArg (fun y : Dev => { y with late := (b.fire x).late }) hb :)
  · exact List.foldlRecOn (motive := fun b : Dev => ∀ l ∈ d.late, l ∈ b.late) _ _ (fun _ hl => hl)
      fun b hb x _ l hl => List.mem_append_left _ (hb l hl)

theorem Dev.powerFails_again (e : Env) {d : Dev} (h : d.nv.failing = true) : d.powerFails e = d := if_pos h

/-- The block once a power fail has discarded what was queued. -/
def Dev.powerLost (e : Env) (d : Dev) : Dev :=
  let b := ({ d with nv := { d.nv with failing := true, failedAt := e.now } }).nvLose.reportNv
  { b with pwr := { b.pwr with sleeping := none, wakeHeld := false } }

theorem Dev.powerFails_eq (e : Env) {d : Dev} (h : d.nv.failing = false) : d.powerFails e =
    if d.nv.queued = 0 then d.powerLost e else ((d.powerLost e).count .nvRefused 0 d.nv.queued).flagNow .nvEventFlags 0 1 :=
  if_neg (Bool.eq_false_iff.1 h)

theorem Dev.powerLost_effects (e : Env) (d : Dev) : (d.powerLost e).posts = d.posts ∧ (d.powerLost e).nv.failing = true ∧
    (d.powerLost e).nv.queue = [] ∧ (d.powerLost e).nv.failedAt = e.now ∧ (d.powerLost e).nv.running = d.nv.running := by
  have hlost : ∀ (b : Dev) (js : List NvJob), (js.foldl Dev.jobLost b).posts = b.posts ∧
      (js.foldl Dev.jobLost b).nv.failing = b.nv.failing ∧ (js.foldl Dev.jobLost b).nv.failedAt = b.nv.failedAt ∧
      (js.foldl Dev.jobLost b).nv.running = b.nv.running := by
    intro b js
    refine List.foldlRecOn (motive := fun x : Dev => x.posts = b.posts ∧ x.nv.failing = b.nv.failing ∧
      x.nv.failedAt = b.nv.failedAt ∧ x.nv.running = b.nv.running) js _ ⟨rfl, rfl, rfl, rfl⟩ fun x hx j _ => ?_
    obtain ⟨hposts, hfailing, hat, hrunning⟩ := hx
    have hrec := x.jobLost_records j
    exact ⟨hrec.posts.trans hposts, (congrArg NvUnit.failing hrec.nv :).trans hfailing,
      (congrArg NvUnit.failedAt hrec.nv :).trans hat, (congrArg NvUnit.running hrec.nv :).trans hrunning⟩
  obtain ⟨hposts, hfailing, hat, hrunning⟩ := hlost { d with nv := { d.nv with failing := true, failedAt := e.now } }
    (d.nv.queue ++ d.nv.job.toList)
  exact ⟨hposts, hfailing, rfl, hat, hrunning⟩

theorem Dev.powerFails_effects (e : Env) {d : Dev} (h : d.nv.failing = false) : (d.powerFails e).posts = d.posts ∧
    (d.powerFails e).nv.failing = true ∧ (d.powerFails e).nv.queue = [] ∧ (d.powerFails e).nv.failedAt = e.now ∧
    (d.powerFails e).nv.running = d.nv.running ∧
    (d.nv.queued ≠ 0 → Late.add .nvRefused 0 d.nv.queued ∈ (d.powerFails e).late) := by
  obtain ⟨hposts, hfailing, hqueue, hat, hrunning⟩ := d.powerLost_effects e
  rw [Dev.powerFails_eq e h]
  split
  next hnone => exact ⟨hposts, hfailing, hqueue, hat, hrunning, fun hsome => absurd hnone hsome⟩
  · obtain ⟨b, heq, hsame, hlate⟩ := ((d.powerLost e).count .nvRefused 0 d.nv.queued).flagNow_same .nvEventFlags 0 1
    have hnv : b.nv = (d.powerLost e).nv := (congrArg Dev.nv hsame :)
    rw [heq]
    refine ⟨(congrArg Dev.posts hsame :).trans hposts, ?_, ?_, ?_, ?_,
      fun _ => hlate _ (List.mem_append_right _ List.mem_cons_self)⟩
    · rw [hnv, hfailing]
    · rw [hnv, hqueue]
    · rw [hnv, hat]
    · rw [hnv, hrunning]

/-! ## The obligation -/

/-- A command whose effect waits for a condition does nothing without it. -/
theorem State.at_undue {s : State} {r : Nat} {c : Env → Dev → Bool} {f : Env → Dev → Dev} (hs : s.Awake r)
    (h : c (s.enter r).env (s.enter r).dev = false) : (s.at r fun e d => d.when (c e d) (f e)) = .next (s.enter r) :=
  s.at_id r _ hs (Dev.when_of_false _ _ h)

theorem nvBurst_bars_and_starts {s : State} (hs : s.Awake 9) :
    let u := s.enter 9
    let d := u.dev
    let now := u.clk.elapsed
    (d.Barred → ∃ t, exec .nvBurst s = .next t ∧ u.thenHeld = .next t ∧ (d.ses.held = [] → t = u)) ∧
    (¬d.Barred → ∃ w t, exec .nvBurst s = .next t ∧ w.thenHeld = .next t ∧ (w.dev.ses.held = [] → t = w) ∧
      (∀ b rest, d.nv.rest = b :: rest → d.on .nvProtect = false →
        w.dev.nv.running = some (b.1, b.2, now) ∧ w.dev.nv.rest = rest ∧ w.dev.nv.queue = d.nv.queue) ∧
      (∀ j q b rest, d.nv.rest = [] → d.on .nvProtect = false → d.nv.queue = j :: q → d.holdupLets j = true →
        j.region ≠ 2 → (j.region = 0 ∨ j.region = 3 → (d.pairAt u.env j.page j.k).2 = false) →
        d.jobBursts u.env j = b :: rest →
        w.dev.nv.running = some (b.1, b.2, now) ∧ w.dev.nv.rest = rest ∧ w.dev.nv.queue = q) ∧
      (d.on .nvProtect = true → ∀ j ∈ w.dev.nv.queue, j.guarded = false)) := by
  refine ⟨fun hbarred => ?_, fun hfree => ?_⟩
  · obtain ⟨t, ht, hheld⟩ := State.thenHeld_next (s.enter 9)
    have hrun := State.run_id (s.enter 9) (fun e d => d.burstStarts e) (Dev.burstStarts_barred _ hbarred) (s.enter_posts 9)
    exact ⟨t, (exec_nvBurst hs).trans ((congrArg State.thenHeld hrun).trans ht), ht, hheld⟩
  · obtain ⟨t, ht, hheld⟩ := State.thenHeld_next ((s.enter 9).run fun e d => d.burstStarts e)
    refine ⟨_, t, (exec_nvBurst hs).trans ht, ht, hheld, fun b rest hrest hoff => ?_,
      fun j q b rest hrest hoff hqueue hlets hregion hpair hbursts => ?_, fun hon => ?_⟩
    · rw [State.run_nv, Dev.burstStarts_goes_on _ hfree hrest hoff]
      exact ⟨rfl, rfl, rfl⟩
    · rw [State.run_nv, Dev.burstStarts_starts _ hfree hoff hrest hqueue hlets hregion hpair hbursts]
      exact ⟨rfl, rfl, rfl⟩
    · exact Dev.burstStarts_unguarded (s.enter 9).env hfree hon

theorem nvBurstDone_writes {s : State} (hs : s.Awake 9) {off : Nat} {bs : List Byte} {b : Nat}
    (h : (s.enter 9).dev.nv.running = some (off, bs, b)) (hover : b + 64 * ceilDiv bs.length 16 ≤ (s.enter 9).clk.elapsed) :
    ∃ t, exec .nvBurstDone s = .next t ∧ t.dev.nv.running = none ∧ Late.add .nvBursts 0 1 ∈ t.dev.late ∧
      (∀ k, k < bs.length → t.mem.read .nv (off + k) = bs.getD k 0) ∧
      ∀ (sp : Space) (a : Nat), ¬(sp = .nv ∧ off ≤ a ∧ a < off + bs.length) → t.mem.read sp a = (s.enter 9).mem.read sp a := by
  obtain ⟨hrunning, hlate, hposts⟩ := Dev.burstEnds_running h
  rw [s.enter_posts 9, List.nil_append] at hposts
  have hdone : (Dev.when (s.enter 9).dev ((s.enter 9).dev.burstOver (s.enter 9).env) Dev.burstEnds) = (s.enter 9).dev.burstEnds :=
    Dev.when_of_true _ _ ((Dev.burstOver_iff _ h).2 hover)
  have hmem : ((s.enter 9).run fun _ d => d.burstEnds).mem =
      (s.enter 9).mem.apply ((List.range bs.length).map fun k => ⟨.nv, off + k, bs.getD k 0⟩) :=
    congrArg (s.enter 9).mem.apply hposts
  refine ⟨_, (s.at_awake 9 _ hs).trans (congrArg Host.Outcome.next (State.run_eq_of (g := fun _ d => d.burstEnds) _ hdone)),
    hrunning, hlate, fun k hk => ?_, fun sp a hout => ?_⟩
  · rw [hmem]
    exact Mem.read_apply_range _ .nv off (fun k => bs.getD k 0) bs.length k hk
  · rw [hmem]
    refine Mem.read_apply_other _ _ sp a fun p hp ⟨hsp, ha⟩ => hout ?_
    obtain ⟨k, hk, rfl⟩ := List.mem_map.1 hp
    have hlt := List.mem_range.1 hk
    exact ⟨hsp, ha ▸ Nat.le_add_right off k, ha ▸ Nat.add_lt_add_left hlt off⟩

theorem holdupTest_starts_and_ends {s : State} (hs : s.Awake 9) :
    let u := s.enter 9
    let d := u.dev
    let now := u.clk.elapsed
    (d.holdupDue u.env = false → exec .holdupTest s = .next u) ∧
    (d.holdupDue u.env = true → exec .holdupTest s = .next (u.become { d with nv := { d.nv with testing := some now } })) ∧
    ∀ nf : Nat, (d.holdupOver u.env = false → exec (.holdupTestDone nf) s = .next u) ∧
      (d.holdupOver u.env = true → ∃ t, exec (.holdupTestDone nf) s = .next t ∧ t.dev.nv.testing = none ∧
        t.dev.nv.tested = some now ∧ t.dev.g .nvHoldupState = if 1800 ≤ nf then 1 else 2) := by
  refine ⟨fun h => State.at_undue hs h, fun h => ?_, fun nf => ⟨fun h => ?_, fun h => ?_⟩⟩
  · exact s.at_become 9 _ _ hs (Dev.when_of_true _ _ h) (s.enter_posts 9)
  · exact s.at_id 9 _ hs (Dev.holdupEnds_early _ nf h)
  · obtain ⟨hposts, hnv, hstate⟩ := Dev.holdupEnds_over (s.enter 9).env nf h
    exact ⟨_, s.at_become 9 _ _ hs rfl (hposts.trans (s.enter_posts 9)), (congrArg NvUnit.testing hnv :),
      (congrArg NvUnit.tested hnv :), hstate⟩

theorem nvScrub_passes {s : State} (hs : s.Awake 9) (corrected uncorrected : List Nat) :
    let u := s.enter 9
    let d := u.dev
    (d.scrubDue u.env = false → exec (.nvScrub corrected uncorrected) s = .next u) ∧
    (d.scrubDue u.env = true → ∃ t, exec (.nvScrub corrected uncorrected) s = .next t ∧
      Late.add .nvScrubs 0 1 ∈ t.dev.late ∧ t.mem = u.mem ∧ ∀ g ∈ uncorrected, g < 32768 → t.dev.Spoiled g) := by
  refine ⟨fun h => State.at_undue hs h, fun h => ?_⟩
  obtain ⟨hposts, hpass, hlost⟩ := Dev.nvScrub_effects (s.enter 9).env (s.enter 9).dev corrected uncorrected
  exact ⟨_, s.at_become 9 _ _ hs (Dev.when_of_true _ _ h) (hposts.trans (s.enter_posts 9)), hpass, rfl, hlost⟩

/-- Settles O55, command by command: what the FIFO, the tests, the scrub and the two pins leave of the store and its queue. -/
theorem nvStoreWritesInBursts : Obligations.NvStoreWritesInBursts := by
  unfold Obligations.NvStoreWritesInBursts
  intro s
  refine ⟨fun hs => ?_, fun hs low => ⟨fun hsame => ?_, fun hother => ?_⟩, fun hs => ⟨fun hfailing => ?_, fun hup => ?_⟩⟩
  · obtain ⟨hbarred, hfree⟩ := nvBurst_bars_and_starts hs
    obtain ⟨hundue, hdue, hends⟩ := holdupTest_starts_and_ends hs
    refine ⟨hbarred, hfree, fun hidle => State.at_undue hs (Dev.burstOver_idle _ hidle), fun off bs b hrunning =>
      ⟨fun hearly => State.at_undue hs ?_, nvBurstDone_writes hs hrunning⟩, ⟨fun hnot => hundue ?_, fun h => hdue ?_⟩,
      fun nf => ⟨fun hidle => (hends nf).1 (Dev.holdupOver_idle _ hidle), fun b htesting =>
        ⟨fun hearly => (hends nf).1 ?_, fun hover => (hends nf).2 ((Dev.holdupOver_iff _ htesting).2 hover)⟩⟩,
      fun corrected uncorrected hnot => (nvScrub_passes hs corrected uncorrected).1 ?_,
      fun hqueued hday corrected uncorrected => (nvScrub_passes hs corrected uncorrected).2 ((Dev.scrubDue_iff _ _).2 ⟨hqueued, hday⟩)⟩
    · exact Bool.eq_false_iff.2 fun h => absurd ((Dev.burstOver_iff _ hrunning).1 h) (Nat.not_le.2 hearly)
    · exact Bool.eq_false_iff.2 fun h => hnot ((Dev.holdupDue_iff _ _).1 h)
    · exact (Dev.holdupDue_iff _ _).2 h
    · exact Bool.eq_false_iff.2 fun h => absurd ((Dev.holdupOver_iff _ htesting).1 h) (Nat.not_le.2 hearly)
    · exact Bool.eq_false_iff.2 fun h => hnot ((Dev.scrubDue_iff _ _).1 h)
  · exact s.at_id 0 (fun _ d => d.nvwp low) hs (Dev.nvwp_same hsame)
  · obtain ⟨hposts, heffects⟩ := Dev.nvwp_changes hother
    exact ⟨_, s.at_become 0 (fun _ d => d.nvwp low) _ hs rfl (hposts.trans (s.enter_posts 0)), heffects⟩
  · exact s.at_id 2 (fun e d => d.powerFails e) hs (Dev.powerFails_again _ hfailing)
  · obtain ⟨hposts, heffects⟩ := Dev.powerFails_effects (s.enter 2).env hup
    exact ⟨_, s.at_become 2 (fun e d => d.powerFails e) _ hs rfl (hposts.trans (s.enter_posts 2)), heffects⟩

end Sys2Proof.Machine
end

section
/-!
What start-up steps, power states and restarts of the cores leave as it was (R498, R500, R507).
-/

namespace Sys2Proof.Machine

/-- From `d` to `d'` the objects in `ks`, the power unit, the answer and the sources stand, and nothing left for rank 9 is
gone. -/
structure Dev.Stands (ks : List Obj) (d d' : Dev) : Prop where
  objs : ∀ o ∈ ks, ∀ i, d'.g o i = d.g o i
  late : ∀ l ∈ d.late, l ∈ d'.late
  pwr : d'.pwr = d.pwr
  answer : d'.answer = d.answer
  ink : d'.ink = d.ink

section
variable {ks : List Obj} {a b c : Dev}

theorem Dev.Stands.refl (d : Dev) : d.Stands ks d := ⟨fun _ _ _ => rfl, fun _ h => h, rfl, rfl, rfl⟩

theorem Dev.Stands.trans (h : a.Stands ks b) (k : b.Stands ks c) : a.Stands ks c :=
  ⟨fun o ho i => (k.objs o ho i).trans (h.objs o ho i), fun l hl => k.late l (h.late l hl), k.pwr.trans h.pwr,
    k.answer.trans h.answer, k.ink.trans h.ink⟩

theorem Dev.Stands.ite (p : Prop) [Decidable p] (h : a.Stands ks b) (k : a.Stands ks c) :
    a.Stands ks (if p then b else c) := by
  split
  · exact h
  · exact k

theorem Dev.Stands.foldl {α : Type} (d : Dev) (xs : List α) (f : Dev → α → Dev) (h : ∀ (b : Dev) (x : α), b.Stands ks (f b x)) :
    d.Stands ks (xs.foldl f d) :=
  List.foldlRecOn (motive := fun b => d.Stands ks b) _ _ (.refl d) fun b hb x _ => hb.trans (h b x)

theorem Dev.Stands.put (h : a.Stands ks b) (o : Obj) (i v : Nat) (ho : o ∉ ks) : a.Stands ks (b.put o i v) :=
  h.trans ⟨fun _ hp k => b.g_put_of_ne i k v fun heq => ho (heq ▸ hp), fun _ hl => hl, rfl, rfl, rfl⟩

theorem Dev.Stands.later (h : a.Stands ks b) (l : Late) : a.Stands ks (b.later l) :=
  h.trans ⟨fun _ _ _ => rfl, fun _ hl => List.mem_append_left _ hl, rfl, rfl, rfl⟩

/-- Whatever else of the block changes. -/
theorem Dev.Stands.of_eq (hobjs : b.objs = a.objs) (hlate : b.late = a.late) (hpwr : b.pwr = a.pwr) (hanswer : b.answer = a.answer)
    (hink : b.ink = a.ink) : a.Stands ks b :=
  ⟨fun o _ i => congrArg (fun t : Tab Nat => t.getD (o.key i) (o.default i)) hobjs, fun _ hl => hlate ▸ hl, hpwr, hanswer, hink⟩

theorem Dev.Closings.stands (h : a.Closings b) (hks : ∀ o ∈ ks, o ∉ closeObjs) : a.Stands ks b :=
  ⟨fun o ho => h.objs o (hks o ho), h.late, (congrArg Dev.pwr h.same :), (congrArg Dev.answer h.same :),
    (congrArg Dev.ink h.same :)⟩

theorem Dev.Records.stands (h : a.Records b) (hks : ∀ o ∈ ks, o ∉ closeObjs) : a.Stands ks b := h.closings.stands hks

end

/-! ## QUARANTINE (R439) -/

/-- The objects entering QUARANTINE changes, but for `lc_state`. -/
def sealObjs : List Obj := .ptState :: .ptLeft :: closeObjs

section
variable {ks : List Obj}

theorem Dev.stopSlot_stands (d : Dev) (k : Nat) (hks : ∀ o ∈ ks, o ∉ sealObjs) : d.Stands ks (d.stopSlot k) :=
  have hout {o : Obj} (ho : o ∈ sealObjs) : o ∉ ks := fun h => hks o h ho
  .ite _ ((((Dev.Stands.refl d).put .ptState k 0 (hout (by decide))).put .ptLeft k 0 (hout (by decide))).later _) (.refl d)

theorem Dev.stopSlots_stands (d : Dev) (hks : ∀ o ∈ ks, o ∉ sealObjs) : d.Stands ks d.stopSlots :=
  .foldl d _ _ fun b k => b.stopSlot_stands k hks

/-- What QUARANTINE does besides its bit. -/
theorem Dev.enterQuarantine_sealed (e : Env) {d : Dev} (cause : Nat) (h : d.quarantine = false)
    (hks : ∀ o ∈ ks, o ∉ sealObjs) :
    (d.put .lcState 0 (d.g .lcState + 128)).Stands ks (d.enterQuarantine e cause) := by
  unfold Dev.enterQuarantine
  rw [h, if_neg Bool.false_ne_true]
  have hclose : ∀ o ∈ ks, o ∉ closeObjs := fun o ho h => hks o ho (List.mem_cons_of_mem _ (List.mem_cons_of_mem _ h))
  generalize d.put .lcState 0 (d.g .lcState + 128) = x
  have hrecord : x.Stands ks (((x.ledger e 0x31 {} 0 0 0 cause).keepCounter 1 (1 + 256 * cause)).flag .lcEventFlags 0 1) :=
    (((x.ledger_records ..).trans (Dev.keepCounter_records ..)).stands hclose).later _
  refine (Dev.Stands.trans (.ite _ (.later (hrecord.trans ((Dev.ledger_records ..).stands hclose)) _) hrecord)
    (Dev.stopSlots_stands _ hks)).trans ((Dev.closeWhere_closings ..).stands hclose)

theorem Dev.enterQuarantine_stands (e : Env) (d : Dev) (cause : Nat) (hks : ∀ o ∈ ks, o ∉ Obj.lcState :: sealObjs) :
    d.Stands ks (d.enterQuarantine e cause) := by
  have hseal : ∀ o ∈ ks, o ∉ sealObjs := fun o ho h => hks o ho (List.mem_cons_of_mem _ h)
  rcases hq : d.quarantine with _ | _
  · exact .trans (.put (.refl d) .lcState 0 _ fun h => hks _ h List.mem_cons_self) (d.enterQuarantine_sealed e cause hq hseal)
  · have hsame : d.enterQuarantine e cause = d := if_pos hq
    rw [hsame]
    exact .refl d

end

theorem Dev.enterQuarantine_quarantine (e : Env) (d : Dev) (cause : Nat) : (d.enterQuarantine e cause).quarantine = true := by
  rcases hq : d.quarantine with _ | _
  · have hstate := (d.enterQuarantine_sealed (ks := [.lcState]) e cause hq (by decide)).objs .lcState (by decide) 0
    unfold Dev.quarantine at hq ⊢
    rw [hstate, Dev.g_put_same]
    show ((d.g .lcState + 128) % 2 ^ 8).testBit 7 = true
    rw [Nat.testBit_eq_decide_div_mod_eq] at hq ⊢
    simp only [decide_eq_false_iff_not, decide_eq_true_eq] at hq ⊢
    omega
  · have hsame : d.enterQuarantine e cause = d := if_pos hq
    rw [hsame]
    exact hq

/-! ## Lanes, trackers, PLLs and memberships -/

section
variable {ks : List Obj}

theorem Dev.setLane_stands (d : Dev) (i st cause : Nat) (hks : .laneState ∉ ks ∧ .laneCause ∉ ks) :
    d.Stands ks (d.setLane i st cause) := by
  have hset := (((Dev.Stands.refl d).put .laneState i st hks.1).put .laneCause i cause hks.2).later
    (.flag .laneEventFlags i (2 ^ 0))
  exact .ite _ (.refl d) (.ite _ (hset.later _) hset)

theorem Dev.linkFollow_stands (d : Dev) (m : Nat) (hks : .ethLink ∉ ks) : d.Stands ks (d.linkFollow m) :=
  .ite _ (.refl d) (((Dev.Stands.refl d).put .ethLink m _ hks).later _)

theorem Dev.acquireLane_stands (now : Nat) (d : Dev) (i cause : Nat)
    (hks : .laneState ∉ ks ∧ .laneCause ∉ ks ∧ .ethLink ∉ ks) : d.Stands ks (d.acquireLane now i cause) := by
  have hlane (x : LaneCtx) : d.Stands ks (d.putLane i x) := .of_eq rfl rfl rfl rfl rfl
  exact ((Dev.Stands.ite _ ((hlane _).later _) (hlane _)).trans (Dev.setLane_stands _ i _ cause ⟨hks.1, hks.2.1⟩)).trans
    (Dev.linkFollow_stands _ _ hks.2.2)

theorem Dev.settleLane_stands (now : Nat) (d : Dev) (i cause : Nat)
    (hks : .laneState ∉ ks ∧ .laneCause ∉ ks ∧ .ethLink ∉ ks) : d.Stands ks (d.settleLane now i cause) := by
  have hset (st : Nat) : d.Stands ks ((d.setLane i st cause).linkFollow (d.g .laneMac i)) :=
    (d.setLane_stands i st cause ⟨hks.1, hks.2.1⟩).trans (Dev.linkFollow_stands _ _ hks.2.2)
  exact .ite _ (hset _) (.ite _ (hset _) (.ite _ (hset _) (d.acquireLane_stands now i cause hks)))

/-- The objects that report the sample-rate converters. -/
def trackerObjs : List Obj := [.asrcState, .asrcTracker, .asrcRatio]

theorem Dev.srcPut_stands (now : Nat) (d : Dev) (n v : Nat) : d.Stands ks (d.srcPut now n v) := .of_eq rfl rfl rfl rfl rfl

theorem Dev.putTracker_stands (d : Dev) (t : Nat) (x : Tracker) : d.Stands ks (d.putTracker t x) := .of_eq rfl rfl rfl rfl rfl

theorem Dev.reportTracker_stands (now : Nat) (d : Dev) (t : Nat) (used : List Nat) (hks : ∀ o ∈ ks, o ∉ trackerObjs) :
    d.Stands ks (d.reportTracker now t used) := by
  unfold Dev.reportTracker
  have hout {o : Obj} (ho : o ∈ trackerObjs) : o ∉ ks := fun h => hks o h ho
  cases d.audio.trackers.find t with
  | none => exact .refl d
  | some x =>
    refine .foldl d _ _ fun b n => ?_
    refine .put (.put (.trans (.ite _ (.refl b) (((Dev.Stands.refl b).put .asrcState n _ (hout (by decide))).later _))
      (.ite _ (.refl _) (Dev.srcPut_stands now _ _ 0))) .asrcTracker n t (hout (by decide))) .asrcRatio n _ (hout (by decide))

theorem Dev.assignTrackers_stands (d : Dev) (quads : List (Nat × Nat × Nat × Nat)) : d.Stands ks (d.assignTrackers quads) := by
  unfold Dev.assignTrackers
  have hkept (t : Tab Tracker) : d.Stands ks { d with audio := { d.audio with trackers := t } } := .of_eq rfl rfl rfl rfl rfl
  refine (hkept _).trans (.foldl _ _ _ fun b q => .ite _ (.refl b) ?_)
  split
  · exact b.putTracker_stands _ _
  · exact .refl b

theorem Dev.idleChannel_stands (now : Nat) (d : Dev) (n : Nat) (hks : ∀ o ∈ ks, o ∉ trackerObjs) :
    d.Stands ks (d.idleChannel now n) :=
  have hout {o : Obj} (ho : o ∈ trackerObjs) : o ∉ ks := fun h => hks o h ho
  .ite _ (.refl d) (.later (.put (.put (.put (d.srcPut_stands now (768 + n) 0) .asrcState n 0 (hout (by decide))) .asrcTracker n
    0xFF (hout (by decide))) .asrcRatio n 0 (hout (by decide))) _)

theorem Dev.trackerInput_stands (now : Nat) (d : Dev) (used : List Nat) (t : Nat) (hks : ∀ o ∈ ks, o ∉ trackerObjs) :
    d.Stands ks (d.trackerInput now used t) := by
  unfold Dev.trackerInput
  cases d.audio.trackers.find t with
  | none => exact .refl d
  | some x => exact (d.putTracker_stands t _).trans (Dev.reportTracker_stands now _ t used hks)

theorem Dev.trackersFollow_stands (now : Nat) (d : Dev) (hks : ∀ o ∈ ks, o ∉ trackerObjs) :
    d.Stands ks (d.trackersFollow now) :=
  ((d.assignTrackers_stands _).trans (.foldl _ _ _ fun b n => b.idleChannel_stands now n hks)).trans
    (.foldl _ _ _ fun b t => b.trackerInput_stands now _ t hks)

theorem Dev.setPll_stands (now : Nat) (d : Dev) (k st : Nat) (hks : .pllState ∉ ks ∧ .pllOffset ∉ ks) :
    d.Stands ks (d.setPll now k st) := by
  unfold Dev.setPll
  have hclock (t : Tab Nat) : d.Stands ks { d with audio := { d.audio with mclk := t } } := .of_eq rfl rfl rfl rfl rfl
  have hset (t : Tab Nat) := ((hclock t).put .pllState k st hks.1).later (.flag .pllEventFlags k (2 ^ 0))
  refine .ite _ (hclock _) ?_
  refine .trans (.ite _ ((hset _).put .pllOffset k _ hks.2) (hset _)) (.of_eq rfl rfl rfl rfl rfl)

theorem Dev.pllSwitch_stands (now : Nat) (d : Dev) (k : Nat) (hks : .pllState ∉ ks ∧ .pllOffset ∉ ks) :
    d.Stands ks (d.pllSwitch now k) := d.setPll_stands now k _ hks

theorem Dev.handOver_stands (d : Dev) (m q : Nat) (f : TxFrame) (resolved : Bool) : d.Stands ks (d.handOver m q f resolved) :=
  .ite _ ((Dev.Stands.refl d).later _) (.ite _ (((Dev.Stands.refl d).later _).later _) (.of_eq rfl rfl rfl rfl rfl))

theorem Dev.igmpAnswer_stands (d : Dev) (m group : Nat) : d.Stands ks (d.igmpAnswer m group) :=
  .foldl d _ _ fun b _ => .ite _ (.refl b) (b.handOver_stands m 0 _ true)

/-! ## DRAM (R373, R378) -/

/-- The objects that report the rooms and the DRAM. -/
def roomObjs : List Obj := [.panSliceUsedKib, .roomUsed, .dchStripesUsed, .dchMigLeft, .roomPool]

theorem Dev.setDch_stands (d : Dev) (c v : Nat) (hks : .dchState ∉ ks) : d.Stands ks (d.setDch c v) :=
  .ite _ (.refl d) (((Dev.Stands.refl d).put .dchState c v hks).later _)

theorem Dev.reportDram_stands (d : Dev) (hks : ∀ o ∈ ks, o ∉ roomObjs) : d.Stands ks d.reportDram :=
  have hout {o : Obj} (ho : o ∈ roomObjs) : o ∉ ks := fun h => hks o h ho
  .put (.foldl d _ _ fun b c => ((Dev.Stands.refl b).put .dchStripesUsed c _ (hout (by decide))).put .dchMigLeft c _
    (hout (by decide))) .roomPool 0 _ (hout (by decide))

theorem Dev.reportRooms_stands (d : Dev) (hks : ∀ o ∈ ks, o ∉ roomObjs) : d.Stands ks d.reportRooms := by
  have hout {o : Obj} (ho : o ∈ roomObjs) : o ∉ ks := fun h => hks o h ho
  unfold Dev.reportRooms
  refine .trans ?_ (Dev.reportDram_stands _ hks)
  exact (((Dev.Stands.refl d).put .panSliceUsedKib 0 _ (hout (by decide))).put .roomUsed 0 _ (hout (by decide))).trans
    (.of_eq rfl rfl rfl rfl rfl)

end

end Sys2Proof.Machine
end

section
/-!
Steps of start-up (R500 to R504): what ends them, and what a step that has ended leaves.
-/

namespace Sys2Proof.Machine

/-- The objects the start of a step changes. -/
def beginObjs : List Obj := [.krIslandState, .dramCapMib, .dchState]

/-- A step that starts is noted as begun. -/
def Dev.begun (e : Env) (d : Dev) (k : Nat) : Dev := { d with pwr := { d.pwr with began := d.pwr.began.put k e.now } }

/-- What a step that starts does. -/
def Dev.stepWork (e : Env) (d : Dev) (k : Nat) : Dev :=
  match k with
  | 2 => if d.kr.hold then d else d.startTest e.now
  | 5 =>
    if dramFits then
      (d.put .dramCapMib 0 (8 * Config.dramFitted 0)).forEach (List.range 8) fun d c => d.setDch c dchTraining
    else d.forEach (List.range 8) fun d c => (d.setDch c dchFailed).flag .dchEventFlags c 3
  | 8 => (List.range 24).foldl (fun (d : Dev) m => d.igmpAnswer m 0) d
  | _ => d

theorem Dev.beginStep_eq (e : Env) (d : Dev) (k : Nat) : d.beginStep e k = (d.begun e k).stepWork e k := rfl

theorem Dev.startTest_stands {ks : List Obj} (now : Nat) (d : Dev) (hks : .krIslandState ∉ ks) :
    d.Stands ks (d.startTest now) := by
  have htest : d.Stands ks { d with kr := { d.kr with test := some now } } := .of_eq rfl rfl rfl rfl rfl
  exact htest.put .krIslandState 0 1 hks

theorem Dev.stepWork_stands {ks : List Obj} (e : Env) (d : Dev) (k : Nat) (hks : ∀ o ∈ ks, o ∉ beginObjs) :
    d.Stands ks (d.stepWork e k) := by
  have hout {o : Obj} (ho : o ∈ beginObjs) : o ∉ ks := fun h => hks o h ho
  unfold Dev.stepWork
  split
  · exact .ite _ (.refl d) (d.startTest_stands e.now (hout (by decide)))
  · exact .ite _ (((Dev.Stands.refl d).put .dramCapMib 0 _ (hout (by decide))).trans
      (.foldl _ _ _ fun b c => b.setDch_stands c dchTraining (hout (by decide))))
      (.foldl _ _ _ fun b c => (b.setDch_stands c dchFailed (hout (by decide))).later _)
  · exact .foldl _ _ _ fun b m => b.igmpAnswer_stands m 0
  · exact .refl d

theorem Dev.beginStep_stands {ks : List Obj} (e : Env) (d : Dev) (k : Nat) (hks : ∀ o ∈ ks, o ∉ beginObjs) :
    (d.begun e k).Stands ks (d.beginStep e k) := (d.begun e k).stepWork_stands e k hks

/-- Step `k` ended at `now` and is the last to have. -/
def Dev.StepOver (k now x : Nat) (d : Dev) : Prop :=
  d.pwr.ended.find k = some now ∧ d.g .suStep = k ∧ d.g .suExpired = x

theorem Dev.StepOver.beginStep {k now x : Nat} {d : Dev} (h : d.StepOver k now x) (e : Env) (j : Nat) :
    (d.beginStep e j).StepOver k now x := by
  obtain ⟨hended, hstep, hexpired⟩ := h
  have hb := d.beginStep_stands (ks := [.suStep, .suExpired]) e j (by decide)
  refine ⟨?_, (hb.objs .suStep (by decide) 0).trans hstep, (hb.objs .suExpired (by decide) 0).trans hexpired⟩
  rw [hb.pwr]
  exact hended

theorem Dev.StepOver.begins {k now x : Nat} {d : Dev} (h : d.StepOver k now x) (e : Env) (js : List Nat) :
    (js.foldl (fun (d : Dev) j => d.beginStep e j) d).StepOver k now x :=
  List.foldlRecOn (motive := fun b : Dev => b.StepOver k now x) _ _ h fun _ hb j _ => hb.beginStep e j

/-- A step noted as ended. -/
theorem Dev.stepOver_put (now : Nat) (d : Dev) {k : Nat} (hk : k < 2 ^ 8) :
    (({ d with pwr := { d.pwr with ended := d.pwr.ended.put k now } } : Dev).put .suStep 0 k).StepOver k now (d.g .suExpired) := by
  refine ⟨?_, Dev.g_put_of_lt _ .suStep 0 k hk, Dev.g_put_of_ne _ _ _ _ (by decide)⟩
  show (d.pwr.ended.put k now).find k = some now
  exact Tab.find_put_same _ _ _

theorem stepNumbers_lt {k : Nat} (h : k ∈ stepNumbers) : k < 10 := by
  revert k
  decide

theorem Dev.endStep_full (e : Env) (d : Dev) {k : Nat} (hk : k < 2 ^ 8) :
    (d.endStep e k true).StepOver k e.now ((d.stepEffect e k true).g .suExpired) :=
  (Dev.stepOver_put e.now _ hk).begins e _

/-! ## A step that expires -/

theorem Dev.keyEvent_stands {ks : List Obj} (e : Env) (d : Dev) (bit : Nat) (w : Origin) (status detail : Nat)
    (hks : ∀ o ∈ ks, o ∉ closeObjs) : d.Stands ks (d.keyEvent e bit w status detail) :=
  ((d.ledger_records ..).stands hks).later _

theorem Dev.setRunning_stands {ks : List Obj} (d : Dev) (kind slot : Nat) (trial : Bool)
    (hks : .fwRunning ∉ ks ∧ .imgVerCore ∉ ks ∧ .imgVerIsland ∉ ks) : d.Stands ks (d.setRunning kind slot trial) := by
  refine ((Dev.Stands.refl d).put .fwRunning 0 _ hks.1).put _ 0 _ ?_
  split
  · exact hks.2.1
  · exact hks.2.2

/-- The objects the loading of the images and the root changes. -/
def loadObjs : List Obj := [.fwFallback, .fwRunning, .imgVerCore, .imgVerIsland, .krRootState] ++ closeObjs

theorem Dev.loadKind_stands {ks : List Obj} (e : Env) (d : Dev) (kind : Nat) (hks : ∀ o ∈ ks, o ∉ loadObjs) :
    d.Stands ks (d.loadKind e kind) := by
  have hout {o : Obj} (ho : o ∈ loadObjs) : o ∉ ks := fun h => hks o h ho
  have hclose : ∀ o ∈ ks, o ∉ closeObjs := fun o ho h => hks o ho (List.mem_append_right _ h)
  have hreject (b : Dev) (s : Nat) : b.Stands ks (if b.slotGood kind s then b
      else b.imageRejected e (if (b.pwr.images.getD (2 * kind + s) {}).ok then 0x0651 else 0x0650) kind) :=
    .ite _ (.refl b) (b.keyEvent_stands e 7 {} _ kind hclose)
  unfold Dev.loadKind
  cases d.startSlot kind with
  | none => exact (hreject d _).trans (hreject _ _)
  | some s =>
    refine .trans ((hreject d _).trans (.ite _ (.refl _) ((Dev.Stands.refl _).put .fwFallback 0 _ (hout (by decide)))))
      (Dev.setRunning_stands _ kind s false ⟨hout (by decide), hout (by decide), hout (by decide)⟩)

theorem Dev.rebuildRoot_g (d : Dev) {o : Obj} (ho : o ≠ .krRootState) : d.rebuildRoot.g o = d.g o := by
  have hput (b : Dev) (v : Nat) : (b.put .krRootState 0 v).g o = b.g o := b.g_put_of_ne _ _ _ ho
  unfold Dev.rebuildRoot
  split
  · exact hput d 0
  · split
    · exact hput d 1
    · exact (hput _ _).trans ((d.meetsPoison_boots [o] _ _).objs o List.mem_cons_self 0)

theorem Dev.dramReady_stands {ks : List Obj} (e : Env) (d : Dev) (hrooms : ∀ o ∈ ks, o ∉ roomObjs)
    (hseal : ∀ o ∈ ks, o ∉ Obj.lcState :: sealObjs) : d.Stands ks (d.dramReady e) := by
  unfold Dev.dramReady
  have hslots := Dev.Stands.foldl (ks := ks) d ((List.range 8).filter fun c => d.g .dchState c == dchFailed)
    (fun (b : Dev) c => ((List.range b.stripes).filter (b.onChannel c)).foldl (fun (x : Dev) s => x.setStripe s none) b)
    fun b c => .foldl _ _ _ fun x s => .of_eq rfl rfl rfl rfl rfl
  have hready := hslots.trans (Dev.reportRooms_stands _ hrooms)
  exact .ite _ (hready.trans (Dev.enterQuarantine_stands e _ 12 hseal)) hready

/-- What a step does whose time has passed. -/
theorem Dev.stepEffect_expired (e : Env) (d : Dev) (k : Nat) : (d.stepEffect e k false).g .suExpired = d.g .suExpired := by
  have hsealed (b : Dev) (cause : Nat) : (b.enterQuarantine e cause).g .suExpired = b.g .suExpired :=
    (b.enterQuarantine_stands (ks := [.suExpired]) e cause (by decide)).objs .suExpired (by decide) 0
  unfold Dev.stepEffect
  split
  · exact (hsealed _ 7).trans ((d.keepCounter_records ..).objs .suExpired (by decide) 0)
  · exact hsealed d 8
  · have hload : (if d.kr.hold = true then d else (d.rebuildRoot.loadKind e 1).loadKind e 0).g .suExpired = d.g .suExpired := by
      split
      · rfl
      · exact (((Dev.loadKind_stands (ks := [.suExpired]) e _ 1 (by decide)).trans
          (Dev.loadKind_stands e _ 0 (by decide))).objs .suExpired (by decide) 0).trans
          (d.rebuildRoot_g (o := .suExpired) (by decide))
    refine Eq.trans ?_ hload
    generalize (if d.kr.hold = true then d else (d.rebuildRoot.loadKind e 1).loadKind e 0) = x
    exact iteInduction (motive := fun b : Dev => b.g .suExpired = x.g .suExpired) (fun h => absurd h Bool.false_ne_true) fun _ =>
      iteInduction (motive := fun b : Dev => b.g .suExpired = x.g .suExpired) (fun _ => hsealed _ 10) fun _ => hsealed _ 9
  · exact (Dev.Stands.foldl (ks := [.suExpired]) d _ _ fun b j => b.pllSwitch_stands e.now j (by decide)).objs .suExpired
      (by decide) 0
  · exact ((Dev.Stands.foldl (ks := [.suExpired]) d _ _ fun b c => (b.setDch_stands c dchFailed (by decide)).later _).trans
      (Dev.dramReady_stands e _ (by decide) (by decide))).objs .suExpired (by decide) 0
  · exact iteInduction (motive := fun b : Dev => b.g .suExpired = d.g .suExpired) (fun _ => rfl) fun _ =>
      (d.ledger_records ..).objs .suExpired (by decide) 0
  · rfl

theorem Dev.endStep_expired (e : Env) (d : Dev) {k : Nat} (hk : k < 10) :
    ∃ x, (d.endStep e k false).StepOver k e.now x ∧ x.testBit (k - 1) = true := by
  refine ⟨_, (Dev.stepOver_put e.now _ (Nat.lt_trans hk (by decide))).begins e _, ?_⟩
  show ((d.put .suExpired 0 (d.g .suExpired ||| 2 ^ (k - 1))).stepEffect e k false).g .suExpired |>.testBit (k - 1)
  rw [Dev.stepEffect_expired, Dev.g_put_same]
  show ((d.g .suExpired ||| 2 ^ (k - 1)) % 2 ^ 16).testBit (k - 1) = true
  rw [Nat.testBit_mod_two_pow, Nat.testBit_or, Nat.testBit_two_pow_self, Bool.or_true, Bool.and_true, decide_eq_true_eq]
  omega

end Sys2Proof.Machine
end

section
/-!
Power states, SLEEP, and the watchdogs of the cores (R498, R507 to R510).
-/

namespace Sys2Proof.Machine

theorem exec_startupStepEnd (s : State) : exec .startupStepEnd s = s.at 9 fun e d => match d.stepEnding with
    | some k => d.endStep e k true
    | none => d := rfl

theorem exec_startupStepExpiry (s : State) : exec .startupStepExpiry s = s.at 9 fun e d => match d.stepExpiring e with
    | some k => d.endStep e k false
    | none => d := rfl

theorem startupStepEnds {s : State} (hs : s.Awake 9) (k : Nat) (hk : (s.enter 9).dev.stepEnding = some k) :
    ∃ t, exec .startupStepEnd s = .next t ∧ t.dev.pwr.ended.find k = some (s.enter 9).clk.elapsed ∧ t.dev.g .suStep = k ∧
      t.clk = (s.enter 9).clk := by
  rw [exec_startupStepEnd, State.at_awake _ _ _ hs]
  refine ⟨_, rfl, ?_⟩
  rw [State.run_pwr, State.run_g, State.run_clk]
  generalize s.enter 9 = u at hk ⊢
  rw [hk]
  have hnum := stepNumbers_lt (List.mem_of_find?_eq_some hk)
  obtain ⟨hended, hstep, -⟩ := Dev.endStep_full u.env u.dev (Nat.lt_trans hnum (by decide))
  exact ⟨hended, hstep, rfl⟩

theorem startupStepExpires {s : State} (hs : s.Awake 9) (k : Nat)
    (hk : (s.enter 9).dev.stepExpiring (s.enter 9).env = some k) :
    ∃ t, exec .startupStepExpiry s = .next t ∧ t.dev.pwr.ended.find k = some (s.enter 9).clk.elapsed ∧ t.dev.g .suStep = k ∧
      t.clk = (s.enter 9).clk ∧ (t.dev.g .suExpired).testBit (k - 1) = true := by
  rw [exec_startupStepExpiry, State.at_awake _ _ _ hs]
  refine ⟨_, rfl, ?_⟩
  rw [State.run_pwr, State.run_g, State.run_clk, State.run_g]
  generalize s.enter 9 = u at hk ⊢
  rw [hk]
  obtain ⟨x, ⟨hended, hstep, hexpired⟩, hbit⟩ := Dev.endStep_expired u.env u.dev
    (stepNumbers_lt (List.mem_of_find?_eq_some hk))
  exact ⟨hended, hstep, rfl, hexpired.symm ▸ hbit⟩

/-! ## SLEEP (R508, R540) -/

/-- The block with no key in a slot. -/
def Dev.keyless (d : Dev) : Dev := { d with io := { d.io with loads := [] }, kr := { d.kr with slots := [], comp := none } }

theorem Dev.zeroise_eq (e : Env) (d : Dev) : d.zeroise e =
    (d.keyedMacs.foldl (fun (d : Dev) m => d.flag .msEventFlags m 5)
      ((d.undoKeys fun _ => true).emptySas e.now fun _ => true).keyless).reportKeys := rfl

/-- Zeroisation empties the slots. -/
theorem Dev.zeroise_slots (e : Env) (d : Dev) : (d.zeroise e).kr.slots = [] := by
  rw [d.zeroise_eq]
  generalize (d.undoKeys fun _ => true).emptySas e.now (fun _ => true) = x
  exact List.foldlRecOn (motive := fun b : Dev => b.kr.slots = []) _ _ rfl fun _ hb _ _ => hb

theorem exec_sleepEntryDone (s : State) : exec .sleepEntryDone s = .next (s.enter 9).endEntry := rfl

theorem State.endEntry_waits {u : State} (h : u.dev.sleepReady = false) : u.endEntry = u :=
  if_neg (by rw [h]; exact Bool.false_ne_true)

theorem State.endEntry_sleeps {u : State} (hready : u.dev.sleepReady = true) (hheld : u.dev.pwr.wakeHeld = false) :
    u.endEntry = u.run fun e d => d.fallAsleep e := by
  unfold State.endEntry
  rw [if_pos hready, hheld]
  rfl

theorem State.endEntry_wakes {u : State} (hready : u.dev.sleepReady = true) (hheld : u.dev.pwr.wakeHeld = true) :
    u.endEntry = (u.run fun e d => d.fallAsleep e).wakeBy 1 := by
  unfold State.endEntry
  rw [if_pos hready, hheld]
  rfl

theorem Dev.fallAsleep_asleep (e : Env) (d : Dev) : (d.fallAsleep e).g .pwrState = 2 ∧ (d.fallAsleep e).kr.slots = [] ∧
    (d.fallAsleep e).pwr.sleeping = none ∧ (d.fallAsleep e).pwr.asleepAt = e.now := by
  refine ⟨?_, d.zeroise_slots e, rfl, rfl⟩
  show ((d.zeroise e).put .pwrState 0 2).g .pwrState = 2
  exact Dev.g_put_of_lt _ .pwrState 0 2 (by decide)

/-- A part that starts up does so whatever woke it. -/
theorem State.StartsUp.wakeSource {t : State} {cause : Nat} (h : t.StartsUp cause) (source : Nat) :
    (t.run fun _ d => d.put .pwrWakeSource 0 source).StartsUp cause := by
  obtain ⟨hcause, hready, hopen, hrings, htakes, hslots, harrs, hpwr, hbegan, haddend⟩ := h
  have hput (o : Obj) (i : Nat) (ho : o ≠ .pwrWakeSource) :
      (t.run fun _ d => d.put .pwrWakeSource 0 source).dev.g o i = t.dev.g o i := t.dev.g_put_of_ne 0 i source ho
  exact ⟨(hput .suCause 0 (by decide)).trans hcause, hready, hopen, hrings, htakes, hslots,
    fun a => (hput .arrState a (by decide)).trans (harrs a), (hput .pwrState 0 (by decide)).trans hpwr, hbegan, haddend⟩

theorem State.wakeBy_startsUp (s : State) (source : Nat) : (s.wakeBy source).StartsUp 6 :=
  (s.coldReset_startsUp (cause := causeWake) (by decide)).wakeSource source

theorem State.wakeBy_source (s : State) {source : Nat} (h : source < 2 ^ 8) : (s.wakeBy source).dev.g .pwrWakeSource = source := by
  unfold State.wakeBy
  rw [State.run_g]
  exact Dev.g_put_of_lt _ .pwrWakeSource 0 source h

/-! ## `pwr_cmd` (R507) -/

/-- The part leaves a state, falls asleep or resets. -/
def Dev.Leaving (d : Dev) : Prop := d.pwr.leaving ≠ [] ∨ d.pwr.sleeping ≠ none ∨ d.pwr.resetAt ≠ none

theorem Dev.leaving_iff (d : Dev) : d.Leaving ↔
    ((!d.pwr.leaving.isEmpty) = true ∨ d.pwr.sleeping.isSome = true ∨ d.pwr.resetAt.isSome = true) := by
  unfold Dev.Leaving
  rw [← Option.isSome_iff_ne_none, ← Option.isSome_iff_ne_none, Bool.not_eq_true', List.isEmpty_eq_false_iff]

theorem Dev.pwrCommand_refused (e : Env) (d : Dev) {v code : Nat} (h : d.pwrCode v = code) (hcode : code ≠ 0) :
    d.pwrCommand e v = d.answerCode code := by
  subst h
  exact if_pos hcode

theorem Dev.pwrCommand_leaving (e : Env) {d : Dev} (v : Nat) (h : d.Leaving) : d.pwrCommand e v = d.answerCode 0x0301 :=
  d.pwrCommand_refused e (if_pos (d.leaving_iff.1 h)) (by decide)

/-- Why a part that stays in its state refuses `pwr_cmd`. -/
theorem Dev.pwrCode_staying {d : Dev} (v : Nat) (h : ¬d.Leaving) : d.pwrCode v =
    if 4 < v then 0x0201
    else if v = 0 then (if d.stopped then 0 else 0x0302)
    else if v = 1 then (if d.g .pwrState = 0 then 0 else 0x0302)
    else if d.asleep then 0x0302 else 0 :=
  if_neg fun hl => h (d.leaving_iff.2 hl)

/-- The objects a return to OPERATE changes, but for `pwr_state`. -/
def resumeObjs : List Obj := [.laneState, .laneCause, .ethLink] ++ trackerObjs

/-- Steps 6, 8 and 9 are to run again. -/
def Dev.resteps (e : Env) (d : Dev) : Dev :=
  { d with pwr := { d.pwr with resuming := true
                               began := ((d.pwr.began.del 8).del 9).put 6 e.now
                               ended := ((d.pwr.ended.del 6).del 8).del 9 } }

theorem Dev.resume_stands (e : Env) (d : Dev) : ((d.resteps e).put .pwrState 0 0).Stands [.pwrState] (d.resume e) :=
  (Dev.trackersFollow_stands e.now _ (by decide)).trans (.foldl _ _ _ fun b i => b.settleLane_stands e.now i 1 (by decide))

theorem Dev.pwrOperate_accepted (e : Env) {d : Dev} (h : d.pwrCode 0 = 0) : (d.pwrCommand e 0).g .pwrState = 0 ∧
    (d.pwrCommand e 0).pwr.resuming = true ∧ (d.pwrCommand e 0).answer.code = 0 ∧
    (d.pwrCommand e 0).pwr.began.find 6 = some e.now := by
  have hcmd : d.pwrCommand e 0 = (d.answerCode 0).resume e := if_neg (fun hne => hne h)
  rw [hcmd]
  obtain ⟨hobjs, -, hpwr, hanswer, -⟩ := (d.answerCode 0).resume_stands e
  rw [hpwr, hanswer]
  exact ⟨(hobjs .pwrState (by decide) 0).trans (Dev.g_put_of_lt _ .pwrState 0 0 (by decide)), rfl, rfl,
    Tab.find_put_same _ _ _⟩

theorem Dev.leaveAll_stands (d : Dev) : d.leaveAll.pwr = { d.pwr with leaving := List.range 32 } ∧
    d.leaveAll.answer = d.answer ∧ d.leaveAll.g .pwrState = d.g .pwrState := by
  obtain ⟨hobjs, -, hpwr, hanswer, -⟩ := d.stopSlots_stands (ks := [.pwrState]) (by decide)
  unfold Dev.leaveAll
  generalize d.stopSlots = x at hobjs hpwr hanswer ⊢
  refine ⟨?_, hanswer, hobjs .pwrState (by decide) 0⟩
  show { x.pwr with leaving := List.range 32 } = _
  rw [hpwr]

theorem Dev.pwrStandby_accepted (e : Env) {d : Dev} (h : d.pwrCode 1 = 0) :
    (d.pwrCommand e 1).pwr.leaving = List.range 32 ∧ (d.pwrCommand e 1).answer.code = 0 ∧
    (d.pwrCommand e 1).g .pwrState = d.g .pwrState := by
  have hcmd : d.pwrCommand e 1 = (d.answerCode 0).leaveAll := if_neg (fun hne => hne h)
  rw [hcmd]
  obtain ⟨hpwr, hanswer, hstate⟩ := (d.answerCode 0).leaveAll_stands
  rw [hpwr, hanswer, hstate]
  exact ⟨rfl, rfl, rfl⟩

/-- Sleep entry has begun. -/
def Dev.sleepBegun (e : Env) (d : Dev) : Dev := { d with pwr := { d.pwr with sleeping := some e.now } }

theorem Dev.pwrSleep_accepted (e : Env) {d : Dev} (h : d.pwrCode 2 = 0) :
    d.pwrCommand e 2 = if d.stopped then (d.answerCode 0).sleepBegun e else ((d.answerCode 0).sleepBegun e).leaveAll :=
  if_neg (fun hne => hne h)

theorem Dev.pwrSleep_leaves (e : Env) {d : Dev} (h : d.pwrCode 2 = 0) (hleaving : d.pwr.leaving = []) :
    (d.pwrCommand e 2).pwr.sleeping = some e.now ∧ (d.pwrCommand e 2).answer.code = 0 ∧
    (d.g .pwrState = 0 → (d.pwrCommand e 2).pwr.leaving = List.range 32) ∧
    (d.g .pwrState = 1 → (d.pwrCommand e 2).pwr.leaving = []) := by
  rw [Dev.pwrSleep_accepted e h]
  obtain ⟨hpwr, hanswer, -⟩ := ((d.answerCode 0).sleepBegun e).leaveAll_stands
  unfold Dev.stopped
  by_cases hstate : d.g .pwrState = 1
  · rw [hstate]
    exact ⟨rfl, rfl, fun h => absurd h (by decide), fun _ => hleaving⟩
  · rw [if_neg (by rw [beq_iff_eq]; exact hstate), hpwr, hanswer]
    exact ⟨rfl, rfl, fun _ => rfl, fun h => absurd h hstate⟩

/-! ## Watchdogs (R498) -/

theorem Dev.putCore_core (d : Dev) (t k : Nat) (x : CoreTarget) :
    (d.putCore t x).core k = if t = k then x else d.core k := by
  show (d.ink.cores.put t x).getD k {} = _
  split
  case isTrue h => rw [h]; exact Tab.getD_put_same _ _ _ _
  case isFalse h => exact Tab.getD_put_other _ _ _ _ _ (Ne.symm h)

theorem Dev.emptyStack_core (d : Dev) (t k : Nat) : (d.emptyStack t).core k = if t = k then {} else d.core k := by
  unfold Dev.emptyStack
  rw [Dev.putCore_core]
  have hfold : (((d.core t).stack).foldl (fun (d : Dev) x => d.putSrc x.1 {}) d).core k = d.core k :=
    List.foldlRecOn (motive := fun b : Dev => b.core k = d.core k) _ _ rfl fun _ hb _ _ => hb
  rw [hfold]

/-- A reset of the cores empties their stacks. -/
theorem Dev.emptyStacks_stack (d : Dev) {n : Nat} (hn : n < 4) : (d.emptyStacks.core n).stack = [] := by
  have hrange : List.range 4 = [0, 1, 2, 3] := by decide
  unfold Dev.emptyStacks Dev.forEach
  rw [hrange, List.foldl_cons, List.foldl_cons, List.foldl_cons, List.foldl_cons, List.foldl_nil, Dev.emptyStack_core, Dev.emptyStack_core, Dev.emptyStack_core, Dev.emptyStack_core]
  have hcases : n = 0 ∨ n = 1 ∨ n = 2 ∨ n = 3 := by omega
  rcases hcases with rfl | rfl | rfl | rfl <;> rfl

theorem Dev.emptyStack_pwr (d : Dev) (t : Nat) : (d.emptyStack t).pwr = d.pwr :=
  Dev.foldl_pwr d _ _ fun _ _ => rfl

theorem Dev.emptyStacks_pwr (d : Dev) : d.emptyStacks.pwr = d.pwr := Dev.foldl_pwr d _ _ fun b t => b.emptyStack_pwr t

theorem Dev.masterReset_stands {ks : List Obj} (d : Dev) (m : Nat) : d.Stands ks (d.masterReset m) := by
  unfold Dev.masterReset
  have hcounted : d.Stands ks ((d.count .bmResets).flag .bmEventFlags 0 1) := ((Dev.Stands.refl d).later _).later _
  generalize (d.count .bmResets).flag .bmEventFlags 0 1 = x at hcounted ⊢
  dsimp only
  split
  · exact hcounted
  · exact hcounted.trans (.of_eq rfl rfl rfl rfl rfl)

theorem Dev.count_mem_late (d : Dev) (o : Obj) : Late.add o 0 1 ∈ (d.count o).late :=
  List.mem_append_right _ List.mem_cons_self

/-- The cores' new firmware is due. -/
def Dev.coresBoot (now : Nat) (d : Dev) : Dev := { d with pwr := { d.pwr with coresAt := now + bootTicks, kicks := [] } }

theorem Dev.restartCores_eq (now : Nat) (d : Dev) (slot : Nat) (trial : Bool) : d.restartCores now slot trial =
    (((d.emptyStacks.masterReset 80).count .coreRestarts).setRunning 0 slot trial).coresBoot now := by
  unfold Dev.restartCores Dev.coresBoot
  rfl

/-- What a restart changes besides the time it ends at. -/
theorem Dev.restart_stands (d : Dev) (slot : Nat) (trial : Bool) :
    d.emptyStacks.Stands [] (((d.emptyStacks.masterReset 80).count .coreRestarts).setRunning 0 slot trial) :=
  ((d.emptyStacks.masterReset_stands 80).later _).trans (Dev.setRunning_stands _ 0 slot trial (by decide))

/-- A restart of the cores at `now`. -/
theorem Dev.restartCores_effects (now : Nat) (d : Dev) (slot : Nat) (trial : Bool) :
    Late.add .coreRestarts 0 1 ∈ (d.restartCores now slot trial).late ∧
    (d.restartCores now slot trial).pwr = { d.pwr with coresAt := now + bootTicks, kicks := [] } ∧
    (∀ n, n < 4 → ((d.restartCores now slot trial).core n).stack = []) := by
  have hrestart := d.restart_stands slot trial
  have hlate := (Dev.setRunning_stands (ks := []) _ 0 slot trial (by decide)).late _
    ((d.emptyStacks.masterReset 80).count_mem_late .coreRestarts)
  have hpwr := hrestart.pwr.trans d.emptyStacks_pwr
  have hink := hrestart.ink
  rw [d.restartCores_eq]
  generalize ((d.emptyStacks.masterReset 80).count .coreRestarts).setRunning 0 slot trial = x at hlate hpwr hink ⊢
  refine ⟨hlate, ?_, fun n hn => ?_⟩
  · rw [← hpwr]
    rfl
  · have hcore : (x.coresBoot now).core n = d.emptyStacks.core n := congrArg (fun u : Ink => u.cores.getD n {}) hink
    rw [hcore]
    exact d.emptyStacks_stack hn

/-- The restarts by a watchdog within the last 600 s. -/
def Dev.recentDogs (now : Nat) (d : Dev) : List Nat := d.pwr.dogs.filter fun b => decide (now < b + 2400000000)

/-- The cores stay in reset. -/
def Dev.coresStop (d : Dev) : Dev := { d with pwr := { d.pwr with coresHeld := true } }

/-- The block with a watchdog's bite noted. -/
def Dev.dogNoted (now : Nat) (d : Dev) : Dev := { d with pwr := { d.pwr with dogs := now :: d.recentDogs now } }

theorem Dev.dogBites_eq (e : Env) (d : Dev) : d.dogBites e =
    if 3 ≤ (e.now :: d.recentDogs e.now).length then ((d.dogNoted e.now).rebootCores e.now).coresStop.enterQuarantine e 11
    else (d.dogNoted e.now).rebootCores e.now := by
  have hrecent : (d.pwr.dogs.filter fun t => e.now < t + 600 * 4000000) = d.recentDogs e.now := rfl
  unfold Dev.dogBites
  rw [hrecent]
  dsimp only [Dev.dogNoted, Dev.coresStop]

/-- What stands after a watchdog's restart, but for the third's hold. -/
theorem Dev.dogRestarts_effects (now : Nat) (d : Dev) :
    Late.add .coreRestarts 0 1 ∈ ((d.dogNoted now).rebootCores now).late ∧
    ((d.dogNoted now).rebootCores now).pwr.coresAt = now + 600000 ∧ ((d.dogNoted now).rebootCores now).pwr.kicks = [] ∧
    ((d.dogNoted now).rebootCores now).pwr.dogs = now :: d.recentDogs now ∧
    (∀ n, n < 4 → (((d.dogNoted now).rebootCores now).core n).stack = []) := by
  obtain ⟨hlate, hpwr, hstack⟩ := (d.dogNoted now).restartCores_effects now ((d.dogNoted now).bootSlot 0) false
  unfold Dev.rebootCores
  rw [hpwr]
  exact ⟨hlate, rfl, rfl, rfl, hstack⟩

theorem Dev.dogBites_effects (e : Env) (d : Dev) :
    Late.add .coreRestarts 0 1 ∈ (d.dogBites e).late ∧ (d.dogBites e).pwr.coresAt = e.now + 600000 ∧
    (d.dogBites e).pwr.kicks = [] ∧ (d.dogBites e).pwr.dogs = e.now :: d.recentDogs e.now ∧
    (∀ n, n < 4 → ((d.dogBites e).core n).stack = []) ∧
    (2 ≤ (d.recentDogs e.now).length →
      (d.dogBites e).pwr.coresHeld = true ∧ ((d.dogBites e).g .lcState).testBit 7 = true) := by
  obtain ⟨hlate, hat, hkicks, hdogs, hstack⟩ := d.dogRestarts_effects e.now
  rw [d.dogBites_eq]
  generalize (d.dogNoted e.now).rebootCores e.now = x at hlate hat hkicks hdogs hstack ⊢
  by_cases hthird : 3 ≤ (e.now :: d.recentDogs e.now).length
  · rw [if_pos hthird]
    obtain ⟨-, hmono, hpwr, -, hink⟩ := x.coresStop.enterQuarantine_stands (ks := []) e 11 (by decide)
    have hseal := x.coresStop.enterQuarantine_quarantine e 11
    rw [hpwr]
    refine ⟨hmono _ hlate, hat, hkicks, hdogs, fun n hn => ?_, fun _ => ⟨rfl, hseal⟩⟩
    unfold Dev.core
    rw [hink]
    exact hstack n hn
  · rw [if_neg hthird]
    exact ⟨hlate, hat, hkicks, hdogs, hstack, fun h => absurd (Nat.succ_le_succ h) hthird⟩

theorem Dev.dogDue_iff (now : Nat) (d : Dev) (k : Nat) : d.dogDue now k = true ↔
    k < 4 ∧ d.coresRun now = true ∧ max (d.pwr.kicks.getD k 0) d.pwr.coresAt + d.g .wdtMs * 4000 ≤ now := by
  unfold Dev.dogDue
  rw [Bool.and_eq_true, Bool.and_eq_true, decide_eq_true_eq, decide_eq_true_eq, and_assoc]

end Sys2Proof.Machine
end

section
/-!
Start-up steps, power states and the cores' watchdogs as commands (R498, R500, R507).
-/

namespace Sys2Proof.Machine

theorem exec_pwrOperate (s : State) : exec .pwrOperate s = s.at 7 fun e d => d.pwrCommand e 0 := rfl
theorem exec_pwrStandby (s : State) : exec .pwrStandby s = s.at 7 fun e d => d.pwrCommand e 1 := rfl
theorem exec_pwrSleep (s : State) : exec .pwrSleep s = s.at 7 fun e d => d.pwrCommand e 2 := rfl
theorem exec_coreRestart (s : State) : exec .coreRestart s = s.at 7 fun e d => d.pwrCommand e 4 := rfl
theorem exec_wdtKick (k v : Nat) (s : State) : exec (.wdtKick k v) s = s.at 7 fun e d => d.kick e.now k v := rfl
theorem exec_watchdogExpiry (k : Nat) (s : State) :
    exec (.watchdogExpiry k) s = s.at 3 fun e d => d.when (d.dogDue e.now k) fun d => d.dogBites e := rfl

/-! ## `pwr_cmd` -/

theorem pwrCommand_refuses {s : State} {c : Instr} {v code : Nat} (hs : s.Awake 7)
    (hc : exec c s = s.at 7 fun e d => d.pwrCommand e v) (h : (s.enter 7).dev.pwrCode v = code) (hcode : code ≠ 0) :
    exec c s = .next ((s.enter 7).become ((s.enter 7).dev.answerCode code)) := by
  have hcmd := (s.enter 7).dev.pwrCommand_refused (s.enter 7).env h hcode
  exact hc.trans (s.at_become 7 _ _ hs hcmd (s.enter_posts 7))

theorem pwrCommand_busy {s : State} (hs : s.Awake 7) (hbusy : (s.enter 7).dev.Leaving) (c : Instr)
    (hc : c ∈ [Instr.pwrOperate, .pwrStandby, .pwrSleep, .coreRestart]) :
    exec c s = .next ((s.enter 7).become ((s.enter 7).dev.answerCode 0x0301)) := by
  have hcode (v : Nat) : (s.enter 7).dev.pwrCode v = 0x0301 := if_pos ((Dev.leaving_iff _).1 hbusy)
  rcases List.mem_cons.1 hc with rfl | hc
  · exact pwrCommand_refuses hs (exec_pwrOperate s) (hcode 0) (by decide)
  rcases List.mem_cons.1 hc with rfl | hc
  · exact pwrCommand_refuses hs (exec_pwrStandby s) (hcode 1) (by decide)
  rcases List.mem_cons.1 hc with rfl | hc
  · exact pwrCommand_refuses hs (exec_pwrSleep s) (hcode 2) (by decide)
  · rw [List.mem_singleton.1 hc]
    exact pwrCommand_refuses hs (exec_coreRestart s) (hcode 4) (by decide)

/-- PWR_OPERATE of a part that stays in its state. -/
theorem pwrOperate_staying {s : State} (hs : s.Awake 7) (hstay : ¬(s.enter 7).dev.Leaving) :
    ((s.enter 7).dev.g .pwrState ≠ 1 →
      exec .pwrOperate s = .next ((s.enter 7).become ((s.enter 7).dev.answerCode 0x0302))) ∧
    ((s.enter 7).dev.g .pwrState = 1 → ∃ t, exec .pwrOperate s = .next t ∧ t.dev.g .pwrState = 0 ∧
      t.dev.pwr.resuming = true ∧ t.dev.answer.code = 0 ∧ t.dev.pwr.began.find 6 = some (s.enter 7).clk.elapsed) := by
  have hcode : (s.enter 7).dev.pwrCode 0 = if (s.enter 7).dev.stopped = true then 0 else 0x0302 := Dev.pwrCode_staying 0 hstay
  unfold Dev.stopped at hcode
  constructor
  · intro hstate
    rw [if_neg fun h => hstate (beq_iff_eq.1 h)] at hcode
    exact pwrCommand_refuses hs (exec_pwrOperate s) hcode (by decide)
  · intro hstate
    rw [if_pos (beq_iff_eq.2 hstate)] at hcode
    refine ⟨_, (exec_pwrOperate s).trans (State.at_awake _ _ _ hs), ?_⟩
    exact Dev.pwrOperate_accepted (s.enter 7).env hcode

/-- PWR_STANDBY of a part that stays in its state. -/
theorem pwrStandby_staying {s : State} (hs : s.Awake 7) (hstay : ¬(s.enter 7).dev.Leaving) :
    ((s.enter 7).dev.g .pwrState ≠ 0 →
      exec .pwrStandby s = .next ((s.enter 7).become ((s.enter 7).dev.answerCode 0x0302))) ∧
    ((s.enter 7).dev.g .pwrState = 0 → ∃ t, exec .pwrStandby s = .next t ∧ t.dev.pwr.leaving = List.range 32 ∧
      t.dev.answer.code = 0 ∧ t.dev.g .pwrState = 0) := by
  have hcode : (s.enter 7).dev.pwrCode 1 = if (s.enter 7).dev.g .pwrState = 0 then 0 else 0x0302 :=
    Dev.pwrCode_staying 1 hstay
  constructor
  · intro hstate
    rw [if_neg hstate] at hcode
    exact pwrCommand_refuses hs (exec_pwrStandby s) hcode (by decide)
  · intro hstate
    rw [if_pos hstate] at hcode
    refine ⟨_, (exec_pwrStandby s).trans (State.at_awake _ _ _ hs), ?_⟩
    obtain ⟨hleaving, hanswer, hkept⟩ := Dev.pwrStandby_accepted (s.enter 7).env hcode
    exact ⟨hleaving, hanswer, hkept.trans hstate⟩

theorem Dev.Leaving.nil {d : Dev} (h : ¬d.Leaving) : d.pwr.leaving = [] := Decidable.of_not_not fun hne => h (.inl hne)

/-- PWR_SLEEP of a part that stays in its state. -/
theorem pwrSleep_staying {s : State} (hs : s.Awake 7) (hstay : ¬(s.enter 7).dev.Leaving) :
    ∃ t, exec .pwrSleep s = .next t ∧ t.dev.pwr.sleeping = some (s.enter 7).clk.elapsed ∧ t.dev.answer.code = 0 ∧
      ((s.enter 7).dev.g .pwrState = 0 → t.dev.pwr.leaving = List.range 32) ∧
      ((s.enter 7).dev.g .pwrState = 1 → t.dev.pwr.leaving = []) := by
  have hcode : (s.enter 7).dev.pwrCode 2 = if (s.enter 7).dev.asleep = true then 0x0302 else 0 := Dev.pwrCode_staying 2 hstay
  rw [if_neg (Bool.eq_false_iff.1 hs)] at hcode
  refine ⟨_, (exec_pwrSleep s).trans (State.at_awake _ _ _ hs), ?_⟩
  exact Dev.pwrSleep_leaves (s.enter 7).env hcode (Dev.Leaving.nil hstay)

/-- CORE_RESTART of a part that stays in its state. -/
theorem coreRestart_staying {s : State} (hs : s.Awake 7) (hstay : ¬(s.enter 7).dev.Leaving) :
    exec .coreRestart s = .next ((s.enter 7).become
      (({ (s.enter 7).dev with pwr := { (s.enter 7).dev.pwr with rebootAt := some ((s.enter 7).clk.elapsed + 1) } }).answerCode 0)) := by
  have hcode : (s.enter 7).dev.pwrCode 4 = if (s.enter 7).dev.asleep = true then 0x0302 else 0 := Dev.pwrCode_staying 4 hstay
  rw [if_neg (Bool.eq_false_iff.1 hs)] at hcode
  refine (exec_coreRestart s).trans (s.at_become 7 _ _ hs ?_ (s.enter_posts 7))
  exact if_neg fun hne => hne hcode

theorem wdtKick_kicks {s : State} (hs : s.Awake 7) (k v : Nat) : exec (.wdtKick k v) s = .next
    (if v = 0xA5 ∧ (s.enter 7).dev.coresRun (s.enter 7).clk.elapsed = true then
      (s.enter 7).become { (s.enter 7).dev with
        pwr := { (s.enter 7).dev.pwr with kicks := (s.enter 7).dev.pwr.kicks.put k (s.enter 7).clk.elapsed } }
    else s.enter 7) := by
  rw [exec_wdtKick]
  split
  case isTrue h => exact s.at_become 7 _ _ hs (if_pos h) (s.enter_posts 7)
  case isFalse h => exact s.at_id 7 _ hs (if_neg h)

/-! ## Watchdogs -/

theorem watchdog_expires {s : State} (hs : s.Awake 3) (k : Nat) :
    let u := s.enter 3
    let d := u.dev
    let now := u.clk.elapsed
    let due := k < 4 ∧ d.coresRun now = true ∧ max (d.pwr.kicks.getD k 0) d.pwr.coresAt + d.g .wdtMs * 4000 ≤ now
    (¬due → exec (.watchdogExpiry k) s = .next u) ∧
    (due → ∃ t, exec (.watchdogExpiry k) s = .next t ∧ Late.add .coreRestarts 0 1 ∈ t.dev.late ∧
      t.dev.pwr.coresAt = now + 600000 ∧ t.dev.pwr.kicks = [] ∧ t.dev.pwr.dogs = now :: d.recentDogs now ∧
      (∀ n, n < 4 → (t.dev.core n).stack = []) ∧
      (2 ≤ (d.recentDogs now).length → t.dev.pwr.coresHeld = true ∧ (t.dev.g .lcState).testBit 7 = true)) := by
  intro u d now due
  have hdue := d.dogDue_iff now k
  rw [exec_watchdogExpiry]
  constructor
  · intro h
    exact s.at_id 3 _ hs (Dev.when_of_false _ _ (Bool.eq_false_iff.2 fun ht => h (hdue.1 ht)))
  · intro h
    refine ⟨_, State.at_awake _ _ _ hs, ?_⟩
    rw [State.run_late, State.run_pwr, State.run_g]
    have hbites : d.when (d.dogDue now k) (fun d => d.dogBites u.env) = d.dogBites u.env := Dev.when_of_true _ _ (hdue.2 h)
    have hcore (n : Nat) : ((s.enter 3).run fun e d => d.when (d.dogDue e.now k) fun d => d.dogBites e).dev.core n =
        (d.when (d.dogDue now k) fun d => d.dogBites u.env).core n := rfl
    simp only [hcore]
    have heffects := d.dogBites_effects u.env
    rw [← hbites] at heffects
    exact heffects

theorem pwrCommands_and_kicks {s : State} (hs : s.Awake 7) :
    let u := s.enter 7
    let d := u.dev
    let now := u.clk.elapsed
    (∀ c : Instr, c ∈ [.pwrOperate, .pwrStandby, .pwrSleep, .coreRestart] → d.Leaving →
      exec c s = .next (u.become (d.answerCode 0x0301))) ∧
    (¬d.Leaving →
      (d.g .pwrState ≠ 1 → exec .pwrOperate s = .next (u.become (d.answerCode 0x0302))) ∧
      (d.g .pwrState = 1 → ∃ t, exec .pwrOperate s = .next t ∧ t.dev.g .pwrState = 0 ∧ t.dev.pwr.resuming = true ∧
        t.dev.answer.code = 0 ∧ t.dev.pwr.began.find 6 = some now) ∧
      (d.g .pwrState ≠ 0 → exec .pwrStandby s = .next (u.become (d.answerCode 0x0302))) ∧
      (d.g .pwrState = 0 → ∃ t, exec .pwrStandby s = .next t ∧ t.dev.pwr.leaving = List.range 32 ∧
        t.dev.answer.code = 0 ∧ t.dev.g .pwrState = 0) ∧
      (∃ t, exec .pwrSleep s = .next t ∧ t.dev.pwr.sleeping = some now ∧ t.dev.answer.code = 0 ∧
        (d.g .pwrState = 0 → t.dev.pwr.leaving = List.range 32) ∧ (d.g .pwrState = 1 → t.dev.pwr.leaving = [])) ∧
      exec .coreRestart s = .next (u.become
        (({ d with pwr := { d.pwr with rebootAt := some (now + 1) } }).answerCode 0))) ∧
    (∀ k v : Nat, exec (.wdtKick k v) s = .next (if v = 0xA5 ∧ d.coresRun now = true then
        u.become { d with pwr := { d.pwr with kicks := d.pwr.kicks.put k now } } else u)) :=
  ⟨fun c hc hbusy => pwrCommand_busy hs hbusy c hc,
    fun hstay => ⟨(pwrOperate_staying hs hstay).1, (pwrOperate_staying hs hstay).2, (pwrStandby_staying hs hstay).1,
      (pwrStandby_staying hs hstay).2, pwrSleep_staying hs hstay, coreRestart_staying hs hstay⟩,
    wdtKick_kicks hs⟩

/-! ## Start-up and SLEEP -/

theorem steps_end_and_sleep {s : State} (hs : s.Awake 9) :
    let u := s.enter 9
    let d := u.dev
    let now := u.clk.elapsed
    (d.stepEnding = none → exec .startupStepEnd s = .next u) ∧
    (∀ k, d.stepEnding = some k → ∃ t, exec .startupStepEnd s = .next t ∧ t.dev.pwr.ended.find k = some now ∧
      t.dev.g .suStep = k ∧ t.clk = u.clk) ∧
    (d.stepExpiring u.env = none → exec .startupStepExpiry s = .next u) ∧
    (∀ k, d.stepExpiring u.env = some k → ∃ t, exec .startupStepExpiry s = .next t ∧
      t.dev.pwr.ended.find k = some now ∧ t.dev.g .suStep = k ∧ t.clk = u.clk ∧
      (t.dev.g .suExpired).testBit (k - 1) = true) ∧
    (d.sleepReady = false → exec .sleepEntryDone s = .next u) ∧
    (d.sleepReady = true → d.pwr.wakeHeld = false → ∃ t, exec .sleepEntryDone s = .next t ∧ t.dev.g .pwrState = 2 ∧
      t.dev.kr.slots = [] ∧ t.dev.pwr.sleeping = none ∧ t.dev.pwr.asleepAt = now) ∧
    (d.sleepReady = true → d.pwr.wakeHeld = true → ∃ t, exec .sleepEntryDone s = .next t ∧ t.StartsUp 6 ∧
      t.dev.g .pwrWakeSource = 1) := by
  intro u d now
  refine ⟨fun h => ?_, startupStepEnds hs, fun h => ?_, startupStepExpires hs, fun h => ?_, fun hready hheld => ?_,
    fun hready hheld => ?_⟩
  · rw [exec_startupStepEnd]
    refine s.at_id 9 _ hs ?_
    rw [h]
  · rw [exec_startupStepExpiry]
    refine s.at_id 9 _ hs ?_
    rw [h]
  · rw [exec_sleepEntryDone, State.endEntry_waits h]
  · refine ⟨_, (exec_sleepEntryDone s).trans (congrArg Host.Outcome.next (State.endEntry_sleeps hready hheld)), ?_⟩
    exact d.fallAsleep_asleep u.env
  · exact ⟨_, (exec_sleepEntryDone s).trans (congrArg Host.Outcome.next (State.endEntry_wakes hready hheld)),
      State.wakeBy_startsUp _ 1, State.wakeBy_source _ (by decide)⟩

/-- Settles O57: what a step that ends notes stands while the next ones begin, and an expiry's bit is none of those its
work writes; a restart of the cores keeps what the watchdog noted, and so does QUARANTINE. -/
theorem startUpPowerStatesAndCores : Obligations.StartUpPowerStatesAndCores :=
  fun _ => ⟨fun hs => steps_end_and_sleep hs, fun hs => pwrCommands_and_kicks hs, fun hs k => watchdog_expires hs k⟩

end Sys2Proof.Machine
end

section
/-!
What a Keyring command leaves of a session's template, of the keys and of the rest of the block (R458).
-/

namespace Sys2Proof.Machine

/-! ## Templates -/

theorem Dev.session_of_isOpen {d : Dev} {k : Nat} (h : d.isOpen k = true) : ∃ x, d.session k = some x :=
  Option.isSome_iff_exists.1 h

theorem Dev.updTpl_tpl {d : Dev} {k : Nat} (h : d.isOpen k = true) (f : KeyTpl → KeyTpl) :
    (d.updTpl k f).tpl k = f (d.tpl k) := by
  obtain ⟨x, hx⟩ := Dev.session_of_isOpen h
  have hnew := d.updSession_session k k fun x => { x with tpl := f x.tpl }
  rw [if_pos rfl, hx] at hnew
  unfold Dev.tpl Dev.updTpl
  rw [hnew, hx]
  rfl

theorem Dev.updTpl_same (d : Dev) (k : Nat) (f : KeyTpl → KeyTpl) :
    d.updTpl k f = { d with ses := { d.ses with opened := (d.updTpl k f).ses.opened } } := d.updSession_same k _

theorem Dev.updTpl_isOpen (d : Dev) (k n : Nat) (f : KeyTpl → KeyTpl) : (d.updTpl k f).isOpen n = d.isOpen n := by
  unfold Dev.isOpen Dev.updTpl
  rw [Dev.updSession_session]
  split
  next h => rw [h, Option.isSome_map]
  next => rfl

theorem Dev.tpl_of_ses {a b : Dev} (h : b.ses = a.ses) (k : Nat) : b.tpl k = a.tpl k := by
  unfold Dev.tpl Dev.session
  rw [h]

theorem Dev.isOpen_of_ses {a b : Dev} (h : b.ses = a.ses) (k : Nat) : b.isOpen k = a.isOpen k := by
  unfold Dev.isOpen Dev.session
  rw [h]

theorem Dev.Records.ses {a b : Dev} (h : a.Records b) : b.ses = a.ses := (congrArg Dev.ses h.same :)

theorem Dev.Records.kr {a b : Dev} (h : a.Records b) : b.kr = a.kr := (congrArg Dev.kr h.same :)

/-! ## Effects that answer -/

/-- From `d` to `d'` the Ledger may have grown, and templates of sessions and the answer have changed, but nothing of the
keys. -/
structure Dev.Tells (d d' : Dev) : Prop where
  late : ∀ l ∈ d.late, l ∈ d'.late
  opens : ∀ n, d'.isOpen n = d.isOpen n
  objs : ∀ o, o ∉ recordObjs → ∀ i, d'.g o i = d.g o i
  same : d' = { d with objs := d'.objs, late := d'.late, nv := d'.nv, ses := d'.ses, answer := d'.answer }

section
variable {a b c : Dev}

theorem Dev.Tells.refl (d : Dev) : d.Tells d := ⟨fun _ h => h, fun _ => rfl, fun _ _ _ => rfl, rfl⟩

theorem Dev.Tells.trans (h : a.Tells b) (k : b.Tells c) : a.Tells c :=
  ⟨fun l hl => k.late l (h.late l hl), fun n => (k.opens n).trans (h.opens n),
    fun o ho i => (k.objs o ho i).trans (h.objs o ho i), k.same.trans (congrArg (fun x : Dev => { x with
      objs := c.objs, late := c.late, nv := c.nv, ses := c.ses, answer := c.answer }) h.same)⟩

theorem Dev.Records.tells (h : a.Records b) : a.Tells b :=
  ⟨h.late, fun n => Dev.isOpen_of_ses h.ses n, h.objs, h.same.trans (by rw [h.same])⟩

theorem Dev.Tells.updTpl (h : a.Tells b) (k : Nat) (f : KeyTpl → KeyTpl) : a.Tells (b.updTpl k f) :=
  h.trans ⟨fun l hl => (congrArg Dev.late (b.updTpl_same k f) :) ▸ hl, fun n => b.updTpl_isOpen k n f,
    fun o _ i => congrArg (fun t : Tab Nat => t.getD (o.key i) (o.default i)) (congrArg Dev.objs (b.updTpl_same k f) :),
    (b.updTpl_same k f).trans (by rw [b.updTpl_same k f])⟩

theorem Dev.Tells.answerCode (h : a.Tells b) (code : Nat) : a.Tells (b.answerCode code) :=
  h.trans ⟨fun _ hl => hl, fun _ => rfl, fun _ _ _ => rfl, rfl⟩

theorem Dev.Tells.later (h : a.Tells b) (l : Late) : a.Tells (b.later l) :=
  h.trans ⟨fun _ hl => List.mem_append_left _ hl, fun _ => rfl, fun _ _ _ => rfl, rfl⟩

theorem Dev.Tells.kr (h : a.Tells b) : b.kr = a.kr := (congrArg Dev.kr h.same :)
theorem Dev.Tells.io (h : a.Tells b) : b.io = a.io := (congrArg Dev.io h.same :)
theorem Dev.Tells.fuses (h : a.Tells b) : b.fuses = a.fuses := (congrArg Dev.fuses h.same :)

end

theorem Dev.keyAnswer_tells (d : Dev) (k code : Nat) : d.Tells (d.keyAnswer k code) :=
  ((Dev.Tells.refl d).updTpl k _).answerCode code

theorem Dev.keyEvent_tells (e : Env) (d : Dev) (bit : Nat) (w : Origin) (status detail : Nat) :
    d.Tells (d.keyEvent e bit w status detail) := (d.ledger_records ..).tells.later _

theorem Dev.keyEvent_ses (e : Env) (d : Dev) (bit : Nat) (w : Origin) (status detail : Nat) :
    (d.keyEvent e bit w status detail).ses = d.ses := (d.ledger_records ..).ses

theorem Dev.keyRefused_records (e : Env) (d : Dev) (kind : Nat) (w : Origin) (code num : Nat) :
    d.Records (d.keyRefused e kind w code num) := d.ledger_records ..

theorem Dev.keyAnswer_tpl {d : Dev} {k : Nat} (h : d.isOpen k = true) (code : Nat) :
    (d.keyAnswer k code).tpl k = { d.tpl k with status := code } := Dev.updTpl_tpl h _

/-- The Keyring answers `code` to session `k`, and no key has changed. -/
structure Dev.Answers (k code : Nat) (d d' : Dev) : Prop where
  answer : d'.answer.code = code
  status : (d'.tpl k).status = code
  kr : d'.kr = d.kr
  io : d'.io = d.io

theorem Dev.keyAnswer_answers {d : Dev} {k : Nat} (h : d.isOpen k = true) (code : Nat) :
    d.Answers k code (d.keyAnswer k code) :=
  ⟨rfl, congrArg KeyTpl.status (Dev.keyAnswer_tpl h code), (d.keyAnswer_tells k code).kr, (d.keyAnswer_tells k code).io⟩

theorem Dev.keyRefuse_answers (e : Env) {d : Dev} {k : Nat} (h : d.isOpen k = true) (kind code num : Nat) :
    d.Answers k code (d.keyRefuse e k kind code num) := by
  have hrefused := d.keyRefused_records e kind (d.origin k) code num
  unfold Dev.keyRefuse
  generalize d.keyRefused e kind (d.origin k) code num = x at hrefused ⊢
  obtain ⟨hanswer, hstatus, hkr, hio⟩ := Dev.keyAnswer_answers ((Dev.isOpen_of_ses hrefused.ses k).trans h) code
  exact ⟨hanswer, hstatus, hkr.trans hrefused.kr, hio.trans hrefused.tells.io⟩

/-! ## Checks -/

theorem firstFailing_head {c : Nat} (h : c ≠ 0) (cs : List Nat) : firstFailing (c :: cs) = c := if_neg h

theorem firstFailing_tail {c : Nat} (h : c = 0) (cs : List Nat) : firstFailing (c :: cs) = firstFailing cs := if_pos h

theorem Dev.serviceCode_error {d : Dev} (h : d.g .krIslandState = 2) (root : Bool) : d.serviceCode root = 0x0645 :=
  if_pos (beq_iff_eq.2 h)

theorem Dev.serviceCode_serving {d : Dev} (h : d.g .krIslandState ≠ 2) (root : Bool) : d.serviceCode root =
    if d.kr.hold then 0x0646 else if root ∧ d.g .krRootState ≠ 1 then 0x0641 else 0 :=
  if_neg fun heq => h (beq_iff_eq.1 heq)

theorem Dev.serviceCode_held {d : Dev} (h : d.g .krIslandState ≠ 2) (hold : d.kr.hold = true) (root : Bool) :
    d.serviceCode root = 0x0646 := (Dev.serviceCode_serving h root).trans (if_pos hold)

theorem Dev.serviceCode_rootless {d : Dev} (h : d.g .krIslandState ≠ 2) (hold : d.kr.hold = false) (hroot : d.g .krRootState ≠ 1) :
    d.serviceCode true = 0x0641 := by
  rw [Dev.serviceCode_serving h, hold, if_neg Bool.false_ne_true, if_pos ⟨rfl, hroot⟩]

/-- A key an object may name is there. -/
theorem Dev.keyOf_of_invokeCode {d : Dev} {num role : Nat} {serves : Key → Bool} (h : d.invokeCode num role serves = 0) :
    ∃ x, d.keyOf num = some x := by
  cases hkey : d.keyOf num with
  | some x => exact ⟨x, rfl⟩
  | none =>
    unfold Dev.invokeCode at h
    rw [hkey] at h
    split at h
    · exact absurd h (by decide)
    · split at h
      · exact absurd h (by decide)
      · dsimp only at h
        split at h
        · exact absurd h (by decide)
        · exact absurd h (by decide)

/-- A kept key that may be created has a page. -/
theorem Dev.page_of_createCode {d : Dev} {num : Nat} {x : Key} (h : d.createCode num x = 0) (hkept : x.persist = 1) :
    ∃ p, d.keyPageOf num = some p := by
  cases hpage : d.keyPageOf num with
  | some p => exact ⟨p, rfl⟩
  | none =>
    unfold Dev.createCode at h
    rw [hpage, hkept] at h
    split at h
    · exact absurd h (by decide)
    · split at h
      · exact absurd h (by decide)
      · split at h
        · rw [if_neg (by decide)] at h
          split at h
          next hregion => exact absurd h hregion
          next => exact absurd h (by decide)
        · exact absurd h (by decide)
        · exact absurd h (by decide)
        · exact absurd h (by decide)

/-! ## Blobs and records -/

theorem Dev.keyHead_length (d : Dev) (num : Nat) (x : Key) : (d.keyHead num x).length = 24 := by
  unfold Dev.keyHead
  simp only [List.length_append, leBytes_length, List.length_cons, List.length_nil]

theorem Dev.wrapKey_length (d : Dev) (transport : Option Nat) (num : Nat) (x : Key) :
    (d.wrapKey transport num x).1.length = 64 := by
  show (d.keyHead num x ++ (List.range 40).map _).length = 64
  rw [List.length_append, d.keyHead_length, List.length_map, List.length_range]

/-- A number's record is written; its pages and its copies in the store are the queue's. -/
theorem Dev.writeKeyRec_effects {d : Dev} {num p : Nat} (h : d.keyPageOf num = some p) (r : KeyRec) (twice : Bool) :
    (d.writeKeyRec num r twice).kr = { d.kr with recs := d.kr.recs.put num r } ∧
    (d.writeKeyRec num r twice).ses = d.ses ∧ (∀ l ∈ d.late, l ∈ (d.writeKeyRec num r twice).late) := by
  unfold Dev.writeKeyRec
  rw [h]
  dsimp only
  generalize ({ region := 1, id := num, page := p, body := leBytes 1 (if r.revoked = true then 2 else 1) ++ r.blob } : NvJob) = j
  generalize hd : ({ d with nv := { d.nv with keyPages := d.nv.keyPages.put num p }
                            kr := { d.kr with recs := d.kr.recs.put num r } } : Dev) = x
  have hx : x.kr = { d.kr with recs := d.kr.recs.put num r } ∧ x.ses = d.ses ∧ x.late = d.late := by
    rw [← hd]
    exact ⟨rfl, rfl, rfl⟩
  obtain ⟨hkr, hses, hlate⟩ := hx
  have hwrite : x.Records (if twice then (x.nvWrite j).nvWrite j else x.nvWrite j) :=
    .ite _ ((x.nvWrite_records j).trans (Dev.nvWrite_records _ j)) (x.nvWrite_records j)
  generalize (if twice = true then (x.nvWrite j).nvWrite j else x.nvWrite j) = y at hwrite ⊢
  exact ⟨hwrite.kr.trans hkr, hwrite.ses.trans hses, fun l hl => hwrite.late l (hlate ▸ hl)⟩

/-! ## A key is created (R456) -/

/-- From `d` to `d'` key `x` has been created under a number: a kept one has a record, a carried one is the session's
blob. -/
structure Dev.Makes (k num : Nat) (x : Key) (d d' : Dev) : Prop where
  opens : d'.isOpen k = true
  event : Late.flag .krEventFlags 0 1 ∈ d'.late
  slots : d'.kr.slots = d.kr.slots
  comp : d'.kr.comp = d.kr.comp
  kept : x.persist = 1 → ∃ r, d'.keyRec num = some r ∧ r.revoked = false ∧ r.blob.length = 64
  carried : x.persist ≠ 1 → (d'.tpl k).blob.length = 64 ∧ d'.kr.recs = d.kr.recs

/-- The key with its blob put where it belongs. -/
def Dev.placeKey (d : Dev) (k num : Nat) (x : Key) (b : List Byte) : Dev :=
  if x.persist = 1 then d.writeKeyRec num ⟨false, b⟩ false else d.updTpl k fun t => { t with blob := b }

theorem Dev.createKey_eq (e : Env) (d : Dev) (k num : Nat) (x : Key) : d.createKey e k num x =
    (((d.wrapKey none num x).2.placeKey k num x (d.wrapKey none num x).1).updTpl k fun t =>
      { t with kcv := checkBytes x.secret }).keyEvent e 0
        (((d.wrapKey none num x).2.placeKey k num x (d.wrapKey none num x).1).origin k) 0 num := rfl

/-- What the placing of a key does, of the keys and the session's template. -/
theorem Dev.placeKey_effects {d : Dev} {k num : Nat} {x : Key} {b : List Byte} (hopen : d.isOpen k = true)
    (hpage : x.persist = 1 → ∃ p, d.keyPageOf num = some p) :
    (d.placeKey k num x b).isOpen k = true ∧ (d.placeKey k num x b).kr.slots = d.kr.slots ∧
    (d.placeKey k num x b).kr.comp = d.kr.comp ∧
    (x.persist = 1 → (d.placeKey k num x b).keyRec num = some ⟨false, b⟩) ∧
    (x.persist ≠ 1 → ((d.placeKey k num x b).tpl k).blob = b ∧ (d.placeKey k num x b).kr.recs = d.kr.recs) := by
  unfold Dev.placeKey
  by_cases hkept : x.persist = 1
  · rw [if_pos hkept]
    obtain ⟨p, hp⟩ := hpage hkept
    obtain ⟨hkr, hses, -⟩ := Dev.writeKeyRec_effects hp ⟨false, b⟩ false
    unfold Dev.keyRec
    rw [hkr]
    exact ⟨(Dev.isOpen_of_ses hses k).trans hopen, rfl, rfl, fun _ => Tab.find_put_same _ _ _, fun h => absurd hkept h⟩
  · rw [if_neg hkept]
    have hkr := ((Dev.Tells.refl d).updTpl k fun t => { t with blob := b }).kr
    refine ⟨(d.updTpl_isOpen k k _).trans hopen, congrArg (·.slots) hkr, congrArg (·.comp) hkr, fun h => absurd h hkept,
      fun _ => ⟨congrArg KeyTpl.blob (Dev.updTpl_tpl hopen _), congrArg (·.recs) hkr⟩⟩

theorem Dev.createKey_makes (e : Env) {d : Dev} {k num : Nat} {x : Key} (hopen : d.isOpen k = true)
    (hpage : x.persist = 1 → ∃ p, d.keyPageOf num = some p) : d.Makes k num x (d.createKey e k num x) := by
  rw [Dev.createKey_eq]
  have hblob := d.wrapKey_length none num x
  have hw : (d.wrapKey none num x).2.isOpen k = true ∧ (d.wrapKey none num x).2.kr.slots = d.kr.slots ∧
      (d.wrapKey none num x).2.kr.comp = d.kr.comp ∧ (d.wrapKey none num x).2.kr.recs = d.kr.recs ∧
      (d.wrapKey none num x).2.keyPageOf num = d.keyPageOf num := ⟨hopen, rfl, rfl, rfl, rfl⟩
  generalize (d.wrapKey none num x).1 = b at hblob ⊢
  generalize (d.wrapKey none num x).2 = w at hw ⊢
  obtain ⟨hwopen, hwslots, hwcomp, hwrecs, hwpage⟩ := hw
  obtain ⟨hyopen, hyslots, hycomp, hykept, hycarried⟩ :=
    Dev.placeKey_effects (num := num) (b := b) hwopen fun h => hwpage ▸ hpage h
  generalize w.placeKey k num x b = y at hyopen hyslots hycomp hykept hycarried ⊢
  have hevent := (y.updTpl k fun t => { t with kcv := checkBytes x.secret }).keyEvent_tells e 0 (y.origin k) 0 num
  have hkr := (((Dev.Tells.refl y).updTpl k fun t => { t with kcv := checkBytes x.secret }).trans hevent).kr
  have htpl := Dev.tpl_of_ses ((y.updTpl k fun t => { t with kcv := checkBytes x.secret }).keyEvent_ses e 0 (y.origin k) 0 num) k
  rw [Dev.updTpl_tpl hyopen] at htpl
  have hopens := (((Dev.Tells.refl y).updTpl k fun t => { t with kcv := checkBytes x.secret }).trans hevent).opens k
  have hflag : Late.flag .krEventFlags 0 1 ∈
      ((y.updTpl k fun t => { t with kcv := checkBytes x.secret }).keyEvent e 0 (y.origin k) 0 num).late :=
    List.mem_append_right _ List.mem_cons_self
  generalize (y.updTpl k fun t => { t with kcv := checkBytes x.secret }).keyEvent e 0 (y.origin k) 0 num = z at hkr htpl hflag hopens ⊢
  refine ⟨hopens.trans hyopen, hflag, (congrArg (·.slots) hkr).trans (hyslots.trans hwslots), (congrArg (·.comp) hkr).trans (hycomp.trans hwcomp),
    fun h => ⟨⟨false, b⟩, ?_, rfl, hblob⟩, fun h => ?_⟩
  · unfold Dev.keyRec
    rw [hkr]
    exact hykept h
  · obtain ⟨hyblob, hyrecs⟩ := hycarried h
    rw [htpl]
    exact ⟨(congrArg List.length hyblob).trans hblob, (congrArg (·.recs) hkr).trans (hyrecs.trans hwrecs)⟩

/-- A template that keeps its blob keeps what was made. -/
theorem Dev.Makes.updTpl {k num : Nat} {x : Key} {a b : Dev} (h : a.Makes k num x b) {f : KeyTpl → KeyTpl}
    (hblob : ∀ t, (f t).blob = t.blob) : a.Makes k num x (b.updTpl k f) := by
  obtain ⟨hopens, hevent, hslots, hcomp, hkept, hcarried⟩ := h
  have htell := (Dev.Tells.refl b).updTpl k f
  have htpl := Dev.updTpl_tpl hopens f
  generalize b.updTpl k f = y at htell htpl ⊢
  have hkr := htell.kr
  refine ⟨(htell.opens k).trans hopens, htell.late _ hevent, (congrArg (·.slots) hkr).trans hslots,
    (congrArg (·.comp) hkr).trans hcomp, fun hx => ?_, fun hx => ?_⟩
  · unfold Dev.keyRec
    rw [hkr]
    exact hkept hx
  · obtain ⟨hlen, hrecs⟩ := hcarried hx
    rw [htpl, hblob]
    exact ⟨hlen, (congrArg (·.recs) hkr).trans hrecs⟩

theorem Dev.Makes.answerCode {k num : Nat} {x : Key} {a b : Dev} (h : a.Makes k num x b) (code : Nat) :
    a.Makes k num x (b.answerCode code) :=
  ⟨h.opens, h.event, h.slots, h.comp, h.kept, h.carried⟩

theorem Dev.Makes.keyAnswer {k num : Nat} {x : Key} {a b : Dev} (h : a.Makes k num x b) (code : Nat) :
    a.Makes k num x (b.keyAnswer k code) :=
  (h.updTpl (f := fun t => { t with status := code }) fun _ => rfl).answerCode code

end Sys2Proof.Machine
end

section
/-!
The Keyring commands of a session (R456, R458 to R460), as effects on the block.
-/

namespace Sys2Proof.Machine

section
variable (e : Env) {d : Dev} {k : Nat}

/-! ## KR_GENERATE and KR_IMPORT_COMPONENTS -/

/-- Why a key of the template cannot be created. -/
def Dev.generateCode (d : Dev) (k : Nat) : Nat :=
  firstFailing [d.serviceCode true, d.createCode (d.tpl k).num ((d.tpl k).key 0)]

theorem Dev.krGenerate_refused (hopen : d.isOpen k = true) (h : d.generateCode k ≠ 0) :
    d.Answers k (d.generateCode k) (d.krGenerate e k) := by
  have hcmd : d.krGenerate e k = d.keyRefuse e k 0x40 (d.generateCode k) (d.tpl k).num := if_pos h
  rw [hcmd]
  exact Dev.keyRefuse_answers e hopen ..

theorem Dev.krComponents_refused (hopen : d.isOpen k = true) (h : d.generateCode k ≠ 0) :
    d.Answers k (d.generateCode k) (d.krComponents e k) := by
  have hcmd : d.krComponents e k = d.keyRefuse e k 0x40 (d.generateCode k) (d.tpl k).num := if_pos h
  rw [hcmd]
  exact Dev.keyRefuse_answers e hopen ..

theorem Dev.krGenerate_accepted (h : d.generateCode k = 0) : d.krGenerate e k =
    ((d.drbg 256).2.createKey e k (d.tpl k).num ((d.tpl k).key (d.drbg 256).1)).keyAnswer k 0 :=
  if_neg fun hne => hne h

/-- Whether a key may be created does not depend on its secret. -/
theorem Dev.createCode_secret (num : Nat) (t : KeyTpl) (x y : Nat) : d.createCode num (t.key x) = d.createCode num (t.key y) := rfl

theorem Dev.krGenerate_makes (hopen : d.isOpen k = true) (hservice : d.serviceCode true = 0)
    (hcode : d.createCode (d.tpl k).num ((d.tpl k).key 0) = 0) :
    ∃ x, x = (d.tpl k).key x.secret ∧ d.Makes k (d.tpl k).num x (d.krGenerate e k) ∧
      (d.krGenerate e k).answer.code = 0 ∧ ((d.krGenerate e k).tpl k).status = 0 := by
  have h : d.generateCode k = 0 := (firstFailing_tail hservice _).trans (firstFailing_tail hcode _)
  rw [Dev.krGenerate_accepted e h]
  have hpage := fun hkept : ((d.tpl k).key (d.drbg 256).1).persist = 1 =>
    Dev.page_of_createCode (d := d) (x := (d.tpl k).key (d.drbg 256).1) hcode hkept
  have hmade := Dev.createKey_makes e (d := (d.drbg 256).2) (k := k) (num := (d.tpl k).num) hopen hpage
  have hmade : d.Makes k (d.tpl k).num _ _ := ⟨hmade.opens, hmade.event, hmade.slots, hmade.comp, hmade.kept, hmade.carried⟩
  exact ⟨(d.tpl k).key (d.drbg 256).1, rfl, hmade.keyAnswer 0, rfl, congrArg KeyTpl.status (Dev.keyAnswer_tpl hmade.opens 0)⟩

/-- Component entry is open. -/
def Dev.entryOpen (d : Dev) (k : Nat) : Dev :=
  { d with kr := { d.kr with comp := some { since := e.now, ses := k, tpl := d.tpl k, parts := (d.tpl k).parts } } }

theorem Dev.krComponents_opens (hservice : d.serviceCode true = 0)
    (hcode : d.createCode (d.tpl k).num ((d.tpl k).key 0) = 0) : (d.krComponents e k).answer.code = 0 ∧
    (d.krComponents e k).kr.comp = some { since := e.now, ses := k, tpl := d.tpl k, parts := (d.tpl k).parts } := by
  have h : d.generateCode k = 0 := (firstFailing_tail hservice _).trans (firstFailing_tail hcode _)
  have hcmd : d.krComponents e k = (d.entryOpen e k).keyAnswer k 0 := if_neg fun hne => hne h
  rw [hcmd]
  exact ⟨rfl, congrArg (·.comp) (Dev.keyAnswer_tells _ k 0).kr⟩

/-! ## KR_IMPORT_TRANSPORT -/

/-- Why the template's transport key cannot be used. -/
def Dev.transportCode (d : Dev) (k : Nat) : Nat :=
  firstFailing [d.serviceCode true, d.invokeCode (d.tpl k).transport (d.g .sesRole k) servesTransport]

/-- The key in the template's blob, under its transport key. -/
def Dev.transported (d : Dev) (k : Nat) : Option Key :=
  (d.keyOf (d.tpl k).transport).bind fun (w : Key) => d.unwrapKey (some w.secret) (d.tpl k).blob

/-- A transported key is created with the attributes of its blob. -/
def Dev.importKey (d : Dev) (k : Nat) (x : Key) : Dev :=
  let num := blobField (d.tpl k).blob 4 4
  let code := d.createCode num x
  if code ≠ 0 then d.keyRefuse e k 0x40 code num else (d.createKey e k num x).keyAnswer k 0

theorem Dev.krTransport_refused (hopen : d.isOpen k = true) (h : d.transportCode k ≠ 0) :
    d.Answers k (d.transportCode k) (d.krTransport e k) := by
  have hcmd : d.krTransport e k = d.keyRefuse e k 0x40 (d.transportCode k) (d.tpl k).num := if_pos h
  rw [hcmd]
  exact Dev.keyRefuse_answers e hopen ..

theorem Dev.krTransport_bad (hopen : d.isOpen k = true) (h : d.transportCode k = 0) (hkey : d.transported k = none) :
    d.Answers k 0x0647 (d.krTransport e k) := by
  have hcmd : d.krTransport e k = d.keyRefuse e k 0x40 0x0647 (d.tpl k).num := by
    unfold Dev.transported at hkey
    refine (if_neg fun hne => hne h).trans ?_
    dsimp only
    rw [hkey]
  rw [hcmd]
  exact Dev.keyRefuse_answers e hopen ..

theorem Dev.krTransport_imports (h : d.transportCode k = 0) {x : Key} (hkey : d.transported k = some x) :
    d.krTransport e k = d.importKey e k x := by
  unfold Dev.transported at hkey
  refine (if_neg fun hne => hne h).trans ?_
  dsimp only
  rw [hkey]
  rfl

theorem Dev.importKey_refused (hopen : d.isOpen k = true) {x : Key} (h : d.createCode (blobField (d.tpl k).blob 4 4) x ≠ 0) :
    d.Answers k (d.createCode (blobField (d.tpl k).blob 4 4) x) (d.importKey e k x) := by
  have hcmd : d.importKey e k x = d.keyRefuse e k 0x40 (d.createCode (blobField (d.tpl k).blob 4 4) x)
    (blobField (d.tpl k).blob 4 4) := if_pos h
  rw [hcmd]
  exact Dev.keyRefuse_answers e hopen ..

theorem Dev.importKey_makes (hopen : d.isOpen k = true) {x : Key} (h : d.createCode (blobField (d.tpl k).blob 4 4) x = 0) :
    d.Makes k (blobField (d.tpl k).blob 4 4) x (d.importKey e k x) ∧ (d.importKey e k x).answer.code = 0 ∧
    ((d.importKey e k x).tpl k).status = 0 := by
  have hcmd : d.importKey e k x = (d.createKey e k (blobField (d.tpl k).blob 4 4) x).keyAnswer k 0 := if_neg fun hne => hne h
  rw [hcmd]
  have hmade := Dev.createKey_makes e (k := k) hopen fun hkept => Dev.page_of_createCode h hkept
  exact ⟨hmade.keyAnswer 0, rfl, congrArg KeyTpl.status (Dev.keyAnswer_tpl hmade.opens 0)⟩

/-! ## KR_EXPORT -/

/-- Why a key cannot be exported, by its use. -/
def Dev.exportUse (d : Dev) (num : Nat) : Nat :=
  match d.keyOf num with
  | some x => if x.use = 4 then 0 else 0x064D
  | none => 0x0640

/-- Why the template's key cannot be exported. -/
def Dev.exportCode (d : Dev) (k : Nat) : Nat :=
  firstFailing [d.serviceCode false, d.invokeCode (d.tpl k).num 3 fun _ => true, d.exportUse (d.tpl k).num,
    d.invokeCode (d.tpl k).transport (d.g .sesRole k) servesTransport]

theorem Dev.krExport_refused (hopen : d.isOpen k = true) (h : d.exportCode k ≠ 0) :
    d.Answers k (d.exportCode k) (d.krExport e k) := by
  have hcmd : d.krExport e k = d.keyRefuse e k 0x48 (d.exportCode k) (d.tpl k).num := if_pos h
  rw [hcmd]
  exact Dev.keyRefuse_answers e hopen ..

/-- The template's key `x` leaves under the transport key `w`. -/
def Dev.exportKey (d : Dev) (k : Nat) (x w : Key) : Dev :=
  let (b, d') := d.wrapKey (some w.secret) (d.tpl k).num x
  ((d'.updTpl k fun t => { t with blob := b, kcv := checkBytes x.secret }).keyEvent e 8 (d'.origin k) 0 (d.tpl k).num).keyAnswer k 0

theorem Dev.krExport_exports (h : d.exportCode k = 0) {x w : Key} (hx : d.keyOf (d.tpl k).num = some x)
    (hw : d.keyOf (d.tpl k).transport = some w) : d.krExport e k = d.exportKey e k x w := by
  refine (if_neg fun hne => hne h).trans ?_
  dsimp only
  rw [hx, hw]
  rfl

theorem Dev.exportKey_effects (hopen : d.isOpen k = true) (x w : Key) : (d.exportKey e k x w).answer.code = 0 ∧
    ((d.exportKey e k x w).tpl k).blob.length = 64 ∧ (d.exportKey e k x w).kr.slots = d.kr.slots ∧
    (d.exportKey e k x w).kr.recs = d.kr.recs := by
  have hblob := d.wrapKey_length (some w.secret) (d.tpl k).num x
  have hwrap : (d.wrapKey (some w.secret) (d.tpl k).num x).2.isOpen k = true ∧
    (d.wrapKey (some w.secret) (d.tpl k).num x).2.kr.slots = d.kr.slots ∧
    (d.wrapKey (some w.secret) (d.tpl k).num x).2.kr.recs = d.kr.recs := ⟨hopen, rfl, rfl⟩
  unfold Dev.exportKey
  generalize d.wrapKey (some w.secret) (d.tpl k).num x = r at hblob hwrap ⊢
  obtain ⟨b, y⟩ := r
  dsimp only at hblob hwrap ⊢
  obtain ⟨hyopen, hyslots, hyrecs⟩ := hwrap
  have htell := (Dev.Tells.refl y).updTpl k fun t => { t with blob := b, kcv := checkBytes x.secret }
  have htpl := Dev.updTpl_tpl hyopen fun t => { t with blob := b, kcv := checkBytes x.secret }
  generalize y.updTpl k (fun t => { t with blob := b, kcv := checkBytes x.secret }) = z at htell htpl ⊢
  have hevent := z.keyEvent_tells e 8 (y.origin k) 0 (d.tpl k).num
  have hses := z.keyEvent_ses e 8 (y.origin k) 0 (d.tpl k).num
  generalize z.keyEvent e 8 (y.origin k) 0 (d.tpl k).num = v at hevent hses ⊢
  have hvopen := ((htell.trans hevent).opens k).trans hyopen
  have hkr := (((htell.trans hevent)).trans (v.keyAnswer_tells k 0)).kr
  rw [Dev.keyAnswer_tpl hvopen, Dev.tpl_of_ses hses, htpl, hkr]
  exact ⟨rfl, hblob, hyslots, hyrecs⟩

/-! ## KR_REVOKE -/

/-- Why a key cannot be revoked, by its state. -/
def Dev.revokeState (d : Dev) (num : Nat) : Nat :=
  match d.keyState num with
  | 0 => 0x0640
  | 3 => 0x064F
  | _ => 0

/-- Why the template's key cannot be revoked. -/
def Dev.revokeCode (d : Dev) (k : Nat) : Nat :=
  firstFailing [d.serviceCode false, d.revokeState (d.tpl k).num, d.keyRegionCode,
    (if (d.keyPageOf (d.tpl k).num).isNone then 0x064B else 0)]

theorem Dev.krRevoke_refused (hopen : d.isOpen k = true) (h : d.revokeCode k ≠ 0) :
    d.Answers k (d.revokeCode k) (d.krRevoke e k) := by
  have hcmd : d.krRevoke e k = d.keyRefuse e k 0x43 (d.revokeCode k) (d.tpl k).num := if_pos h
  rw [hcmd]
  exact Dev.keyRefuse_answers e hopen ..

theorem Dev.revokeState_other {num : Nat} (h : d.keyState num ∉ [0, 3]) : d.revokeState num = 0 := by
  unfold Dev.revokeState
  split
  next h0 => exact absurd (h0 ▸ List.mem_cons_self) h
  next h3 => exact absurd (h3 ▸ List.mem_cons_of_mem _ List.mem_cons_self) h
  next => rfl

/-- What names a key is undone: takes, associations, loads, its slot. -/
def Dev.dropKey (d : Dev) (num : Nat) : Dev :=
  let d := (d.undoKeys fun k => k == num).emptySas e.now fun x => x.key == num
  { d with io := { d.io with loads := d.io.loads.filter fun (l : KeyLoad) => l.key != num }
           kr := { d.kr with slots := d.kr.slots.del num, contested := d.kr.contested.del num } }

theorem Dev.emptySa_kr (now : Nat) (d : Dev) (ch an : Nat) : (d.emptySa now ch an).kr = d.kr ∧ (d.emptySa now ch an).nv = d.nv := by
  unfold Dev.emptySa Dev.putSa
  dsimp only
  split
  · split
    · exact ⟨rfl, rfl⟩
    · exact ⟨rfl, rfl⟩
  · split
    · exact ⟨rfl, rfl⟩
    · exact ⟨rfl, rfl⟩

theorem Dev.emptySas_kr (now : Nat) (d : Dev) (p : Sa → Bool) :
    (d.emptySas now p).kr = d.kr ∧ (d.emptySas now p).nv = d.nv :=
  List.foldlRecOn (motive := fun b : Dev => b.kr = d.kr ∧ b.nv = d.nv) _ _ ⟨rfl, rfl⟩ fun b hb _ _ =>
    ⟨(b.emptySa_kr now _ _).1.trans hb.1, (b.emptySa_kr now _ _).2.trans hb.2⟩

theorem Dev.undoKeys_closings (d : Dev) (p : Nat → Bool) : d.Closings (d.undoKeys p) := d.undoWhere_closings 6 _

theorem Dev.dropKey_effects (d : Dev) (num : Nat) : (d.dropKey e num).kr =
    { d.kr with slots := d.kr.slots.del num, contested := d.kr.contested.del num } ∧
    (d.dropKey e num).keyPageOf num = d.keyPageOf num := by
  have hundo := d.undoKeys_closings fun k => k == num
  have hkr : (d.undoKeys fun k => k == num).kr = d.kr := (congrArg Dev.kr hundo.same :)
  have hpages : (d.undoKeys fun k => k == num).nv.keyPages = d.nv.keyPages := (congrArg (·.keyPages) hundo.nv :)
  have hsas := (d.undoKeys fun k => k == num).emptySas_kr e.now fun x => x.key == num
  unfold Dev.dropKey
  generalize (d.undoKeys fun k => k == num).emptySas e.now (fun x => x.key == num) = y at hsas ⊢
  obtain ⟨hykr, hynv⟩ := hsas
  constructor
  · show { y.kr with slots := y.kr.slots.del num, contested := y.kr.contested.del num } = _
    rw [hykr, hkr]
  · unfold Dev.keyPageOf
    rw [show _ = y.nv from rfl, hynv, hpages]

theorem Dev.krRevoke_accepted (h : d.revokeCode k = 0) : d.krRevoke e k =
    ((((d.dropKey e (d.tpl k).num).writeKeyRec (d.tpl k).num ⟨true, []⟩ true).keyEvent e 3
      (((d.dropKey e (d.tpl k).num).writeKeyRec (d.tpl k).num ⟨true, []⟩ true).origin k) 0 (d.tpl k).num).keyAnswer k 0) :=
  if_neg fun hne => hne h

theorem Dev.krRevoke_effects (h : d.revokeCode k = 0) {p : Nat} (hpage : d.keyPageOf (d.tpl k).num = some p) :
    (d.krRevoke e k).answer.code = 0 ∧ (d.krRevoke e k).kr.slots.find (d.tpl k).num = none ∧
    (d.krRevoke e k).keyRec (d.tpl k).num = some { revoked := true, blob := [] } ∧
    (d.krRevoke e k).keyState (d.tpl k).num = 3 ∧ Late.flag .krEventFlags 0 8 ∈ (d.krRevoke e k).late := by
  rw [Dev.krRevoke_accepted e h]
  generalize (d.tpl k).num = num at hpage ⊢
  obtain ⟨hxkr, hxpage⟩ := Dev.dropKey_effects e d num
  generalize d.dropKey e num = x at hxkr hxpage ⊢
  obtain ⟨hykr, -, -⟩ := Dev.writeKeyRec_effects (hxpage.trans hpage) ⟨true, []⟩ true
  generalize x.writeKeyRec num ⟨true, []⟩ true = y at hykr ⊢
  have hevent := y.keyEvent_tells e 3 (y.origin k) 0 num
  have hflag : Late.flag .krEventFlags 0 8 ∈ (y.keyEvent e 3 (y.origin k) 0 num).late :=
    List.mem_append_right _ List.mem_cons_self
  generalize y.keyEvent e 3 (y.origin k) 0 num = z at hevent hflag ⊢
  have htell := z.keyAnswer_tells k 0
  have hkr := (hevent.trans htell).kr.trans (hykr.trans (congrArg (fun u : KrUnit => { u with recs := u.recs.put num ⟨true, []⟩ }) hxkr))
  have hanswer : (z.keyAnswer k 0).answer.code = 0 := rfl
  have hlate := htell.late _ hflag
  generalize z.keyAnswer k 0 = v at hkr hanswer hlate ⊢
  have hrec : v.keyRec num = some { revoked := true, blob := [] } := by
    unfold Dev.keyRec
    rw [hkr]
    exact Tab.find_put_same _ _ _
  refine ⟨hanswer, ?_, hrec, ?_, hlate⟩
  · rw [hkr]
    exact Tab.find_del_same _ _
  · have hcontested : v.contested num = false := by
      unfold Dev.contested
      rw [hkr]
      exact Tab.getD_del_same _ _ _
    have hrevoked : v.keyRevoked num = true := by
      unfold Dev.keyRevoked
      rw [hrec]
    unfold Dev.keyState
    rw [hcontested, hrevoked]
    rfl

end

end Sys2Proof.Machine
end

section
/-!
Loading and querying keys, components, zeroisation, images and rollback counters (R456, R459, R464, R472), as effects on
the block.
-/

namespace Sys2Proof.Machine

section
variable (e : Env) {d : Dev} {k : Nat}

/-! ## KR_LOAD and KR_QUERY -/

/-- Why a key cannot be loaded, by its state. -/
def Dev.loadState (d : Dev) (num : Nat) : Nat :=
  match d.keyState num with
  | 0 => 0
  | 3 => 0x064F
  | 4 => 0x064E
  | _ => 0x064A

theorem Dev.loadState_other {num : Nat} (h : d.keyState num ∉ [0, 3, 4]) : d.loadState num = 0x064A := by
  unfold Dev.loadState
  split
  next h0 => exact absurd (h0 ▸ List.mem_cons_self) h
  next h3 => exact absurd (h3 ▸ List.mem_cons_of_mem _ List.mem_cons_self) h
  next h4 => exact absurd (h4 ▸ List.mem_cons_of_mem _ (List.mem_cons_of_mem _ List.mem_cons_self)) h
  next => rfl

/-- Why the template's blob cannot be loaded. -/
def Dev.loadCode (d : Dev) (k : Nat) : Nat :=
  firstFailing [d.serviceCode true, (if (d.tpl k).blob.length = 64 then 0 else 0x0647),
    d.loadState (blobField (d.tpl k).blob 4 4), (if 256 ≤ d.kr.slots.length then 0x0644 else 0)]

theorem Dev.krLoad_refused (hopen : d.isOpen k = true) (h : d.loadCode k ≠ 0) : d.Answers k (d.loadCode k) (d.krLoad e k) := by
  have hcmd : d.krLoad e k = d.keyRefuse e k 0x40 (d.loadCode k) (blobField (d.tpl k).blob 4 4) := if_pos h
  rw [hcmd]
  exact Dev.keyRefuse_answers e hopen ..

theorem Dev.krLoad_bad (hopen : d.isOpen k = true) (h : d.loadCode k = 0) (hkey : d.unwrapKey none (d.tpl k).blob = none) :
    d.Answers k 0x0647 (d.krLoad e k) := by
  have hcmd : d.krLoad e k = d.keyRefuse e k 0x40 0x0647 (blobField (d.tpl k).blob 4 4) := by
    refine (if_neg fun hne => hne h).trans ?_
    dsimp only
    rw [hkey]
  rw [hcmd]
  exact Dev.keyRefuse_answers e hopen ..

/-- The key of a good blob becomes present. -/
def Dev.loadKey (d : Dev) (k : Nat) (x : Key) : Dev :=
  let num := blobField (d.tpl k).blob 4 4
  if !x.attrsOk ∨ x.persist ≠ 0 then d.keyRefuse e k 0x40 0x0642 num
  else
    let d := (d.putSlot num x).updTpl k fun t => { t with kcv := checkBytes x.secret }
    (d.keyEvent e 0 (d.origin k) 0 num).keyAnswer k 0

theorem Dev.krLoad_loads (h : d.loadCode k = 0) {x : Key} (hkey : d.unwrapKey none (d.tpl k).blob = some x) :
    d.krLoad e k = d.loadKey e k x := by
  refine (if_neg fun hne => hne h).trans ?_
  dsimp only
  rw [hkey]
  rfl

theorem Dev.loadKey_unfit (hopen : d.isOpen k = true) {x : Key} (h : ¬(x.attrsOk = true ∧ x.persist = 0)) :
    d.Answers k 0x0642 (d.loadKey e k x) := by
  have hcmd : d.loadKey e k x = d.keyRefuse e k 0x40 0x0642 (blobField (d.tpl k).blob 4 4) := by
    refine if_pos ?_
    rw [Bool.not_eq_true', ← Bool.not_eq_true]
    exact Decidable.not_and_iff_or_not.1 h
  rw [hcmd]
  exact Dev.keyRefuse_answers e hopen ..

theorem Dev.loadKey_present {x : Key} (hattrs : x.attrsOk = true) (hpersist : x.persist = 0) :
    (d.loadKey e k x).answer.code = 0 ∧
    (d.loadKey e k x).kr.slots = d.kr.slots.put (blobField (d.tpl k).blob 4 4) x := by
  unfold Dev.loadKey
  dsimp only
  rw [if_neg (by rw [hattrs, hpersist]; decide)]
  generalize blobField (d.tpl k).blob 4 4 = num
  have hslots : (d.putSlot num x).kr.slots = d.kr.slots.put num x := rfl
  generalize d.putSlot num x = y at hslots ⊢
  have htell := (Dev.Tells.refl y).updTpl k fun t => { t with kcv := checkBytes x.secret }
  generalize y.updTpl k (fun t => { t with kcv := checkBytes x.secret }) = z at htell ⊢
  have hall := (htell.trans (z.keyEvent_tells e 0 (z.origin k) 0 num)).trans (Dev.keyAnswer_tells _ k 0)
  exact ⟨rfl, (congrArg (·.slots) hall.kr).trans hslots⟩

theorem Dev.krQuery_refused (hopen : d.isOpen k = true) (h : d.serviceCode false ≠ 0) :
    d.Answers k (d.serviceCode false) (d.krQuery k) := by
  have hcmd : d.krQuery k = d.keyAnswer k (d.serviceCode false) := if_pos h
  rw [hcmd]
  exact Dev.keyAnswer_answers hopen _

/-- What a query leaves in a template. -/
def KeyTpl.found (t : KeyTpl) (d : Dev) : KeyTpl := { t with qState := d.keyState t.num, qAttr := d.keyAttr t.num }

theorem Dev.krQuery_eq (h : d.serviceCode false = 0) :
    d.krQuery k = (d.updTpl k fun t => t.found d).keyAnswer k 0 := if_neg fun hne => hne h

theorem Dev.krQuery_answers (hopen : d.isOpen k = true) (h : d.serviceCode false = 0) : (d.krQuery k).answer.code = 0 ∧
    ((d.krQuery k).tpl k).qState = d.keyState (d.tpl k).num ∧ (d.krQuery k).kr = d.kr := by
  rw [Dev.krQuery_eq h]
  have htell := (Dev.Tells.refl d).updTpl k fun t => t.found d
  have htpl := Dev.updTpl_tpl hopen fun t => t.found d
  rw [Dev.keyAnswer_tpl ((htell.opens k).trans hopen), htpl]
  exact ⟨rfl, rfl, (htell.trans (Dev.keyAnswer_tells _ k 0)).kr⟩

/-! ## Any command of the Keyring -/

theorem Dev.krCommand_waits (n : Nat) (h : d.g .krIslandState = 1) :
    d.krCommand e k n = { d with kr := { d.kr with waiting := d.kr.waiting ++ [(k, n)] } } := if_pos h

/-- What serves each command. -/
theorem Dev.krCommand_serves (h : d.g .krIslandState ≠ 1) : d.krCommand e k 1 = d.krGenerate e k ∧
    d.krCommand e k 2 = d.krComponents e k ∧ d.krCommand e k 3 = d.krTransport e k ∧ d.krCommand e k 4 = d.krExport e k ∧
    d.krCommand e k 5 = d.krRevoke e k ∧ d.krCommand e k 6 = d.krLoad e k ∧ d.krCommand e k 7 = d.krQuery k :=
  ⟨if_neg h, if_neg h, if_neg h, if_neg h, if_neg h, if_neg h, if_neg h⟩

/-- Commands that need the root are refused with the island's code. -/
theorem Dev.krCommand_rootless (hopen : d.isOpen k = true) (h : d.g .krIslandState ≠ 1) (hcode : d.serviceCode true ≠ 0) {n : Nat}
    (hn : n ∈ [1, 2, 3, 6]) : d.Answers k (d.serviceCode true) (d.krCommand e k n) := by
  obtain ⟨h1, h2, h3, -, -, h6, -⟩ := Dev.krCommand_serves e (k := k) h
  have hgenerate : d.generateCode k = d.serviceCode true := firstFailing_head hcode _
  have htransport : d.transportCode k = d.serviceCode true := firstFailing_head hcode _
  have hload : d.loadCode k = d.serviceCode true := firstFailing_head hcode _
  simp only [List.mem_cons, List.not_mem_nil, or_false] at hn
  rcases hn with rfl | rfl | rfl | rfl
  · exact h1 ▸ hgenerate ▸ Dev.krGenerate_refused e hopen (hgenerate ▸ hcode)
  · exact h2 ▸ hgenerate ▸ Dev.krComponents_refused e hopen (hgenerate ▸ hcode)
  · exact h3 ▸ htransport ▸ Dev.krTransport_refused e hopen (htransport ▸ hcode)
  · exact h6 ▸ hload ▸ Dev.krLoad_refused e hopen (hload ▸ hcode)

/-- An island that serves no key refuses every command. -/
theorem Dev.krCommand_unserved (hopen : d.isOpen k = true) (h : d.g .krIslandState ≠ 1) {code : Nat} (hcode : code ≠ 0)
    (hservice : ∀ root, d.serviceCode root = code) {n : Nat} (hn : n ∈ [1, 2, 3, 4, 5, 6, 7]) :
    d.Answers k code (d.krCommand e k n) := by
  have hfalse : d.serviceCode false ≠ 0 := by rw [hservice]; exact hcode
  have htrue : d.serviceCode true ≠ 0 := by rw [hservice]; exact hcode
  obtain ⟨-, -, -, h4, h5, -, h7⟩ := Dev.krCommand_serves e (k := k) h
  have hroot := fun hm => Dev.krCommand_rootless e (k := k) (n := n) hopen h htrue hm
  rw [hservice] at hroot
  have hexport : d.exportCode k = code := (firstFailing_head hfalse _).trans (hservice _)
  have hrevoke : d.revokeCode k = code := (firstFailing_head hfalse _).trans (hservice _)
  simp only [List.mem_cons, List.not_mem_nil, or_false] at hn
  rcases hn with rfl | rfl | rfl | rfl | rfl | rfl | rfl
  · exact hroot (by decide)
  · exact hroot (by decide)
  · exact hroot (by decide)
  · exact h4 ▸ hexport ▸ Dev.krExport_refused e hopen (hexport ▸ hcode)
  · exact h5 ▸ hrevoke ▸ Dev.krRevoke_refused e hopen (hrevoke ▸ hcode)
  · exact hroot (by decide)
  · exact h7 ▸ hservice false ▸ Dev.krQuery_refused hopen hfalse

/-! ## KC_VALUE -/

/-- A component given by a credential. -/
def Components.given (c : Components) (cred x : Nat) : Components :=
  { c with creds := c.creds ++ [cred], values := c.values ++ [x] }

/-- No component is in entry. -/
def Dev.entryClosed (d : Dev) : Dev := { d with kr := { d.kr with comp := none } }

/-- The last component makes the key of the entry. -/
def Dev.lastComponent (d : Dev) (k : Nat) (c : Components) : Dev :=
  let secret := c.values.foldl Nat.xor 0
  let code := d.createCode c.tpl.num (c.tpl.key secret)
  if code ≠ 0 then d.keyRefuse e k 0x40 code c.tpl.num
  else ((d.createKey e k c.tpl.num (c.tpl.key secret)).updTpl k fun t => { t with finalKcv := checkBytes secret }).answerCode 0

/-- A component is taken. -/
def Dev.takeComponent (d : Dev) (k : Nat) (c : Components) (x : Nat) : Dev :=
  let d := d.updTpl k fun t => { t with compKcv := checkBytes x }
  if c.values.length < c.parts then ({ d with kr := { d.kr with comp := some c } }).answerCode 0
  else d.entryClosed.lastComponent e k c

theorem Dev.kcValue_unserved (v : List Byte) (h : d.serviceCode true ≠ 0) :
    d.kcValue e k v = d.answerCode (d.serviceCode true) := if_pos h

theorem Dev.kcValue_closed (v : List Byte) (h : d.serviceCode true = 0) (hc : d.components e = none) :
    d.kcValue e k v = d.entryClosed.answerCode 0x0649 := by
  refine (if_neg fun hne => hne h).trans ?_
  rw [hc]
  rfl

theorem Dev.kcValue_again (v : List Byte) (h : d.serviceCode true = 0) {c : Components} (hc : d.components e = some c)
    (hcred : d.g .sesCred k ∈ c.creds) : d.kcValue e k v = d.answerCode 0x0648 := by
  refine (if_neg fun hne => hne h).trans ?_
  rw [hc]
  exact if_pos (List.contains_iff_mem.2 hcred)

theorem Dev.kcValue_takes (v : List Byte) (h : d.serviceCode true = 0) {c : Components} (hc : d.components e = some c)
    (hcred : d.g .sesCred k ∉ c.creds) :
    d.kcValue e k v = d.takeComponent e k (c.given (d.g .sesCred k) (ofLe v)) (ofLe v) := by
  refine (if_neg fun hne => hne h).trans ?_
  rw [hc]
  exact if_neg fun hmem => hcred (List.contains_iff_mem.1 hmem)

theorem Dev.takeComponent_more {c : Components} (x : Nat) (h : c.values.length < c.parts) :
    (d.takeComponent e k c x).answer.code = 0 ∧ (d.takeComponent e k c x).kr.comp = some c := by
  unfold Dev.takeComponent
  dsimp only
  rw [if_pos h]
  exact ⟨rfl, rfl⟩

theorem Dev.takeComponent_last {c : Components} (x : Nat) (h : ¬c.values.length < c.parts) : d.takeComponent e k c x =
    (d.updTpl k fun t => { t with compKcv := checkBytes x }).entryClosed.lastComponent e k c := if_neg h

/-- Whether a key may be created is a question of the Keyring's records and the store. -/
theorem Dev.createCode_congr {a b : Dev} (num : Nat) (x : Key) (hslots : b.kr.slots = a.kr.slots) (hrecs : b.kr.recs = a.kr.recs)
    (hcontested : b.kr.contested = a.kr.contested) (hnv : b.nv = a.nv)
    (hobjs : b.objs = a.objs) : b.createCode num x = a.createCode num x := by
  unfold Dev.createCode Dev.keyState Dev.contested Dev.keyRevoked Dev.keyRec Dev.keyRegionCode Dev.keyPageOf Dev.on Dev.g
  rw [hslots, hrecs, hcontested, hnv, hobjs]

theorem Dev.lastComponent_refused (hopen : d.isOpen k = true) {c : Components}
    (h : d.createCode c.tpl.num (c.tpl.key (c.values.foldl Nat.xor 0)) ≠ 0) :
    d.Answers k (d.createCode c.tpl.num (c.tpl.key (c.values.foldl Nat.xor 0))) (d.lastComponent e k c) := by
  have hcmd : d.lastComponent e k c =
    d.keyRefuse e k 0x40 (d.createCode c.tpl.num (c.tpl.key (c.values.foldl Nat.xor 0))) c.tpl.num := if_pos h
  rw [hcmd]
  exact Dev.keyRefuse_answers e hopen ..

theorem Dev.lastComponent_makes (hopen : d.isOpen k = true) {c : Components}
    (h : d.createCode c.tpl.num (c.tpl.key (c.values.foldl Nat.xor 0)) = 0) :
    d.Makes k c.tpl.num (c.tpl.key (c.values.foldl Nat.xor 0)) (d.lastComponent e k c) ∧
    (d.lastComponent e k c).answer.code = 0 := by
  have hcmd : d.lastComponent e k c = ((d.createKey e k c.tpl.num (c.tpl.key (c.values.foldl Nat.xor 0))).updTpl k fun t =>
    { t with finalKcv := checkBytes (c.values.foldl Nat.xor 0) }).answerCode 0 := if_neg fun hne => hne h
  rw [hcmd]
  have hmade := Dev.createKey_makes e (k := k) hopen fun hkept => Dev.page_of_createCode h hkept
  exact ⟨(hmade.updTpl (f := fun t => { t with finalKcv := checkBytes (c.values.foldl Nat.xor 0) }) fun _ => rfl).answerCode 0,
    rfl⟩

/-! ## KR_ZEROISE_ALL -/

theorem Dev.zeroise_comp (d : Dev) : (d.zeroise e).kr.comp = none := by
  rw [d.zeroise_eq]
  generalize (d.undoKeys fun _ => true).emptySas e.now (fun _ => true) = x
  exact List.foldlRecOn (motive := fun b : Dev => b.kr.comp = none) _ _ rfl fun _ hb _ _ => hb

theorem Dev.eraseKeys_kr (d : Dev) (forced : Bool) :
    (d.eraseKeys forced).kr = { d.kr with recs := [], contested := [] } := by
  have hwrites := Dev.Records.foldl d d.nv.keyPages (fun (d : Dev) (p : Nat × Nat) =>
    d.nvWrite { region := 4, id := p.1, page := p.2, body := List.replicate 256 0, forced := forced })
    fun b p => b.nvWrite_records _
  exact (congrArg (fun u : KrUnit => { u with recs := [], contested := [] }) hwrites.kr :)

theorem Dev.zeroiseAll_refused (h : d.serviceCode false ≠ 0) :
    d.zeroiseAll e k = d.answerCode (d.serviceCode false) := by
  have hcode : firstFailing [d.serviceCode false, d.keyRegionCode] = d.serviceCode false := firstFailing_head h _
  exact (if_pos (by rw [hcode]; exact h)).trans (congrArg d.answerCode hcode)

theorem Dev.zeroiseAll_barred (h : d.serviceCode false = 0) (hregion : d.keyRegionCode ≠ 0) :
    d.zeroiseAll e k = d.answerCode d.keyRegionCode := by
  have hcode : firstFailing [d.serviceCode false, d.keyRegionCode] = d.keyRegionCode :=
    (firstFailing_tail h _).trans (firstFailing_head hregion _)
  exact (if_pos (by rw [hcode]; exact hregion)).trans (congrArg d.answerCode hcode)

theorem Dev.zeroiseAll_clears (h : d.serviceCode false = 0) (hregion : d.keyRegionCode = 0) :
    (d.zeroiseAll e k).answer.code = 0 ∧ (d.zeroiseAll e k).kr.slots = [] ∧ (d.zeroiseAll e k).kr.recs = [] ∧
    (d.zeroiseAll e k).kr.comp = none := by
  have hcode : firstFailing [d.serviceCode false, d.keyRegionCode] = 0 :=
    (firstFailing_tail h _).trans (firstFailing_tail hregion _)
  have hcmd : d.zeroiseAll e k =
    (((d.zeroise e).eraseKeys false).ledger e 0x4B (d.origin k) 0x5400 7 0 7).answerCode 0 :=
    (if_neg fun hne => hne hcode).trans rfl
  rw [hcmd]
  have hkr := (((d.zeroise e).eraseKeys false).ledger_records e 0x4B (d.origin k) 0x5400 7 0 7).kr.trans
    ((d.zeroise e).eraseKeys_kr false)
  have hslots := d.zeroise_slots e
  have hcomp := d.zeroise_comp e
  generalize ((d.zeroise e).eraseKeys false).ledger e 0x4B (d.origin k) 0x5400 7 0 7 = y at hkr ⊢
  generalize d.zeroise e = z at hkr hslots hcomp
  rw [Dev.answerCode_kr, hkr]
  exact ⟨rfl, hslots, rfl, hcomp⟩

/-! ## Waiting for the island (R465) -/

theorem Dev.onIsland_waits {x : Session} (index sub : Nat) (data : List Byte) (f : Dev → Dev) (hx : d.session k = some x)
    (h : d.g .krIslandState = 1) : d.onIsland k index sub data f = d.holdRequest ⟨x.peer, index, sub, some data⟩ := by
  unfold Dev.onIsland
  rw [hx]
  exact if_pos h

theorem Dev.onIsland_serves (index sub : Nat) (data : List Byte) (f : Dev → Dev) (hopen : d.isOpen k = true)
    (h : d.g .krIslandState ≠ 1) : d.onIsland k index sub data f = f d := by
  obtain ⟨x, hx⟩ := Dev.session_of_isOpen hopen
  unfold Dev.onIsland
  rw [hx]
  exact if_neg h

end

end Sys2Proof.Machine
end

section
/-!
The Keyring's commands as requests of a session (R411, R458, R462).
-/

namespace Sys2Proof.Machine

/-! ## What an accepted request leaves -/

/-- What a request leaves once its code is kept with the session. -/
structure Dev.Served (d d' : Dev) : Prop where
  answer : d'.answer = d.answer
  late : d'.late = d.late
  ses : d'.ses = d.ses
  kr : d'.kr = d.kr
  io : d'.io = d.io
  fuses : d'.fuses = d.fuses
  objs : ∀ o, o ≠ .sesLastStatus → ∀ i, d'.g o i = d.g o i

theorem Dev.closeRequest_served (d : Dev) (k : Nat) (ps : List Post) : d.Served { d.closeRequest k with posts := ps } := by
  have hsame := d.closeRequest_same k
  exact ⟨(congrArg Dev.answer hsame :), (congrArg Dev.late hsame :), (congrArg Dev.ses hsame :), (congrArg Dev.kr hsame :),
    (congrArg Dev.io hsame :), (congrArg Dev.fuses hsame :), fun o ho i => d.closeRequest_g k i ho⟩

section
variable {s : State} {k : Nat} {c : Instr} {o : Obj} {f : Env → Dev → Dev}

theorem State.accepted_served (hs : s.Awake 7) (hc : exec c s = s.at 7 fun e d => d.request e k o (f e)) (ha : s.Accepts k o) :
    ∃ t, exec c s = .next t ∧ (f (s.enter 7).env (s.asking k)).Served t.dev :=
  ⟨_, State.accepted hs hc ha, Dev.closeRequest_served _ k []⟩

theorem State.Accepts.isOpen (ha : s.Accepts k o) : (s.asking k).isOpen k = true := (s.asking_isOpen k k).trans ha.2.1

/-- The Keyring answers command `c` of session `k`, and no key has changed. -/
def State.Replies (s : State) (k : Nat) (c : Instr) (code : Nat) : Prop := ∃ t, exec c s = .next t ∧ t.dev.answer.code = code ∧
  (t.dev.tpl k).status = code ∧ t.dev.kr.slots = (s.asking k).kr.slots ∧ t.dev.kr.recs = (s.asking k).kr.recs ∧
  t.dev.io = (s.asking k).io

/-- Key `x` has been created under a number for session `k`. -/
def State.Made (s : State) (k : Nat) (t : State) (num : Nat) (x : Key) : Prop := t.dev.answer.code = 0 ∧
  Late.flag .krEventFlags 0 1 ∈ t.dev.late ∧ t.dev.kr.slots = (s.asking k).kr.slots ∧
  (x.persist = 1 → ∃ r, t.dev.keyRec num = some r ∧ r.revoked = false ∧ r.blob.length = 64) ∧
  (x.persist ≠ 1 → (t.dev.tpl k).blob.length = 64 ∧ t.dev.kr.recs = (s.asking k).kr.recs)

/-- Command `c` of session `k` waits for the island as a write of the object. -/
def State.Waits (s : State) (k : Nat) (c : Instr) (index sub : Nat) (data : List Byte) : Prop := ∃ t x, exec c s = .next t ∧
  (s.asking k).session k = some x ∧ t.dev.ses.held = (s.asking k).ses.held ++ [⟨x.peer, index, sub, some data⟩] ∧
  t.dev.kr = (s.asking k).kr ∧ t.dev.fuses = (s.asking k).fuses

theorem State.replies_of_answers (hs : s.Awake 7) (hc : exec c s = s.at 7 fun e d => d.request e k o (f e)) (ha : s.Accepts k o)
    {code : Nat} (h : (s.asking k).Answers k code (f (s.enter 7).env (s.asking k))) : s.Replies k c code := by
  obtain ⟨t, ht, hl⟩ := State.accepted_served hs hc ha
  refine ⟨t, ht, (congrArg (·.code) hl.answer).trans h.answer, ?_, congrArg (·.slots) (hl.kr.trans h.kr),
    congrArg (·.recs) (hl.kr.trans h.kr), hl.io.trans h.io⟩
  rw [Dev.tpl_of_ses hl.ses]
  exact h.status

theorem State.made_of_makes {t : State} {num : Nat} {x : Key} {a y : Dev} (hl : y.Served t.dev) (h : a.Makes k num x y)
    (hslots : a.kr.slots = (s.asking k).kr.slots) (hrecs : a.kr.recs = (s.asking k).kr.recs) (hanswer : y.answer.code = 0) :
    s.Made k t num x := by
  refine ⟨(congrArg (·.code) hl.answer).trans hanswer, hl.late ▸ h.event,
    (congrArg (·.slots) hl.kr).trans (h.slots.trans hslots),
    fun hx => ?_, fun hx => ?_⟩
  · unfold Dev.keyRec
    rw [hl.kr]
    exact h.kept hx
  · rw [Dev.tpl_of_ses hl.ses, hl.kr, ← hrecs]
    exact h.carried hx

/-- A request that waits is held for its session. -/
theorem State.waits_of_held (hs : s.Awake 7) (hc : exec c s = s.at 7 fun e d => d.request e k o (f e)) (ha : s.Accepts k o)
    {index sub : Nat} {data : List Byte} (h : ∀ x, (s.asking k).session k = some x → f (s.enter 7).env (s.asking k) =
      (s.asking k).holdRequest ⟨x.peer, index, sub, some data⟩) : s.Waits k c index sub data := by
  obtain ⟨t, ht, hl⟩ := State.accepted_served hs hc ha
  obtain ⟨x, hx⟩ := Dev.session_of_isOpen ha.isOpen
  rw [h x hx] at hl
  exact ⟨t, x, ht, hx, congrArg (·.held) hl.ses, hl.kr, hl.fuses⟩

end

/-! ## The commands of `kr_cmd` -/

/-- The Keyring commands of session `k`, and their values of `kr_cmd`. -/
def keyringCommands (k : Nat) : List (Instr × Nat) :=
  [(.krGenerate k, 1), (.krImportComponents k, 2), (.krImportTransport k, 3), (.krExport k, 4), (.krRevoke k, 5),
    (.krLoad k, 6), (.krQuery k, 7)]

theorem exec_keyringCommand {k : Nat} {c : Instr} {n : Nat} (h : (c, n) ∈ keyringCommands k) (s : State) :
    exec c s = s.at 7 fun e d => d.request e k .krCmd fun d => d.krCommand e k n := by
  simp only [keyringCommands, List.mem_cons, Prod.mk.injEq, List.not_mem_nil, or_false] at h
  rcases h with ⟨rfl, rfl⟩ | ⟨rfl, rfl⟩ | ⟨rfl, rfl⟩ | ⟨rfl, rfl⟩ | ⟨rfl, rfl⟩ | ⟨rfl, rfl⟩ | ⟨rfl, rfl⟩ <;> rfl

theorem keyringCommands_number {k : Nat} {c : Instr} {n : Nat} (h : (c, n) ∈ keyringCommands k) : n ∈ [1, 2, 3, 4, 5, 6, 7] :=
  List.mem_map_of_mem (f := Prod.snd) h

section
variable {s : State} {k : Nat} (hs : s.Awake 7) (ha : s.Accepts k .krCmd)
include hs ha

theorem keyringCommand_replies {c : Instr} {n code : Nat} (hc : (c, n) ∈ keyringCommands k)
    (h : (s.asking k).Answers k code ((s.asking k).krCommand (s.enter 7).env k n)) : s.Replies k c code :=
  State.replies_of_answers hs (exec_keyringCommand hc s) ha h

theorem keyringCommand_served {c : Instr} {n : Nat} (hc : (c, n) ∈ keyringCommands k) :
    ∃ t, exec c s = .next t ∧ ((s.asking k).krCommand (s.enter 7).env k n).Served t.dev :=
  State.accepted_served hs (exec_keyringCommand hc s) ha

/-- Every command waits, or is refused, as the island stands. -/
theorem keyringCommands_unserved (c : Instr) (n : Nat) (hc : (c, n) ∈ keyringCommands k) :
    ((s.asking k).g .krIslandState = 1 → ∃ t, exec c s = .next t ∧
      t.dev.kr = { (s.asking k).kr with waiting := (s.asking k).kr.waiting ++ [(k, n)] }) ∧
    ((s.asking k).g .krIslandState = 2 → s.Replies k c 0x0645) ∧
    ((s.asking k).g .krIslandState ≠ 1 → (s.asking k).g .krIslandState ≠ 2 → (s.asking k).kr.hold = true →
      s.Replies k c 0x0646) ∧
    (n ∈ [1, 2, 3, 6] → (s.asking k).g .krIslandState ≠ 1 → (s.asking k).g .krIslandState ≠ 2 →
      (s.asking k).kr.hold = false → (s.asking k).g .krRootState ≠ 1 → s.Replies k c 0x0641) := by
  have hnum := keyringCommands_number hc
  refine ⟨fun h => ?_, fun h => ?_, fun h1 h2 hold => ?_, fun hn h1 h2 hold hroot => ?_⟩
  · obtain ⟨t, ht, hl⟩ := keyringCommand_served hs ha hc
    rw [Dev.krCommand_waits _ n h] at hl
    exact ⟨t, ht, hl.kr⟩
  · exact keyringCommand_replies hs ha hc (Dev.krCommand_unserved _ ha.isOpen (by rw [h]; decide) (by decide)
      (fun root => Dev.serviceCode_error h root) hnum)
  · exact keyringCommand_replies hs ha hc (Dev.krCommand_unserved _ ha.isOpen h1 (by decide)
      (fun root => Dev.serviceCode_held h2 hold root) hnum)
  · have hcode := Dev.serviceCode_rootless h2 hold hroot
    have hanswers := Dev.krCommand_rootless (s.enter 7).env (k := k) ha.isOpen h1 (by rw [hcode]; decide) hn
    rw [hcode] at hanswers
    exact keyringCommand_replies hs ha hc hanswers

theorem krGenerate_and_components (h1 : (s.asking k).g .krIslandState ≠ 1) (hservice : (s.asking k).serviceCode true = 0) :
    let d := s.asking k
    let m := d.tpl k
    let code := d.createCode m.num (m.key 0)
    (code ≠ 0 → s.Replies k (.krGenerate k) code ∧ s.Replies k (.krImportComponents k) code) ∧
    (code = 0 →
      (∃ t x, exec (.krGenerate k) s = .next t ∧ x = m.key x.secret ∧ s.Made k t m.num x ∧ (t.dev.tpl k).status = 0) ∧
      (∃ t, exec (.krImportComponents k) s = .next t ∧ t.dev.answer.code = 0 ∧
        t.dev.kr.comp = some { since := (s.enter 7).clk.elapsed, ses := k, tpl := m, parts := m.parts })) := by
  intro d m code
  have hopen : d.isOpen k = true := ha.isOpen
  obtain ⟨hg, hm, -⟩ := Dev.krCommand_serves (s.enter 7).env (k := k) h1
  have hcg : (Instr.krGenerate k, 1) ∈ keyringCommands k := List.mem_cons_self
  have hcm : (Instr.krImportComponents k, 2) ∈ keyringCommands k := List.mem_cons_of_mem _ List.mem_cons_self
  constructor
  · intro hcode
    have hgen : d.generateCode k = code := (firstFailing_tail hservice _).trans (firstFailing_head hcode _)
    rw [← hgen] at hcode ⊢
    exact ⟨keyringCommand_replies hs ha hcg (hg ▸ Dev.krGenerate_refused _ hopen hcode),
      keyringCommand_replies hs ha hcm (hm ▸ Dev.krComponents_refused _ hopen hcode)⟩
  · intro hcode
    constructor
    · obtain ⟨t, ht, hl⟩ := keyringCommand_served hs ha hcg
      rw [hg] at hl
      obtain ⟨x, hx, hmakes, hanswer, hstatus⟩ := Dev.krGenerate_makes (s.enter 7).env hopen hservice hcode
      refine ⟨t, x, ht, hx, State.made_of_makes hl hmakes rfl rfl hanswer, ?_⟩
      rw [Dev.tpl_of_ses hl.ses]
      exact hstatus
    · obtain ⟨t, ht, hl⟩ := keyringCommand_served hs ha hcm
      rw [hm] at hl
      obtain ⟨hanswer, hcomp⟩ := Dev.krComponents_opens (s.enter 7).env hservice hcode
      exact ⟨t, ht, (congrArg (·.code) hl.answer).trans hanswer, (congrArg (·.comp) hl.kr).trans hcomp⟩

theorem krImportTransport_imports (h1 : (s.asking k).g .krIslandState ≠ 1) (hservice : (s.asking k).serviceCode true = 0) :
    let d := s.asking k
    let m := d.tpl k
    let needs := d.invokeCode m.transport (d.g .sesRole k) servesTransport
    let x := (d.keyOf m.transport).bind fun (w : Key) => d.unwrapKey (some w.secret) m.blob
    (needs ≠ 0 → s.Replies k (.krImportTransport k) needs) ∧
    (needs = 0 → x = none → s.Replies k (.krImportTransport k) 0x0647) ∧
    (needs = 0 → ∀ y, x = some y →
      (d.createCode (blobField m.blob 4 4) y ≠ 0 →
        s.Replies k (.krImportTransport k) (d.createCode (blobField m.blob 4 4) y)) ∧
      (d.createCode (blobField m.blob 4 4) y = 0 →
        ∃ t, exec (.krImportTransport k) s = .next t ∧ s.Made k t (blobField m.blob 4 4) y ∧ (t.dev.tpl k).status = 0)) := by
  intro d m needs x
  have hopen : d.isOpen k = true := ha.isOpen
  obtain ⟨-, -, ht3, -⟩ := Dev.krCommand_serves (s.enter 7).env (k := k) h1
  have hc : (Instr.krImportTransport k, 3) ∈ keyringCommands k :=
    List.mem_cons_of_mem _ (List.mem_cons_of_mem _ List.mem_cons_self)
  have hcode : d.transportCode k = firstFailing [needs] := firstFailing_tail hservice _
  refine ⟨fun hne => ?_, fun h0 hx => ?_, fun h0 y hy => ⟨fun hcreate => ?_, fun hcreate => ?_⟩⟩
  · have hneeds : d.transportCode k = needs := hcode.trans (firstFailing_head hne _)
    rw [← hneeds] at hne ⊢
    exact keyringCommand_replies hs ha hc (ht3 ▸ Dev.krTransport_refused _ hopen hne)
  · exact keyringCommand_replies hs ha hc
      (ht3 ▸ Dev.krTransport_bad _ hopen (hcode.trans (firstFailing_tail h0 _)) hx)
  · have hcmd := Dev.krTransport_imports (s.enter 7).env (hcode.trans (firstFailing_tail h0 _)) hy
    exact keyringCommand_replies hs ha hc ((ht3.trans hcmd) ▸ Dev.importKey_refused _ hopen hcreate)
  · have hcmd := Dev.krTransport_imports (s.enter 7).env (hcode.trans (firstFailing_tail h0 _)) hy
    obtain ⟨t, ht, hl⟩ := keyringCommand_served hs ha hc
    rw [ht3.trans hcmd] at hl
    obtain ⟨hmakes, hanswer, hstatus⟩ := Dev.importKey_makes (s.enter 7).env hopen hcreate
    refine ⟨t, ht, State.made_of_makes hl hmakes rfl rfl hanswer, ?_⟩
    rw [Dev.tpl_of_ses hl.ses]
    exact hstatus

theorem krLoad_loads (h1 : (s.asking k).g .krIslandState ≠ 1) (hservice : (s.asking k).serviceCode true = 0) :
    let d := s.asking k
    let m := d.tpl k
    let num := blobField m.blob 4 4
    (m.blob.length ≠ 64 → s.Replies k (.krLoad k) 0x0647) ∧
    (m.blob.length = 64 →
      (d.keyState num = 3 → s.Replies k (.krLoad k) 0x064F) ∧ (d.keyState num = 4 → s.Replies k (.krLoad k) 0x064E) ∧
      (d.keyState num ∉ [0, 3, 4] → s.Replies k (.krLoad k) 0x064A) ∧
      (d.keyState num = 0 → 256 ≤ d.kr.slots.length → s.Replies k (.krLoad k) 0x0644) ∧
      (d.keyState num = 0 → d.kr.slots.length < 256 →
        (d.unwrapKey none m.blob = none → s.Replies k (.krLoad k) 0x0647) ∧
        (∀ x, d.unwrapKey none m.blob = some x →
          (¬(x.attrsOk = true ∧ x.persist = 0) → s.Replies k (.krLoad k) 0x0642) ∧
          (x.attrsOk = true → x.persist = 0 → ∃ t, exec (.krLoad k) s = .next t ∧ t.dev.answer.code = 0 ∧
            t.dev.kr.slots = d.kr.slots.put num x)))) := by
  intro d m num
  have hopen : d.isOpen k = true := ha.isOpen
  obtain ⟨-, -, -, -, -, h6, -⟩ := Dev.krCommand_serves (s.enter 7).env (k := k) h1
  have hc : (Instr.krLoad k, 6) ∈ keyringCommands k := by
    simp only [keyringCommands, List.mem_cons, true_or, or_true]
  have hrefused {code : Nat} (hcode : d.loadCode k = code) (hne : code ≠ 0) : s.Replies k (.krLoad k) code := by
    rw [← hcode] at hne ⊢
    exact keyringCommand_replies hs ha hc (h6 ▸ Dev.krLoad_refused _ hopen hne)
  constructor
  · intro hlen
    exact hrefused ((firstFailing_tail hservice _).trans
      ((firstFailing_head (by rw [if_neg hlen]; decide) _).trans (if_neg hlen))) (by decide)
  · intro hlen
    have hstate {x : Nat} (hx : d.loadState num = x) (hne : x ≠ 0) : d.loadCode k = x :=
      (firstFailing_tail hservice _).trans ((firstFailing_tail (if_pos hlen) _).trans
        ((firstFailing_head (by rw [hx]; exact hne) _).trans hx))
    have hroom (h0 : d.keyState num = 0) : d.loadCode k = firstFailing [if 256 ≤ d.kr.slots.length then 0x0644 else 0] :=
      (firstFailing_tail hservice _).trans ((firstFailing_tail (if_pos hlen) _).trans
        (firstFailing_tail (by unfold Dev.loadState; rw [h0]; rfl) _))
    refine ⟨fun h => hrefused (hstate (by unfold Dev.loadState; rw [h]; rfl) (by decide)) (by decide),
      fun h => hrefused (hstate (by unfold Dev.loadState; rw [h]; rfl) (by decide)) (by decide),
      fun h => hrefused (hstate (Dev.loadState_other h) (by decide)) (by decide), fun h0 hfull => ?_, fun h0 hfree => ?_⟩
    · exact hrefused ((hroom h0).trans (by rw [if_pos hfull]; rfl)) (by decide)
    · have hcode : d.loadCode k = 0 := (hroom h0).trans (by rw [if_neg (Nat.not_le.2 hfree)]; rfl)
      refine ⟨fun hx => keyringCommand_replies hs ha hc (h6 ▸ Dev.krLoad_bad _ hopen hcode hx), fun x hx => ?_⟩
      have hcmd := h6.trans (Dev.krLoad_loads (s.enter 7).env hcode hx)
      constructor
      · intro hunfit
        exact keyringCommand_replies hs ha hc (hcmd ▸ Dev.loadKey_unfit _ hopen hunfit)
      · intro hattrs hpersist
        obtain ⟨t, ht, hl⟩ := keyringCommand_served hs ha hc
        rw [hcmd] at hl
        obtain ⟨hanswer, hslots⟩ := Dev.loadKey_present (s.enter 7).env (d := d) (k := k) hattrs hpersist
        exact ⟨t, ht, (congrArg (·.code) hl.answer).trans hanswer, (congrArg (·.slots) hl.kr).trans hslots⟩

theorem krExport_exports (h1 : (s.asking k).g .krIslandState ≠ 1) (hservice : (s.asking k).serviceCode false = 0) :
    let d := s.asking k
    let m := d.tpl k
    let own := d.invokeCode m.num 3 (fun _ => true)
    let needs := d.invokeCode m.transport (d.g .sesRole k) servesTransport
    (own ≠ 0 → s.Replies k (.krExport k) own) ∧
    (own = 0 → ∀ y, d.keyOf m.num = some y →
      (y.use ≠ 4 → s.Replies k (.krExport k) 0x064D) ∧
      (y.use = 4 → needs ≠ 0 → s.Replies k (.krExport k) needs) ∧
      (y.use = 4 → needs = 0 → ∃ t, exec (.krExport k) s = .next t ∧ t.dev.answer.code = 0 ∧
        (t.dev.tpl k).blob.length = 64 ∧ t.dev.kr.slots = d.kr.slots ∧ t.dev.kr.recs = d.kr.recs)) := by
  intro d m own needs
  have hopen : d.isOpen k = true := ha.isOpen
  obtain ⟨-, -, -, h4, -⟩ := Dev.krCommand_serves (s.enter 7).env (k := k) h1
  have hc : (Instr.krExport k, 4) ∈ keyringCommands k := by
    simp only [keyringCommands, List.mem_cons, true_or, or_true]
  have hrefused {code : Nat} (hcode : d.exportCode k = code) (hne : code ≠ 0) : s.Replies k (.krExport k) code := by
    rw [← hcode] at hne ⊢
    exact keyringCommand_replies hs ha hc (h4 ▸ Dev.krExport_refused _ hopen hne)
  have hcode : d.exportCode k = firstFailing [own, d.exportUse m.num, needs] := firstFailing_tail hservice _
  refine ⟨fun hne => hrefused (hcode.trans (firstFailing_head hne _)) hne, fun h0 y hy => ?_⟩
  have huse : d.exportUse m.num = if y.use = 4 then 0 else 0x064D := by
    unfold Dev.exportUse
    rw [hy]
  have htail : d.exportCode k = firstFailing [d.exportUse m.num, needs] := hcode.trans (firstFailing_tail h0 _)
  refine ⟨fun h4 => ?_, fun hyes hne => ?_, fun hyes hneeds => ?_⟩
  · rw [if_neg h4] at huse
    exact hrefused (htail.trans ((firstFailing_head (by rw [huse]; decide) _).trans huse)) (by decide)
  · rw [if_pos hyes] at huse
    exact hrefused (htail.trans ((firstFailing_tail huse _).trans (firstFailing_head hne _))) hne
  · rw [if_pos hyes] at huse
    have hzero : d.exportCode k = 0 := htail.trans ((firstFailing_tail huse _).trans (firstFailing_tail hneeds _))
    obtain ⟨w, hw⟩ := Dev.keyOf_of_invokeCode hneeds
    obtain ⟨t, ht, hl⟩ := keyringCommand_served hs ha hc
    rw [h4.trans (Dev.krExport_exports (s.enter 7).env hzero hy hw)] at hl
    obtain ⟨hanswer, hblob, hslots, hrecs⟩ := Dev.exportKey_effects (s.enter 7).env hopen y w
    refine ⟨t, ht, (congrArg (·.code) hl.answer).trans hanswer, ?_, (congrArg (·.slots) hl.kr).trans hslots,
      (congrArg (·.recs) hl.kr).trans hrecs⟩
    rw [Dev.tpl_of_ses hl.ses]
    exact hblob

theorem krRevoke_revokes (h1 : (s.asking k).g .krIslandState ≠ 1) (hservice : (s.asking k).serviceCode false = 0) :
    let d := s.asking k
    let m := d.tpl k
    (d.keyState m.num = 0 → s.Replies k (.krRevoke k) 0x0640) ∧
    (d.keyState m.num = 3 → s.Replies k (.krRevoke k) 0x064F) ∧
    (d.keyState m.num ∉ [0, 3] → d.keyRegionCode ≠ 0 → s.Replies k (.krRevoke k) d.keyRegionCode) ∧
    (d.keyState m.num ∉ [0, 3] → d.keyRegionCode = 0 → d.keyPageOf m.num = none → s.Replies k (.krRevoke k) 0x064B) ∧
    (d.keyState m.num ∉ [0, 3] → d.keyRegionCode = 0 → d.keyPageOf m.num ≠ none →
      ∃ t, exec (.krRevoke k) s = .next t ∧ t.dev.answer.code = 0 ∧ t.dev.kr.slots.find m.num = none ∧
        t.dev.keyRec m.num = some { revoked := true, blob := [] } ∧ t.dev.keyState m.num = 3 ∧
        Late.flag .krEventFlags 0 8 ∈ t.dev.late) := by
  intro d m
  obtain ⟨-, -, -, -, h5, -⟩ := Dev.krCommand_serves (s.enter 7).env (k := k) h1
  have hc : (Instr.krRevoke k, 5) ∈ keyringCommands k := by
    simp only [keyringCommands, List.mem_cons, true_or, or_true]
  have hrefused {code : Nat} (hcode : d.revokeCode k = code) (hne : code ≠ 0) : s.Replies k (.krRevoke k) code := by
    rw [← hcode] at hne ⊢
    exact keyringCommand_replies hs ha hc (h5 ▸ Dev.krRevoke_refused _ ha.isOpen hne)
  have hstate {x : Nat} (hx : d.revokeState m.num = x) (hne : x ≠ 0) : d.revokeCode k = x :=
    (firstFailing_tail hservice _).trans ((firstFailing_head (by rw [hx]; exact hne) _).trans hx)
  have hother (h : d.keyState m.num ∉ [0, 3]) : d.revokeCode k =
      firstFailing [d.keyRegionCode, if (d.keyPageOf m.num).isNone then 0x064B else 0] :=
    (firstFailing_tail hservice _).trans (firstFailing_tail (Dev.revokeState_other h) _)
  refine ⟨fun h => hrefused (hstate (by unfold Dev.revokeState; rw [h]; rfl) (by decide)) (by decide),
    fun h => hrefused (hstate (by unfold Dev.revokeState; rw [h]; rfl) (by decide)) (by decide),
    fun h hne => hrefused ((hother h).trans (firstFailing_head hne _)) hne, fun h hregion hpage => ?_,
    fun h hregion hpage => ?_⟩
  · refine hrefused ((hother h).trans ((firstFailing_tail hregion _).trans ?_)) (by decide)
    rw [hpage]
    rfl
  · obtain ⟨p, hp⟩ := Option.ne_none_iff_exists'.1 hpage
    have hzero : d.revokeCode k = 0 := (hother h).trans ((firstFailing_tail hregion _).trans (by rw [hp]; rfl))
    obtain ⟨t, ht, hl⟩ := keyringCommand_served hs ha hc
    rw [h5] at hl
    obtain ⟨hanswer, hslot, hrec, hkeyState, hflag⟩ := Dev.krRevoke_effects (s.enter 7).env hzero hp
    generalize (s.asking k).krRevoke (s.enter 7).env k = y at hl hanswer hslot hrec hkeyState hflag
    have hkept : t.dev.keyRec m.num = y.keyRec m.num ∧ t.dev.keyState m.num = 3 := by
      unfold Dev.keyRec
      refine ⟨congrArg (fun u : KrUnit => u.recs.find m.num) hl.kr, ?_⟩
      unfold Dev.keyState Dev.contested Dev.keyRevoked Dev.keyRec at hkeyState ⊢
      rw [hl.kr, hl.objs .krRootState (by decide)]
      exact hkeyState
    exact ⟨t, ht, (congrArg (·.code) hl.answer).trans hanswer, hl.kr ▸ hslot, hkept.1.trans hrec, hkept.2, hl.late ▸ hflag⟩

theorem krQuery_finds (h1 : (s.asking k).g .krIslandState ≠ 1) (hservice : (s.asking k).serviceCode false = 0) :
    ∃ t, exec (.krQuery k) s = .next t ∧ t.dev.answer.code = 0 ∧
      (t.dev.tpl k).qState = (s.asking k).keyState ((s.asking k).tpl k).num ∧ t.dev.kr = (s.asking k).kr := by
  obtain ⟨-, -, -, -, -, -, h7⟩ := Dev.krCommand_serves (s.enter 7).env (k := k) h1
  have hc : (Instr.krQuery k, 7) ∈ keyringCommands k := by
    simp only [keyringCommands, List.mem_cons, true_or, or_true]
  obtain ⟨t, ht, hl⟩ := keyringCommand_served hs ha hc
  rw [h7] at hl
  obtain ⟨hanswer, hstate, hkr⟩ := Dev.krQuery_answers ha.isOpen hservice
  refine ⟨t, ht, (congrArg (·.code) hl.answer).trans hanswer, ?_, hl.kr.trans hkr⟩
  rw [Dev.tpl_of_ses hl.ses]
  exact hstate

end

end Sys2Proof.Machine
end

section
/-!
Components, zeroisation, images and rollback counters as requests of a session (R459, R464, R472).
-/

namespace Sys2Proof.Machine

theorem exec_kcValue (k : Nat) (v : List Byte) (s : State) : exec (.kcValue k v) s = s.at 7 fun e d =>
    d.request e k .kcValue fun d =>
      if v.length ≠ 32 then d.answerCode 0x0204 else d.onIsland k 0x5420 2 v fun d => d.kcValue e k v := rfl

theorem exec_krZeroiseAll (k : Nat) (s : State) : exec (.krZeroiseAll k) s = s.at 7 fun e d =>
    d.request e k .krZeroiseAll fun d => d.onIsland k 0x5400 7 [0xA5#8] fun d => d.zeroiseAll e k := rfl

theorem exec_imgEnrol (k : Nat) (s : State) : exec (.imgEnrol k) s = s.at 7 fun e d =>
    d.request e k .imgEnrolGo fun d => d.onIsland k 0x5440 8 [1#8] fun d => d.imgEnrolNow := rfl

theorem exec_rbAdvance (k kind : Nat) (s : State) : exec (.rbAdvance k kind) s = s.at 7 fun e d =>
    d.request e k .rbAdvance fun d => d.onIsland k 0x5440 5 (leBytes 1 (kind + 1)) fun d => d.rbAdvanceTo e k kind := rfl

theorem exec_componentTimeout (k : Nat) (s : State) : exec (.componentTimeout k) s = s.at 7 fun e d =>
    match d.kr.comp with
    | some c => d.when (c.ses == k && decide (c.since + componentTicks ≤ e.now)) fun d => d.entryClosed
    | none => d := rfl

/-! ## KC_VALUE -/

section
variable {s : State} {k : Nat} (hs : s.Awake 7) (ha : s.Accepts k .kcValue)
include hs ha

/-- What an island in service makes of a component of 32 bytes. -/
theorem kcValue_served {v : List Byte} (hlen : v.length = 32) (h1 : (s.asking k).g .krIslandState ≠ 1) :
    ∃ t, exec (.kcValue k v) s = .next t ∧ ((s.asking k).kcValue (s.enter 7).env k v).Served t.dev := by
  obtain ⟨t, ht, hl⟩ := State.accepted_served hs (exec_kcValue k v s) ha
  rw [if_neg (by rw [hlen]; decide), Dev.onIsland_serves _ _ _ _ ha.isOpen h1] at hl
  exact ⟨t, ht, hl⟩

theorem kcValue_held (v : List Byte) :
    (v.length ≠ 32 → ∃ t, exec (.kcValue k v) s = .next t ∧ t.dev.answer.code = 0x0204 ∧ t.dev.kr = (s.asking k).kr) ∧
    (v.length = 32 → (s.asking k).g .krIslandState = 1 → s.Waits k (.kcValue k v) 0x5420 2 v) ∧
    (v.length = 32 → (s.asking k).g .krIslandState ≠ 1 → (s.asking k).serviceCode true ≠ 0 →
      ∃ t, exec (.kcValue k v) s = .next t ∧ t.dev.answer.code = (s.asking k).serviceCode true ∧
        t.dev.kr = (s.asking k).kr) := by
  refine ⟨fun hlen => ?_, fun hlen h1 => ?_, fun hlen h1 hservice => ?_⟩
  · obtain ⟨t, ht, hl⟩ := State.accepted_served hs (exec_kcValue k v s) ha
    rw [if_pos hlen] at hl
    exact ⟨t, ht, congrArg Answer.code hl.answer, hl.kr⟩
  · refine State.waits_of_held hs (exec_kcValue k v s) ha fun x hx => ?_
    rw [if_neg (by rw [hlen]; decide)]
    exact Dev.onIsland_waits _ _ _ _ hx h1
  · obtain ⟨t, ht, hl⟩ := kcValue_served hs ha hlen h1
    rw [Dev.kcValue_unserved _ v hservice] at hl
    exact ⟨t, ht, congrArg Answer.code hl.answer, hl.kr⟩

theorem kcValue_entry {v : List Byte} (hlen : v.length = 32) (h1 : (s.asking k).g .krIslandState ≠ 1)
    (hservice : (s.asking k).serviceCode true = 0) :
    let d := s.asking k
    (d.components (s.enter 7).env = none → ∃ t, exec (.kcValue k v) s = .next t ∧ t.dev.answer.code = 0x0649) ∧
    (∀ c, d.components (s.enter 7).env = some c →
      (d.g .sesCred k ∈ c.creds → ∃ t, exec (.kcValue k v) s = .next t ∧ t.dev.answer.code = 0x0648 ∧
        t.dev.kr = d.kr) ∧
      (d.g .sesCred k ∉ c.creds → c.values.length + 1 < c.parts → ∃ t, exec (.kcValue k v) s = .next t ∧
        t.dev.answer.code = 0 ∧
        t.dev.kr.comp = some { c with creds := c.creds ++ [d.g .sesCred k], values := c.values ++ [ofLe v] }) ∧
      (d.g .sesCred k ∉ c.creds → c.parts ≤ c.values.length + 1 →
        let x := c.tpl.key ((c.values ++ [ofLe v]).foldl Nat.xor 0)
        (d.createCode c.tpl.num x = 0 → ∃ t, exec (.kcValue k v) s = .next t ∧ s.Made k t c.tpl.num x ∧
          t.dev.kr.comp = none) ∧
        (d.createCode c.tpl.num x ≠ 0 → s.Replies k (.kcValue k v) (d.createCode c.tpl.num x)))) := by
  intro d
  obtain ⟨t, ht, hl⟩ := kcValue_served hs ha hlen h1
  refine ⟨fun hc => ?_, fun c hc => ⟨fun hcred => ?_, fun hcred hmore => ?_, fun hcred hlast => ?_⟩⟩
  · rw [Dev.kcValue_closed _ v hservice hc] at hl
    exact ⟨t, ht, congrArg Answer.code hl.answer⟩
  · rw [Dev.kcValue_again _ v hservice hc hcred] at hl
    exact ⟨t, ht, congrArg Answer.code hl.answer, hl.kr⟩
  · rw [Dev.kcValue_takes _ v hservice hc hcred] at hl
    have hshort : (c.given (d.g .sesCred k) (ofLe v)).values.length < (c.given (d.g .sesCred k) (ofLe v)).parts :=
      (List.length_append ▸ hmore : (c.values ++ [ofLe v]).length < c.parts)
    obtain ⟨hanswer, hcomp⟩ := Dev.takeComponent_more (s.enter 7).env (d := d) (k := k) (ofLe v) hshort
    exact ⟨t, ht, (congrArg Answer.code hl.answer).trans hanswer, (congrArg KrUnit.comp hl.kr).trans hcomp⟩
  · have hfull : ¬(c.given (d.g .sesCred k) (ofLe v)).values.length < (c.given (d.g .sesCred k) (ofLe v)).parts := by
      show ¬(c.values ++ [ofLe v]).length < c.parts
      rw [List.length_append]
      exact Nat.not_lt.2 hlast
    rw [Dev.kcValue_takes _ v hservice hc hcred, Dev.takeComponent_last _ _ hfull] at hl
    have htell := (Dev.Tells.refl d).updTpl k fun t => { t with compKcv := checkBytes (ofLe v) }
    have hsame := d.updTpl_same k fun t => { t with compKcv := checkBytes (ofLe v) }
    have hobjs : (d.updTpl k fun t => { t with compKcv := checkBytes (ofLe v) }).objs = d.objs := (congrArg Dev.objs hsame :)
    have hnv : (d.updTpl k fun t => { t with compKcv := checkBytes (ofLe v) }).nv = d.nv := (congrArg Dev.nv hsame :)
    generalize d.updTpl k (fun t => { t with compKcv := checkBytes (ofLe v) }) = y at hl htell hobjs hnv
    have hyopen : y.entryClosed.isOpen k = true := (htell.opens k).trans ha.isOpen
    have hyslots : y.entryClosed.kr.slots = d.kr.slots := (congrArg KrUnit.slots htell.kr :)
    have hyrecs : y.entryClosed.kr.recs = d.kr.recs := (congrArg KrUnit.recs htell.kr :)
    have hcode (x : Key) : y.entryClosed.createCode c.tpl.num x = d.createCode c.tpl.num x :=
      Dev.createCode_congr _ _ hyslots hyrecs (congrArg KrUnit.contested htell.kr :) hnv hobjs
    have hyio : y.entryClosed.io = d.io := htell.io
    have hycomp : y.entryClosed.kr.comp = none := rfl
    generalize y.entryClosed = z at hl hyopen hyslots hyrecs hcode hyio hycomp
    constructor
    · intro hcreate
      obtain ⟨hmakes, hanswer⟩ := Dev.lastComponent_makes (s.enter 7).env (c := c.given (d.g .sesCred k) (ofLe v)) hyopen
        ((hcode _).trans hcreate)
      exact ⟨t, ht, State.made_of_makes hl hmakes hyslots hyrecs hanswer,
        (congrArg KrUnit.comp hl.kr).trans (hmakes.comp.trans hycomp)⟩
    · intro hcreate
      have hx := hcode (c.tpl.key ((c.values ++ [ofLe v]).foldl Nat.xor 0))
      obtain ⟨hanswer, hstatus, hkr, hio⟩ := Dev.lastComponent_refused (s.enter 7).env
        (c := c.given (d.g .sesCred k) (ofLe v)) hyopen (fun h0 => hcreate (hx.symm.trans h0))
      refine ⟨t, ht, (congrArg Answer.code hl.answer).trans (hanswer.trans hx), ?_,
        (congrArg KrUnit.slots (hl.kr.trans hkr)).trans hyslots, (congrArg KrUnit.recs (hl.kr.trans hkr)).trans hyrecs,
        (hl.io.trans hio).trans hyio⟩
      rw [Dev.tpl_of_ses hl.ses]
      exact hstatus.trans hx

end

/-! ## COMPONENT_TIMEOUT -/

theorem componentTimeout_stands {s : State} (hs : s.Awake 7) (k : Nat)
    (h : ∀ c, (s.enter 7).dev.kr.comp = some c → c.ses = k → (s.enter 7).clk.elapsed < c.since + 2400000000) :
    exec (.componentTimeout k) s = .next (s.enter 7) := by
  rw [exec_componentTimeout]
  refine s.at_id 7 _ hs ?_
  cases hc : (s.enter 7).dev.kr.comp with
  | none => rfl
  | some c =>
    refine Dev.when_of_false _ _ (Bool.eq_false_iff.2 fun ht => ?_)
    rw [Bool.and_eq_true, beq_iff_eq, decide_eq_true_eq] at ht
    exact Nat.not_le.2 (h c hc ht.1) ht.2

theorem componentTimeout_closes {s : State} (hs : s.Awake 7) (k : Nat) (c : Components) (hc : (s.enter 7).dev.kr.comp = some c)
    (hses : c.ses = k) (h : c.since + 2400000000 ≤ (s.enter 7).clk.elapsed) : exec (.componentTimeout k) s =
      .next ((s.enter 7).become { (s.enter 7).dev with kr := { (s.enter 7).dev.kr with comp := none } }) := by
  rw [exec_componentTimeout]
  refine s.at_become 7 _ _ hs ?_ (s.enter_posts 7)
  rw [hc]
  refine Dev.when_of_true _ _ ?_
  rw [Bool.and_eq_true, beq_iff_eq, decide_eq_true_eq]
  exact ⟨hses, h⟩

/-! ## KR_ZEROISE_ALL, IMG_ENROL and RB_ADVANCE -/

section
variable {s : State} {k : Nat} (hs : s.Awake 7)
include hs

theorem krZeroiseAll_clears (ha : s.Accepts k .krZeroiseAll) :
    ((s.asking k).g .krIslandState = 1 → s.Waits k (.krZeroiseAll k) 0x5400 7 [0xA5#8]) ∧
    ((s.asking k).g .krIslandState ≠ 1 → (s.asking k).serviceCode false ≠ 0 → ∃ t, exec (.krZeroiseAll k) s = .next t ∧
      t.dev.answer.code = (s.asking k).serviceCode false ∧ t.dev.kr = (s.asking k).kr) ∧
    ((s.asking k).g .krIslandState ≠ 1 → (s.asking k).serviceCode false = 0 →
      ((s.asking k).keyRegionCode ≠ 0 → ∃ t, exec (.krZeroiseAll k) s = .next t ∧
        t.dev.answer.code = (s.asking k).keyRegionCode ∧ t.dev.kr = (s.asking k).kr) ∧
      ((s.asking k).keyRegionCode = 0 → ∃ t, exec (.krZeroiseAll k) s = .next t ∧ t.dev.answer.code = 0 ∧
        t.dev.kr.slots = [] ∧ t.dev.kr.recs = [] ∧ t.dev.kr.comp = none)) := by
  have hserved (h1 : (s.asking k).g .krIslandState ≠ 1) :
      ∃ t, exec (.krZeroiseAll k) s = .next t ∧ ((s.asking k).zeroiseAll (s.enter 7).env k).Served t.dev := by
    obtain ⟨t, ht, hl⟩ := State.accepted_served hs (exec_krZeroiseAll k s) ha
    rw [Dev.onIsland_serves _ _ _ _ ha.isOpen h1] at hl
    exact ⟨t, ht, hl⟩
  refine ⟨fun h1 => ?_, fun h1 hservice => ?_, fun h1 hservice => ⟨fun hregion => ?_, fun hregion => ?_⟩⟩
  · exact State.waits_of_held hs (exec_krZeroiseAll k s) ha fun x hx => Dev.onIsland_waits _ _ _ _ hx h1
  · obtain ⟨t, ht, hl⟩ := hserved h1
    rw [Dev.zeroiseAll_refused _ hservice] at hl
    exact ⟨t, ht, congrArg Answer.code hl.answer, hl.kr⟩
  · obtain ⟨t, ht, hl⟩ := hserved h1
    rw [Dev.zeroiseAll_barred _ hservice hregion] at hl
    exact ⟨t, ht, congrArg Answer.code hl.answer, hl.kr⟩
  · obtain ⟨t, ht, hl⟩ := hserved h1
    obtain ⟨hanswer, hslots, hrecs, hcomp⟩ := Dev.zeroiseAll_clears (s.enter 7).env (k := k) hservice hregion
    exact ⟨t, ht, (congrArg Answer.code hl.answer).trans hanswer, (congrArg KrUnit.slots hl.kr).trans hslots,
      (congrArg KrUnit.recs hl.kr).trans hrecs, (congrArg KrUnit.comp hl.kr).trans hcomp⟩

theorem imgEnrol_fuses (ha : s.Accepts k .imgEnrolGo) :
    let d := s.asking k
    let a := d.blob .imgHashEcdsa 0
    let b := d.blob .imgHashMldsa 0
    (d.g .krIslandState = 1 → s.Waits k (.imgEnrol k) 0x5440 8 [1#8]) ∧
    (d.g .krIslandState ≠ 1 → d.serviceCode false ≠ 0 → ∃ t, exec (.imgEnrol k) s = .next t ∧
      t.dev.answer.code = d.serviceCode false ∧ t.dev.fuses = d.fuses) ∧
    (d.g .krIslandState ≠ 1 → d.serviceCode false = 0 → d.fuses.enrolled = true →
      ∃ t, exec (.imgEnrol k) s = .next t ∧ t.dev.answer.code = 0x0652 ∧ t.dev.fuses = d.fuses) ∧
    (d.g .krIslandState ≠ 1 → d.serviceCode false = 0 → d.fuses.enrolled = false → ¬(a.length = 48 ∧ b.length = 48) →
      ∃ t, exec (.imgEnrol k) s = .next t ∧ t.dev.answer.code = 0x0201 ∧ t.dev.fuses = d.fuses) ∧
    (d.g .krIslandState ≠ 1 → d.serviceCode false = 0 → d.fuses.enrolled = false → a.length = 48 → b.length = 48 →
      ∃ t, exec (.imgEnrol k) s = .next t ∧ t.dev.answer.code = 0 ∧
        t.dev.fuses = { d.fuses with enrolled := true, ecdsa := a, mldsa := b }) := by
  intro d a b
  have hserved (h1 : d.g .krIslandState ≠ 1) {x : Dev} (hx : d.imgEnrolNow = x) :
      ∃ t, exec (.imgEnrol k) s = .next t ∧ t.dev.answer.code = x.answer.code ∧ t.dev.fuses = x.fuses := by
    obtain ⟨t, ht, hl⟩ := State.accepted_served hs (exec_imgEnrol k s) ha
    rw [Dev.onIsland_serves _ _ _ _ ha.isOpen h1, hx] at hl
    exact ⟨t, ht, congrArg Answer.code hl.answer, hl.fuses⟩
  have hopenly (hservice : d.serviceCode false = 0) : d.imgEnrolNow =
      if d.fuses.enrolled = true then d.answerCode 0x0652
      else if a.length ≠ 48 ∨ b.length ≠ 48 then d.answerCode 0x0201
      else ({ d with fuses := { d.fuses with enrolled := true, ecdsa := a, mldsa := b } }).answerCode 0 :=
    if_neg fun hne => hne hservice
  refine ⟨fun h1 => ?_, fun h1 hservice => ?_, fun h1 hservice henrolled => ?_, fun h1 hservice hfree hlen => ?_,
    fun h1 hservice hfree ha48 hb48 => ?_⟩
  · exact State.waits_of_held hs (exec_imgEnrol k s) ha fun x hx => Dev.onIsland_waits _ _ _ _ hx h1
  · exact hserved h1 (x := d.answerCode (d.serviceCode false)) (if_pos hservice)
  · exact hserved h1 ((hopenly hservice).trans (if_pos henrolled))
  · exact hserved h1 ((hopenly hservice).trans ((if_neg (by rw [hfree]; decide)).trans
      (if_pos (Decidable.not_and_iff_or_not.1 hlen))))
  · exact hserved h1 ((hopenly hservice).trans ((if_neg (by rw [hfree]; decide)).trans
      (if_neg fun hor => hor.elim (fun hne => hne ha48) fun hne => hne hb48)))

end

/-- The counter of a kind of image. -/
def rollbackObj (kind : Nat) : Obj := if kind = 0 then .rbCore else .rbIsland

theorem rollbackObj_kept (kind : Nat) : rollbackObj kind ≠ .sesLastStatus ∧ rollbackObj kind ∉ recordObjs ∧
    (rollbackObj kind).info.ty.width = 8 := by
  unfold rollbackObj
  split
  · decide
  · decide

/-- The counter of a kind stands at `v` in the fuses and in the object. -/
def Dev.counted (d : Dev) (kind v : Nat) : Dev :=
  ({ d with fuses := if kind = 0 then { d.fuses with rbCore := v } else { d.fuses with rbIsland := v } } : Dev).put
    (rollbackObj kind) 0 v

theorem Dev.counted_rollback (d : Dev) (kind v : Nat) : (d.counted kind v).rollback kind = v := by
  show (if kind = 0 then (if kind = 0 then { d.fuses with rbCore := v } else { d.fuses with rbIsland := v } : Fuses).rbCore
    else (if kind = 0 then { d.fuses with rbCore := v } else { d.fuses with rbIsland := v } : Fuses).rbIsland) = v
  split
  · rfl
  · rfl

/-- The security version of the image that runs in a kind. -/
def Dev.runningSecurity (d : Dev) (kind : Nat) : Nat := (d.pwr.images.getD (d.runningSlot kind) {}).security

theorem Dev.rbAdvanceTo_refused (e : Env) {d : Dev} {k kind : Nat} (h : d.serviceCode false ≠ 0) :
    d.rbAdvanceTo e k kind = d.answerCode (d.serviceCode false) := if_pos h

theorem Dev.rbAdvanceTo_stands (e : Env) {d : Dev} {k kind : Nat} (hservice : d.serviceCode false = 0)
    (h : d.runningSecurity kind ≤ d.g (rollbackObj kind)) : d.rbAdvanceTo e k kind = d.answerCode 0 :=
  (if_neg fun hne => hne hservice).trans (if_pos h)

/-- The counter rises to the security version of the image that runs. -/
theorem Dev.rbAdvanceTo_rises (e : Env) {d : Dev} {k kind : Nat} (hservice : d.serviceCode false = 0)
    (h : d.g (rollbackObj kind) < d.runningSecurity kind) : (d.rbAdvanceTo e k kind).answer.code = 0 ∧
      (d.rbAdvanceTo e k kind).g (rollbackObj kind) = d.runningSecurity kind % 256 ∧
      (d.rbAdvanceTo e k kind).rollback kind = d.runningSecurity kind := by
  have hcmd : d.rbAdvanceTo e k kind = ((d.counted kind (d.runningSecurity kind)).ledger e 0x4A (d.origin k) 0x5440 5 0
      (d.runningSecurity kind)).answerCode 0 :=
    (if_neg fun hne => hne hservice).trans (if_neg (Nat.not_le.2 h))
  rw [hcmd]
  generalize d.runningSecurity kind = v
  obtain ⟨-, hrecord, hwidth⟩ := rollbackObj_kept kind
  have hobj : (d.counted kind v).g (rollbackObj kind) = v % 256 := by
    unfold Dev.counted
    rw [Dev.g_put_same, hwidth]
    rfl
  have hrollback := d.counted_rollback kind v
  generalize d.counted kind v = x at hobj hrollback ⊢
  have hr := x.ledger_records e 0x4A (d.origin k) 0x5440 5 0 v
  refine ⟨rfl, (hr.objs _ hrecord 0).trans hobj, ?_⟩
  have hfuses := hr.tells.fuses
  unfold Dev.rollback at hrollback ⊢
  rw [Dev.answerCode_fuses, hfuses]
  exact hrollback

section
variable {s : State} {k : Nat} (hs : s.Awake 7) (ha : s.Accepts k .rbAdvance)
include hs ha

theorem rbAdvance_served (n : Nat) (h1 : (s.asking k).g .krIslandState ≠ 1) :
    ∃ t, exec (.rbAdvance k n) s = .next t ∧ ((s.asking k).rbAdvanceTo (s.enter 7).env k n).Served t.dev := by
  obtain ⟨t, ht, hl⟩ := State.accepted_served hs (exec_rbAdvance k n s) ha
  rw [Dev.onIsland_serves _ _ _ _ ha.isOpen h1] at hl
  exact ⟨t, ht, hl⟩

theorem rbAdvance_held (n : Nat) :
    ((s.asking k).g .krIslandState = 1 → s.Waits k (.rbAdvance k n) 0x5440 5 (leBytes 1 (n + 1))) ∧
    ((s.asking k).g .krIslandState ≠ 1 → (s.asking k).serviceCode false ≠ 0 → ∃ t, exec (.rbAdvance k n) s = .next t ∧
      t.dev.answer.code = (s.asking k).serviceCode false ∧ t.dev.fuses = (s.asking k).fuses) := by
  refine ⟨fun h1 => ?_, fun h1 hservice => ?_⟩
  · exact State.waits_of_held hs (exec_rbAdvance k n s) ha fun x hx => Dev.onIsland_waits _ _ _ _ hx h1
  · obtain ⟨t, ht, hl⟩ := rbAdvance_served hs ha n h1
    rw [Dev.rbAdvanceTo_refused _ hservice] at hl
    exact ⟨t, ht, congrArg Answer.code hl.answer, hl.fuses⟩

theorem rbAdvance_rises (h1 : (s.asking k).g .krIslandState ≠ 1) (hservice : (s.asking k).serviceCode false = 0) (n : Nat) :
    let d := s.asking k
    let o := rollbackObj n
    let v := d.runningSecurity n
    (v ≤ d.g o → ∃ t, exec (.rbAdvance k n) s = .next t ∧ t.dev.answer.code = 0 ∧ t.dev.fuses = d.fuses ∧
      t.dev.g o = d.g o) ∧
    (d.g o < v → ∃ t, exec (.rbAdvance k n) s = .next t ∧ t.dev.answer.code = 0 ∧ t.dev.g o = v % 256 ∧
      t.dev.rollback n = v) := by
  intro d o v
  obtain ⟨t, ht, hl⟩ := rbAdvance_served hs ha n h1
  obtain ⟨hkept, -, -⟩ := rollbackObj_kept n
  constructor
  · intro hle
    rw [Dev.rbAdvanceTo_stands _ hservice hle] at hl
    exact ⟨t, ht, congrArg Answer.code hl.answer, hl.fuses, hl.objs o hkept 0⟩
  · intro hlt
    obtain ⟨hanswer, hobj, hrollback⟩ := Dev.rbAdvanceTo_rises (s.enter 7).env (k := k) hservice hlt
    refine ⟨t, ht, (congrArg Answer.code hl.answer).trans hanswer, (hl.objs o hkept 0).trans hobj, ?_⟩
    unfold Dev.rollback at hrollback ⊢
    rw [hl.fuses]
    exact hrollback

end

/-! ## The Keyring -/

/-- Settles O53: a refusal changes the Ledger, the session's template and its answer, and no key; a key that passes its
checks has a page for its record, or leaves as the 64 bytes of a head and a wrapped body. -/
theorem keyringCreatesLoadsAndRevokesKeys : Obligations.KeyringCreatesLoadsAndRevokesKeys := by
  intro s k hs u now d m answers waits made
  refine ⟨fun c hc => ?_, State.turnsAway_of_request hs (exec_krZeroiseAll k s), State.turnsAway_of_request hs (exec_imgEnrol k s),
    fun v => State.turnsAway_of_request hs (exec_kcValue k v s), fun n => State.turnsAway_of_request hs (exec_rbAdvance k n s),
    fun ha => ⟨fun c n hc => keyringCommands_unserved hs ha c n hc,
      fun h1 hservice => ⟨(krGenerate_and_components hs ha h1 hservice).1, (krGenerate_and_components hs ha h1 hservice).2,
        krImportTransport_imports hs ha h1 hservice, krLoad_loads hs ha h1 hservice⟩,
      fun h1 hservice => ⟨krExport_exports hs ha h1 hservice, ?_⟩⟩,
    fun ha v => ⟨(kcValue_held hs ha v).1, (kcValue_held hs ha v).2.1, (kcValue_held hs ha v).2.2,
      fun hlen h1 hservice => kcValue_entry hs ha hlen h1 hservice⟩,
    componentTimeout_stands hs k, componentTimeout_closes hs k, fun ha => (krZeroiseAll_clears hs ha).1,
    fun ha => (krZeroiseAll_clears hs ha).2.1, fun ha => (krZeroiseAll_clears hs ha).2.2, fun ha => imgEnrol_fuses hs ha,
    fun ha h1 n => (rbAdvance_held hs ha n).1 h1, fun ha h1 hservice n => (rbAdvance_held hs ha n).2 h1 hservice,
    fun ha h1 hservice n => rbAdvance_rises hs ha h1 hservice n⟩
  · obtain ⟨x, hx, rfl⟩ := List.mem_map.1 (show c ∈ (keyringCommands k).map Prod.fst from hc)
    exact State.turnsAway_of_request hs (exec_keyringCommand hx s)
  · obtain ⟨hnone, hrevoked, hbarred, hfull, hdone⟩ := krRevoke_revokes hs ha h1 hservice
    exact ⟨hnone, hrevoked, hbarred, hfull, hdone, krQuery_finds hs ha h1 hservice⟩

end Sys2Proof.Machine
end

section
/-!
What zeroisation, QUARANTINE and waiting commands leave of the island and its keys (R465, R467, R469, R472).
-/

namespace Sys2Proof.Machine

/-- From `d` to `d'` the objects in `ks`, the Keyring and the power unit stand, and nothing left for rank 9 is gone. -/
structure Dev.Guards (ks : List Obj) (d d' : Dev) : Prop where
  objs : ∀ o ∈ ks, ∀ i, d'.g o i = d.g o i
  late : ∀ l ∈ d.late, l ∈ d'.late
  kr : d'.kr = d.kr
  pwr : d'.pwr = d.pwr

section
variable {ks : List Obj} {a b c : Dev}

theorem Dev.Guards.refl (d : Dev) : d.Guards ks d := ⟨fun _ _ _ => rfl, fun _ h => h, rfl, rfl⟩

theorem Dev.Guards.trans (h : a.Guards ks b) (k : b.Guards ks c) : a.Guards ks c :=
  ⟨fun o ho i => (k.objs o ho i).trans (h.objs o ho i), fun l hl => k.late l (h.late l hl), k.kr.trans h.kr, k.pwr.trans h.pwr⟩

theorem Dev.Guards.ite (p : Prop) [Decidable p] (h : a.Guards ks b) (k : a.Guards ks c) :
    a.Guards ks (if p then b else c) := by
  split
  · exact h
  · exact k

theorem Dev.Guards.foldl {α : Type} (d : Dev) (xs : List α) (f : Dev → α → Dev) (h : ∀ (b : Dev) (x : α), b.Guards ks (f b x)) :
    d.Guards ks (xs.foldl f d) :=
  List.foldlRecOn (motive := fun b => d.Guards ks b) _ _ (.refl d) fun b hb x _ => hb.trans (h b x)

theorem Dev.Guards.put (h : a.Guards ks b) (o : Obj) (i v : Nat) (ho : o ∉ ks) : a.Guards ks (b.put o i v) :=
  h.trans ⟨fun _ hp k => b.g_put_of_ne i k v fun heq => ho (heq ▸ hp), fun _ hl => hl, rfl, rfl⟩

theorem Dev.Guards.later (h : a.Guards ks b) (l : Late) : a.Guards ks (b.later l) :=
  h.trans ⟨fun _ _ _ => rfl, fun _ hl => List.mem_append_left _ hl, rfl, rfl⟩

/-- Whatever else of the block changes. -/
theorem Dev.Guards.of_eq (hobjs : b.objs = a.objs) (hlate : b.late = a.late) (hkr : b.kr = a.kr) (hpwr : b.pwr = a.pwr) :
    a.Guards ks b :=
  ⟨fun o _ i => Dev.g_of_objs hobjs o i, fun _ hl => hlate ▸ hl, hkr, hpwr⟩

theorem Dev.Closings.guards (h : a.Closings b) (hks : ∀ o ∈ ks, o ∉ closeObjs) : a.Guards ks b :=
  ⟨fun o ho => h.objs o (hks o ho), h.late, (congrArg Dev.kr h.same :), (congrArg Dev.pwr h.same :)⟩

theorem Dev.Records.guards (h : a.Records b) (hks : ∀ o ∈ ks, o ∉ recordObjs) : a.Guards ks b :=
  ⟨fun o ho => h.objs o (hks o ho), h.late, h.kr, h.pwr⟩

theorem Dev.Tells.guards (h : a.Tells b) (hks : ∀ o ∈ ks, o ∉ recordObjs) : a.Guards ks b :=
  ⟨fun o ho => h.objs o (hks o ho), h.late, h.kr, (congrArg Dev.pwr h.same :)⟩

/-! ## QUARANTINE and flags -/

theorem Dev.stopSlots_kr (d : Dev) : d.stopSlots.kr = d.kr :=
  List.foldlRecOn (motive := fun b : Dev => b.kr = d.kr) _ _ rfl fun b hb k _ =>
    (iteInduction (motive := fun x : Dev => x.kr = b.kr) (fun _ => rfl) fun _ => rfl : (b.stopSlot k).kr = b.kr).trans hb

theorem Dev.enterQuarantine_kr (e : Env) (d : Dev) (cause : Nat) : (d.enterQuarantine e cause).kr = d.kr := by
  rcases hq : d.quarantine with _ | _
  · unfold Dev.enterQuarantine
    rw [hq, if_neg Bool.false_ne_true]
    generalize hx : d.put .lcState 0 (d.g .lcState + 128) = x
    have hxkr : x.kr = d.kr := hx ▸ rfl
    have hrecord : x.Records ((x.ledger e 0x31 {} 0 0 0 cause).keepCounter 1 (1 + 256 * cause)) :=
      (x.ledger_records ..).trans (Dev.keepCounter_records ..)
    have hykr : (((x.ledger e 0x31 {} 0 0 0 cause).keepCounter 1 (1 + 256 * cause)).flag .lcEventFlags 0 1).kr = d.kr :=
      hrecord.kr.trans hxkr
    dsimp only
    generalize ((x.ledger e 0x31 {} 0 0 0 cause).keepCounter 1 (1 + 256 * cause)).flag .lcEventFlags 0 1 = y at hykr ⊢
    have hzkr : (if cause ≤ 6 then (y.ledger e 0x44 {} 0 0 0 cause).flag .krEventFlags 0 4 else y).kr = d.kr :=
      iteInduction (motive := fun b : Dev => b.kr = d.kr) (fun _ => (y.ledger_records ..).kr.trans hykr) fun _ => hykr
    generalize (if cause ≤ 6 then (y.ledger e 0x44 {} 0 0 0 cause).flag .krEventFlags 0 4 else y) = z at hzkr ⊢
    have hwkr := z.stopSlots_kr.trans hzkr
    generalize z.stopSlots = w at hwkr ⊢
    exact ((w.closeWhere_closings e 6 fun d s _ => d.g .sesRole s != 3).guards (ks := []) (by decide)).kr.trans hwkr
  · have hsame : d.enterQuarantine e cause = d := if_pos hq
    rw [hsame]

theorem Dev.enterQuarantine_guards (e : Env) (d : Dev) (cause : Nat) (hks : ∀ o ∈ ks, o ∉ Obj.lcState :: sealObjs) :
    d.Guards ks (d.enterQuarantine e cause) := by
  obtain ⟨hobjs, hlate, hpwr, -, -⟩ := d.enterQuarantine_stands e cause hks
  exact ⟨hobjs, hlate, d.enterQuarantine_kr e cause, hpwr⟩

theorem Dev.flagNow_guards (d : Dev) {o : Obj} (i bit : Nat) (ho : o ∉ ks) : d.Guards ks (d.flagNow o i bit) := by
  obtain ⟨b, hb, hsame, hlate⟩ := d.flagNow_same o i bit
  rw [hb]
  refine ⟨fun p hp k => ?_, hlate, (congrArg Dev.kr hsame :), (congrArg Dev.pwr hsame :)⟩
  have hobj : b.g p k = (d.put o i (d.g o i ||| 2 ^ bit)).g p k := (congrArg (fun x : Dev => x.g p k) hsame :)
  exact hobj.trans (d.g_put_of_ne i k _ fun heq => ho (heq ▸ hp))

end

/-- A flag set at once can be read. -/
theorem Dev.flagNow_testBit (d : Dev) {bit : Nat} (hbit : bit < 32) : ((d.flagNow .krEventFlags 0 bit).g .krEventFlags).testBit bit = true := by
  obtain ⟨b, hb, hsame, -⟩ := d.flagNow_same .krEventFlags 0 bit
  have hobj : b.g .krEventFlags = (d.put .krEventFlags 0 (d.g .krEventFlags ||| 2 ^ bit)).g .krEventFlags :=
    (congrArg (fun x : Dev => x.g .krEventFlags) hsame :)
  rw [hb, hobj, Dev.g_put_same]
  show ((d.g .krEventFlags ||| 2 ^ bit) % 2 ^ 32).testBit bit = true
  rw [Nat.testBit_mod_two_pow, Nat.testBit_or, Nat.testBit_two_pow_self, Bool.or_true, Bool.and_true, decide_eq_true_eq]
  exact hbit

/-! ## Zeroisation -/

/-- The objects zeroisation changes. -/
def wipeObjs : List Obj := [.msTxSaState, .msrxSaState, .krSlotsUsed, .krKeptCount] ++ closeObjs

/-- The block with no key present and no component in entry. -/
def Dev.wiped (d : Dev) : Dev := { d with kr := { d.kr with slots := [], comp := none } }

section
variable {ks : List Obj}

theorem Dev.emptySa_guards (now : Nat) (d : Dev) (ch an : Nat) (hks : .msTxSaState ∉ ks ∧ .msrxSaState ∉ ks) :
    d.Guards ks (d.emptySa now ch an) := by
  unfold Dev.emptySa Dev.putSa
  dsimp only
  have hsas (t : Tab Sa) : d.Guards ks { d with io := { d.io with sas := t } } := .of_eq rfl rfl rfl rfl
  split
  · exact .ite _ ((hsas _).put .msTxSaState ch _ hks.1) ((hsas _).put .msrxSaState (ch - 24) _ hks.2)
  · exact .later (.ite _ ((hsas _).put .msTxSaState ch _ hks.1) ((hsas _).put .msrxSaState (ch - 24) _ hks.2)) _

theorem Dev.reportKeys_guards (d : Dev) (hks : .krSlotsUsed ∉ ks ∧ .krKeptCount ∉ ks) : d.Guards ks d.reportKeys :=
  ((Dev.Guards.refl d).put .krSlotsUsed 0 _ hks.1).put .krKeptCount 0 _ hks.2

theorem Dev.zeroise_guards (e : Env) (d : Dev) (hks : ∀ o ∈ ks, o ∉ wipeObjs) : d.wiped.Guards ks (d.zeroise e) := by
  have hout {o : Obj} (ho : o ∈ wipeObjs) : o ∉ ks := fun h => hks o h ho
  have hstart : d.Guards ks ((d.undoKeys fun _ => true).emptySas e.now fun _ => true) :=
    ((d.undoKeys_closings fun _ => true).guards fun o ho h => hks o ho (List.mem_append_right _ h)).trans
      (.foldl _ _ _ fun b q => b.emptySa_guards e.now _ _ ⟨hout (by decide), hout (by decide)⟩)
  rw [d.zeroise_eq]
  generalize (d.undoKeys fun _ => true).emptySas e.now (fun _ => true) = x at hstart ⊢
  have hkeyless : d.wiped.Guards ks x.keyless :=
    ⟨hstart.objs, hstart.late, congrArg (fun u : KrUnit => { u with slots := [], comp := none }) hstart.kr, hstart.pwr⟩
  exact (hkeyless.trans (.foldl _ _ _ fun b m => (Dev.Guards.refl b).later _)).trans
    (Dev.reportKeys_guards _ ⟨hout (by decide), hout (by decide)⟩)

end

/-! ## Commands that waited, on an island that serves none -/

theorem Dev.keyRefuse_tells (e : Env) (d : Dev) (k kind code num : Nat) : d.Tells (d.keyRefuse e k kind code num) :=
  (d.keyRefused_records e kind (d.origin k) code num).tells.trans (Dev.keyAnswer_tells _ k code)

section
variable (e : Env) {d : Dev} {code : Nat} (hcode : code ≠ 0) (hservice : ∀ root, d.serviceCode root = code)
include hcode hservice

theorem Dev.krCommand_unserved_tells (k n : Nat) (h1 : d.g .krIslandState ≠ 1) : d.Tells (d.krCommand e k n) := by
  have hne (root : Bool) : d.serviceCode root ≠ 0 := by rw [hservice]; exact hcode
  have hfirst (root : Bool) (cs : List Nat) : firstFailing (d.serviceCode root :: cs) ≠ 0 := by
    rw [firstFailing_head (hne root)]
    exact hne root
  unfold Dev.krCommand
  rw [if_neg h1]
  split
  · rw [show d.krGenerate e k = d.keyRefuse e k 0x40 (d.generateCode k) (d.tpl k).num
      from if_pos (hfirst true _)]
    exact d.keyRefuse_tells ..
  · rw [show d.krComponents e k = d.keyRefuse e k 0x40 (d.generateCode k) (d.tpl k).num
      from if_pos (hfirst true _)]
    exact d.keyRefuse_tells ..
  · rw [show d.krTransport e k = d.keyRefuse e k 0x40 (d.transportCode k) (d.tpl k).num
      from if_pos (hfirst true _)]
    exact d.keyRefuse_tells ..
  · rw [show d.krExport e k = d.keyRefuse e k 0x48 (d.exportCode k) (d.tpl k).num
      from if_pos (hfirst false _)]
    exact d.keyRefuse_tells ..
  · rw [show d.krRevoke e k = d.keyRefuse e k 0x43 (d.revokeCode k) (d.tpl k).num
      from if_pos (hfirst false _)]
    exact d.keyRefuse_tells ..
  · rw [show d.krLoad e k = d.keyRefuse e k 0x40 (d.loadCode k) (blobField (d.tpl k).blob 4 4)
      from if_pos (hfirst true _)]
    exact d.keyRefuse_tells ..
  · rw [show d.krQuery k = d.keyAnswer k (d.serviceCode false)
      from if_pos (hne false)]
    exact d.keyAnswer_tells ..
  · exact (Dev.Tells.refl d).answerCode _

omit hcode hservice in
theorem Dev.mbxOutput_same (d : Dev) (bs : List Byte) : d.mbxOutput bs = { d with regs := (d.mbxOutput bs).regs } := by
  have hfold : (List.range (ceilDiv bs.length 4)).foldl (fun (d : Dev) w =>
      d.putReg (mbxBase + 0x100 + 4 * w) (ofLe ((bs.drop (4 * w)).take 4))) d =
      { d with regs := ((List.range (ceilDiv bs.length 4)).foldl (fun (d : Dev) w =>
        d.putReg (mbxBase + 0x100 + 4 * w) (ofLe ((bs.drop (4 * w)).take 4))) d).regs } :=
    List.foldlRecOn (motive := fun b : Dev => b = { d with regs := b.regs }) _ _ rfl
      fun b hb w _ => (congrArg (fun y : Dev => { y with
        regs := (b.putReg (mbxBase + 0x100 + 4 * w) (ofLe ((bs.drop (4 * w)).take 4))).regs }) hb :)
  exact (congrArg (fun y : Dev => { y with regs := (d.mbxOutput bs).regs }) hfold :)

/-- The mailbox answers a status or a code. -/
theorem Dev.mbxServe_unserved {ks : List Obj} (cmd : Nat) : d.Guards ks (d.mbxServe e cmd) := by
  by_cases h1 : cmd = 1
  · subst h1
    generalize hbs : (List.range (Config.mailboxLen 1 d.mbxInput % 1025)).map (fun k => Config.mailbox 1 d.rootCode d.mbxInput k) = bs
    have hcmd : d.mbxServe e 1 = (d.mbxOutput bs).mbxStatus 0 := hbs ▸ rfl
    rw [hcmd, d.mbxOutput_same bs]
    exact .of_eq rfl rfl rfl rfl
  · have hfails : d.mbxCode cmd ≠ 0 := by
      unfold Dev.mbxCode
      rw [if_neg h1]
      refine iteInduction (motive := fun x : Nat => x ≠ 0) (fun _ => by decide) fun _ =>
        iteInduction (motive := fun x : Nat => x ≠ 0) (fun _ => by decide) fun _ => ?_
      rw [hservice]
      exact hcode
    rw [show d.mbxServe e cmd = d.mbxStatus (d.mbxCode cmd)
      from if_pos hfails]
    exact .of_eq rfl rfl rfl rfl

/-- The objects a command that waited changes on an island that serves none. -/
def refuseObjs : List Obj := .sesLastStatus :: recordObjs

theorem Dev.serveWaiting_unserved {ks : List Obj} (p : Nat × Nat) (h1 : d.g .krIslandState ≠ 1)
    (hks : ∀ o ∈ ks, o ∉ refuseObjs) : d.Guards ks (d.serveWaiting e p) := by
  have hrec : ∀ o ∈ ks, o ∉ recordObjs := fun o ho h => hks o ho (List.mem_cons_of_mem _ h)
  have hclose (b : Dev) : b.Guards ks (b.closeRequest p.1) :=
    ⟨fun o ho i => b.closeRequest_g p.1 i fun heq => hks o ho (heq ▸ List.mem_cons_self),
      fun l hl => (b.closeRequest_late p.1) ▸ hl, (congrArg Dev.kr (b.closeRequest_same p.1) :),
      (congrArg Dev.pwr (b.closeRequest_same p.1) :)⟩
  unfold Dev.serveWaiting
  refine .ite _ (.refl d) (.ite _ (Dev.mbxServe_unserved e hcode hservice p.2) (.ite _ ?_ (.refl d)))
  refine .trans (.ite _ ?_ ?_) (hclose _)
  · exact (Dev.krCommand_unserved_tells e hcode hservice p.1 p.2 h1).guards hrec
  · exact ((Dev.Tells.refl d).answerCode _).guards hrec

end

/-- The island serves no key: ERROR, or a hold. -/
def Dev.Unserved (d : Dev) : Prop := d.g .krIslandState = 2 ∨ (d.g .krIslandState ≠ 1 ∧ d.kr.hold = true)

theorem Dev.Unserved.serviceCode {d : Dev} (h : d.Unserved) : ∃ code, code ≠ 0 ∧ ∀ root, d.serviceCode root = code := by
  by_cases h2 : d.g .krIslandState = 2
  · exact ⟨0x0645, by decide, fun root => Dev.serviceCode_error h2 root⟩
  · exact ⟨0x0646, by decide, fun root => Dev.serviceCode_held h2 (h.resolve_left h2).2 root⟩

theorem Dev.Unserved.ne_one {d : Dev} (h : d.Unserved) : d.g .krIslandState ≠ 1 := by
  rcases h with h | h
  · rw [h]
    decide
  · exact h.1

/-- All the commands that waited are refused. -/
theorem Dev.serveAllWaiting_unserved {ks : List Obj} (e : Env) {d : Dev} (h : d.Unserved) (hks : ∀ o ∈ ks, o ∉ refuseObjs)
    (hstate : .krIslandState ∈ ks) :
    ({ d with kr := { d.kr with waiting := [] } } : Dev).Guards ks (d.serveAllWaiting e) := by
  unfold Dev.serveAllWaiting
  generalize hx : ({ d with kr := { d.kr with waiting := [] } } : Dev) = x
  have hxu : x.Unserved := hx ▸ h
  refine List.foldlRecOn (motive := fun b : Dev => x.Guards ks b) _ _ (.refl x) fun b hb p _ => ?_
  have hbu : b.Unserved := by
    unfold Dev.Unserved
    rw [hb.objs .krIslandState hstate, hb.kr]
    exact hxu
  obtain ⟨code, hcode, hservice⟩ := hbu.serviceCode
  exact hb.trans (Dev.serveWaiting_unserved e hcode hservice p hbu.ne_one hks)

end Sys2Proof.Machine
end

section
/-!
The ends of the island's tests, and the commands that waited for them (R458, R465, R467, R476).
-/

namespace Sys2Proof.Machine

/-! ## An end in failure -/

/-- The island is in ERROR and its keys are gone, in QUARANTINE. -/
structure Dev.Failed (d : Dev) : Prop where
  state : d.g .krIslandState = 2
  slots : d.kr.slots = []
  test : d.kr.test = none
  result : d.g .krSelftestResult = 0x0534
  sealed : (d.g .lcState).testBit 7 = true
  flag : Late.flag .krEventFlags 0 64 ∈ d.late

/-- The objects `Dev.Failed` speaks of. -/
def failObjs : List Obj := [.krIslandState, .krSelftestResult, .lcState]

/-- A swap of the island's image ends with the tests that fail. -/
def Dev.swapFails (e : Env) (d : Dev) : Dev :=
  let d := d.zeroise e
  if d.kr.swapping then (d.put .fwState 0 0).put .fwStatus 0 0x0534 else d

/-- ERROR, with no test under way. -/
def Dev.inError (d : Dev) : Dev := ({ d with kr := { d.kr with test := none, swapping := false } }).put .krIslandState 0 2

/-- The event of a failure. -/
def Dev.failEvent (e : Env) (d : Dev) : Dev := (d.ledger e 0x46 {} 0 0 0x0534 0).flag .krEventFlags 0 6

theorem Dev.islandFails_eq (e : Env) (d : Dev) : d.islandFails e =
    ((((d.swapFails e).inError.failEvent e).put .krSelftestResult 0 0x0534).enterQuarantine e 5).serveAllWaiting e := rfl

theorem Dev.swapFails_guards (e : Env) (d : Dev) : d.wiped.Guards [] (d.swapFails e) :=
  (d.zeroise_guards e (by decide)).trans (.ite _ (((Dev.Guards.refl _).put .fwState 0 0 (by decide)).put .fwStatus 0 _ (by decide))
    (.refl _))

theorem Dev.islandFails_effects (e : Env) (d : Dev) : (d.islandFails e).Failed ∧ ∀ l ∈ d.late, l ∈ (d.islandFails e).late := by
  rw [d.islandFails_eq]
  obtain ⟨-, hlate, hkr, -⟩ := d.swapFails_guards e
  have hslots : (d.swapFails e).kr.slots = [] := congrArg KrUnit.slots hkr
  generalize d.swapFails e = x at hlate hslots ⊢
  have herror : x.inError.g .krIslandState = 2 ∧ x.inError.kr.slots = [] ∧ x.inError.kr.test = none ∧ x.inError.late = x.late :=
    ⟨Dev.g_put_of_lt _ .krIslandState 0 2 (by decide), hslots, rfl, rfl⟩
  generalize x.inError = y at herror ⊢
  obtain ⟨hstate, hyslots, hytest, hylate⟩ := herror
  have hevent : y.Guards [.krIslandState] (y.failEvent e) := ((y.ledger_records ..).guards (by decide)).later _
  have hflag : Late.flag .krEventFlags 0 64 ∈ (y.failEvent e).late := List.mem_append_right _ List.mem_cons_self
  generalize y.failEvent e = z at hevent hflag ⊢
  have hresult := Dev.g_put_of_lt z .krSelftestResult 0 0x0534 (by decide)
  have hput := hevent.put .krSelftestResult 0 0x0534 (by decide)
  have hputflag : Late.flag .krEventFlags 0 64 ∈ (z.put .krSelftestResult 0 0x0534).late := hflag
  generalize z.put .krSelftestResult 0 0x0534 = p at hresult hput hputflag ⊢
  have hq := p.enterQuarantine_guards (ks := [.krIslandState, .krSelftestResult]) e 5 (by decide)
  have hsealed := p.enterQuarantine_quarantine e 5
  generalize p.enterQuarantine e 5 = q at hq hsealed ⊢
  have hqstate : q.g .krIslandState = 2 :=
    (hq.objs .krIslandState (by decide) 0).trans ((hput.objs .krIslandState (by decide) 0).trans hstate)
  have hqkr := hq.kr.trans hput.kr
  have hserve := Dev.serveAllWaiting_unserved (ks := failObjs) e (d := q) (.inl hqstate) (by decide) (by decide)
  generalize q.serveAllWaiting e = w at hserve ⊢
  obtain ⟨hobjs, hwlate, hwkr, -⟩ := hserve
  refine ⟨⟨(hobjs .krIslandState (by decide) 0).trans hqstate, ?_, ?_,
    (hobjs .krSelftestResult (by decide) 0).trans ((hq.objs .krSelftestResult (by decide) 0).trans hresult), ?_,
    hwlate _ (hq.late _ hputflag)⟩, fun l hl => hwlate l (hq.late l (hput.late l (hylate ▸ hlate l hl)))⟩
  · rw [hwkr]
    exact (congrArg KrUnit.slots hqkr).trans hyslots
  · rw [hwkr]
    exact (congrArg KrUnit.test hqkr).trans hytest
  · rw [hobjs .lcState (by decide) 0]
    exact hsealed

/-! ## What serving a command posts -/

theorem Dev.Tells.posts {a b : Dev} (h : a.Tells b) : b.posts = a.posts := (congrArg Dev.posts h.same :)

section
variable (e : Env) (d : Dev) (k : Nat)

theorem Dev.writeKeyRec_posts (num : Nat) (r : KeyRec) (twice : Bool) : (d.writeKeyRec num r twice).posts = d.posts := by
  unfold Dev.writeKeyRec
  split
  · rfl
  · exact iteInduction (motive := fun b : Dev => b.posts = d.posts)
      (fun _ => ((Dev.nvWrite_records _ _).trans (Dev.nvWrite_records _ _)).posts) fun _ => (Dev.nvWrite_records _ _).posts

theorem Dev.placeKey_posts (num : Nat) (x : Key) (b : List Byte) : (d.placeKey k num x b).posts = d.posts :=
  iteInduction (motive := fun y : Dev => y.posts = d.posts) (fun _ => d.writeKeyRec_posts ..)
    fun _ => ((Dev.Tells.refl d).updTpl k _).posts

theorem Dev.createKey_posts (num : Nat) (x : Key) : (d.createKey e k num x).posts = d.posts := by
  rw [Dev.createKey_eq]
  exact (((Dev.Tells.refl _).updTpl k _).trans (Dev.keyEvent_tells ..)).posts.trans (Dev.placeKey_posts ..)

theorem Dev.krGenerate_posts : (d.krGenerate e k).posts = d.posts := by
  by_cases h : d.generateCode k = 0
  · rw [Dev.krGenerate_accepted e h]
    exact (Dev.keyAnswer_tells ..).posts.trans (Dev.createKey_posts ..)
  · rw [show d.krGenerate e k = d.keyRefuse e k 0x40 (d.generateCode k) (d.tpl k).num from if_pos h]
    exact (d.keyRefuse_tells ..).posts

theorem Dev.krComponents_posts : (d.krComponents e k).posts = d.posts := by
  by_cases h : d.generateCode k = 0
  · rw [show d.krComponents e k = (d.entryOpen e k).keyAnswer k 0 from if_neg fun hne => hne h]
    exact (Dev.keyAnswer_tells ..).posts
  · rw [show d.krComponents e k = d.keyRefuse e k 0x40 (d.generateCode k) (d.tpl k).num from if_pos h]
    exact (d.keyRefuse_tells ..).posts

theorem Dev.importKey_posts (x : Key) : (d.importKey e k x).posts = d.posts :=
  iteInduction (motive := fun y : Dev => y.posts = d.posts) (fun _ => (d.keyRefuse_tells ..).posts)
    fun _ => (Dev.keyAnswer_tells ..).posts.trans (Dev.createKey_posts ..)

theorem Dev.krTransport_posts : (d.krTransport e k).posts = d.posts := by
  by_cases h : d.transportCode k = 0
  · cases hx : d.transported k with
    | some x =>
      rw [Dev.krTransport_imports e h hx]
      exact d.importKey_posts e k x
    | none =>
      unfold Dev.transported at hx
      rw [show d.krTransport e k = _ from if_neg fun hne => hne h]
      dsimp only
      rw [hx]
      exact (d.keyRefuse_tells ..).posts
  · rw [show d.krTransport e k = d.keyRefuse e k 0x40 (d.transportCode k) (d.tpl k).num from if_pos h]
    exact (d.keyRefuse_tells ..).posts

theorem Dev.exportKey_posts (x w : Key) : (d.exportKey e k x w).posts = d.posts :=
  ((((Dev.Tells.refl (d.wrapKey (some w.secret) (d.tpl k).num x).2).updTpl k _).trans (Dev.keyEvent_tells ..)).trans
    (Dev.keyAnswer_tells ..)).posts

theorem Dev.krExport_posts : (d.krExport e k).posts = d.posts := by
  by_cases h : d.exportCode k = 0
  · rw [show d.krExport e k = _ from if_neg fun hne => hne h]
    dsimp only
    split
    next x w hx hw => exact d.exportKey_posts e k x w
    next => exact (d.keyRefuse_tells ..).posts
  · rw [show d.krExport e k = d.keyRefuse e k 0x48 (d.exportCode k) (d.tpl k).num from if_pos h]
    exact (d.keyRefuse_tells ..).posts

theorem Dev.emptySas_posts (now : Nat) (p : Sa → Bool) : (d.emptySas now p).posts = d.posts := by
  refine List.foldlRecOn (motive := fun b : Dev => b.posts = d.posts) _ _ rfl fun b hb q _ => Eq.trans ?_ hb
  unfold Dev.emptySa Dev.putSa
  dsimp only
  split
  · split <;> rfl
  · split <;> rfl

theorem Dev.krRevoke_posts : (d.krRevoke e k).posts = d.posts := by
  by_cases h : d.revokeCode k = 0
  · rw [Dev.krRevoke_accepted e h]
    refine ((Dev.keyEvent_tells ..).trans (Dev.keyAnswer_tells ..)).posts.trans ((Dev.writeKeyRec_posts ..).trans ?_)
    exact (Dev.emptySas_posts _ e.now _).trans (congrArg Dev.posts (d.undoKeys_closings _).same :)
  · rw [show d.krRevoke e k = d.keyRefuse e k 0x43 (d.revokeCode k) (d.tpl k).num from if_pos h]
    exact (d.keyRefuse_tells ..).posts

theorem Dev.loadKey_posts (x : Key) : (d.loadKey e k x).posts = d.posts :=
  iteInduction (motive := fun y : Dev => y.posts = d.posts) (fun _ => (d.keyRefuse_tells ..).posts)
    fun _ => ((((Dev.Tells.refl (d.putSlot (blobField (d.tpl k).blob 4 4) x)).updTpl k _).trans (Dev.keyEvent_tells ..)).trans
      (Dev.keyAnswer_tells ..)).posts

theorem Dev.krLoad_posts : (d.krLoad e k).posts = d.posts := by
  by_cases h : d.loadCode k = 0
  · cases hx : d.unwrapKey none (d.tpl k).blob with
    | some x =>
      rw [Dev.krLoad_loads e h hx]
      exact d.loadKey_posts e k x
    | none =>
      rw [show d.krLoad e k = _ from if_neg fun hne => hne h]
      dsimp only
      rw [hx]
      exact (d.keyRefuse_tells ..).posts
  · rw [show d.krLoad e k = d.keyRefuse e k 0x40 (d.loadCode k) (blobField (d.tpl k).blob 4 4) from if_pos h]
    exact (d.keyRefuse_tells ..).posts

theorem Dev.krQuery_posts : (d.krQuery k).posts = d.posts := by
  by_cases h : d.serviceCode false = 0
  · rw [Dev.krQuery_eq h]
    exact (((Dev.Tells.refl d).updTpl k _).trans (Dev.keyAnswer_tells ..)).posts
  · rw [show d.krQuery k = d.keyAnswer k (d.serviceCode false) from if_pos h]
    exact (d.keyAnswer_tells ..).posts

theorem Dev.krCommand_posts (n : Nat) : (d.krCommand e k n).posts = d.posts := by
  unfold Dev.krCommand
  split
  · rfl
  · split
    · exact d.krGenerate_posts e k
    · exact d.krComponents_posts e k
    · exact d.krTransport_posts e k
    · exact d.krExport_posts e k
    · exact d.krRevoke_posts e k
    · exact d.krLoad_posts e k
    · exact d.krQuery_posts k
    · rfl

/-! ## The island mailbox (R476) -/

/-- What a mailbox command does besides its output. -/
def Dev.mbxWorks (cmd : Nat) : Dev :=
  let x := if cmd = 5 then d.loadSak e.now d.mbxInput else d
  if cmd = 6 then (x.drbg 256).2 else x

theorem Dev.mbxServe_refused {cmd : Nat} (h : d.mbxCode cmd ≠ 0) : d.mbxServe e cmd = d.mbxStatus (d.mbxCode cmd) := if_pos h

theorem Dev.mbxServe_bad (h : d.mbxCode 5 = 0) (hsak : Config.sakOk d.mbxInput = false) :
    d.mbxServe e 5 = d.mbxStatus 0x0647 :=
  (if_neg fun hne => hne h).trans (if_pos ⟨rfl, by rw [hsak]; rfl⟩)

theorem Dev.mbxServe_works {cmd : Nat} (h : d.mbxCode cmd = 0) (hsak : cmd = 5 → Config.sakOk d.mbxInput = true) :
    ∃ bs, d.mbxServe e cmd = ((d.mbxWorks e cmd).mbxOutput bs).mbxStatus 0 := by
  refine ⟨_, (if_neg fun hne => hne h).trans (if_neg fun hbad => ?_)⟩
  have hok := hbad.2
  rw [hsak hbad.1] at hok
  exact absurd hok (by decide)

theorem Dev.mbxWorks_effects (cmd : Nat) : (d.mbxWorks e cmd).posts = d.posts ∧ (d.mbxWorks e cmd).kr.slots = d.kr.slots ∧
    (d.mbxWorks e cmd).kr.recs = d.kr.recs := by
  have hload : ((if cmd = 5 then d.loadSak e.now d.mbxInput else d).posts = d.posts) ∧
      (if cmd = 5 then d.loadSak e.now d.mbxInput else d).kr = d.kr := by
    split
    · exact ⟨rfl, rfl⟩
    · exact ⟨rfl, rfl⟩
  unfold Dev.mbxWorks
  generalize (if cmd = 5 then d.loadSak e.now d.mbxInput else d) = x at hload
  obtain ⟨hposts, hkr⟩ := hload
  rw [← hkr, ← hposts]
  dsimp only
  split
  · exact ⟨rfl, rfl, rfl⟩
  · exact ⟨rfl, rfl, rfl⟩

theorem Dev.mbxServe_posts (cmd : Nat) : (d.mbxServe e cmd).posts = d.posts := by
  by_cases h : d.mbxCode cmd = 0
  · by_cases hsak : cmd = 5 → Config.sakOk d.mbxInput = true
    · obtain ⟨bs, hcmd⟩ := d.mbxServe_works e h hsak
      rw [hcmd, (d.mbxWorks e cmd).mbxOutput_same bs]
      exact (d.mbxWorks_effects e cmd).1
    · obtain ⟨rfl, hbad⟩ := Classical.not_imp.1 hsak
      rw [d.mbxServe_bad e h (Bool.eq_false_iff.2 hbad)]
      rfl
  · rw [d.mbxServe_refused e h]
    rfl

/-- A mailbox command that is served leaves status 0 and every key. -/
theorem Dev.mbxServe_serves {cmd : Nat} (h : d.mbxCode cmd = 0) (hsak : cmd = 5 → Config.sakOk d.mbxInput = true) :
    (d.mbxServe e cmd).answer.code = 0 ∧ (d.mbxServe e cmd).reg 0x210004 = 0 ∧ (d.mbxServe e cmd).kr.slots = d.kr.slots ∧
    (d.mbxServe e cmd).kr.recs = d.kr.recs := by
  obtain ⟨bs, hcmd⟩ := d.mbxServe_works e h hsak
  obtain ⟨-, hslots, hrecs⟩ := d.mbxWorks_effects e cmd
  rw [hcmd, (d.mbxWorks e cmd).mbxOutput_same bs]
  exact ⟨rfl, Dev.reg_putReg_same _ 0x210004 0, hslots, hrecs⟩

theorem Dev.serveWaiting_posts (p : Nat × Nat) : (d.serveWaiting e p).posts = d.posts := by
  unfold Dev.serveWaiting
  refine iteInduction (motive := fun x : Dev => x.posts = d.posts) (fun _ => rfl) fun _ =>
    iteInduction (motive := fun x : Dev => x.posts = d.posts) (fun _ => d.mbxServe_posts e p.2) fun _ =>
    iteInduction (motive := fun x : Dev => x.posts = d.posts) (fun _ => (Dev.closeRequest_posts _ _).trans ?_) fun _ => rfl
  exact iteInduction (motive := fun x : Dev => x.posts = d.posts) (fun _ => d.krCommand_posts e p.1 p.2) fun _ => rfl

theorem Dev.serveAll_posts (ps : List (Nat × Nat)) : (ps.foldl (Dev.serveWaiting e) d).posts = d.posts :=
  List.foldlRecOn (motive := fun b : Dev => b.posts = d.posts) _ _ rfl fun b hb p _ => (b.serveWaiting_posts e p).trans hb

end

/-! ## An end in success -/

/-- From `d` to `d'` the objects in `ks`, the hold, the test and the commands that wait stand. -/
structure Dev.Resumes (ks : List Obj) (d d' : Dev) : Prop where
  objs : ∀ o ∈ ks, ∀ i, d'.g o i = d.g o i
  test : d'.kr.test = d.kr.test
  hold : d'.kr.hold = d.kr.hold
  waiting : d'.kr.waiting = d.kr.waiting
  posts : d'.posts = d.posts

section
variable {ks : List Obj} {a b c : Dev}

theorem Dev.Resumes.refl (d : Dev) : d.Resumes ks d := ⟨fun _ _ _ => rfl, rfl, rfl, rfl, rfl⟩

theorem Dev.Resumes.trans (h : a.Resumes ks b) (k : b.Resumes ks c) : a.Resumes ks c :=
  ⟨fun o ho i => (k.objs o ho i).trans (h.objs o ho i), k.test.trans h.test, k.hold.trans h.hold, k.waiting.trans h.waiting,
    k.posts.trans h.posts⟩

theorem Dev.Resumes.foldl {α : Type} (d : Dev) (xs : List α) (f : Dev → α → Dev) (h : ∀ (b : Dev) (x : α), b.Resumes ks (f b x)) :
    d.Resumes ks (xs.foldl f d) :=
  List.foldlRecOn (motive := fun b => d.Resumes ks b) _ _ (.refl d) fun b hb x _ => hb.trans (h b x)

theorem Dev.Resumes.put (h : a.Resumes ks b) (o : Obj) (i v : Nat) (ho : o ∉ ks) : a.Resumes ks (b.put o i v) :=
  h.trans ⟨fun _ hp k => b.g_put_of_ne i k v fun heq => ho (heq ▸ hp), rfl, rfl, rfl, rfl⟩

theorem Dev.Tells.resumes (h : a.Tells b) (hks : ∀ o ∈ ks, o ∉ recordObjs) : a.Resumes ks b :=
  ⟨fun o ho => h.objs o (hks o ho), congrArg KrUnit.test h.kr, congrArg KrUnit.hold h.kr, congrArg KrUnit.waiting h.kr, h.posts⟩

theorem Dev.needKey_resumes (d : Dev) (num : Nat) (hks : .krSlotsUsed ∉ ks ∧ .krKeptCount ∉ ks) :
    d.Resumes ks (d.needKey num) := by
  unfold Dev.needKey
  split
  · exact .refl d
  · split
    next x _ =>
      have hslot : d.Resumes ks { d with kr := { d.kr with slots := d.kr.slots.put num x } } :=
        ⟨fun _ _ _ => rfl, rfl, rfl, rfl, rfl⟩
      exact (hslot.put .krSlotsUsed 0 _ hks.1).put .krKeptCount 0 _ hks.2
    next => exact .refl d

theorem Dev.reloadKeys_resumes (e : Env) (d : Dev) (hks : .krSlotsUsed ∉ ks ∧ .krKeptCount ∉ ks) :
    d.Resumes ks (d.reloadKeys e) :=
  (Dev.Resumes.foldl d _ _ fun b num => b.needKey_resumes num hks).trans
    (.foldl _ _ _ fun _ _ => ⟨fun _ _ _ => rfl, rfl, rfl, rfl, rfl⟩)

/-- The objects a swap of the island's image changes. -/
def swapObjs : List Obj := [.fwRunning, .imgVerCore, .imgVerIsland, .fwState, .fwStatus] ++ recordObjs

theorem Dev.swapIsland_resumes (e : Env) (d : Dev) (hks : ∀ o ∈ ks, o ∉ swapObjs) : d.Resumes ks (d.swapIsland e) := by
  have hout {o : Obj} (ho : o ∈ swapObjs) : o ∉ ks := fun h => hks o h ho
  have hswap : d.Resumes ks { d with kr := { d.kr with swapping := false } } := ⟨fun _ _ _ => rfl, rfl, rfl, rfl, rfl⟩
  unfold Dev.swapIsland
  generalize ({ d with kr := { d.kr with swapping := false } } : Dev) = x at hswap ⊢
  have hrun : x.Resumes ks (x.setRunning 1 (x.otherSlot 1) true) :=
    ((Dev.Resumes.refl x).put .fwRunning 0 _ (hout (by decide))).put .imgVerIsland 0 _ (hout (by decide))
  have hstate := (hrun.put .fwState 0 0 (hout (by decide))).put .fwStatus 0 0 (hout (by decide))
  exact (hswap.trans hstate).trans ((Dev.keyEvent_tells ..).resumes fun o ho h => hks o ho (List.mem_append_right _ h))

end

/-- The tests are over, and the hold with them. -/
def Dev.testsOver (now : Nat) (d : Dev) : Dev :=
  (({ d with kr := { d.kr with test := none, hold := false, tested := now } }).put .krIslandState 0 0).put .krSelftestResult 0 0

/-- The island is back in service, before what waited is served. -/
def Dev.backInService (e : Env) (d : Dev) : Dev :=
  let x := d.testsOver e.now
  let x := if x.kr.swapping then x.swapIsland e else x
  if d.kr.hold then x.reloadKeys e else x

/-- No command waits any more. -/
def Dev.noneWaiting (d : Dev) : Dev := { d with kr := { d.kr with waiting := [] } }

theorem Dev.islandPasses_eq (e : Env) (d : Dev) :
    d.islandPasses e = (d.backInService e).kr.waiting.foldl (Dev.serveWaiting e) (d.backInService e).noneWaiting := rfl

theorem Dev.backInService_resumes (e : Env) (d : Dev) :
    (d.testsOver e.now).Resumes [.krIslandState, .krSelftestResult] (d.backInService e) := by
  unfold Dev.backInService
  generalize d.testsOver e.now = x
  have hswap : x.Resumes [.krIslandState, .krSelftestResult] (if x.kr.swapping then x.swapIsland e else x) := by
    split
    · exact x.swapIsland_resumes e (by decide)
    · exact .refl x
  dsimp only
  generalize (if x.kr.swapping then x.swapIsland e else x) = y at hswap ⊢
  split
  · exact hswap.trans (y.reloadKeys_resumes e (by decide))
  · exact hswap

/-- A pass returns the island to service, and serves what waited. -/
theorem Dev.islandPasses_effects (e : Env) (d : Dev) : ∃ p : Dev, d.islandPasses e = d.kr.waiting.foldl (Dev.serveWaiting e) p ∧
    p.posts = d.posts ∧ p.kr.test = none ∧ p.kr.hold = false ∧ p.kr.waiting = [] ∧ p.g .krIslandState = 0 ∧
    p.g .krSelftestResult = 0 := by
  have h := d.backInService_resumes e
  rw [d.islandPasses_eq]
  have hstate : (d.testsOver e.now).g .krIslandState = 0 :=
    (Dev.g_put_of_ne _ _ _ _ (by decide)).trans (Dev.g_put_of_lt _ .krIslandState 0 0 (by decide))
  have hresult : (d.testsOver e.now).g .krSelftestResult = 0 := Dev.g_put_of_lt _ .krSelftestResult 0 0 (by decide)
  generalize d.backInService e = x at h ⊢
  obtain ⟨hobjs, htest, hhold, hwaiting, hposts⟩ := h
  refine ⟨x.noneWaiting, ?_, hposts, htest, hhold, rfl, (hobjs .krIslandState (by decide) 0).trans hstate,
    (hobjs .krSelftestResult (by decide) 0).trans hresult⟩
  rw [hwaiting]
  rfl

end Sys2Proof.Machine
end

section
/-!
Night Watch on a part that is awake (R468 to R470).
-/

namespace Sys2Proof.Machine

section
variable {ks : List Obj}

theorem Dev.tamperBoth_guards (e : Env) (d : Dev) (det : Nat) (hks : ∀ o ∈ ks, o ∉ Obj.nwState :: wipeObjs) :
    d.wiped.Guards ks (d.tamperBoth e det) := by
  have hwipe := (d.nwSet det false).zeroise_guards e (ks := ks) fun o ho h => hks o ho (List.mem_cons_of_mem _ h)
  have hset : d.wiped.Guards ks (d.nwSet det false).wiped :=
    (Dev.Guards.refl d.wiped).put .nwState 0 _ fun h => hks _ h List.mem_cons_self
  unfold Dev.tamperBoth
  generalize (d.nwSet det false).zeroise e = x at hwipe ⊢
  exact (hset.trans hwipe).trans (.of_eq rfl rfl rfl rfl)

/-- The shares of a root are destroyed with the fuse of its number. -/
def Dev.voids (d : Dev) : Dev := { d with fuses := { d.fuses with
  voided := d.fuses.voided.put d.rootCode true, helper := d.fuses.helper.put d.rootCode true } }

theorem Dev.destroyShares_rooted {d : Dev} (hblank : d.lc ≠ lcBlank) (hend : d.lc ≠ lcEnd) :
    d.destroyShares = d.voids.eraseHelper.put .krRootState 0 2 :=
  if_neg fun h => h.elim hblank hend

theorem Dev.destroyShares_guards (d : Dev) (hks : ∀ o ∈ ks, o ∉ Obj.krRootState :: recordObjs) :
    d.Guards ks d.destroyShares := by
  by_cases h : d.lc = lcBlank ∨ d.lc = lcEnd
  · rw [show d.destroyShares = d from if_pos h]
    exact .refl d
  · rw [Dev.destroyShares_rooted (fun hb => h (.inl hb)) fun he => h (.inr he)]
    have hvoid : d.Guards ks d.voids := .of_eq rfl rfl rfl rfl
    exact .put (hvoid.trans ((d.voids.nvWrite_records _).guards fun o ho hr => hks o ho (List.mem_cons_of_mem _ hr)))
      .krRootState 0 2 fun hk => hks _ hk List.mem_cons_self

end

theorem Dev.destroyShares_root {d : Dev} (hblank : d.lc ≠ lcBlank) (hend : d.lc ≠ lcEnd) : d.destroyShares.g .krRootState = 2 := by
  rw [Dev.destroyShares_rooted hblank hend]
  exact Dev.g_put_of_lt _ .krRootState 0 2 (by decide)

/-! ## A physical tamper -/

/-- The tamper's record and its event. -/
def Dev.tamperEvent (e : Env) (d : Dev) (kind detail bit : Nat) : Dev :=
  (d.ledger e kind {} 0 0 0 detail).flagNow .krEventFlags 0 bit

theorem Dev.tamperEvent_guards {ks : List Obj} (e : Env) (d : Dev) (kind detail bit : Nat)
    (hks : ∀ o ∈ ks, o ∉ Obj.krEventFlags :: recordObjs) : d.Guards ks (d.tamperEvent e kind detail bit) :=
  ((d.ledger_records ..).guards fun o ho h => hks o ho (List.mem_cons_of_mem _ h)).trans
    (Dev.flagNow_guards _ 0 bit fun h => hks _ h List.mem_cons_self)

theorem Dev.physicalTamper_eq (e : Env) (d : Dev) (det : Nat) : d.physicalTamper e det =
    ((d.tamperBoth e det).tamperEvent e 0x42 det 2).destroyShares.enterQuarantine e
      (if ((d.tamperBoth e det).tamperEvent e 0x42 det 2).pwr.started then 3 else 2) := rfl

theorem Dev.physicalTamper_effects (e : Env) (d : Dev) (det : Nat) : (d.physicalTamper e det).kr.slots = [] ∧
    ((d.physicalTamper e det).g .lcState).testBit 7 = true ∧ ((d.physicalTamper e det).g .krEventFlags).testBit 2 = true ∧
    (d.g .lcState % 8 ≠ 0 → d.g .lcState % 8 ≠ 4 → (d.physicalTamper e det).g .krRootState = 2) := by
  rw [d.physicalTamper_eq]
  have hboth := d.tamperBoth_guards e (ks := [.lcState]) det (by decide)
  generalize d.tamperBoth e det = x at hboth ⊢
  have hevent := x.tamperEvent_guards e (ks := [.lcState]) 0x42 det 2 (by decide)
  have hbit : ((x.tamperEvent e 0x42 det 2).g .krEventFlags).testBit 2 = true := Dev.flagNow_testBit _ (by decide)
  generalize x.tamperEvent e 0x42 det 2 = y at hevent hbit ⊢
  have hlc : y.g .lcState = d.g .lcState := (hboth.trans hevent).objs .lcState (by decide) 0
  have hroot (h0 : d.g .lcState % 8 ≠ 0) (h4 : d.g .lcState % 8 ≠ 4) : y.destroyShares.g .krRootState = 2 := by
    refine Dev.destroyShares_root ?_ ?_
    · unfold Dev.lc
      rw [hlc]
      exact h0
    · unfold Dev.lc
      rw [hlc]
      exact h4
  have hdestroy := y.destroyShares_guards (ks := [.krEventFlags]) (by decide)
  generalize (if y.pwr.started = true then 3 else 2) = cause
  generalize y.destroyShares = z at hdestroy hroot ⊢
  have hq := z.enterQuarantine_guards (ks := [.krEventFlags, .krRootState]) e cause (by decide)
  have hsealed := z.enterQuarantine_quarantine e cause
  refine ⟨congrArg KrUnit.slots (hq.kr.trans (hdestroy.kr.trans (hevent.kr.trans hboth.kr))), hsealed, ?_,
    fun h0 h4 => (hq.objs .krRootState (by decide) 0).trans (hroot h0 h4)⟩
  rw [hq.objs .krEventFlags (by decide) 0, hdestroy.objs .krEventFlags (by decide) 0]
  exact hbit

/-! ## An environmental tamper -/

/-- A detector's condition is noted. -/
def Dev.noted (now : Nat) (d : Dev) (det : Nat) : Dev := { d with kr := { d.kr with conds := d.kr.conds.put det now } }

/-- The tampers of the last 24 h, with this one. -/
def KrUnit.recent (u : KrUnit) (now : Nat) : List Nat := now :: u.tampers.filter fun t => now < t + dayTicks

/-- Services are held, and no test runs. -/
def Dev.serviceHeld (now : Nat) (d : Dev) : Dev :=
  let d := { d with kr := { d.kr with hold := true, test := none, tampers := d.kr.recent now } }
  if d.islandError then d else d.put .krIslandState 0 0

/-- During start-up, or with too many tampers in 24 h, the part enters QUARANTINE. -/
def Dev.tamperSeals (e : Env) (d : Dev) (recent : List Nat) : Dev :=
  if !d.pwr.started then d.enterQuarantine e 1
  else if d.g .nwEnvLimit ≤ recent.length then d.enterQuarantine e 6
  else d

theorem Dev.environmentalTamper_again (e : Env) {d : Dev} {det : Nat} (h : (d.kr.conds.find det).isSome = true) :
    d.environmentalTamper e det = d.noted e.now det := if_pos h

theorem Dev.environmentalTamper_first (e : Env) {d : Dev} {det : Nat} (h : (d.kr.conds.find det).isSome = false) :
    d.environmentalTamper e det = (((((((d.noted e.now det).tamperBoth e det).tamperEvent e 0x41 det 1).count .nwEnvCount).serviceHeld
      e.now).tamperSeals e ((((((d.noted e.now det).tamperBoth e det).tamperEvent e 0x41 det 1).count .nwEnvCount).kr.recent
        e.now)))).serveAllWaiting e := if_neg (Bool.eq_false_iff.1 h)

theorem Dev.serviceHeld_effects (now : Nat) (d : Dev) :
    (d.serviceHeld now).kr = { d.kr with hold := true, test := none, tampers := d.kr.recent now } ∧
    (d.serviceHeld now).Unserved ∧ (d.serviceHeld now).pwr = d.pwr ∧ (d.serviceHeld now).late = d.late ∧
    ∀ o, o ≠ .krIslandState → (d.serviceHeld now).g o = d.g o := by
  unfold Dev.serviceHeld
  generalize hx : ({ d with kr := { d.kr with hold := true, test := none, tampers := d.kr.recent now } } : Dev) = x
  have hxkr : x.kr = { d.kr with hold := true, test := none, tampers := d.kr.recent now } := hx ▸ rfl
  have hxrest : x.pwr = d.pwr ∧ x.late = d.late ∧ x.objs = d.objs := hx ▸ ⟨rfl, rfl, rfl⟩
  obtain ⟨hpwr, hlate, hobjs⟩ := hxrest
  have hg (o : Obj) : x.g o = d.g o := Dev.g_of_objs hobjs o 0
  by_cases herror : x.islandError = true
  · rw [if_pos herror]
    exact ⟨hxkr, .inl (beq_iff_eq.1 herror), hpwr, hlate, fun o _ => hg o⟩
  · rw [if_neg herror]
    refine ⟨hxkr, .inr ⟨?_, congrArg KrUnit.hold hxkr⟩, hpwr, hlate,
      fun o ho => (x.g_put_of_ne 0 0 0 ho).trans (hg o)⟩
    rw [Dev.g_put_of_lt _ .krIslandState 0 0 (by decide)]
    decide

theorem Dev.tamperSeals_guards {ks : List Obj} (e : Env) (d : Dev) (recent : List Nat) (hks : ∀ o ∈ ks, o ∉ Obj.lcState :: sealObjs) :
    d.Guards ks (d.tamperSeals e recent) :=
  .ite _ (d.enterQuarantine_guards e 1 hks) (.ite _ (d.enterQuarantine_guards e 6 hks) (.refl d))

theorem Dev.tamperSeals_sealed (e : Env) {d : Dev} {recent : List Nat}
    (h : d.pwr.started = false ∨ d.g .nwEnvLimit ≤ recent.length) : (d.tamperSeals e recent).quarantine = true := by
  unfold Dev.tamperSeals
  by_cases hstarted : d.pwr.started = false
  · rw [if_pos (by rw [hstarted]; rfl)]
    exact d.enterQuarantine_quarantine e 1
  · rw [if_neg (by rw [Bool.not_eq_true']; exact hstarted), if_pos (h.resolve_left hstarted)]
    exact d.enterQuarantine_quarantine e 6

/-- Services are held after an environmental tamper; `seals` has the part in QUARANTINE. -/
structure Dev.Tampered (seals : Prop) (d : Dev) : Prop where
  slots : d.kr.slots = []
  hold : d.kr.hold = true
  waiting : d.kr.waiting = []
  flag : (d.g .krEventFlags).testBit 1 = true
  count : Late.add .nwEnvCount 0 1 ∈ d.late
  sealed : seals → (d.g .lcState).testBit 7 = true

theorem Dev.environmentalTamper_effects (e : Env) {d : Dev} {det : Nat} (h : (d.kr.conds.find det).isSome = false) :
    (d.environmentalTamper e det).kr.conds.find det = some e.now ∧
    (d.environmentalTamper e det).Tampered (d.pwr.started = false ∨ d.g .nwEnvLimit ≤ (d.kr.recent e.now).length) := by
  rw [Dev.environmentalTamper_first e h]
  have hboth := (d.noted e.now det).tamperBoth_guards e (ks := [.nwEnvLimit]) det (by decide)
  generalize (d.noted e.now det).tamperBoth e det = x at hboth ⊢
  have hevent := x.tamperEvent_guards e (ks := [.nwEnvLimit]) 0x41 det 1 (by decide)
  have hbit : ((x.tamperEvent e 0x41 det 1).g .krEventFlags).testBit 1 = true := Dev.flagNow_testBit _ (by decide)
  generalize x.tamperEvent e 0x41 det 1 = y at hevent hbit ⊢
  have hcount := y.count_mem_late .nwEnvCount
  have hykr : (y.count .nwEnvCount).kr = (d.noted e.now det).wiped.kr := hevent.kr.trans hboth.kr
  have hylimit : (y.count .nwEnvCount).g .nwEnvLimit = d.g .nwEnvLimit := (hboth.trans hevent).objs .nwEnvLimit (by decide) 0
  have hypwr : (y.count .nwEnvCount).pwr = d.pwr := (hboth.trans hevent).pwr
  have hybit : ((y.count .nwEnvCount).g .krEventFlags).testBit 1 = true := hbit
  generalize y.count .nwEnvCount = z at hcount hykr hylimit hypwr hybit ⊢
  obtain ⟨hheldkr, hunserved, hheldpwr, hheldlate, hheldobjs⟩ := z.serviceHeld_effects e.now
  have hrecent : z.kr.recent e.now = d.kr.recent e.now := by
    rw [hykr]
    rfl
  rw [hrecent] at hheldkr ⊢
  generalize z.serviceHeld e.now = v at hheldkr hunserved hheldpwr hheldlate hheldobjs ⊢
  have hseal := v.tamperSeals_guards (ks := [.krIslandState, .krEventFlags]) e (d.kr.recent e.now) (by decide)
  have hsealed (hs : d.pwr.started = false ∨ d.g .nwEnvLimit ≤ (d.kr.recent e.now).length) :
      (v.tamperSeals e (d.kr.recent e.now)).quarantine = true := by
    refine Dev.tamperSeals_sealed e ?_
    rw [hheldpwr, hypwr, hheldobjs .nwEnvLimit (by decide), hylimit]
    exact hs
  generalize v.tamperSeals e (d.kr.recent e.now) = q at hseal hsealed ⊢
  have hqunserved : q.Unserved := by
    unfold Dev.Unserved
    rw [hseal.objs .krIslandState (by decide) 0, hseal.kr]
    exact hunserved
  have hserve := Dev.serveAllWaiting_unserved (ks := [.krIslandState, .krEventFlags, .lcState]) e hqunserved (by decide) (by decide)
  generalize q.serveAllWaiting e = w at hserve ⊢
  have hqkr := hseal.kr.trans hheldkr
  rw [hykr] at hqkr
  obtain ⟨hwobjs, hwlate, hwkr, -⟩ := hserve
  have hwflag : w.g .krEventFlags = q.g .krEventFlags := hwobjs .krEventFlags (by decide) 0
  have hwlc : w.g .lcState = q.g .lcState := hwobjs .lcState (by decide) 0
  have hkr : w.kr = { (d.noted e.now det).wiped.kr with
    hold := true, test := none, tampers := d.kr.recent e.now, waiting := [] } :=
    hwkr.trans (congrArg (fun u : KrUnit => { u with waiting := [] }) hqkr)
  refine ⟨?_, ⟨?_, ?_, ?_, ?_, hwlate _ (hseal.late _ (hheldlate ▸ hcount)), fun hs => ?_⟩⟩
  · rw [hkr]
    exact Tab.find_put_same _ _ _
  · rw [hkr]
    rfl
  · rw [hkr]
  · rw [hkr]
  · rw [hwflag, hseal.objs .krEventFlags (by decide) 0, hheldobjs .krEventFlags (by decide)]
    exact hybit
  · rw [hwlc]
    exact hsealed hs

/-! ## A condition clears -/

/-- The block with a detector's condition gone. -/
def Dev.condGone (d : Dev) (det : Nat) : Dev := ({ d with kr := { d.kr with conds := d.kr.conds.del det } }).nwSet det true

theorem Dev.tamperClears_clear (e : Env) {d : Dev} {det : Nat} (h : d.kr.conds.find det = none) : d.tamperClears e det = d := by
  unfold Dev.tamperClears
  rw [h]

theorem Dev.tamperClears_early (e : Env) {d : Dev} {det b : Nat} (h : d.kr.conds.find det = some b) (hb : e.now < b + 400000) :
    d.tamperClears e det = d := by
  unfold Dev.tamperClears
  rw [h]
  exact if_pos hb

theorem Dev.tamperClears_late (e : Env) {d : Dev} {det b : Nat} (h : d.kr.conds.find det = some b) (hb : b + 400000 ≤ e.now) :
    d.tamperClears e det =
      if (d.condGone det).kr.conds.isEmpty ∧ (d.condGone det).kr.hold ∧ !(d.condGone det).islandError then
        (d.condGone det).startTest e.now else d.condGone det := by
  unfold Dev.tamperClears
  rw [h]
  exact if_neg (Nat.not_lt.2 hb)

theorem Dev.tamperClears_effects (e : Env) {d : Dev} {det b : Nat} (h : d.kr.conds.find det = some b) (hb : b + 400000 ≤ e.now) :
    (d.tamperClears e det).kr.conds = d.kr.conds.del det ∧
    (d.kr.conds.del det = [] → d.kr.hold = true → d.g .krIslandState ≠ 2 →
      (d.tamperClears e det).g .krIslandState = 1 ∧ (d.tamperClears e det).kr.test = some e.now) := by
  rw [Dev.tamperClears_late e h hb]
  have hgone : (d.condGone det).kr = { d.kr with conds := d.kr.conds.del det } := rfl
  have hstate : (d.condGone det).g .krIslandState = d.g .krIslandState := Dev.g_put_of_ne _ 0 0 _ (by decide)
  generalize d.condGone det = x at hgone hstate ⊢
  constructor
  · exact iteInduction (motive := fun y : Dev => y.kr.conds = d.kr.conds.del det) (fun _ => congrArg KrUnit.conds hgone)
      fun _ => congrArg KrUnit.conds hgone
  · intro hlast hhold hne
    have hstarts : x.kr.conds.isEmpty = true ∧ x.kr.hold = true ∧ (!x.islandError) = true := by
      refine ⟨?_, (congrArg KrUnit.hold hgone).trans hhold, ?_⟩
      · rw [hgone]
        exact List.isEmpty_iff.2 hlast
      · rw [Bool.not_eq_true', Dev.islandError, hstate]
        exact beq_eq_false_iff_ne.2 hne
    rw [if_pos hstarts]
    exact ⟨Dev.g_put_of_lt _ .krIslandState 0 1 (by decide), rfl⟩

end Sys2Proof.Machine
end

section
/-!
The island's tests and its mailbox as commands (R465, R466, R467, R476).
-/

namespace Sys2Proof.Machine

theorem exec_krSelftest (s : State) : exec .krSelftest s = s.at 7 fun e d => d.selftest e 0xFF := rfl
theorem exec_periodicSelftest (s : State) : exec .periodicSelftest s = s.at 9 fun e d =>
    d.when (d.g .krIslandState == 0 && !d.kr.hold && decide (d.kr.tested + dayTicks ≤ e.now)) fun d => d.startTest e.now := rfl
theorem exec_drbgReseed (s : State) : exec .drbgReseed s = s.at 9 fun e d =>
    d.when (decide (2 ^ 20 ≤ d.kr.requests) || decide (d.kr.reseeded + 3600 * 4000000 ≤ e.now)) fun d =>
      ({ d with kr := { d.kr with requests := 0, reseeded := e.now } }).count .drbgReseeds := rfl
theorem exec_islandSelftestDone_true (s : State) : exec (.islandSelftestDone true) s =
    ((s.enter 7).run fun e d => if d.asleep ∨ d.kr.test.isNone then d else d.islandPasses e).thenHeld := rfl
theorem exec_islandSelftestDone_false (s : State) : exec (.islandSelftestDone false) s =
    ((s.enter 3).run fun e d => if d.asleep ∨ d.kr.test.isNone then d else d.islandFails e).thenHeld := rfl

/-- An effect that changes nothing lets the held requests go on from the rank entered. -/
theorem State.thenHeld_same {s : State} {r : Nat} {f : Env → Dev → Dev} (hf : f (s.enter r).env (s.enter r).dev = (s.enter r).dev) :
    ∃ t, ((s.enter r).run f).thenHeld = .next t ∧ (s.enter r).thenHeld = .next t ∧
      ((s.enter r).dev.ses.held = [] → t = s.enter r) := by
  obtain ⟨t, ht, hheld⟩ := State.thenHeld_next (s.enter r)
  rw [State.run_id (s.enter r) f hf (s.enter_posts r)]
  exact ⟨t, ht, ht, hheld⟩

/-! ## Tests that start -/

section
variable {s : State}

theorem krSelftest_starts (hs : s.Awake 7) :
    let u := s.enter 7
    let d := u.dev
    (d.g .krIslandState = 1 → exec .krSelftest s =
      .next (u.become { d with kr := { d.kr with waiting := d.kr.waiting ++ [(0xFF, 0)] } })) ∧
    (d.g .krIslandState = 2 → exec .krSelftest s = .next (u.become (d.answerCode 0x0645))) ∧
    (d.g .krIslandState ≠ 1 → d.g .krIslandState ≠ 2 → d.kr.hold = true →
      exec .krSelftest s = .next (u.become (d.answerCode 0x0646))) ∧
    (d.g .krIslandState ≠ 1 → d.g .krIslandState ≠ 2 → d.kr.hold = false →
      exec .krSelftest s = .next (u.become ((d.startTest u.clk.elapsed).answerCode 0))) := by
  intro u d
  have hrefused {code : Nat} (h1 : d.g .krIslandState ≠ 1) (hservice : d.serviceCode false = code) (hcode : code ≠ 0) :
      exec .krSelftest s = .next (u.become (d.answerCode code)) := by
    subst hservice
    exact (exec_krSelftest s).trans (s.at_become 7 _ _ hs ((if_neg h1).trans (if_pos hcode)) (s.enter_posts 7))
  refine ⟨fun h1 => ?_, fun h2 => ?_, fun h1 h2 hold => ?_, fun h1 h2 hold => ?_⟩
  · exact (exec_krSelftest s).trans (s.at_become 7 _ _ hs (if_pos h1) (s.enter_posts 7))
  · exact hrefused (by rw [h2]; decide) (Dev.serviceCode_error h2 false) (by decide)
  · exact hrefused h1 (Dev.serviceCode_held h2 hold false) (by decide)
  · have hservice : d.serviceCode false = 0 := by
      rw [Dev.serviceCode_serving h2, hold]
      rfl
    exact (exec_krSelftest s).trans (s.at_become 7 _ _ hs ((if_neg h1).trans (if_neg fun hne => hne hservice)) (s.enter_posts 7))

theorem periodicSelftest_starts (hs : s.Awake 9) :
    let u := s.enter 9
    let d := u.dev
    let due := d.g .krIslandState = 0 ∧ d.kr.hold = false ∧ d.kr.tested + dayTicks ≤ u.clk.elapsed
    (¬due → exec .periodicSelftest s = .next u) ∧
    (due → exec .periodicSelftest s = .next (u.become (d.startTest u.clk.elapsed))) := by
  intro u d due
  have hdue : (d.g .krIslandState == 0 && !d.kr.hold && decide (d.kr.tested + dayTicks ≤ u.env.now)) = true ↔ due := by
    rw [Bool.and_eq_true, Bool.and_eq_true, beq_iff_eq, Bool.not_eq_true', decide_eq_true_iff, and_assoc]
    rfl
  rw [exec_periodicSelftest]
  exact ⟨fun h => s.at_id 9 _ hs (Dev.when_of_false _ _ (Bool.eq_false_iff.2 (hdue.not.2 h))),
    fun h => s.at_become 9 _ _ hs (Dev.when_of_true _ _ (hdue.2 h)) (s.enter_posts 9)⟩

theorem drbgReseed_counts (hs : s.Awake 9) :
    let u := s.enter 9
    let d := u.dev
    let stale := 2 ^ 20 ≤ d.kr.requests ∨ d.kr.reseeded + 3600 * 4000000 ≤ u.clk.elapsed
    (¬stale → exec .drbgReseed s = .next u) ∧
    (stale → exec .drbgReseed s = .next (u.become
      (({ d with kr := { d.kr with requests := 0, reseeded := u.clk.elapsed } }).count .drbgReseeds))) := by
  intro u d stale
  have hstale : (decide (2 ^ 20 ≤ d.kr.requests) || decide (d.kr.reseeded + 3600 * 4000000 ≤ u.env.now)) = true ↔ stale := by
    rw [Bool.or_eq_true, decide_eq_true_iff, decide_eq_true_iff]
    rfl
  rw [exec_drbgReseed]
  exact ⟨fun h => s.at_id 9 _ hs (Dev.when_of_false _ _ (Bool.eq_false_iff.2 (hstale.not.2 h))),
    fun h => s.at_become 9 _ _ hs (Dev.when_of_true _ _ (hstale.2 h)) (s.enter_posts 9)⟩

/-! ## Tests that end -/

theorem islandSelftestDone_passes (hs : s.Awake 7) :
    let u := s.enter 7
    let d := u.dev
    (d.kr.test = none → ∃ t, exec (.islandSelftestDone true) s = .next t ∧ u.thenHeld = .next t ∧
      (d.ses.held = [] → t = u)) ∧
    (d.kr.test ≠ none → ∃ (p : Dev) (t : State), exec (.islandSelftestDone true) s = .next t ∧ p.kr.test = none ∧
      p.kr.hold = false ∧ p.kr.waiting = [] ∧ p.g .krIslandState = 0 ∧ p.g .krSelftestResult = 0 ∧
      (u.become (d.kr.waiting.foldl (Dev.serveWaiting u.env) p)).thenHeld = .next t) := by
  intro u d
  rw [exec_islandSelftestDone_true]
  constructor
  · exact fun hnone => State.thenHeld_same (if_pos (.inr (Option.isNone_iff_eq_none.2 hnone)))
  · intro hsome
    obtain ⟨p, hpasses, hposts, htest, hhold, hwaiting, hstate, hresult⟩ := d.islandPasses_effects u.env
    have hserved : ((s.enter 7).run fun e d => if d.asleep ∨ d.kr.test.isNone then d else d.islandPasses e) =
        u.become (d.kr.waiting.foldl (Dev.serveWaiting u.env) p) := by
      have hall : (if d.asleep = true ∨ d.kr.test.isNone = true then d else d.islandPasses u.env) =
          d.kr.waiting.foldl (Dev.serveWaiting u.env) p := by
        rw [← hpasses]
        exact if_neg fun h => h.elim (Bool.eq_false_iff.1 hs) fun hn => hsome (Option.isNone_iff_eq_none.1 hn)
      rw [State.run_eq u _ _ hall]
      exact State.run_quiet u _ (((Dev.serveAll_posts _ _ _).trans hposts).trans (s.enter_posts 7))
    obtain ⟨t, ht, -⟩ := State.thenHeld_next (u.become (d.kr.waiting.foldl (Dev.serveWaiting u.env) p))
    exact ⟨p, t, (congrArg State.thenHeld hserved).trans ht, htest, hhold, hwaiting, hstate, hresult, ht⟩

theorem Dev.Failed.run {u : State} {f : Env → Dev → Dev} (h : (f u.env u.dev).Failed) : (u.run f).dev.Failed :=
  ⟨h.state, h.slots, h.test, h.result, h.sealed, h.flag⟩

theorem islandSelftestDone_fails (hs : s.Awake 3) :
    let u := s.enter 3
    let d := u.dev
    (d.kr.test = none → ∃ t, exec (.islandSelftestDone false) s = .next t ∧ u.thenHeld = .next t ∧
      (d.ses.held = [] → t = u)) ∧
    (d.kr.test ≠ none → ∃ w t, exec (.islandSelftestDone false) s = .next t ∧ w.dev.Failed ∧ w.thenHeld = .next t ∧
      (w.dev.ses.held = [] → t = w)) := by
  intro u d
  rw [exec_islandSelftestDone_false]
  constructor
  · exact fun hnone => State.thenHeld_same (if_pos (.inr (Option.isNone_iff_eq_none.2 hnone)))
  · intro hsome
    have hfails : (if d.asleep = true ∨ d.kr.test.isNone = true then d else d.islandFails u.env) = d.islandFails u.env :=
      if_neg fun h => h.elim (Bool.eq_false_iff.1 hs) fun hn => hsome (Option.isNone_iff_eq_none.1 hn)
    rw [State.run_eq u _ _ hfails]
    have hfailed := (d.islandFails_effects u.env).1
    generalize d.islandFails u.env = x at hfailed ⊢
    obtain ⟨t, ht, hheld⟩ := State.thenHeld_next (u.run fun _ _ => x)
    exact ⟨u.run fun _ _ => x, t, ht, Dev.Failed.run (f := fun _ _ => x) hfailed, ht, hheld⟩

theorem entropyTestFailure_fails (hs : s.Awake 3) :
    let u := s.enter 3
    let d := u.dev
    (d.g .krIslandState = 2 → ∃ t, exec .entropyTestFailure s = .next t ∧ u.thenHeld = .next t ∧
      (d.ses.held = [] → t = u)) ∧
    (d.g .krIslandState ≠ 2 → ∃ w t, exec .entropyTestFailure s = .next t ∧ w.dev.Failed ∧
      Late.add .esFailures 0 1 ∈ w.dev.late ∧ w.thenHeld = .next t ∧ (w.dev.ses.held = [] → t = w)) := by
  intro u d
  rw [exec_entropyTestFailure, State.entropyFails, State.run_awake hs]
  constructor
  · intro h2
    refine State.thenHeld_same (Dev.when_of_false _ _ ?_)
    rw [Dev.islandError, h2]
    rfl
  · intro h2
    have hfails : (d.when (!d.islandError) fun d => (d.count .esFailures).islandFails u.env) =
        (d.count .esFailures).islandFails u.env := by
      refine Dev.when_of_true _ _ ?_
      rw [Bool.not_eq_true', Dev.islandError]
      exact beq_eq_false_iff_ne.2 h2
    rw [State.run_eq u _ _ hfails]
    obtain ⟨hfailed, hlate⟩ := (d.count .esFailures).islandFails_effects u.env
    have hcounted := hlate _ (d.count_mem_late .esFailures)
    generalize (d.count .esFailures).islandFails u.env = x at hfailed hcounted ⊢
    obtain ⟨t, ht, hheld⟩ := State.thenHeld_next (u.run fun _ _ => x)
    exact ⟨u.run fun _ _ => x, t, ht, Dev.Failed.run (f := fun _ _ => x) hfailed, hcounted, ht, hheld⟩

/-! ## The mailbox -/

/-- The mailbox's commands and their numbers. -/
def mailboxCommands : List (Instr × Nat) := [(.mbxStatusSnapshot, 1), (.mbxMkaKeyDerivation, 2), (.mbxIcvCompute, 3),
  (.mbxIcvCheck, 4), (.mbxSakUnwrapLoad, 5), (.mbxSakGenerate, 6), (.mbxLedgerSignature, 7)]

theorem exec_mailboxCommand {c : Instr} {n : Nat} (h : (c, n) ∈ mailboxCommands) (s : State) :
    exec c s = s.at 7 fun e d => d.mbxCommand e n := by
  simp only [mailboxCommands, List.mem_cons, List.not_mem_nil, or_false, Prod.mk.injEq] at h
  rcases h with ⟨rfl, rfl⟩ | ⟨rfl, rfl⟩ | ⟨rfl, rfl⟩ | ⟨rfl, rfl⟩ | ⟨rfl, rfl⟩ | ⟨rfl, rfl⟩ | ⟨rfl, rfl⟩ <;> rfl

theorem mailboxCommands_number {c : Instr} {n : Nat} (h : (c, n) ∈ mailboxCommands) : ¬(7 < n ∨ n = 0) := by
  have hn : n ∈ mailboxCommands.map Prod.snd := List.mem_map_of_mem h
  have hall : ∀ n ∈ mailboxCommands.map Prod.snd, ¬(7 < n ∨ n = 0) := by decide
  exact hall n hn

theorem Dev.mbxCode_quarantine {d : Dev} {n : Nat} (h1 : n ≠ 1) (hn : ¬(7 < n ∨ n = 0)) (hq : d.quarantine = true) :
    d.mbxCode n = 0x0630 := (if_neg h1).trans ((if_neg hn).trans (if_pos hq))

theorem Dev.mbxCode_service {d : Dev} {n : Nat} (h1 : n ≠ 1) (hn : ¬(7 < n ∨ n = 0)) (hq : d.quarantine = false) :
    d.mbxCode n = d.serviceCode true := (if_neg h1).trans ((if_neg hn).trans (if_neg (Bool.eq_false_iff.1 hq)))

theorem Dev.mbxCommand_served (e : Env) {d : Dev} {n : Nat} (h : d.g .krIslandState = 1 → n = 1) :
    d.mbxCommand e n = d.mbxServe e n := if_neg fun hboth => hboth.2 (h hboth.1)

theorem mailboxCommands_serve (hs : s.Awake 7) {c : Instr} {n : Nat} (hc : (c, n) ∈ mailboxCommands) :
    let u := s.enter 7
    let d := u.dev
    let left (code : Nat) : Prop := exec c s = .next (u.become (d.mbxStatus code))
    (d.g .krIslandState = 1 → n ≠ 1 → exec c s = .next (u.become
      (({ d with kr := { d.kr with waiting := d.kr.waiting ++ [(0x100, n)] } }).putReg 0x210004 0x10000))) ∧
    (d.g .krIslandState ≠ 1 → n ≠ 1 → d.quarantine = true → left 0x0630) ∧
    (d.g .krIslandState ≠ 1 → n ≠ 1 → d.quarantine = false → d.serviceCode true ≠ 0 → left (d.serviceCode true)) ∧
    (d.g .krIslandState ≠ 1 → n = 5 → d.quarantine = false → d.serviceCode true = 0 →
      Config.sakOk d.mbxInput = false → left 0x0647) ∧
    ((n = 1 ∨ (d.g .krIslandState ≠ 1 ∧ d.quarantine = false ∧ d.serviceCode true = 0)) →
      (n = 5 → Config.sakOk d.mbxInput = true) → ∃ t, exec c s = .next t ∧ t.dev.answer.code = 0 ∧
        t.dev.reg 0x210004 = 0 ∧ t.dev.kr.slots = d.kr.slots ∧ t.dev.kr.recs = d.kr.recs) := by
  intro u d left
  have hn := mailboxCommands_number hc
  have hleft {code : Nat} (hidle : d.g .krIslandState ≠ 1) (hserve : d.mbxServe u.env n = d.mbxStatus code) : left code :=
    (exec_mailboxCommand hc s).trans (s.at_become 7 _ _ hs
      ((Dev.mbxCommand_served u.env fun hpaused => absurd hpaused hidle).trans hserve) (s.enter_posts 7))
  have hrefused {code : Nat} (hidle : d.g .krIslandState ≠ 1) (hserve : d.mbxCode n = code) (hcode : code ≠ 0) : left code := by
    subst hserve
    exact hleft hidle (d.mbxServe_refused u.env hcode)
  refine ⟨fun hpaused h1 => ?_, fun hidle h1 hq => ?_, fun hidle h1 hq hservice => ?_, fun hidle h5 hq hservice hsak => ?_,
    fun hserves hsak => ?_⟩
  · exact (exec_mailboxCommand hc s).trans (s.at_become 7 _ _ hs (if_pos ⟨hpaused, h1⟩) (s.enter_posts 7))
  · exact hrefused hidle (Dev.mbxCode_quarantine h1 hn hq) (by decide)
  · exact hrefused hidle (Dev.mbxCode_service h1 hn hq) hservice
  · subst h5
    exact hleft hidle (d.mbxServe_bad u.env ((Dev.mbxCode_service (by decide) hn hq).trans hservice) hsak)
  · have hserved : d.mbxCommand u.env n = d.mbxServe u.env n :=
      Dev.mbxCommand_served u.env fun hpaused => hserves.elim id fun h => absurd hpaused h.1
    have hcode : d.mbxCode n = 0 := by
      by_cases h1 : n = 1
      · exact if_pos h1
      · obtain ⟨-, hq, hservice⟩ := hserves.resolve_left h1
        exact (Dev.mbxCode_service h1 hn hq).trans hservice
    refine ⟨_, (exec_mailboxCommand hc s).trans (State.at_awake _ _ _ hs), ?_⟩
    rw [State.run_eq u _ _ hserved]
    exact d.mbxServe_serves u.env hcode hsak

end

end Sys2Proof.Machine
end

section
/-!
Tampers as commands, on a part that is awake (R468 to R470).
-/

namespace Sys2Proof.Machine

theorem exec_tamperClear (det : Nat) (s : State) : exec (.tamperClear det) s = s.at 1 fun e d => d.tamperClears e det := rfl

section
variable {s : State} {det : Nat}

theorem exec_physicalTamper_awake (hawake : s.dev.asleep = false) : exec (.physicalTamper det) s =
    s.at 1 fun e d => d.when (d.watches det && det < 5) fun d => d.physicalTamper e det :=
  if_neg fun h => Bool.eq_false_iff.1 hawake h.1

theorem exec_environmentalTamper_awake (hs : s.Awake 1) (hawake : s.dev.asleep = false) : exec (.environmentalTamper det) s =
    ((s.enter 1).run fun e d => d.when (d.watches det && 4 < det) fun d => d.environmentalTamper e det).thenHeld :=
  (if_neg fun h => Bool.eq_false_iff.1 hawake h.1).trans (congrArg State.thenHeld (State.run_awake hs _))

section
variable (hs : s.Awake 1) (hawake : s.dev.asleep = false)
include hs hawake

theorem physicalTamper_seals :
    let u := s.enter 1
    let d := u.dev
    (¬(d.watches det = true ∧ det < 5) → exec (.physicalTamper det) s = .next u) ∧
    (d.watches det = true → det < 5 → ∃ t, exec (.physicalTamper det) s = .next t ∧ t.dev.kr.slots = [] ∧
      (t.dev.g .lcState).testBit 7 = true ∧ (t.dev.g .krEventFlags).testBit 2 = true ∧
      (d.g .lcState % 8 ≠ 0 → d.g .lcState % 8 ≠ 4 → t.dev.g .krRootState = 2)) := by
  intro u d
  have hacts : (d.watches det && decide (det < 5)) = true ↔ d.watches det = true ∧ det < 5 := by
    rw [Bool.and_eq_true, decide_eq_true_iff]
  rw [exec_physicalTamper_awake hawake]
  constructor
  · exact fun h => s.at_id 1 _ hs (Dev.when_of_false _ _ (Bool.eq_false_iff.2 (hacts.not.2 h)))
  · intro hwatches hdet
    refine ⟨_, State.at_awake _ _ _ hs, ?_⟩
    have htamper : (d.when (d.watches det && decide (det < 5)) fun d => d.physicalTamper u.env det) = d.physicalTamper u.env det :=
      Dev.when_of_true _ _ (hacts.2 ⟨hwatches, hdet⟩)
    rw [State.run_eq u _ _ htamper]
    exact d.physicalTamper_effects u.env det

theorem environmentalTamper_holds :
    let u := s.enter 1
    let d := u.dev
    let now := u.clk.elapsed
    (¬(d.watches det = true ∧ 4 < det) → ∃ t, exec (.environmentalTamper det) s = .next t ∧ u.thenHeld = .next t ∧
      (d.ses.held = [] → t = u)) ∧
    (d.watches det = true → 4 < det → ∃ w t, exec (.environmentalTamper det) s = .next t ∧ w.thenHeld = .next t ∧
      (w.dev.ses.held = [] → t = w) ∧ w.dev.kr.conds.find det = some now ∧ (d.kr.conds.find det = none →
        w.dev.Tampered (d.pwr.started = false ∨ d.g .nwEnvLimit ≤ (d.kr.recent now).length))) := by
  intro u d now
  have hacts : (d.watches det && decide (4 < det)) = true ↔ d.watches det = true ∧ 4 < det := by
    rw [Bool.and_eq_true, decide_eq_true_iff]
  rw [exec_environmentalTamper_awake hs hawake]
  constructor
  · exact fun h => State.thenHeld_same (Dev.when_of_false _ _ (Bool.eq_false_iff.2 (hacts.not.2 h)))
  · intro hwatches hdet
    have htamper : (d.when (d.watches det && decide (4 < det)) fun d => d.environmentalTamper u.env det) =
        d.environmentalTamper u.env det := Dev.when_of_true _ _ (hacts.2 ⟨hwatches, hdet⟩)
    rw [State.run_eq u _ _ htamper]
    have hnoted : (d.environmentalTamper u.env det).kr.conds.find det = some now := by
      cases hfound : (d.kr.conds.find det).isSome with
      | true =>
        rw [Dev.environmentalTamper_again u.env hfound]
        exact Tab.find_put_same _ _ _
      | false => exact (Dev.environmentalTamper_effects u.env hfound).1
    have htampered (hnone : d.kr.conds.find det = none) :
        (d.environmentalTamper u.env det).Tampered (d.pwr.started = false ∨ d.g .nwEnvLimit ≤ (d.kr.recent now).length) :=
      (Dev.environmentalTamper_effects u.env (by rw [hnone]; rfl)).2
    generalize d.environmentalTamper u.env det = x at hnoted htampered ⊢
    obtain ⟨t, ht, hheld⟩ := State.thenHeld_next (u.run fun _ _ => x)
    refine ⟨u.run fun _ _ => x, t, ht, ht, hheld, hnoted, fun hnone => ?_⟩
    obtain ⟨hslots, hhold, hwaiting, hflag, hcount, hsealed⟩ := htampered hnone
    exact ⟨hslots, hhold, hwaiting, hflag, hcount, hsealed⟩

end

theorem tamperClear_clears (hs : s.Awake 1) :
    let u := s.enter 1
    let d := u.dev
    let now := u.clk.elapsed
    (d.kr.conds.find det = none → exec (.tamperClear det) s = .next u) ∧
    (∀ b : Nat, d.kr.conds.find det = some b →
      (now < b + 400000 → exec (.tamperClear det) s = .next u) ∧
      (b + 400000 ≤ now → ∃ t, exec (.tamperClear det) s = .next t ∧ t.dev.kr.conds = d.kr.conds.del det ∧
        (d.kr.conds.del det = [] → d.kr.hold = true → d.g .krIslandState ≠ 2 →
          t.dev.g .krIslandState = 1 ∧ t.dev.kr.test = some now))) := by
  intro u d now
  rw [exec_tamperClear]
  refine ⟨fun hnone => s.at_id 1 _ hs (Dev.tamperClears_clear u.env hnone), fun b hb => ⟨fun hearly => ?_, fun hlate => ?_⟩⟩
  · exact s.at_id 1 _ hs (Dev.tamperClears_early u.env hb hearly)
  · exact ⟨_, State.at_awake _ _ _ hs, Dev.tamperClears_effects u.env hb hlate⟩

end

end Sys2Proof.Machine
end

section
/-!
A tamper in SLEEP (R471), and the island, Night Watch and the mailbox as the manual has them.
-/

namespace Sys2Proof.Machine

/-! ## The word a tamper in SLEEP latches -/

theorem Dev.sleepLatch_eq (e : Env) (d : Dev) (det : Nat) : d.sleepLatch e det = det % 16 + (if det < 5 then 16 else 0) +
    256 * ((e.now - d.pwr.asleepAt) * 32768 / 4000000 % 2 ^ 24) := by
  unfold Dev.sleepLatch Dev.xtCount b2n
  congr 2
  by_cases h : det < 5
  · simp [h]
  · simp [h]

theorem Dev.sleepLatch_lt (e : Env) (d : Dev) (det : Nat) : d.sleepLatch e det < 2 ^ 32 := by
  have hb : b2n (decide (det < 5)) ≤ 1 := by
    unfold b2n
    split <;> omega
  have hdet : det % 16 < 16 := Nat.mod_lt _ (by decide)
  have hcount : d.xtCount e % 2 ^ 24 < 2 ^ 24 := Nat.mod_lt _ (by decide)
  unfold Dev.sleepLatch
  omega

/-- What a tamper in SLEEP leaves for the part that wakes. -/
def Dev.latches (e : Env) (det : Nat) (d : Dev) : Dev :=
  let d := d.put .nwSleepEvent 0 (d.sleepLatch e det)
  if det < 5 then d else { d with kr := { d.kr with conds := d.kr.conds.put det 0 } }

theorem Dev.latches_event (e : Env) (det : Nat) (d : Dev) : (d.latches e det).g .nwSleepEvent = d.sleepLatch e det := by
  have hput := Dev.g_put_of_lt d .nwSleepEvent 0 (d.sleepLatch e det) (d.sleepLatch_lt e det)
  unfold Dev.latches
  generalize d.put .nwSleepEvent 0 (d.sleepLatch e det) = x at hput ⊢
  exact iteInduction (motive := fun b : Dev => b.g .nwSleepEvent = d.sleepLatch e det) (fun _ => hput) fun _ => hput

/-! ## A wake keeps the word -/

/-- A group of a burst that is cut is new in the store. -/
def Dev.cutGroup (off : Nat) (bs : List Byte) (d : Dev) (g : Nat) : Dev :=
  ({ d with nv := { d.nv with poison := d.nv.poison.del (off / 16 + g) } }).post .nv (off + 16 * g)
    ((bs.drop (16 * g)).take 16)

theorem Dev.cutGroups_objs (off : Nat) (bs : List Byte) (d : Dev) (n : Nat) :
    ((List.range n).foldl (Dev.cutGroup off bs) d).objs = d.objs :=
  List.foldlRecOn (motive := fun b : Dev => b.objs = d.objs) _ _ rfl fun _ hb _ _ => hb

theorem Dev.burstCut_objs (d : Dev) (now : Nat) : (d.burstCut now).objs = d.objs := by
  unfold Dev.burstCut
  split
  · rfl
  next off bs start _ =>
    have hgroups (n : Nat) : ((List.range n).foldl (Dev.cutGroup off bs) { d with nv := { d.nv with running := none } }).objs =
        d.objs := Dev.cutGroups_objs off bs _ n
    exact iteInduction (motive := fun b : Dev => b.objs = d.objs) (fun _ => hgroups _) fun _ =>
      iteInduction (motive := fun b : Dev => b.objs = d.objs) (fun _ => hgroups _) fun _ =>
      iteInduction (motive := fun b : Dev => b.objs = d.objs) (fun _ => hgroups _) fun _ => hgroups _

theorem Dev.nvLose_records (d : Dev) : ∀ o, o ∉ recordObjs → ∀ i, d.nvLose.g o i = d.g o i :=
  List.foldlRecOn (motive := fun b : Dev => ∀ o, o ∉ recordObjs → ∀ i, b.g o i = d.g o i) (d.nv.queue ++ d.nv.job.toList)
    Dev.jobLost (fun _ _ _ => rfl) fun b hb j _ o ho i => ((b.jobLost_records j).objs o ho i).trans (hb o ho i)

theorem Dev.burnCut_objs (d : Dev) : d.burnCut.objs = d.objs := by
  unfold Dev.burnCut
  split
  · rfl
  · exact iteInduction (motive := fun b : Dev => b.objs = d.objs) (fun _ => rfl) fun _ => rfl

/-- Innkeeper restores the block, and Night Watch its word. -/
theorem Dev.rebooted_sleepEvent (e : Env) (d : Dev) (start : Nat) (h : d.g .nwSleepEvent < 2 ^ 32) :
    (d.rebooted e causeWake start).g .nwSleepEvent = d.g .nwSleepEvent := by
  rw [(Dev.rebooted_of_bootReads (ks := [.nwSleepEvent]) e d causeWake start (by decide)).objs .nwSleepEvent (by decide) 0,
    (Dev.bootReads_boots (ks := [.nwSleepEvent]) e (d.afterReset causeWake) causeWake start (by decide)).objs .nwSleepEvent
      (by decide) 0]
  show (d.afterReset causeWake).g .nwSleepEvent = d.g .nwSleepEvent
  rw [← Dev.g_of_objs d.burnCut_objs] at h ⊢
  exact Dev.g_put_of_lt _ .nwSleepEvent 0 _ h

/-- What a part that loses its supply has left when it powers up. -/
def State.poweredUp (s : State) : State :=
  let t := s.run fun e d => (d.burstCut e.now).nvLose
  { t with clk := Clock.reset, mem := { t.mem with pantry := [], dram := [] } }

theorem State.wakeBy_eq (s : State) (source : Nat) : s.wakeBy source =
    (s.poweredUp.run fun e d => d.rebooted e causeWake e.now).run fun _ d => d.put .pwrWakeSource 0 source := rfl

theorem State.poweredUp_g (s : State) {o : Obj} (ho : o ∉ recordObjs) : s.poweredUp.dev.g o = s.dev.g o :=
  ((s.dev.burstCut s.env.now).nvLose_records o ho 0).trans (Dev.g_of_objs (s.dev.burstCut_objs _) _ _)

theorem State.wakeBy_sleepEvent (s : State) (source : Nat) (h : s.dev.g .nwSleepEvent < 2 ^ 32) :
    (s.wakeBy source).dev.g .nwSleepEvent = s.dev.g .nwSleepEvent := by
  have hup := s.poweredUp_g (o := .nwSleepEvent) (by decide)
  rw [s.wakeBy_eq]
  generalize s.poweredUp = u at hup ⊢
  rw [← hup] at h ⊢
  rw [State.run_g, Dev.g_put_of_ne _ _ _ _ (by decide), State.run_g]
  exact Dev.rebooted_sleepEvent u.env u.dev u.env.now h

/-! ## The tamper registers as the part wakes -/

/-- The block with other fuses. -/
def Dev.fused (d : Dev) (f : Fuses) : Dev := { d with fuses := f }

section
variable {ks : List Obj} {a b c : Dev}

theorem Dev.Boots.fused (h : a.Boots ks b) (f : Fuses) : (a.fused f).Boots ks (b.fused f) :=
  ⟨h.objs, (congrArg (fun x : Dev => x.fused f) h.same :)⟩

theorem Dev.flagNow_boots (d : Dev) {o : Obj} (i bit : Nat) (ho : o ∉ ks) : d.Boots ks (d.flagNow o i bit) := by
  obtain ⟨b, hb, hsame, -⟩ := d.flagNow_same o i bit
  rw [hb, hsame]
  exact ((Dev.Boots.refl d).put o i _ ho).trans ⟨fun _ _ _ => rfl, rfl⟩

theorem Dev.tamperEvent_boots (e : Env) (d : Dev) (kind detail bit : Nat) (hks : ∀ o ∈ ks, o ∉ Obj.krEventFlags :: recordObjs) :
    d.Boots ks (d.tamperEvent e kind detail bit) :=
  ((d.ledger_records ..).boots fun o ho h => hks o ho (List.mem_cons_of_mem _ h)).trans
    (Dev.flagNow_boots _ 0 bit fun h => hks _ h List.mem_cons_self)

theorem Dev.destroyShares_boots (d : Dev) (hks : ∀ o ∈ ks, o ∉ Obj.krRootState :: recordObjs) :
    (d.fused d.destroyShares.fuses).Boots ks d.destroyShares := by
  by_cases h : d.lc = lcBlank ∨ d.lc = lcEnd
  · rw [show d.destroyShares = d from if_pos h]
    exact .refl d
  · have hwrite : d.voids.Boots ks d.voids.eraseHelper :=
      (d.voids.nvWrite_records _).boots fun o ho hr => hks o ho (List.mem_cons_of_mem _ hr)
    rw [Dev.destroyShares_rooted (fun hb => h (.inl hb)) fun he => h (.inr he)]
    have hput := hwrite.put .krRootState 0 2 fun hk => hks _ hk List.mem_cons_self
    have hfuses : (d.voids.eraseHelper.put .krRootState 0 2).fuses = d.voids.fuses := (congrArg Dev.fuses hput.same :)
    rw [hfuses]
    exact hput

theorem Dev.stopSlots_boots (d : Dev) (hks : .ptState ∉ ks ∧ .ptLeft ∉ ks) : d.Boots ks d.stopSlots :=
  .foldl d _ _ fun b k => .ite _ ((((Dev.Boots.refl b).put .ptState k 0 hks.1).put .ptLeft k 0 hks.2).later _) (.refl b)

/-- QUARANTINE, with no session to close. -/
theorem Dev.enterQuarantine_boots (e : Env) {d : Dev} (cause : Nat) (hopened : d.ses.opened = [])
    (hks : ∀ o ∈ ks, o ∉ [Obj.lcState, .ptState, .ptLeft] ++ recordObjs) : d.Boots ks (d.enterQuarantine e cause) := by
  have hout {o : Obj} (ho : o ∈ [Obj.lcState, .ptState, .ptLeft]) : o ∉ ks := fun h => hks o h (List.mem_append_left _ ho)
  have hrec : ∀ o ∈ ks, o ∉ recordObjs := fun o ho h => hks o ho (List.mem_append_right _ h)
  unfold Dev.enterQuarantine
  refine .ite _ (.refl d) ?_
  have hput := (Dev.Boots.refl d).put .lcState 0 (d.g .lcState + 128) (hout (by decide))
  generalize d.put .lcState 0 (d.g .lcState + 128) = x at hput ⊢
  have hrecord := hput.trans (((x.ledger_records e 0x31 {} 0 0 0 cause).trans
    (Dev.keepCounter_records _ 1 (1 + 256 * cause))).boots hrec)
  have hflag := hrecord.later (.flag .lcEventFlags 0 (2 ^ 1))
  dsimp only
  change d.Boots ks (((x.ledger e 0x31 {} 0 0 0 cause).keepCounter 1 (1 + 256 * cause)).flag .lcEventFlags 0 1) at hflag
  generalize ((x.ledger e 0x31 {} 0 0 0 cause).keepCounter 1 (1 + 256 * cause)).flag .lcEventFlags 0 1 = y at hflag ⊢
  have hevent : d.Boots ks (if cause ≤ 6 then (y.ledger e 0x44 {} 0 0 0 cause).flag .krEventFlags 0 4 else y) :=
    .ite _ ((hflag.trans ((y.ledger_records ..).boots hrec)).later _) hflag
  generalize (if cause ≤ 6 then (y.ledger e 0x44 {} 0 0 0 cause).flag .krEventFlags 0 4 else y) = z at hevent ⊢
  have hstop := hevent.trans (z.stopSlots_boots ⟨hout (by decide), hout (by decide)⟩)
  generalize z.stopSlots = w at hstop ⊢
  have hnone : w.ses.opened = [] := (congrArg (fun x : Dev => x.ses.opened) hstop.same :).trans hopened
  rw [Dev.closeWhere_of_none e 6 fun q hq => absurd (hnone ▸ hq) List.not_mem_nil]
  exact hstop

end

/-- What a tamper in SLEEP does once the part is awake. -/
def Dev.wokenTamper (e : Env) (det : Nat) (d : Dev) : Dev :=
  let v := d.g .nwSleepEvent
  if det < 5 then (d.tamperEvent e 0x42 v 2).destroyShares.enterQuarantine e 4
  else (d.tamperEvent e 0x41 v 1).enterQuarantine e 4

theorem State.sleepTamper_eq (s : State) (det : Nat) :
    s.sleepTamper det = ((s.run fun e d => d.latches e det).wakeBy 4).run fun e d => d.wokenTamper e det := rfl

/-- The objects a part that wakes keeps. -/
def wokenObjs : List Obj := [.suCause, .arrState, .pwrState, .nwSleepEvent, .pwrWakeSource]

theorem Dev.wokenTamper_effects (e : Env) (det : Nat) {d : Dev} (hopened : d.ses.opened = []) :
    (d.fused (d.wokenTamper e det).fuses).Boots wokenObjs (d.wokenTamper e det) ∧
    ((d.wokenTamper e det).g .lcState).testBit 7 = true := by
  unfold Dev.wokenTamper
  dsimp only
  by_cases hdet : det < 5
  · rw [if_pos hdet]
    have hevent := d.tamperEvent_boots e (ks := wokenObjs) 0x42 (d.g .nwSleepEvent) 2 (by decide)
    generalize d.tamperEvent e 0x42 (d.g .nwSleepEvent) 2 = x at hevent ⊢
    have hdestroy := x.destroyShares_boots (ks := wokenObjs) (by decide)
    generalize x.destroyShares = y at hdestroy ⊢
    have hyopened : y.ses.opened = [] := (congrArg (fun z : Dev => z.ses.opened) hdestroy.same :).trans
      ((congrArg (fun z : Dev => z.ses.opened) hevent.same :).trans hopened)
    have hq := Dev.enterQuarantine_boots (ks := wokenObjs) e 4 hyopened (by decide)
    have hsealed := y.enterQuarantine_quarantine e 4
    generalize y.enterQuarantine e 4 = z at hq hsealed ⊢
    have hfuses : z.fuses = y.fuses := (congrArg Dev.fuses hq.same :)
    rw [hfuses]
    exact ⟨((hevent.fused y.fuses).trans hdestroy).trans hq, hsealed⟩
  · rw [if_neg hdet]
    have hevent := d.tamperEvent_boots e (ks := wokenObjs) 0x41 (d.g .nwSleepEvent) 1 (by decide)
    generalize d.tamperEvent e 0x41 (d.g .nwSleepEvent) 1 = y at hevent ⊢
    have hyopened : y.ses.opened = [] := (congrArg (fun z : Dev => z.ses.opened) hevent.same :).trans hopened
    have hq := hevent.trans (Dev.enterQuarantine_boots (ks := wokenObjs) e 4 hyopened (by decide))
    have hsealed := y.enterQuarantine_quarantine e 4
    generalize y.enterQuarantine e 4 = z at hq hsealed ⊢
    have hfuses : z.fuses = d.fuses := (congrArg Dev.fuses hq.same :)
    rw [hfuses]
    exact ⟨hq, hsealed⟩

theorem Tab.eq_nil_of_find {α : Type} {t : Tab α} (h : ∀ k, t.find k = none) : t = [] := by
  cases t with
  | nil => rfl
  | cons p t =>
    obtain ⟨k, v⟩ := p
    have hfound : Tab.find ((k, v) :: t) k = some v := if_pos rfl
    exact absurd ((h k).symm.trans hfound) (by simp)

theorem State.StartsUp.opened {t : State} {cause : Nat} (h : t.StartsUp cause) : t.dev.ses.opened = [] := by
  obtain ⟨-, -, hopen, -⟩ := h
  refine Tab.eq_nil_of_find fun k => ?_
  have hk : (t.dev.ses.opened.find k).isSome = false := hopen k
  rwa [Option.isSome_eq_false_iff, Option.isNone_iff_eq_none] at hk

/-- A part that starts up goes on doing so through effects of the first step of start-up. -/
theorem State.StartsUp.of_boots {t : State} {cause : Nat} {y : Dev} (h : t.StartsUp cause)
    (hy : (t.dev.fused y.fuses).Boots wokenObjs y) : (t.run fun _ _ => y).StartsUp cause := by
  obtain ⟨hcause, hready, hopen, hrings, htakes, hslots, harrs, hpwr, hbegan, haddend⟩ := h
  obtain ⟨hobjs, hsame⟩ := hy
  have hypwr : y.pwr = t.dev.pwr := (congrArg Dev.pwr hsame :)
  have hyses : y.ses = t.dev.ses := (congrArg Dev.ses hsame :)
  have hyrings : y.rings = t.dev.rings := (congrArg Dev.rings hsame :)
  refine ⟨(hobjs .suCause (by decide) 0).trans hcause, ?_, fun k => ?_, fun r => ?_, (congrArg Dev.takes hsame :).trans htakes,
    (congrArg (fun x : Dev => x.kr.slots) hsame :).trans hslots, fun a => (hobjs .arrState (by decide) a).trans (harrs a),
    (hobjs .pwrState (by decide) 0).trans hpwr, (congrArg PowerUnit.began hypwr).trans hbegan, haddend⟩
  · show y.dictReady = false
    unfold Dev.dictReady at hready ⊢
    rw [hypwr]
    exact hready
  · show (y.ses.opened.find k).isSome = false
    rw [hyses]
    exact hopen k
  · show (y.ring r).st = .disabled
    have hr := hrings r
    unfold Dev.ring at hr ⊢
    rw [hyrings]
    exact hr

theorem State.sleepTamper_wakes (s : State) (det : Nat) : (s.sleepTamper det).StartsUp 6 ∧
    ((s.sleepTamper det).dev.g .lcState).testBit 7 = true ∧
    (s.sleepTamper det).dev.g .nwSleepEvent = s.dev.sleepLatch s.env det ∧ (s.sleepTamper det).dev.g .pwrWakeSource = 4 := by
  rw [s.sleepTamper_eq det]
  have hlatch : (s.run fun e d => d.latches e det).dev.g .nwSleepEvent = s.dev.sleepLatch s.env det := s.dev.latches_event s.env det
  generalize (s.run fun e d => d.latches e det) = t at hlatch ⊢
  have hevent := t.wakeBy_sleepEvent 4 (by rw [hlatch]; exact s.dev.sleepLatch_lt s.env det)
  have hstarts := t.wakeBy_startsUp 4
  have hsource := t.wakeBy_source (source := 4) (by decide)
  rw [hlatch] at hevent
  generalize t.wakeBy 4 = w at hevent hstarts hsource ⊢
  obtain ⟨hboots, hsealed⟩ := Dev.wokenTamper_effects w.env det hstarts.opened
  rw [State.run_eq w _ _ rfl]
  generalize w.dev.wokenTamper w.env det = y at hboots hsealed ⊢
  exact ⟨hstarts.of_boots hboots, hsealed, (hboots.objs .nwSleepEvent (by decide) 0).trans hevent,
    (hboots.objs .pwrWakeSource (by decide) 0).trans hsource⟩

/-- In SLEEP a tamper of either class wakes the part. -/
theorem tampers_wake {s : State} (hasleep : s.dev.asleep = true) {det : Nat} (hwatches : s.dev.watches det = true) :
    (det < 5 → exec (.physicalTamper det) s = .next (s.sleepTamper det)) ∧
    (4 < det → exec (.environmentalTamper det) s = .next (s.sleepTamper det)) :=
  ⟨fun hdet => if_pos ⟨hasleep, hwatches, hdet⟩, fun hdet => if_pos ⟨hasleep, hwatches, hdet⟩⟩

/-- Settles O54: an island that is held or in ERROR refuses what waited and so keeps what its failure or the tamper left;
and a part that wakes has no session that QUARANTINE would close. -/
theorem islandTestsTampersAndMailbox : Obligations.IslandTestsTampersAndMailbox := by
  intro s quarantined failed
  refine ⟨fun hs => ?_, fun hs => ?_, fun hs => ?_, fun hs hawake det => ?_, fun hasleep det hwatches => ?_⟩
  · intro u d now
    obtain ⟨hwaits, herror, hheld, hstarts⟩ := krSelftest_starts hs
    obtain ⟨hidle, hpasses⟩ := islandSelftestDone_passes hs
    exact ⟨hwaits, herror, hheld, hstarts, hidle, hpasses, fun c n hc => mailboxCommands_serve hs hc⟩
  · intro u d now due stale
    obtain ⟨hundue, hdue⟩ := periodicSelftest_starts hs
    obtain ⟨hfresh, hstale⟩ := drbgReseed_counts hs
    exact ⟨hundue, hdue, hfresh, hstale⟩
  · intro u d
    have hfailed (w : State) (h : w.dev.Failed) : failed w := ⟨h.state, h.slots, h.test, h.result, h.sealed, h.flag⟩
    obtain ⟨hidle, hfails⟩ := islandSelftestDone_fails hs
    obtain ⟨hagain, hentropy⟩ := entropyTestFailure_fails hs
    refine ⟨hidle, fun hsome => ?_, hagain, fun hserving => ?_⟩
    · obtain ⟨w, t, ht, hw, hrest⟩ := hfails hsome
      exact ⟨w, t, ht, hfailed w hw, hrest⟩
    · obtain ⟨w, t, ht, hw, hrest⟩ := hentropy hserving
      exact ⟨w, t, ht, hfailed w hw, hrest⟩
  · intro u d now recent
    obtain ⟨hblind, hphysical⟩ := physicalTamper_seals (det := det) hs hawake
    obtain ⟨hquiet, henvironmental⟩ := environmentalTamper_holds (det := det) hs hawake
    obtain ⟨hclear, hclears⟩ := tamperClear_clears (det := det) hs
    refine ⟨hblind, hphysical, hquiet, fun hwatches hdet => ?_, hclear, hclears⟩
    obtain ⟨w, t, ht, hgoes, hheld, hnoted, hfirst⟩ := henvironmental hwatches hdet
    refine ⟨w, t, ht, hgoes, hheld, hnoted, fun hnone => ?_⟩
    obtain ⟨hslots, hhold, hwaiting, hflag, hcount, hsealed⟩ := hfirst hnone
    exact ⟨hslots, hhold, hwaiting, hflag, hcount, hsealed⟩
  · intro latch woken
    have hlatch : s.dev.sleepLatch s.env det = latch := s.dev.sleepLatch_eq s.env det
    have hwoken : woken (s.sleepTamper det) := by
      obtain ⟨hstarts, hsealed, hevent, hsource⟩ := s.sleepTamper_wakes det
      exact ⟨hstarts, hsealed, hevent.trans hlatch, hsource⟩
    obtain ⟨hphysical, henvironmental⟩ := tampers_wake hasleep hwatches
    exact ⟨fun hdet => ⟨_, hphysical hdet, hwoken⟩, fun hdet => ⟨_, henvironmental hdet, hwoken⟩⟩

end Sys2Proof.Machine
end
